-- ==== Sys2Proof/Word.lean ====
section
/-! DEFINITION. The word types of the Z960 (R2, R9) and the plainest cuts of a pattern. -/

namespace Sys2Proof

/-- One byte of a memory (R2). -/
abbrev Byte := BitVec 8
/-- A 32-bit word of the instruction stream (R2). -/
abbrev W32 := BitVec 32
/-- A 64-bit register or pointer (R9, R256). -/
abbrev W64 := BitVec 64
/-- A V register or a token's DATA (R9, R179). -/
abbrev W512 := BitVec 512

/-- Bits [h:l] of a number, as `Bits(x, h, l)` of R7. -/
def bitsOf (x h l : Nat) : Nat := (x / 2 ^ l) % 2 ^ (h + 1 - l)

/-- Bit `i` of a number. -/
def bitOf (x i : Nat) : Bool := (x / 2 ^ i) % 2 == 1

/-- `SExt(x, n)` of R7, as an exact integer. -/
def sext (x n : Nat) : Int :=
  let y := x % 2 ^ n
  if n ≠ 0 ∧ 2 ^ (n - 1) ≤ y then (y : Int) - 2 ^ n else y

/-- `Wrap(x, n)` of R7, as the n-bit pattern read unsigned. -/
def wrapInt (x : Int) (n : Nat) : Nat := (x % (2 ^ n : Int)).toNat

end Sys2Proof
end

