-- ==== Sys2Proof/Config.lean ====
section
/-! DEFINITION. What the spec leaves open: free values with no body (log entries 7 to 12, 51, 57, 61, 64, 66, 70 and 87), each applied to the
operands it depends on or to the counter `State.free`. -/

namespace Sys2Proof

/-- The reply of the supervisor's firmware to SVC (R384): of the service number, the argument and the counter. -/
opaque Config.svcReply : Nat → W64 → Nat → W64

/-- Whether a read that finds a line is served from it (R287): of the counter. -/
opaque Config.lineServed : Nat → Bool

/-- Which walk-cache entry that hits is used, if any (R276): of the counter. -/
opaque Config.walkHit : Nat → Nat

/-- The hashes of root public keys in the fuses (R460). -/
opaque Config.fuseKey : Nat → BitVec 256

/-- The fused unique secret (R462). -/
opaque Config.fusedSecret : BitVec 256
/-- The message of which HMAC-SHA-256 derives an item of a device tree (R462), which the spec does not give: of the level, the
boot's index, the leaf and the item. -/
opaque Config.kdfInput : Nat → Nat → Nat → Nat → List Byte

/-- The rounded result of EXP2, LOG2 or TANH where the bounded computation of Machine/Elementary.lean does not
decide the rounding: of the operator, the format and the operand code (R208). -/
opaque Config.elementary : Nat → Nat → Nat → Nat

/-- The bank and DRAM page of a physical address in its stack, as one number (R359): the controller's interleaving. -/
opaque Config.dramKey : Nat → Nat

/-- A byte of a save slot, dump or image whose layout the spec does not give (R400, R427): of the writing and the
offset. -/
opaque Config.saveByte : Nat → Nat → Byte

/-- How many text lines beyond the one a fetch reads are fetched ahead with it (R124): of the counter. -/
opaque Config.fetchAhead : Nat → Nat

/-- Which of the ports that may carry a request carries it (R444): of the kind of request (0 memory, 1 sync, 2 token) and
of its block, object or tile. -/
opaque Config.portHash : Nat → Nat → Nat

/-- Whether another package refuses an access of this one (R445): of the counter. -/
opaque Config.peerRefuses : Nat → Bool

/-- Whether a write that a link lost had been performed at another package (R446): of the counter. -/
opaque Config.lostPerformed : Nat → Bool
/-- The value of an object of another package as its owner's operations leave it (R317): of the counter. -/
opaque Config.peerObject : Nat → BitVec 64

/-- Whether a package image that the model has no record of passes its checks (R459): of the counter. -/
opaque Config.imagePasses : Nat → Bool

/-- Whether the channel of another package is full for a token (R447): of the counter. -/
opaque Config.remoteChanFull : Nat → Bool

/-- What becomes of a write to the pool (R451): 0 it is performed; else it fails, 1 with its bytes written: of the counter. -/
opaque Config.poolWrite : Nat → Nat

/-- Whether the engine of another package has no remote-waiter record left (R318): of the counter. -/
opaque Config.remoteFull : Nat → Bool

/-- Whether the driver has asked for an elective retraining of a stack (R412), for which the spec gives no register: of the
counter. -/
opaque Config.electiveAsked : Nat → Bool

/-- The offset of the BAR2 aperture register in the management window (R450, R453), which the spec does not give; an offset
that R453 assigns is not it. -/
opaque Config.apertureOffset : Nat

/-- Whether a self-test of a bank, PE or lane fails (R395): of the counter. -/
opaque Config.selfTestFails : Nat → Bool

end Sys2Proof
end

