-- ==== Sys2Proof/Syntax.lean ====
section
/-! DEFINITION. The syntax of the Z960's table of operations and events: the operand shapes of R35, the
arguments of the events, and `Instr`, one constructor per row of spec/opcode_table.json. Slot operations carry the
raw fields of their format and the 32-bit extension they took (R33, R37). -/

namespace Sys2Proof

/-- The causes of R386. -/
inductive Cause where
  | illegalBundle | illegalOp | spaceForeign | spaceRange | misaligned | bankFormat | paramRange
  | streamHandle | streamXlate | portUnbound | portCircuit | portShape | cfgBusy | feTimeout | bindFull
  | mnState | mnRunlimit | dataLost | queueFault | pgrantDeny | software | breakpoint | streamPending
  | launchFormat | launchExtent | syncExhaust | maintOverrun | fatal
  deriving DecidableEq, Repr

/-- The code of a cause (R386). -/
def Cause.code : Cause → Nat
  | .illegalBundle => 0x01 | .illegalOp => 0x02 | .spaceForeign => 0x03 | .spaceRange => 0x04
  | .misaligned => 0x05 | .bankFormat => 0x06 | .paramRange => 0x07 | .streamHandle => 0x08
  | .streamXlate => 0x09 | .portUnbound => 0x0A | .portCircuit => 0x0B | .portShape => 0x0C
  | .cfgBusy => 0x0D | .feTimeout => 0x0E | .bindFull => 0x0F | .mnState => 0x10 | .mnRunlimit => 0x11
  | .dataLost => 0x12 | .queueFault => 0x13 | .pgrantDeny => 0x14 | .software => 0x15
  | .breakpoint => 0x16 | .streamPending => 0x17 | .launchFormat => 0x20 | .launchExtent => 0x21
  | .syncExhaust => 0x30 | .maintOverrun => 0x31 | .fatal => 0x3F

/-- Whether a cause enters the handler (the Handleable column of R386). -/
def Cause.handleable : Cause → Bool
  | .launchFormat | .launchExtent | .syncExhaust | .maintOverrun | .fatal => false
  | _ => true

/-- What TRCAUSE and TRADDR record of one trap (R381, R382). `slot` is 0 A, 1 V, 2 M, 3 B. -/
structure TrapInfo where
  cause : Cause
  sub   : Nat := 0
  slot  : Nat := 0
  whole : Bool := false
  soft  : Bool := false
  defer : Bool := false
  arg   : Nat := 0
  addr  : BitVec 64 := 0
  /-- `DATA_LOST` where R397 makes it unhandled. -/
  fatal : Bool := false
  deriving DecidableEq, Repr

/-- Where a storage error is met (R393). Numbers are context, tile, cluster, die, core and offset. -/
inductive ErrSite where
  | ctxReg (c file n : Nat)        -- a register: file 0 A, 1 V (8 times its number, and the 64-bit word), 2 M, 3 B
  | ctxState (c : Nat)             -- sticky records, snapshot registers, control registers
  | tileWord (t off : Nat)         -- a 64-bit word of a tile scratchpad
  | clusterWord (cl off : Nat)     -- a 64-bit word of a cluster scratchpad
  | array (t pe : Nat)             -- token pools, weight stores, accumulators
  | streamBuf (c h : Nat)          -- stream engine buffers
  | tlb (t : Nat)                  -- a TLB or walk-cache entry of a tile's engine, or of gallery core t - 256
  | galleryWord (g off : Nat)      -- gallery store
  | galleryPool (g i : Nat)        -- pool file
  | mergeBuf (cl : Nat)            -- merge sort buffer or a run read back
  | syncSram (d : Nat)             -- sync engine SRAM or overflow area
  | hbm (pa : Nat)                 -- a 32-byte granule
  | pool (pa : Nat)                -- poisoned or timed-out pool data (R451)
  | fetch (c : Nat)                -- instruction buffer
  | lane (unit idx : Nat)          -- mesh, bridge or UALink lane
  | queueUnit (d : Nat)            -- queue-unit or walker state
  | supervisor (d : Nat)           -- the supervisor's own SRAM
  deriving DecidableEq, Repr

/-- A link of R441, R443 and R450. -/
inductive LinkId where
  | ualink (port : Nat) | bridgeLane (lane : Nat) | bridge | pool
  deriving DecidableEq, Repr

/-- A request that reaches a stack's controller (R408): a masked write, or a read (no data). -/
structure DramReq where
  pa    : Nat
  write : Bool
  data  : List (Option Byte)
  deriving DecidableEq, Repr

/-- A request of another package (R445 to R447). A sync operation names its package, its tile and context in
`party`, and the port that brings it (R318, R446). -/
inductive PeerReq where
  | read (pkg addr len : Nat)
  | write (pkg addr : Nat) (data : List Byte)
  | sync (pkg party asid : Nat) (ptr : BitVec 64) (op : Nat) (val cmp : BitVec 64) (port : Nat)
  | token (tile ch : Nat) (val : BitVec 64)
  deriving DecidableEq, Repr

/-- A firmware image as R460 reads it: its public key, what the signature covers of header and body, the length and SVN that the
header holds, whose places the spec does not give, and its signature. `romRuns` says whether the ROM phase of R458 succeeds, `config` is the
digest R461 extends MREG1 with, `codes` those of the gallery and supervisor code objects it extends MREG2
with, in the order loaded, `leafAdvanced` whether the counter of R462 advanced, and `trained` whether the HBM phase of R458 succeeds. -/
structure FwImage where
  romRuns : Bool
  key     : List Byte
  header  : List Byte
  body    : List Byte
  len     : Nat
  svn     : Nat
  sig     : List Byte
  config  : BitVec 256
  codes   : List (BitVec 256)
  leafAdvanced : Bool
  trained : Bool
  deriving DecidableEq, Repr

/-! ### Operand shapes (R35, R36). Field names are those of R35 in lower case. -/

/-- AR with FN fixed by the row. -/
structure AR where
  rd : BitVec 6
  ra : BitVec 6
  rb : BitVec 6
  gp : BitVec 4
  deriving DecidableEq, Repr
/-- AR with FN an operand of the row. -/
structure ARn where
  rd : BitVec 6
  ra : BitVec 6
  rb : BitVec 6
  fn : BitVec 4
  gp : BitVec 4
  deriving DecidableEq, Repr
/-- AR with RB zero. -/
structure AR1 where
  rd : BitVec 6
  ra : BitVec 6
  gp : BitVec 4
  deriving DecidableEq, Repr
/-- AR with RB zero and FN an operand. -/
structure AR1n where
  rd : BitVec 6
  ra : BitVec 6
  fn : BitVec 4
  gp : BitVec 4
  deriving DecidableEq, Repr
/-- AR with only a destination. -/
structure AD where
  rd : BitVec 6
  gp : BitVec 4
  deriving DecidableEq, Repr
/-- AR with two sources, FN an operand, and no destination. -/
structure ASn where
  ra : BitVec 6
  rb : BitVec 6
  fn : BitVec 4
  gp : BitVec 4
  deriving DecidableEq, Repr
/-- AR with one source. -/
structure AS1 where
  ra : BitVec 6
  gp : BitVec 4
  deriving DecidableEq, Repr
/-- AI. -/
structure AI where
  rd  : BitVec 6
  ra  : BitVec 6
  imm : BitVec 10
  gp  : BitVec 4
  ext : Option W32 := none
  deriving DecidableEq, Repr
/-- AI with RA zero. -/
structure AI0 where
  rd  : BitVec 6
  imm : BitVec 10
  gp  : BitVec 4
  ext : Option W32 := none
  deriving DecidableEq, Repr
/-- AI of the control-register operations: one A register and the register number (R106). -/
structure ACR where
  reg : BitVec 6
  num : BitVec 10
  gp  : BitVec 4
  deriving DecidableEq, Repr
/-- AM. -/
structure AM where
  rd   : BitVec 6
  ra   : BitVec 6
  step : BitVec 6
  sz   : BitVec 2
  q    : BitVec 2
  gp   : BitVec 4
  ext  : Option W32 := none
  deriving DecidableEq, Repr
/-- AX. -/
structure AX where
  rd : BitVec 6
  ra : BitVec 6
  rb : BitVec 6
  sz : BitVec 2
  q  : BitVec 2
  gp : BitVec 4
  deriving DecidableEq, Repr
/-- AT. -/
structure AT where
  rd  : BitVec 6
  sf  : BitVec 2
  src : BitVec 9
  sel : BitVec 5
  gp  : BitVec 4
  deriving DecidableEq, Repr
/-- VR. -/
structure VR where
  vd : BitVec 9
  va : BitVec 9
  vb : BitVec 9
  vc : BitVec 9
  vm : BitVec 4
  ty : BitVec 4
  rm : BitVec 3
  sm : BitVec 1
  fn : BitVec 6
  ext : Option W32 := none
  deriving DecidableEq, Repr
/-- VL. -/
structure VL where
  vd : BitVec 9
  va : BitVec 9
  vb : BitVec 9
  ofs : BitVec 9
  vm : BitVec 4
  ty : BitVec 4
  rm : BitVec 3
  sm : BitVec 1
  step : BitVec 6
  q  : BitVec 2
  ext : Option W32 := none
  deriving DecidableEq, Repr
/-- VX. -/
structure VX where
  vd : BitVec 9
  src : BitVec 6
  lane : BitVec 5
  bc : BitVec 1
  vm : BitVec 4
  ty : BitVec 4
  deriving DecidableEq, Repr
/-- MS. -/
structure MS where
  mp : BitVec 5
  mb : BitVec 5
  sh : BitVec 4
  port : BitVec 5
  step : BitVec 6
  gp : BitVec 4
  fn : BitVec 6
  follow : BitVec 5
  imm : BitVec 16
  ext : Option W32 := none
  deriving DecidableEq, Repr
/-- MR. -/
structure MR where
  md : BitVec 5
  ma : BitVec 5
  mb : BitVec 5
  fn : BitVec 6
  gp : BitVec 4
  imm : BitVec 16
  ext : Option W32 := none
  deriving DecidableEq, Repr
/-- MR as XFERM uses it (R105). -/
structure MX where
  md : BitVec 5
  src : BitVec 6
  gp : BitVec 4
  ext : Option W32 := none
  deriving DecidableEq, Repr
/-- BJ. -/
structure BJ where
  gp : BitVec 4
  gn : BitVec 1
  ofs : BitVec 21
  ext : Option W32 := none
  deriving DecidableEq, Repr
/-- BS with only its guard. -/
structure BG where
  gp : BitVec 4
  gn : BitVec 1
  deriving DecidableEq, Repr
/-- BL of LOOP. -/
structure BL where
  lc : BitVec 2
  cnt : BitVec 12
  last : BitVec 12
  ext : Option W32 := none
  deriving DecidableEq, Repr
/-- BL of LOOPR. -/
structure BLr where
  lc : BitVec 2
  last : BitVec 12
  ext : Option W32 := none
  deriving DecidableEq, Repr
/-- BL of LOOPS: the handle stands in CNT12[3:0], or in the extension. -/
structure BLs where
  lc : BitVec 2
  hnd : BitVec 4
  last : BitVec 12
  ext : Option W32 := none
  deriving DecidableEq, Repr
/-- BL of LCI. -/
structure BLc where
  lc : BitVec 2
  cnt : BitVec 12
  ext : Option W32 := none
  deriving DecidableEq, Repr
/-- BW. -/
structure BW where
  gp : BitVec 4
  nld : BitVec 4
  nst : BitVec 4
  nstr : BitVec 4
  narr : BitVec 4
  nsync : BitVec 4
  deriving DecidableEq, Repr
/-- BS of the sync operations that return a value (R309). -/
structure BSy where
  gp : BitVec 4
  gn : BitVec 1
  va : BitVec 4
  vb : BitVec 4
  vd : BitVec 4
  imm : BitVec 1
  fn : BitVec 4
  ext : Option W32 := none
  deriving DecidableEq, Repr
/-- BS of the sync operations that return nothing. -/
structure BSn where
  gp : BitVec 4
  gn : BitVec 1
  va : BitVec 4
  vb : BitVec 4
  imm : BitVec 1
  fn : BitVec 4
  ext : Option W32 := none
  deriving DecidableEq, Repr
/-- BS with an object pointer only. -/
structure BPt where
  gp : BitVec 4
  gn : BitVec 1
  va : BitVec 4
  deriving DecidableEq, Repr
/-- BS of FENCE. -/
structure BFe where
  gp : BitVec 4
  gn : BitVec 1
  scope : BitVec 3
  deriving DecidableEq, Repr
/-- BS of BIND. -/
structure BBi where
  gp : BitVec 4
  gn : BitVec 1
  va : BitVec 4
  vb : BitVec 4
  vd : BitVec 4
  scope : BitVec 3
  deriving DecidableEq, Repr
/-- BS of ATOMCAS. -/
structure BCa where
  gp : BitVec 4
  gn : BitVec 1
  va : BitVec 4
  vb : BitVec 4
  vd : BitVec 4
  deriving DecidableEq, Repr
/-- BS of PWAIT. -/
structure BPo where
  gp : BitVec 4
  gn : BitVec 1
  port : BitVec 4
  dir : BitVec 1
  deriving DecidableEq, Repr
/-- BS of EVWAIT. -/
structure BMa where
  gp : BitVec 4
  gn : BitVec 1
  mask : BitVec 8
  deriving DecidableEq, Repr
/-- BS with a 9-bit number in FN. -/
structure BN where
  gp : BitVec 4
  gn : BitVec 1
  n  : BitVec 9
  deriving DecidableEq, Repr
/-- BS with a 9-bit number in FN or the extension (YIELD, CALWAIT). -/
structure BNx where
  gp : BitVec 4
  gn : BitVec 1
  n  : BitVec 9
  ext : Option W32 := none
  deriving DecidableEq, Repr
/-- BS of ERET. -/
structure BEr where
  gp : BitVec 4
  gn : BitVec 1
  skip : BitVec 1
  deriving DecidableEq, Repr
/-- BS of SVC. -/
structure BSv where
  gp : BitVec 4
  gn : BitVec 1
  va : BitVec 4
  vd : BitVec 4
  n  : BitVec 9
  deriving DecidableEq, Repr
/-- BS of PLOG and VMLOG. -/
structure BLg where
  gp : BitVec 4
  gn : BitVec 1
  va : BitVec 4
  vb : BitVec 4
  vd : BitVec 4
  tt : BitVec 4
  deriving DecidableEq, Repr
/-- BX. -/
structure BX where
  dk : BitVec 2
  dst : BitVec 4
  sf : BitVec 1
  src : BitVec 9
  ty : BitVec 4
  deriving DecidableEq, Repr

/-- The table of operations and events, one constructor per row of spec/opcode_table.json: the slot operations with
their fields, the events that carry data, then what has neither. The unit an event happens to stands in `State.cur`,
`State.unit` and `State.sub`, as the context a slot operation issues from stands in `State.cur`. -/
inductive Instr where
  /-- ADD (R95). -/
  | add (f : AR)
  /-- SUB (R95). -/
  | sub (f : AR)
  /-- AND (R95). -/
  | and (f : AR)
  /-- OR (R95). -/
  | or (f : AR)
  /-- XOR (R95). -/
  | xor (f : AR)
  /-- ANDN (R95). -/
  | andn (f : AR)
  /-- SHL (R95). -/
  | shl (f : AR)
  /-- SHR (R95). -/
  | shr (f : AR)
  /-- SRA (R95). -/
  | sra (f : AR)
  /-- MIN (R95). -/
  | min (f : AR)
  /-- MINU (R95). -/
  | minu (f : AR)
  /-- MAX (R95). -/
  | max (f : AR)
  /-- MAXU (R95). -/
  | maxu (f : AR)
  /-- ABS (R95). -/
  | abs (f : AR1)
  /-- CLZ (R95). -/
  | clz (f : AR1)
  /-- POPC (R95). -/
  | popc (f : AR1)
  /-- CMP (R95). -/
  | cmp (f : ARn)
  /-- ADDI (R97). -/
  | addi (f : AI)
  /-- ANDI (R97). -/
  | andi (f : AI)
  /-- ORI (R97). -/
  | ori (f : AI)
  /-- XORI (R97). -/
  | xori (f : AI)
  /-- SHLI (R97). -/
  | shli (f : AI)
  /-- SHRI (R97). -/
  | shri (f : AI)
  /-- SRAI (R97). -/
  | srai (f : AI)
  /-- MOVI (R97). -/
  | movi (f : AI0)
  /-- MOVHI (R97). -/
  | movhi (f : AI)
  /-- MUL (R95). -/
  | mul (f : AR)
  /-- MULH (R95). -/
  | mulh (f : AR)
  /-- MULHU (R95). -/
  | mulhu (f : AR)
  /-- MULHSU (R95). -/
  | mulhsu (f : AR)
  /-- MADD (R95). -/
  | madd (f : AR)
  /-- SEL (R95). -/
  | sel (f : AR)
  /-- BFX (R96). -/
  | bfx (f : AR)
  /-- BFXS (R96). -/
  | bfxs (f : AR)
  /-- BFI (R96). -/
  | bfi (f : AR)
  /-- LEA (R95). -/
  | lea (f : ARn)
  /-- LD (R98). -/
  | ld (f : AM)
  /-- LDS (R98). -/
  | lds (f : AM)
  /-- ST (R98). -/
  | st (f : AM)
  /-- LDX (R99). -/
  | ldx (f : AX)
  /-- LDXS (R99). -/
  | ldxs (f : AX)
  /-- STX (R99). -/
  | stx (f : AX)
  /-- ASPQ (R263). -/
  | aspq (f : AR)
  /-- ASPC (R264). -/
  | aspc (f : AR1n)
  /-- XFERA (R103). -/
  | xfera (f : AT)
  /-- RDCR (R106). -/
  | rdcr (f : ACR)
  /-- WRCR (R106). -/
  | wrcr (f : ACR)
  /-- SETCR (R106). -/
  | setcr (f : ACR)
  /-- CLRCR (R106). -/
  | clrcr (f : ACR)
  /-- ADDPC (R97). -/
  | addpc (f : AI0)
  /-- MULI (R97). -/
  | muli (f : AI)
  /-- EXT (R95). -/
  | ext (f : AR1n)
  /-- GREQ (R356). -/
  | greq (f : ARn)
  /-- GWR (R356). -/
  | gwr (f : ARn)
  /-- GWRM (R356). -/
  | gwrm (f : ARn)
  /-- GTAGW_T (R357). -/
  | gtagwT (f : AR1)
  /-- GTAGW_C (R357). -/
  | gtagwC (f : AR1)
  /-- GTAGQ (R357). -/
  | gtagq (f : AR1)
  /-- GBIN (R359). -/
  | gbin (f : AR)
  /-- GBDRAIN (R359). -/
  | gbdrain (f : AD)
  /-- GBDRAIN_CLR (R359). -/
  | gbdrainClr (f : AD)
  /-- GDEDUP (R360). -/
  | gdedup (f : AR1)
  /-- GDEDUP_CLR (R360). -/
  | gdedupClr (f : AD)
  /-- GPOOL (R361). -/
  | gpool (f : ASn)
  /-- GPRND (R362). -/
  | gprnd (f : ASn)
  /-- GHAND (R363). -/
  | ghand (f : ARn)
  /-- GFENCE (R358). -/
  | gfence (f : AS1)
  /-- BR (R113). -/
  | br (f : BJ)
  /-- CALL (R113). -/
  | call (f : BJ)
  /-- RET (R113). -/
  | ret (f : BG)
  /-- BRX (R113). -/
  | brx (f : BG)
  /-- LOOP (R115). -/
  | loop (f : BL)
  /-- LOOPR (R115). -/
  | loopr (f : BLr)
  /-- LOOPS (R115). -/
  | loops (f : BLs)
  /-- WAITC (R119). -/
  | waitc (f : BW)
  /-- WAIT (R314). -/
  | wait (f : BSy)
  /-- FENCE (R315). -/
  | fence (f : BFe)
  /-- ACQUIRE (R312). -/
  | acquire (f : BSy)
  /-- ACQUIRE_X (R312). -/
  | acquireX (f : BPt)
  /-- RELEASE (R313). -/
  | release (f : BSn)
  /-- RELEASE_X (R313). -/
  | releaseX (f : BPt)
  /-- BIND (R310). -/
  | bind (f : BBi)
  /-- UNBIND (R311). -/
  | unbind (f : BPt)
  /-- UNBIND_ALL (R311). -/
  | unbindAll (f : BG)
  /-- ATOM (R316). -/
  | atom (f : BSy)
  /-- ATOMNR (R316). -/
  | atomnr (f : BSn)
  /-- ATOMCAS (R316). -/
  | atomcas (f : BCa)
  /-- JOIN (R120). -/
  | join (f : BG)
  /-- PWAIT (R120). -/
  | pwait (f : BPo)
  /-- EVWAIT (R120). -/
  | evwait (f : BMa)
  /-- YIELD (R122). -/
  | yield (f : BNx)
  /-- EXIT (R123). -/
  | exit (f : BN)
  /-- TRAP (R384). -/
  | trap (f : BN)
  /-- ERET (R385). -/
  | eret (f : BEr)
  /-- SVC (R384). -/
  | svc (f : BSv)
  /-- BKPT (R384). -/
  | bkpt (f : BN)
  /-- PLOG (R118). -/
  | plog (f : BLg)
  /-- VMLOG (R118). -/
  | vmlog (f : BLg)
  /-- LCI (R117). -/
  | lci (f : BLc)
  /-- XFERB (R104). -/
  | xferb (f : BX)
  /-- STKCLR (R51). -/
  | stkclr (f : BG)
  /-- IFENCE (R124). -/
  | ifence (f : BG)
  /-- CALWAIT (R410). -/
  | calwait (f : BNx)
  /-- VADD (R130). -/
  | vadd (f : VR)
  /-- VSUB (R130). -/
  | vsub (f : VR)
  /-- VMUL (R130). -/
  | vmul (f : VR)
  /-- VFMA (R130). -/
  | vfma (f : VR)
  /-- VFMS (R130). -/
  | vfms (f : VR)
  /-- VFNMA (R130). -/
  | vfnma (f : VR)
  /-- VMIN (R130). -/
  | vmin (f : VR)
  /-- VMAX (R130). -/
  | vmax (f : VR)
  /-- VABS (R130). -/
  | vabs (f : VR)
  /-- VNEG (R130). -/
  | vneg (f : VR)
  /-- VAND (R130). -/
  | vand (f : VR)
  /-- VOR (R130). -/
  | vor (f : VR)
  /-- VXOR (R130). -/
  | vxor (f : VR)
  /-- VANDN (R130). -/
  | vandn (f : VR)
  /-- VSHL (R130). -/
  | vshl (f : VR)
  /-- VSHR (R130). -/
  | vshr (f : VR)
  /-- VSRA (R130). -/
  | vsra (f : VR)
  /-- VCMP (R132). -/
  | vcmp (f : VR)
  /-- VSEL (R132). -/
  | vsel (f : VR)
  /-- VMOV (R132). -/
  | vmov (f : VR)
  /-- VBCST (R132). -/
  | vbcst (f : VR)
  /-- VPERM (R132). -/
  | vperm (f : VR)
  /-- VSLIDE (R132). -/
  | vslide (f : VR)
  /-- VZIP (R132). -/
  | vzip (f : VR)
  /-- VUNZIP (R132). -/
  | vunzip (f : VR)
  /-- VCVT (R133). -/
  | vcvt (f : VR)
  /-- VPACK (R133). -/
  | vpack (f : VR)
  /-- VWIDEN (R133). -/
  | vwiden (f : VR)
  /-- VQNT (R135). -/
  | vqnt (f : VR)
  /-- VDQNT (R136). -/
  | vdqnt (f : VR)
  /-- VAMAX (R134). -/
  | vamax (f : VR)
  /-- VSCALE (R130). -/
  | vscale (f : VR)
  /-- VRSUM (R137). -/
  | vrsum (f : VR)
  /-- VRMAX (R137). -/
  | vrmax (f : VR)
  /-- VRMIN (R137). -/
  | vrmin (f : VR)
  /-- VRDOT (R137). -/
  | vrdot (f : VR)
  /-- VLACC (R138). -/
  | vlacc (f : VR)
  /-- VLARND (R139). -/
  | vlarnd (f : VR)
  /-- VCLASS (R131). -/
  | vclass (f : VR)
  /-- VPOPC (R130). -/
  | vpopc (f : VR)
  /-- VCLZ (R130). -/
  | vclz (f : VR)
  /-- VMADDI (R130). -/
  | vmaddi (f : VR)
  /-- VABSD (R130). -/
  | vabsd (f : VR)
  /-- VRCP (R130). -/
  | vrcp (f : VR)
  /-- VRSQ (R130). -/
  | vrsq (f : VR)
  /-- VLD (R140). -/
  | vld (f : VL)
  /-- VST (R140). -/
  | vst (f : VL)
  /-- VLDX (R140). -/
  | vldx (f : VL)
  /-- VSTX (R140). -/
  | vstx (f : VL)
  /-- VLDB (R140). -/
  | vldb (f : VL)
  /-- VLSCALE (R147). -/
  | vlscale (f : VR)
  /-- XFERV (R145). -/
  | xferv (f : VX)
  /-- VIOTA (R132). -/
  | viota (f : VR)
  /-- VCPSGN (R130). -/
  | vcpsgn (f : VR)
  /-- VRINT (R131). -/
  | vrint (f : VR)
  /-- MSET (R220). -/
  | mset (f : MR)
  /-- MSET_HI (R220). -/
  | msetHi (f : MR)
  /-- MADD_M (R220). -/
  | maddM (f : MR)
  /-- MMOV (R220). -/
  | mmov (f : MR)
  /-- XFERM (R105). -/
  | xferm (f : MX)
  /-- SAFF (R227). -/
  | saff (f : MS)
  /-- SAFFW (R227). -/
  | saffw (f : MS)
  /-- SIND (R228). -/
  | sind (f : MS)
  /-- SINDW (R228). -/
  | sindw (f : MS)
  /-- SREC (R229). -/
  | srec (f : MS)
  /-- SWIN (R230). -/
  | swin (f : MS)
  /-- SMCAST (R231). -/
  | smcast (f : MS)
  /-- TEMIT (R234). -/
  | temit (f : MS)
  /-- TCONS (R235). -/
  | tcons (f : MS)
  /-- SCOPY (R232). -/
  | scopy (f : MS)
  /-- SFILL (R232). -/
  | sfill (f : MS)
  /-- SCANCEL (R242). -/
  | scancel (f : MS)
  /-- SBAR (R240). -/
  | sbar (f : MR)
  /-- SWLOAD (R237). -/
  | swload (f : MR)
  /-- SWACT (R237). -/
  | swact (f : MR)
  /-- CFGLOAD (R245). -/
  | cfgload (f : MR)
  /-- CFGACT (R246). -/
  | cfgact (f : MR)
  /-- AFIRE (R247). -/
  | afire (f : MR)
  /-- AFLUSH (R249). -/
  | aflush (f : MR)
  /-- ADEPTH (R250). -/
  | adepth (f : MR)
  /-- MNOPEN (R334). -/
  | mnopen (f : MR)
  /-- MNFEED (R335). -/
  | mnfeed (f : MS)
  /-- MNFLUSH (R338). -/
  | mnflush (f : MR)
  /-- MNDRAIN (R340). -/
  | mndrain (f : MS)
  /-- MNCLOSE (R343). -/
  | mnclose (f : MR)
  /-- MNCLOSE_A (R343). -/
  | mncloseA (f : MR)
  /-- NSDOT (R370). -/
  | nsdot (f : MS)
  /-- LAUNCH (R251). -/
  | launch (f : MR)
  /-- SPAWN (R252). -/
  | spawn (f : MR)
  /-- JINIT (R253). -/
  | jinit (f : MR)
  /-- PGREQ (R416). -/
  | pgreq (f : MR)
  /-- PGREQ_REL (R416). -/
  | pgreqRel (f : MR)
  /-- SPREF (R227). -/
  | spref (f : MS)
  /-- GRECV (R364). -/
  | grecv (f : MS)
  /-- SDUAL (R281). -/
  | sdual (f : MS)
  /-- SSTAT (R244). -/
  | sstat (f : MR)
  /-- LAPIN (R429). -/
  | lapin (f : MR)
  /-- LAPIN_REL (R429). -/
  | lapinRel (f : MR)
  /-- PUBLISH (R452). -/
  | publish (f : MR)
  /-- CFGPREF (R245). -/
  | cfgpref (f : MR)
  /-- TRAP_ENTRY (R382). -/
  | trapEntry (t : TrapInfo)
  /-- SFPEND_WRITE (R390). -/
  | sfpendWrite (v : W64)
  /-- JOB_START (R351). -/
  | jobStart (v : W64)
  /-- DRAM_REQUEST (R408). -/
  | dramRequest (r : DramReq)
  /-- CORRECTABLE_ERROR (R394). -/
  | correctableError (u : ErrSite)
  /-- UNCORRECTABLE_ERROR (R397). -/
  | uncorrectableError (u : ErrSite)
  /-- FATAL_ERROR (R399). -/
  | fatalError (kind d idx : Nat)
  /-- LINK_DOWN (R446). -/
  | linkDown (l : LinkId)
  /-- PEER_ACCESS (R445). -/
  | peerAccess (r : PeerReq)
  /-- HOST_WINDOW_WRITE (R301). -/
  | hostWindowWrite (pa : Nat) (data : List Byte)
  /-- TLBINV_ASID (R277). -/
  | tlbinvAsid (asid : Nat)
  /-- TLBINV_RANGE (R277). -/
  | tlbinvRange (asid npage : Nat)
  /-- OWNSET (R456). -/
  | ownset (v : W64)
  /-- MAILBOX_EXTEND (R461). -/
  | mailboxExtend (r : Nat) (digest : BitVec 256)
  /-- MAILBOX_QUOTE (R462). -/
  | mailboxQuote (nonce : BitVec 256)
  /-- MGMT_REG_WRITE (R453). -/
  | mgmtRegWrite (off : Nat) (v : W64)
  /-- BRINGUP (R458). -/
  | bringup (img : FwImage)
  /-- LINK_UP (R446). -/
  | linkUp (l : LinkId)
  /-- QCMD_INVALID_COMMAND (R171). -/
  | qcmdInvalidCommand (cmd : Nat)
  /-- PCTL_INVALID_COMMAND (R434). -/
  | pctlInvalidCommand (cmd : Nat)
  /-- BUNDLE_ISSUE (R44). -/
  | bundleIssue
  /-- RESULT_ARRIVES (R18). -/
  | resultArrives
  /-- YIELD_END (R122). -/
  | yieldEnd
  /-- FE_TIMEOUT (R321). -/
  | feTimeout
  /-- STEP_ENTRY (R24). -/
  | stepEntry
  /-- STEP_RETIRE (R166). -/
  | stepRetire
  /-- STEP_PARK (R165). -/
  | stepPark
  /-- QUEUE_READER_COPY (R172). -/
  | queueReaderCopy
  /-- LAUNCH_RECORD_CHECK (R152). -/
  | launchRecordCheck
  /-- QUANTUM_GRANT (R174). -/
  | quantumGrant
  /-- STEP_PLACE (R154). -/
  | stepPlace
  /-- TEAM_RELEASE (R166). -/
  | teamRelease
  /-- LAUNCH_COMPLETE (R167). -/
  | launchComplete
  /-- QCMD_ENABLE (R171). -/
  | qcmdEnable
  /-- QCMD_HALT (R171). -/
  | qcmdHalt
  /-- QCMD_RESUME (R171). -/
  | qcmdResume
  /-- QCMD_DESTROY (R173). -/
  | qcmdDestroy
  /-- QCMD_DOORBELL (R171). -/
  | qcmdDoorbell
  /-- QUEUE_DESTROYED (R173). -/
  | queueDestroyed
  /-- LAUNCH_ENQUEUE (R251). -/
  | launchEnqueue
  /-- STREAM_START (R215). -/
  | streamStart
  /-- ELEMENT_BLOCK_TRANSFER (R224). -/
  | elementBlockTransfer
  /-- STREAM_COMPLETE (R217). -/
  | streamComplete
  /-- TEMIT_SEND (R234). -/
  | temitSend
  /-- CIRCUIT_TRANSFER (R238). -/
  | circuitTransfer
  /-- FOLLOW_ON_ARM (R248). -/
  | followOnArm
  /-- PUBLISH_COUNTER_WRITE (R452). -/
  | publishCounterWrite
  /-- OPERATOR_FIRE (R183). -/
  | operatorFire
  /-- TOKEN_ARRIVE (R182). -/
  | tokenArrive
  /-- RUN_START (R186). -/
  | runStart
  /-- PE_SWITCH (R198). -/
  | peSwitch
  /-- CFG_IMAGE_LANDED (R195). -/
  | cfgImageLanded
  /-- EDGE_DEPTH_CHANGE (R200). -/
  | edgeDepthChange
  /-- AFLUSH_NUL_ENTER (R249). -/
  | aflushNulEnter
  /-- SAVE_DRAIN_QUIET (R423). -/
  | saveDrainQuiet
  /-- MN_FEED_ARRIVE (R336). -/
  | mnFeedArrive
  /-- MN_READY (R338). -/
  | mnReady
  /-- MN_DRAIN_RUN (R342). -/
  | mnDrainRun
  /-- MN_AUTOCLOSE (R345). -/
  | mnAutoclose
  /-- SYNC_OPERATION (R299). -/
  | syncOperation
  /-- REMOTE_WAITER_RETRY (R318). -/
  | remoteWaiterRetry
  /-- JOB_COMPLETE (R352). -/
  | jobComplete
  /-- PACKET_COMPLETE (R354). -/
  | packetComplete
  /-- HANDOFF_TAKE (R363). -/
  | handoffTake
  /-- RISER_START (R405). -/
  | riserStart
  /-- LANDING_START (R402). -/
  | landingStart
  /-- LANDING_END (R402). -/
  | landingEnd
  /-- MAINT_OVERRUN (R411). -/
  | maintOverrun
  /-- FREEZE_END (R394). -/
  | freezeEnd
  /-- PGRANT_ARRIVE (R415). -/
  | pgrantArrive
  /-- PREEMPT_SAVE (R423). -/
  | preemptSave
  /-- SAVE_COMPLETE (R423). -/
  | saveComplete
  /-- SAVE_DEADLINE_EXPIRE (R430). -/
  | saveDeadlineExpire
  /-- STEP_RESTORE (R433). -/
  | stepRestore
  /-- SHOOTDOWN_DONE (R277). -/
  | shootdownDone
  /-- LINK_LOSS_TIMEOUT (R446). -/
  | linkLossTimeout
  /-- TLBINV_ALL (R277). -/
  | tlbinvAll
  /-- TLBINV_KIND3 (R277). -/
  | tlbinvKind3
  /-- PCTL_CONTEXT (R434). -/
  | pctlContext
  /-- PCTL_QUEUE (R434). -/
  | pctlQueue
  /-- PCTL_PACKAGE_SAVE (R434). -/
  | pctlPackageSave
  /-- SYNCHOST_ADD (R456). -/
  | synchostAdd
  /-- SYNCHOST_AND (R456). -/
  | synchostAnd
  /-- SYNCHOST_OR (R456). -/
  | synchostOr
  /-- SYNCHOST_XOR (R456). -/
  | synchostXor
  /-- SYNCHOST_MINU (R456). -/
  | synchostMinu
  /-- SYNCHOST_MAXU (R456). -/
  | synchostMaxu
  /-- SYNCHOST_MINI (R456). -/
  | synchostMini
  /-- SYNCHOST_MAXI (R456). -/
  | synchostMaxi
  /-- SYNCHOST_SWAP (R456). -/
  | synchostSwap
  /-- SYNCHOST_READ (R456). -/
  | synchostRead
  /-- PACKAGE_RESUME (R459). -/
  | packageResume
  /-- DEBUG_RESUME (R384). -/
  | debugResume
  /-- MAILBOX_COMMIT (R460). -/
  | mailboxCommit
  /-- MAILBOX_EXPORT_KEY (R462). -/
  | mailboxExportKey
  /-- COLD_RESET (R457). -/
  | coldReset
  /-- WARM_RESET (R457). -/
  | warmReset
  /-- ANOP (R50). -/
  | anop
  /-- BNOP (R50). -/
  | bnop
  /-- VNOP (R50). -/
  | vnop
  /-- MNOP (R50). -/
  | mnop
  /-- PARKED_SYNC_COMPLETE (R308). -/
  | parkedSyncComplete
  /-- SYNCHOST_REFUSED (R456). -/
  | synchostRefused
  /-- ENGINE_PAUSE_END (R393). -/
  | enginePauseEnd
  deriving DecidableEq, Repr

/-- The four issue positions (R9). -/
inductive Slot where
  | a | v | m | b
  deriving DecidableEq, Repr

/-- The slot of an operation; an event has none. -/
def Instr.slot : Instr → Option Slot
  | .anop => some .a
  | .add _ => some .a
  | .sub _ => some .a
  | .and _ => some .a
  | .or _ => some .a
  | .xor _ => some .a
  | .andn _ => some .a
  | .shl _ => some .a
  | .shr _ => some .a
  | .sra _ => some .a
  | .min _ => some .a
  | .minu _ => some .a
  | .max _ => some .a
  | .maxu _ => some .a
  | .abs _ => some .a
  | .clz _ => some .a
  | .popc _ => some .a
  | .cmp _ => some .a
  | .addi _ => some .a
  | .andi _ => some .a
  | .ori _ => some .a
  | .xori _ => some .a
  | .shli _ => some .a
  | .shri _ => some .a
  | .srai _ => some .a
  | .movi _ => some .a
  | .movhi _ => some .a
  | .mul _ => some .a
  | .mulh _ => some .a
  | .mulhu _ => some .a
  | .mulhsu _ => some .a
  | .madd _ => some .a
  | .sel _ => some .a
  | .bfx _ => some .a
  | .bfxs _ => some .a
  | .bfi _ => some .a
  | .lea _ => some .a
  | .ld _ => some .a
  | .lds _ => some .a
  | .st _ => some .a
  | .ldx _ => some .a
  | .ldxs _ => some .a
  | .stx _ => some .a
  | .aspq _ => some .a
  | .aspc _ => some .a
  | .xfera _ => some .a
  | .rdcr _ => some .a
  | .wrcr _ => some .a
  | .setcr _ => some .a
  | .clrcr _ => some .a
  | .addpc _ => some .a
  | .muli _ => some .a
  | .ext _ => some .a
  | .greq _ => some .a
  | .gwr _ => some .a
  | .gwrm _ => some .a
  | .gtagwT _ => some .a
  | .gtagwC _ => some .a
  | .gtagq _ => some .a
  | .gbin _ => some .a
  | .gbdrain _ => some .a
  | .gbdrainClr _ => some .a
  | .gdedup _ => some .a
  | .gdedupClr _ => some .a
  | .gpool _ => some .a
  | .gprnd _ => some .a
  | .ghand _ => some .a
  | .gfence _ => some .a
  | .bnop => some .b
  | .br _ => some .b
  | .call _ => some .b
  | .ret _ => some .b
  | .brx _ => some .b
  | .loop _ => some .b
  | .loopr _ => some .b
  | .loops _ => some .b
  | .waitc _ => some .b
  | .wait _ => some .b
  | .fence _ => some .b
  | .acquire _ => some .b
  | .acquireX _ => some .b
  | .release _ => some .b
  | .releaseX _ => some .b
  | .bind _ => some .b
  | .unbind _ => some .b
  | .unbindAll _ => some .b
  | .atom _ => some .b
  | .atomnr _ => some .b
  | .atomcas _ => some .b
  | .join _ => some .b
  | .pwait _ => some .b
  | .evwait _ => some .b
  | .yield _ => some .b
  | .exit _ => some .b
  | .trap _ => some .b
  | .eret _ => some .b
  | .svc _ => some .b
  | .bkpt _ => some .b
  | .plog _ => some .b
  | .vmlog _ => some .b
  | .lci _ => some .b
  | .xferb _ => some .b
  | .stkclr _ => some .b
  | .ifence _ => some .b
  | .calwait _ => some .b
  | .vnop => some .v
  | .vadd _ => some .v
  | .vsub _ => some .v
  | .vmul _ => some .v
  | .vfma _ => some .v
  | .vfms _ => some .v
  | .vfnma _ => some .v
  | .vmin _ => some .v
  | .vmax _ => some .v
  | .vabs _ => some .v
  | .vneg _ => some .v
  | .vand _ => some .v
  | .vor _ => some .v
  | .vxor _ => some .v
  | .vandn _ => some .v
  | .vshl _ => some .v
  | .vshr _ => some .v
  | .vsra _ => some .v
  | .vcmp _ => some .v
  | .vsel _ => some .v
  | .vmov _ => some .v
  | .vbcst _ => some .v
  | .vperm _ => some .v
  | .vslide _ => some .v
  | .vzip _ => some .v
  | .vunzip _ => some .v
  | .vcvt _ => some .v
  | .vpack _ => some .v
  | .vwiden _ => some .v
  | .vqnt _ => some .v
  | .vdqnt _ => some .v
  | .vamax _ => some .v
  | .vscale _ => some .v
  | .vrsum _ => some .v
  | .vrmax _ => some .v
  | .vrmin _ => some .v
  | .vrdot _ => some .v
  | .vlacc _ => some .v
  | .vlarnd _ => some .v
  | .vclass _ => some .v
  | .vpopc _ => some .v
  | .vclz _ => some .v
  | .vmaddi _ => some .v
  | .vabsd _ => some .v
  | .vrcp _ => some .v
  | .vrsq _ => some .v
  | .vld _ => some .v
  | .vst _ => some .v
  | .vldx _ => some .v
  | .vstx _ => some .v
  | .vldb _ => some .v
  | .vlscale _ => some .v
  | .xferv _ => some .v
  | .viota _ => some .v
  | .vcpsgn _ => some .v
  | .vrint _ => some .v
  | .mnop => some .m
  | .mset _ => some .m
  | .msetHi _ => some .m
  | .maddM _ => some .m
  | .mmov _ => some .m
  | .xferm _ => some .m
  | .saff _ => some .m
  | .saffw _ => some .m
  | .sind _ => some .m
  | .sindw _ => some .m
  | .srec _ => some .m
  | .swin _ => some .m
  | .smcast _ => some .m
  | .temit _ => some .m
  | .tcons _ => some .m
  | .scopy _ => some .m
  | .sfill _ => some .m
  | .scancel _ => some .m
  | .sbar _ => some .m
  | .swload _ => some .m
  | .swact _ => some .m
  | .cfgload _ => some .m
  | .cfgact _ => some .m
  | .afire _ => some .m
  | .aflush _ => some .m
  | .adepth _ => some .m
  | .mnopen _ => some .m
  | .mnfeed _ => some .m
  | .mnflush _ => some .m
  | .mndrain _ => some .m
  | .mnclose _ => some .m
  | .mncloseA _ => some .m
  | .nsdot _ => some .m
  | .launch _ => some .m
  | .spawn _ => some .m
  | .jinit _ => some .m
  | .pgreq _ => some .m
  | .pgreqRel _ => some .m
  | .spref _ => some .m
  | .grecv _ => some .m
  | .sdual _ => some .m
  | .sstat _ => some .m
  | .lapin _ => some .m
  | .lapinRel _ => some .m
  | .publish _ => some .m
  | .cfgpref _ => some .m
  | _ => none

end Sys2Proof
end

