-- ==== Sys2Proof/WellFormed.lean ====
section
/-! DEFINITION. Well-formed slot operations: the field checks of step 2 of R52 that the word alone decides
(R35 to R40, R93, R126, R129, R221, R222 and the field rules of each entry). An event is always well formed. -/

namespace Sys2Proof

/-- Type codes of R39. -/
def tyF32 : Nat := 0
def tyF16 : Nat := 1
def tyB16 : Nat := 2
def tyE4 : Nat := 3
def tyE5 : Nat := 4
def tyT8 : Nat := 5
def tyI8 : Nat := 6
def tyI16 : Nat := 7
def tyI32 : Nat := 8
def tyI64 : Nat := 9
def tyW8 : Nat := 10
def tyW16 : Nat := 11
def tyW32 : Nat := 12
def tyW64 : Nat := 13
def tyLA : Nat := 14

/-- Width in bits of a type code (R39, R60, R64, R66, R81); 0 for the code that names no type. -/
def tyWidth (t : Nat) : Nat :=
  match t with
  | 0 => 32 | 1 => 16 | 2 => 16 | 3 => 8 | 4 => 8 | 5 => 8 | 6 => 8 | 7 => 16 | 8 => 32 | 9 => 64
  | 10 => 8 | 11 => 16 | 12 => 32 | 13 => 64 | 14 => 128 | _ => 0

/-- FP of R129: F32, F16 and B16. -/
def isFP (t : Nat) : Bool := t ≤ 2
/-- The float formats that have bits of R60. -/
def isFloat (t : Nat) : Bool := t ≤ 4
/-- INT of R129: I8 to I64 and W8 to W64. -/
def isINT (t : Nat) : Bool := 6 ≤ t && t ≤ 13
/-- The signed types I8 to I64. -/
def isSigned (t : Nat) : Bool := 6 ≤ t && t ≤ 9
/-- BIT of R129: every type except LA. -/
def isBIT (t : Nat) : Bool := t ≤ 13
/-- Block element types of R86: E4, E5, T8 and I8. -/
def isBlk (t : Nat) : Bool := 3 ≤ t && t ≤ 6

/-- Rounding code allowed where an entry rounds (R40). -/
def rmOk (rm : BitVec 3) : Bool := rm.toNat ≤ 4
/-- SM = 1 only where the format written is E4M3 (R129). -/
def smOk (sm : BitVec 1) (written : Nat) : Bool := sm == 0 || written == tyE4
/-- An extension that must be zero (R105, R115, R220). -/
def extZero (e : Option W32) : Bool := e == none || e == some 0
/-- A run of k registers that ends within the file (R36, R128). -/
def runOk (first k size : Nat) : Bool := first + k ≤ size

/-- Unused register fields are zero, and VB is zero when the extension replaces it (R126, R37). -/
def vrRegs (va vb vc : Bool) (f : VR) : Bool :=
  (va || f.va == 0) && (vb || f.vb == 0) && (vc || f.vc == 0) && (f.ext == none || (vb && f.vb == 0))

/-- A VR operation that does not round or saturate (R40). -/
def vrPlain (f : VR) : Bool := f.rm == 0 && f.sm == 0

/-- FP types round, INT types do not (R130, R131). -/
def vrRound (f : VR) : Bool := (if isFP f.ty.toNat then rmOk f.rm else f.rm == 0) && f.sm == 0

/-- The checks of R133 on a conversion's types and part selector. `k` is 0 VCVT, 1 VWIDEN, 2 VPACK. -/
def cvtOk (k : Nat) (f : VR) : Bool :=
  let s := f.fn.toNat % 16
  let q := f.fn.toNat / 16
  let wd := tyWidth f.ty.toNat
  let ws := tyWidth s
  isBIT f.ty.toNat && isBIT s && rmOk f.rm && smOk f.sm f.ty.toNat && vrRegs true false false f &&
  (match k with
   | 0 => q == 0
   | 1 => ws < wd && q < wd / ws
   | _ => wd < ws && q < ws / wd)

/-- Registers that hold the 64 source elements of VQNT (R135) or the 128 of VAMAX (R134). -/
def vqntRun (src : Nat) : Nat := if src == tyF32 then 4 else 2
def vamaxRun (ty : Nat) : Nat := if ty == tyF32 then 8 else 4

/-- Qualifier codes of R36. -/
def qLoad (q : BitVec 2) : Bool := q.toNat ≤ 2
def qStore (q : BitVec 2) : Bool := q.toNat ≤ 1

/-- The fields of a vector access (R140). -/
def vlOk (load idx la : Bool) (f : VL) : Bool :=
  (if la then f.ty.toNat ≤ 14 else f.ty.toNat ≤ 13) && (idx || f.vb == 0) && rmOk f.rm &&
  (if load then smOk f.sm f.ty.toNat && qLoad f.q else qStore f.q)

/-- What a stream command allows (R222): END, ZSKIP, QMODE 1, QMODE 2, FE, follow-on. -/
def fnOk (endA z q1 q2 fe fo : Bool) (f : MS) : Bool :=
  let n := f.fn.toNat
  let q := n / 8 % 4
  n % 4 ≤ 2 && (endA || n % 4 == 0) && (z || n / 4 % 2 == 0) && (q == 0 || (q == 1 && q1) || (q == 2 && q2)) &&
  (fe || n / 32 == 0) && (q == 0 || n % 4 == 0) &&
  (if f.follow.toNat / 16 == 1 then fo && q == 0 else f.follow == 0)

/-- PORT of a command that feeds an input port, drains an output port, or has none (R221). -/
def portIn (f : MS) : Bool := f.port.toNat < 16
def portOut (f : MS) : Bool := 16 ≤ f.port.toNat
def portNone (f : MS) : Bool := f.port == 0
/-- QMODE of a stream command (R222). -/
def qmodeOf (f : MS) : Nat := f.fn.toNat / 8 % 4

/-- The immediate field as an unsigned layout: the extension when taken, else IMM16. -/
def immU (imm : BitVec 16) (e : Option W32) : Nat :=
  match e with
  | some x => x.toNat
  | none => imm.toNat

/-- MR fields that must be zero: MD, MA, MB, the immediate. -/
def mrZero (md ma mb imm : Bool) (f : MR) : Bool :=
  (md || f.md == 0) && (ma || f.ma == 0) && (mb || f.mb == 0) && (imm || (f.imm == 0 && extZero f.ext))

/-- Common field rules of the sync operations (R309): an extension only with IMM = 1, and then VB is zero. -/
def syExt (imm : BitVec 1) (vb : BitVec 4) (e : Option W32) : Bool :=
  match e with
  | some _ => imm == 1 && vb == 0
  | none => true

/-- XFERA's SRC and SEL layouts (R103). -/
def xferaOk (f : AT) : Bool :=
  let src := f.src.toNat
  let sel := f.sel.toNat
  match f.sf.toNat with
  | 0 => sel / 16 == 1 || sel / 8 == 0
  | 1 => src / 32 == 0 && sel == 0
  | 2 => sel == 0 &&
      (match src / 128 with
       | 0 => src / 16 % 8 == 0
       | 1 => src / 16 % 8 == 0
       | 2 => src / 4 % 32 == 0
       | _ => false)
  | _ => false

/-- XFERB's layouts (R104). -/
def xferbOk (f : BX) : Bool :=
  f.dk.toNat ≤ 2 && (f.dk.toNat ≠ 2 || f.dst.toNat < 4) &&
  (if f.sf == 0 then f.src.toNat < 64 && f.ty == 0 else f.dk == 1 && isBIT f.ty.toNat)

/-- A shift immediate lies in 0..63 (R97). -/
def shImmOk (f : AI) : Bool :=
  match f.ext with
  | some e => e.toNat < 64
  | none => f.imm.toNat < 64

/-- The step-2 field checks of R52 for every operation. An extension of SBAR, TEMIT, TCONS, ADEPTH or LAUNCH with a bit set
above the layout of its IMM16 is ill-formed, as R229 says it for SREC alone (log entry 76, DESIGN CHOICE). -/
def Instr.wf : Instr → Bool
  | .cmp f => f.fn.toNat ≤ 5
  | .lea f => f.fn.toNat ≤ 6
  | .ext f => f.fn.toNat ≤ 6 && f.fn.toNat ≠ 3
  | .aspc f => f.fn.toNat ∈ [0, 8, 9, 10, 12, 14]
  | .shli f | .shri f | .srai f => shImmOk f
  | .ld f | .lds f => qLoad f.q
  | .st f => qStore f.q
  | .ldx f | .ldxs f => qLoad f.q
  | .stx f => qStore f.q
  | .xfera f => xferaOk f
  | .gpool f => isFloat f.fn.toNat
  | .gprnd f => isFloat f.fn.toNat || f.fn.toNat == tyI32
  | .loop f => f.last ≠ 0
  | .loopr f => f.last ≠ 0 && extZero f.ext
  | .loops f => f.last ≠ 0 && (match f.ext with | some e => e.toNat < 16 | none => true)
  | .wait f => f.fn.toNat ≤ 4 && syExt f.imm f.vb f.ext
  | .acquire f => f.fn.toNat ≤ 1 && syExt f.imm f.vb f.ext
  | .release f => f.fn.toNat ≤ 1 && syExt f.imm f.vb f.ext
  | .atom f => f.fn.toNat ≤ 8 && syExt f.imm f.vb f.ext
  | .atomnr f => f.fn.toNat ≤ 8 && syExt f.imm f.vb f.ext
  | .fence f => f.scope.toNat ≤ 5
  | .bind f => f.scope.toNat ≤ 5
  | .evwait f => f.mask ≠ 0
  | .calwait f => (match f.ext with | some _ => f.n == 0 | none => f.n.toNat ≤ 470)
  | .xferb f => xferbOk f
  | .vadd f | .vsub f => vrRegs true true false f && vrRound f &&
      ((isFP f.ty.toNat && f.fn == 0) || (isINT f.ty.toNat && f.fn.toNat ≤ 1))
  | .vmul f | .vabsd f => vrRegs true true false f && vrRound f && f.fn == 0 && (isFP f.ty.toNat || isINT f.ty.toNat)
  | .vfma f | .vfms f | .vfnma f => vrRegs true true true f && vrRound f && f.fn == 0 && isFP f.ty.toNat
  | .vmin f | .vmax f => vrRegs true true false f && vrPlain f && f.fn == 0 && (isFP f.ty.toNat || isINT f.ty.toNat)
  | .vabs f | .vneg f => vrRegs true false false f && vrPlain f && f.fn == 0 && (isFP f.ty.toNat || isSigned f.ty.toNat)
  | .vand f | .vor f | .vxor f | .vandn f => vrRegs true true false f && vrPlain f && f.fn == 0 && isBIT f.ty.toNat
  | .vshl f | .vshr f | .vsra f => vrRegs true true false f && vrPlain f && f.fn == 0 && isINT f.ty.toNat
  | .vscale f => vrRegs true true false f && vrRound f && f.fn == 0 && isFP f.ty.toNat
  | .vclass f => vrRegs true false false f && vrPlain f && f.fn == 0 && isFP f.ty.toNat
  | .vpopc f | .vclz f => vrRegs true false false f && vrPlain f && f.fn == 0 && isINT f.ty.toNat
  | .vmaddi f => vrRegs true true true f && vrPlain f && f.fn == 0 && isINT f.ty.toNat
  | .vrcp f | .vrsq f | .vrint f => vrRegs true false false f && vrRound f && f.fn == 0 && isFP f.ty.toNat
  | .vcpsgn f => vrRegs true true false f && vrPlain f && f.fn == 0 && isFP f.ty.toNat
  | .vcmp f => vrRegs true true false f && vrPlain f &&
      ((isFP f.ty.toNat && f.fn.toNat ≤ 6) || (isINT f.ty.toNat && f.fn.toNat ≤ 5))
  | .vsel f | .vperm f => vrRegs true true true f && vrPlain f && f.fn == 0 && isBIT f.ty.toNat
  | .vmov f => vrRegs true false false f && vrPlain f && f.fn == 0 && f.ty.toNat ≤ 14
  | .vbcst f => vrRegs true false false f && vrPlain f && isBIT f.ty.toNat && f.fn.toNat < 512 / tyWidth f.ty.toNat
  | .vslide f => vrRegs true true false f && vrPlain f && isBIT f.ty.toNat && f.fn.toNat < 512 / tyWidth f.ty.toNat
  | .vzip f | .vunzip f => vrRegs true true false f && vrPlain f && isBIT f.ty.toNat && f.fn.toNat ≤ 1
  | .viota f => vrRegs false false false f && vrPlain f && f.fn == 0 && isINT f.ty.toNat
  | .vcvt f => cvtOk 0 f
  | .vwiden f => cvtOk 1 f
  | .vpack f => cvtOk 2 f
  | .vamax f => vrRegs true false false f && vrPlain f && f.vm == 0 && isFP f.ty.toNat && isBlk (f.fn.toNat % 16) &&
      f.fn.toNat < 16 && runOk f.va.toNat (vamaxRun f.ty.toNat) 512
  | .vqnt f => vrRegs true true false f && rmOk f.rm && smOk f.sm f.ty.toNat && isBlk f.ty.toNat &&
      isFP (f.fn.toNat % 16) && f.fn.toNat < 16 && runOk f.va.toNat (vqntRun (f.fn.toNat % 16)) 512
  | .vdqnt f => vrRegs true true false f && rmOk f.rm && f.sm == 0 && isFP f.ty.toNat && isBlk (f.fn.toNat % 16) &&
      f.fn.toNat / 16 < (if f.ty.toNat == tyF32 then 4 else 2)
  | .vrsum f => vrRegs true false false f && vrRound f && f.fn == 0 && (isFP f.ty.toNat || isINT f.ty.toNat)
  | .vrmax f | .vrmin f => vrRegs true false false f && vrPlain f && f.fn == 0 && (isFP f.ty.toNat || isINT f.ty.toNat)
  | .vrdot f => vrRegs true true false f && vrRound f && f.fn == 0 &&
      (isFP f.ty.toNat || f.ty.toNat ∈ [tyI8, tyI16, tyW8, tyW16])
  | .vlacc f => vrRegs true (f.fn.toNat / 16 % 2 == 1) false f && vrPlain f && f.ty.toNat == tyLA && isFloat (f.fn.toNat % 16)
  | .vlarnd f => vrRegs true false false f && rmOk f.rm && smOk f.sm f.ty.toNat && f.fn == 0 &&
      (isFloat f.ty.toNat || f.ty.toNat == tyI32 || f.ty.toNat == tyI64)
  | .vlscale f => vrRegs true false false f && vrPlain f && f.vm == 0 && f.fn == 0 && f.ty.toNat == tyI32
  | .vld f => vlOk true false true f
  | .vst f => vlOk false false true f
  | .vldx f => vlOk true true false f
  | .vstx f => vlOk false true false f
  | .vldb f => vlOk true false false f
  | .xferv f => isBIT f.ty.toNat &&
      ((f.bc == 1 && f.lane == 0) ||
       (f.bc == 0 && 16 ≤ tyWidth f.ty.toNat && f.lane.toNat < 512 / tyWidth f.ty.toNat))
  | .mset f => f.fn == 0 && mrZero true false false true f
  | .msetHi f => f.fn == 1 && mrZero true false false true f
  | .maddM f => (f.fn == 0 && mrZero true true false true f) || (f.fn == 1 && mrZero true true true false f)
  | .mmov f => f.fn == 0 && mrZero true true false false f
  | .xferm f => extZero f.ext
  | .saff f => fnOk true true true true true true f && runOk f.mp.toNat 4 32 &&
      (if qmodeOf f == 0 then portIn f else portNone f)
  | .saffw f => fnOk false false false false true false f && runOk f.mp.toNat 4 32 && portOut f
  | .sind f => fnOk true true true false true true f && runOk f.mp.toNat 4 32 &&
      (if qmodeOf f == 0 then portIn f else portNone f)
  | .sindw f => fnOk false false false false true false f && runOk f.mp.toNat 4 32 && portOut f
  | .srec f => fnOk true true false false false true f && portIn f && f.mb == 0 && f.step == 0 && immU f.imm f.ext < 16
  | .swin f => fnOk true true false false true true f && runOk f.mp.toNat 4 32 && portIn f
  | .smcast f => fnOk true true false false true false f && runOk f.mp.toNat 5 32 && portIn f
  | .temit f => fnOk false false false false false false f && f.mp == 0 && portNone f && f.step == 0 &&
      immU f.imm f.ext < 4096
  | .tcons f => fnOk false false false false false false f && f.mb == 0 && f.sh == 0 && portNone f && f.step == 0 &&
      immU f.imm f.ext < 16
  | .scopy f => fnOk false true false false true false f && runOk f.mp.toNat 5 32 && portNone f
  | .sfill f => fnOk false false false false true false f && runOk f.mp.toNat 5 32 && portNone f
  | .scancel f => fnOk false false false false false false f && f.mp == 0 && f.mb == 0 && portNone f && f.step == 0 &&
      f.imm == 0 && extZero f.ext
  | .spref f => fnOk false false false false false false f && runOk f.mp.toNat 4 32 && portNone f
  | .mnfeed f => f.fn.toNat < 8 && f.follow == 0 && portNone f && runOk f.mp.toNat 3 32
  | .mndrain f => f.fn.toNat < 2 && f.follow == 0 && portNone f && runOk f.mp.toNat (if f.fn == 1 then 4 else 2) 32
  | .nsdot f => f.fn == 0 && f.follow == 0 && portNone f && runOk f.mp.toNat 5 32
  | .grecv f => f.fn.toNat / 4 % 8 == 0 && f.follow == 0 && portNone f
  | .sdual f => fnOk false true false false true false f && runOk f.mp.toNat 5 32 && portNone f
  | .sbar f => mrZero false false false true f && f.fn.toNat < 8 && f.fn.toNat % 4 ≠ 0 && immU f.imm f.ext < 65536
  | .swload f => f.fn == 0 && mrZero false true false false f
  | .swact f => f.fn == 0 && mrZero false false false false f
  | .cfgload f => f.fn.toNat < 2 && mrZero false true false false f
  | .cfgpref f => f.fn == 0 && mrZero false true false false f
  | .cfgact f => f.fn.toNat < 2 && mrZero false false false false f
  | .afire f | .aflush f => f.fn.toNat < 16 && mrZero false false false false f
  | .adepth f => f.fn == 0 && mrZero false false false true f && immU f.imm f.ext < 32768
  | .mnopen f => f.fn.toNat < 4 && mrZero false true false false f && runOk f.ma.toNat 3 32
  | .mnflush f => f.fn == 0 && mrZero false false false false f
  | .mnclose f => f.fn == 0 && mrZero false false false false f
  | .mncloseA f => f.fn == 1 && mrZero false false false false f
  | .launch f => f.fn == 0 && mrZero false true false true f && immU f.imm f.ext < 1024
  | .spawn f => f.fn.toNat < 2 && mrZero false true true true f
  | .jinit f => f.fn == 0 && mrZero false false false true f
  | .pgreq f => f.fn.toNat < 3 && mrZero false false false false f
  | .pgreqRel f => 4 ≤ f.fn.toNat && f.fn.toNat < 7 && mrZero false false false false f
  | .sstat f => f.fn.toNat ≤ 16 && mrZero true false false false f
  | .lapin f => f.fn == 0 && mrZero false true false false f
  | .lapinRel f => f.fn == 1 && mrZero false false false false f
  | .publish f => f.fn == 0 && mrZero false true true false f
  | _ => true

end Sys2Proof
end

