-- ==== Sys2Proof/Decode.lean ====
section
/-! DEFINITION. The decoder, written from the formats of R35 and the opcode map R55 to R58: slot words to
instructions, rejecting by name; bundles (R29 to R34, R46, R52 steps 1 and 2); and after it the encoder. -/

namespace Sys2Proof

/-- Why a word is no instruction (R35, R52, R54). -/
inductive DecodeErr where
  | unallocated      -- an opcode the map does not allocate
  | reservedField    -- a nonzero zero field, or a field value its entry does not list
  deriving DecidableEq, Repr

/-- A cut of w bits at position lo. -/
abbrev fld {n : Nat} (x : BitVec n) (lo w : Nat) : BitVec w := x.extractLsb' lo w

/-! ### Field extraction, one function per format of R35 -/

/-- The fields of AR. -/
def ofAR (w : BitVec 32) : AR := { rd := fld w 20 6, ra := fld w 14 6, rb := fld w 8 6, gp := fld w 0 4 }
/-- The fields of ARn. -/
def ofARn (w : BitVec 32) : ARn := { rd := fld w 20 6, ra := fld w 14 6, rb := fld w 8 6, fn := fld w 4 4, gp := fld w 0 4 }
/-- The fields of AR1. -/
def ofAR1 (w : BitVec 32) : AR1 := { rd := fld w 20 6, ra := fld w 14 6, gp := fld w 0 4 }
/-- The zero fields of AR1 are zero. -/
def zeroAR1 (w : BitVec 32) : Bool := fld w 8 6 == 0
/-- The fields of AR1n. -/
def ofAR1n (w : BitVec 32) : AR1n := { rd := fld w 20 6, ra := fld w 14 6, fn := fld w 4 4, gp := fld w 0 4 }
/-- The zero fields of AR1n are zero. -/
def zeroAR1n (w : BitVec 32) : Bool := fld w 8 6 == 0
/-- The fields of AD. -/
def ofAD (w : BitVec 32) : AD := { rd := fld w 20 6, gp := fld w 0 4 }
/-- The zero fields of AD are zero. -/
def zeroAD (w : BitVec 32) : Bool := fld w 8 12 == 0
/-- The fields of ASn. -/
def ofASn (w : BitVec 32) : ASn := { ra := fld w 14 6, rb := fld w 8 6, fn := fld w 4 4, gp := fld w 0 4 }
/-- The zero fields of ASn are zero. -/
def zeroASn (w : BitVec 32) : Bool := fld w 20 6 == 0
/-- The fields of AS1. -/
def ofAS1 (w : BitVec 32) : AS1 := { ra := fld w 14 6, gp := fld w 0 4 }
/-- The zero fields of AS1 are zero. -/
def zeroAS1 (w : BitVec 32) : Bool := fld w 20 6 == 0 && fld w 4 10 == 0
/-- The fields of AI. -/
def ofAI (w : BitVec 32) (e : Option W32) : AI := { rd := fld w 20 6, ra := fld w 14 6, imm := fld w 4 10, gp := fld w 0 4, ext := e }
/-- The fields of AI0. -/
def ofAI0 (w : BitVec 32) (e : Option W32) : AI0 := { rd := fld w 20 6, imm := fld w 4 10, gp := fld w 0 4, ext := e }
/-- The zero fields of AI0 are zero. -/
def zeroAI0 (w : BitVec 32) : Bool := fld w 14 6 == 0
/-- The fields of ACRr. -/
def ofACRr (w : BitVec 32) : ACR := { reg := fld w 20 6, num := fld w 4 10, gp := fld w 0 4 }
/-- The zero fields of ACRr are zero. -/
def zeroACRr (w : BitVec 32) : Bool := fld w 14 6 == 0
/-- The fields of ACRw. -/
def ofACRw (w : BitVec 32) : ACR := { reg := fld w 14 6, num := fld w 4 10, gp := fld w 0 4 }
/-- The zero fields of ACRw are zero. -/
def zeroACRw (w : BitVec 32) : Bool := fld w 20 6 == 0
/-- The fields of AM. -/
def ofAM (w : BitVec 32) (e : Option W32) : AM := { rd := fld w 20 6, ra := fld w 14 6, step := fld w 8 6, sz := fld w 6 2, q := fld w 4 2, gp := fld w 0 4, ext := e }
/-- The fields of AX. -/
def ofAX (w : BitVec 32) : AX := { rd := fld w 20 6, ra := fld w 14 6, rb := fld w 8 6, sz := fld w 6 2, q := fld w 4 2, gp := fld w 0 4 }
/-- The fields of AT. -/
def ofAT (w : BitVec 32) : AT := { rd := fld w 20 6, sf := fld w 18 2, src := fld w 9 9, sel := fld w 4 5, gp := fld w 0 4 }
/-- The fields of BJ. -/
def ofBJ (w : BitVec 32) (e : Option W32) : BJ := { gp := fld w 22 4, gn := fld w 21 1, ofs := fld w 0 21, ext := e }
/-- The fields of BG. -/
def ofBG (w : BitVec 32) : BG := { gp := fld w 22 4, gn := fld w 21 1 }
/-- The zero fields of BG are zero. -/
def zeroBG (w : BitVec 32) : Bool := fld w 9 12 == 0
/-- The fields of BL. -/
def ofBL (w : BitVec 32) (e : Option W32) : BL := { lc := fld w 24 2, cnt := fld w 12 12, last := fld w 0 12, ext := e }
/-- The fields of BLr. -/
def ofBLr (w : BitVec 32) (e : Option W32) : BLr := { lc := fld w 24 2, last := fld w 0 12, ext := e }
/-- The zero fields of BLr are zero. -/
def zeroBLr (w : BitVec 32) : Bool := fld w 12 12 == 0
/-- The fields of BLs. -/
def ofBLs (w : BitVec 32) (e : Option W32) : BLs := { lc := fld w 24 2, hnd := fld w 12 4, last := fld w 0 12, ext := e }
/-- The zero fields of BLs are zero. -/
def zeroBLs (w : BitVec 32) : Bool := fld w 16 8 == 0
/-- The fields of BLc. -/
def ofBLc (w : BitVec 32) (e : Option W32) : BLc := { lc := fld w 24 2, cnt := fld w 12 12, ext := e }
/-- The zero fields of BLc are zero. -/
def zeroBLc (w : BitVec 32) : Bool := fld w 0 12 == 0
/-- The fields of BW. -/
def ofBW (w : BitVec 32) : BW := { gp := fld w 22 4, nld := fld w 16 4, nst := fld w 12 4, nstr := fld w 8 4, narr := fld w 4 4, nsync := fld w 0 4 }
/-- The zero fields of BW are zero. -/
def zeroBW (w : BitVec 32) : Bool := fld w 20 2 == 0
/-- The fields of BSy. -/
def ofBSy (w : BitVec 32) (e : Option W32) : BSy := { gp := fld w 22 4, gn := fld w 21 1, va := fld w 17 4, vb := fld w 13 4, vd := fld w 9 4, imm := fld w 8 1, fn := fld w 0 4, ext := e }
/-- The zero fields of BSy are zero. -/
def zeroBSy (w : BitVec 32) : Bool := fld w 4 4 == 0
/-- The fields of BSn. -/
def ofBSn (w : BitVec 32) (e : Option W32) : BSn := { gp := fld w 22 4, gn := fld w 21 1, va := fld w 17 4, vb := fld w 13 4, imm := fld w 8 1, fn := fld w 0 4, ext := e }
/-- The zero fields of BSn are zero. -/
def zeroBSn (w : BitVec 32) : Bool := fld w 9 4 == 0 && fld w 4 4 == 0
/-- The fields of BPt. -/
def ofBPt (w : BitVec 32) : BPt := { gp := fld w 22 4, gn := fld w 21 1, va := fld w 17 4 }
/-- The zero fields of BPt are zero. -/
def zeroBPt (w : BitVec 32) : Bool := fld w 9 8 == 0
/-- The fields of BFe. -/
def ofBFe (w : BitVec 32) : BFe := { gp := fld w 22 4, gn := fld w 21 1, scope := fld w 0 3 }
/-- The zero fields of BFe are zero. -/
def zeroBFe (w : BitVec 32) : Bool := fld w 3 18 == 0
/-- The fields of BBi. -/
def ofBBi (w : BitVec 32) : BBi := { gp := fld w 22 4, gn := fld w 21 1, va := fld w 17 4, vb := fld w 13 4, vd := fld w 9 4, scope := fld w 0 3 }
/-- The zero fields of BBi are zero. -/
def zeroBBi (w : BitVec 32) : Bool := fld w 3 6 == 0
/-- The fields of BCa. -/
def ofBCa (w : BitVec 32) : BCa := { gp := fld w 22 4, gn := fld w 21 1, va := fld w 17 4, vb := fld w 13 4, vd := fld w 9 4 }
/-- The zero fields of BCa are zero. -/
def zeroBCa (w : BitVec 32) : Bool := fld w 0 9 == 0
/-- The fields of BPo. -/
def ofBPo (w : BitVec 32) : BPo := { gp := fld w 22 4, gn := fld w 21 1, port := fld w 17 4, dir := fld w 0 1 }
/-- The zero fields of BPo are zero. -/
def zeroBPo (w : BitVec 32) : Bool := fld w 1 16 == 0
/-- The fields of BMa. -/
def ofBMa (w : BitVec 32) : BMa := { gp := fld w 22 4, gn := fld w 21 1, mask := fld w 0 8 }
/-- The zero fields of BMa are zero. -/
def zeroBMa (w : BitVec 32) : Bool := fld w 8 13 == 0
/-- The fields of BN. -/
def ofBN (w : BitVec 32) : BN := { gp := fld w 22 4, gn := fld w 21 1, n := fld w 0 9 }
/-- The zero fields of BN are zero. -/
def zeroBN (w : BitVec 32) : Bool := fld w 9 12 == 0
/-- The fields of BNx. -/
def ofBNx (w : BitVec 32) (e : Option W32) : BNx := { gp := fld w 22 4, gn := fld w 21 1, n := fld w 0 9, ext := e }
/-- The zero fields of BNx are zero. -/
def zeroBNx (w : BitVec 32) : Bool := fld w 9 12 == 0
/-- The fields of BEr. -/
def ofBEr (w : BitVec 32) : BEr := { gp := fld w 22 4, gn := fld w 21 1, skip := fld w 0 1 }
/-- The zero fields of BEr are zero. -/
def zeroBEr (w : BitVec 32) : Bool := fld w 1 20 == 0
/-- The fields of BSv. -/
def ofBSv (w : BitVec 32) : BSv := { gp := fld w 22 4, gn := fld w 21 1, va := fld w 17 4, vd := fld w 9 4, n := fld w 0 9 }
/-- The zero fields of BSv are zero. -/
def zeroBSv (w : BitVec 32) : Bool := fld w 13 4 == 0
/-- The fields of BLg. -/
def ofBLg (w : BitVec 32) : BLg := { gp := fld w 22 4, gn := fld w 21 1, va := fld w 17 4, vb := fld w 13 4, vd := fld w 9 4, tt := fld w 0 4 }
/-- The zero fields of BLg are zero. -/
def zeroBLg (w : BitVec 32) : Bool := fld w 4 5 == 0
/-- The fields of BX. -/
def ofBX (w : BitVec 32) : BX := { dk := fld w 24 2, dst := fld w 20 4, sf := fld w 19 1, src := fld w 10 9, ty := fld w 6 4 }
/-- The zero fields of BX are zero. -/
def zeroBX (w : BitVec 32) : Bool := fld w 0 6 == 0
/-- The fields of VR. -/
def ofVR (w : BitVec 64) (e : Option W32) : VR := { vd := fld w 47 9, va := fld w 38 9, vb := fld w 29 9, vc := fld w 20 9, vm := fld w 16 4, ty := fld w 12 4, rm := fld w 9 3, sm := fld w 8 1, fn := fld w 2 6, ext := e }
/-- The zero fields of VR are zero. -/
def zeroVR (w : BitVec 64) : Bool := fld w 0 2 == 0
/-- The fields of VL. -/
def ofVL (w : BitVec 64) (e : Option W32) : VL := { vd := fld w 47 9, va := fld w 38 9, vb := fld w 29 9, ofs := fld w 20 9, vm := fld w 16 4, ty := fld w 12 4, rm := fld w 9 3, sm := fld w 8 1, step := fld w 2 6, q := fld w 0 2, ext := e }
/-- The fields of VX. -/
def ofVX (w : BitVec 64) : VX := { vd := fld w 47 9, src := fld w 41 6, lane := fld w 36 5, bc := fld w 35 1, vm := fld w 16 4, ty := fld w 12 4 }
/-- The zero fields of VX are zero. -/
def zeroVX (w : BitVec 64) : Bool := fld w 20 15 == 0 && fld w 0 12 == 0
/-- The fields of MS. -/
def ofMS (w : BitVec 64) (e : Option W32) : MS := { mp := fld w 51 5, mb := fld w 46 5, sh := fld w 42 4, port := fld w 37 5, step := fld w 31 6, gp := fld w 27 4, fn := fld w 21 6, follow := fld w 16 5, imm := fld w 0 16, ext := e }
/-- The fields of MR. -/
def ofMR (w : BitVec 64) (e : Option W32) : MR := { md := fld w 51 5, ma := fld w 46 5, mb := fld w 41 5, fn := fld w 35 6, gp := fld w 31 4, imm := fld w 0 16, ext := e }
/-- The zero fields of MR are zero. -/
def zeroMR (w : BitVec 64) : Bool := fld w 16 15 == 0
/-- The fields of MX. -/
def ofMX (w : BitVec 64) (e : Option W32) : MX := { md := fld w 51 5, src := fld w 45 6, gp := fld w 31 4, ext := e }
/-- The zero fields of MX are zero. -/
def zeroMX (w : BitVec 64) : Bool := fld w 41 4 == 0 && fld w 35 6 == 0 && fld w 16 15 == 0 && fld w 0 16 == 0

/-- Accept an instruction whose zero fields are zero and whose field values its entry lists. -/
def accept (zeroes : Bool) (i : Instr) : Except DecodeErr Instr :=
  if zeroes && i.wf then .ok i else .error .reservedField

/-- The instruction of a word of the A slot that takes extension `e` (R35, R55). -/
def decodeA (w : BitVec 32) (e : Option W32) : Except DecodeErr Instr :=
  match (fld w 26 6).toNat with
  | 0x00 => if w == 0 then .ok .anop else .error .reservedField
  | 0x01 => accept (fld w 4 4 == 0) (.add (ofAR w))
  | 0x02 => accept (fld w 4 4 == 0) (.sub (ofAR w))
  | 0x03 => accept (fld w 4 4 == 0) (.and (ofAR w))
  | 0x04 => accept (fld w 4 4 == 0) (.or (ofAR w))
  | 0x05 => accept (fld w 4 4 == 0) (.xor (ofAR w))
  | 0x06 => accept (fld w 4 4 == 0) (.andn (ofAR w))
  | 0x07 => accept (fld w 4 4 == 0) (.shl (ofAR w))
  | 0x08 => accept (fld w 4 4 == 0) (.shr (ofAR w))
  | 0x09 => accept (fld w 4 4 == 0) (.sra (ofAR w))
  | 0x0A => if fld w 4 4 == 0 then accept (fld w 4 4 == 0) (.min (ofAR w)) else accept (fld w 4 4 == 1) (.minu (ofAR w))
  | 0x0B => if fld w 4 4 == 0 then accept (fld w 4 4 == 0) (.max (ofAR w)) else accept (fld w 4 4 == 1) (.maxu (ofAR w))
  | 0x0C => accept (zeroAR1 w && fld w 4 4 == 0) (.abs (ofAR1 w))
  | 0x0D => accept (zeroAR1 w && fld w 4 4 == 0) (.clz (ofAR1 w))
  | 0x0E => accept (zeroAR1 w && fld w 4 4 == 0) (.popc (ofAR1 w))
  | 0x0F => accept true (.cmp (ofARn w))
  | 0x10 => accept true (.addi (ofAI w e))
  | 0x11 => accept true (.andi (ofAI w e))
  | 0x12 => accept true (.ori (ofAI w e))
  | 0x13 => accept true (.xori (ofAI w e))
  | 0x14 => accept true (.shli (ofAI w e))
  | 0x15 => accept true (.shri (ofAI w e))
  | 0x16 => accept true (.srai (ofAI w e))
  | 0x17 => accept (zeroAI0 w) (.movi (ofAI0 w e))
  | 0x18 => accept true (.movhi (ofAI w e))
  | 0x19 => accept (fld w 4 4 == 0) (.mul (ofAR w))
  | 0x1A => if fld w 4 4 == 0 then accept (fld w 4 4 == 0) (.mulh (ofAR w)) else if fld w 4 4 == 1 then accept (fld w 4 4 == 1) (.mulhu (ofAR w)) else accept (fld w 4 4 == 2) (.mulhsu (ofAR w))
  | 0x1B => accept (fld w 4 4 == 0) (.madd (ofAR w))
  | 0x1C => accept (fld w 4 4 == 0) (.sel (ofAR w))
  | 0x1D => if fld w 4 4 == 0 then accept (fld w 4 4 == 0) (.bfx (ofAR w)) else accept (fld w 4 4 == 1) (.bfxs (ofAR w))
  | 0x1E => accept (fld w 4 4 == 0) (.bfi (ofAR w))
  | 0x1F => accept true (.lea (ofARn w))
  | 0x20 => accept true (.ld (ofAM w e))
  | 0x21 => accept true (.lds (ofAM w e))
  | 0x22 => accept true (.st (ofAM w e))
  | 0x23 => accept true (.ldx (ofAX w))
  | 0x24 => accept true (.ldxs (ofAX w))
  | 0x25 => accept true (.stx (ofAX w))
  | 0x26 => accept (fld w 4 4 == 0) (.aspq (ofAR w))
  | 0x27 => accept (zeroAR1n w) (.aspc (ofAR1n w))
  | 0x28 => accept true (.xfera (ofAT w))
  | 0x29 => accept (zeroACRr w) (.rdcr (ofACRr w))
  | 0x2A => accept (zeroACRw w) (.wrcr (ofACRw w))
  | 0x2B => accept (zeroACRw w) (.setcr (ofACRw w))
  | 0x2C => accept (zeroACRw w) (.clrcr (ofACRw w))
  | 0x2D => accept (zeroAI0 w) (.addpc (ofAI0 w e))
  | 0x2E => accept true (.muli (ofAI w e))
  | 0x2F => accept (zeroAR1n w) (.ext (ofAR1n w))
  | 0x30 => accept true (.greq (ofARn w))
  | 0x31 => accept true (.gwr (ofARn w))
  | 0x32 => accept true (.gwrm (ofARn w))
  | 0x33 => if fld w 4 4 == 0 then accept (zeroAR1 w && fld w 4 4 == 0) (.gtagwT (ofAR1 w)) else accept (zeroAR1 w && fld w 4 4 == 1) (.gtagwC (ofAR1 w))
  | 0x34 => accept (zeroAR1 w && fld w 4 4 == 0) (.gtagq (ofAR1 w))
  | 0x35 => accept (fld w 4 4 == 0) (.gbin (ofAR w))
  | 0x36 => if fld w 4 4 == 0 then accept (zeroAD w && fld w 4 4 == 0) (.gbdrain (ofAD w)) else accept (zeroAD w && fld w 4 4 == 1) (.gbdrainClr (ofAD w))
  | 0x37 => if fld w 4 4 == 0 then accept (zeroAR1 w && fld w 4 4 == 0) (.gdedup (ofAR1 w)) else accept (zeroAD w && fld w 4 4 == 1) (.gdedupClr (ofAD w))
  | 0x38 => accept (zeroASn w) (.gpool (ofASn w))
  | 0x39 => accept (zeroASn w) (.gprnd (ofASn w))
  | 0x3A => accept true (.ghand (ofARn w))
  | 0x3B => accept (zeroAS1 w) (.gfence (ofAS1 w))
  | _ => .error .unallocated

/-- The instruction of a word of the B slot that takes extension `e` (R35, R58). -/
def decodeB (w : BitVec 32) (e : Option W32) : Except DecodeErr Instr :=
  match (fld w 26 6).toNat with
  | 0x00 => if w == 0 then .ok .bnop else .error .reservedField
  | 0x01 => accept true (.br (ofBJ w e))
  | 0x02 => accept true (.call (ofBJ w e))
  | 0x03 => accept (zeroBG w && fld w 0 9 == 0) (.ret (ofBG w))
  | 0x04 => accept (zeroBG w && fld w 0 9 == 0) (.brx (ofBG w))
  | 0x05 => accept true (.loop (ofBL w e))
  | 0x06 => accept (zeroBLr w) (.loopr (ofBLr w e))
  | 0x07 => accept (zeroBLs w) (.loops (ofBLs w e))
  | 0x08 => accept (zeroBW w) (.waitc (ofBW w))
  | 0x09 => accept (zeroBSy w) (.wait (ofBSy w e))
  | 0x0A => accept (zeroBFe w) (.fence (ofBFe w))
  | 0x0B => if fld w 0 4 == 2 then accept (zeroBPt w && fld w 0 9 == 2) (.acquireX (ofBPt w)) else accept (zeroBSy w) (.acquire (ofBSy w e))
  | 0x0C => if fld w 0 4 == 2 then accept (zeroBPt w && fld w 0 9 == 2) (.releaseX (ofBPt w)) else accept (zeroBSn w) (.release (ofBSn w e))
  | 0x0D => accept (zeroBBi w) (.bind (ofBBi w))
  | 0x0E => if fld w 0 1 == 1 then accept (zeroBG w && fld w 0 9 == 1) (.unbindAll (ofBG w)) else accept (zeroBPt w && fld w 0 9 == 0) (.unbind (ofBPt w))
  | 0x0F => accept (zeroBSy w) (.atom (ofBSy w e))
  | 0x10 => accept (zeroBSn w) (.atomnr (ofBSn w e))
  | 0x11 => accept (zeroBCa w) (.atomcas (ofBCa w))
  | 0x12 => accept (zeroBG w && fld w 0 9 == 0) (.join (ofBG w))
  | 0x13 => accept (zeroBPo w) (.pwait (ofBPo w))
  | 0x14 => accept (zeroBMa w) (.evwait (ofBMa w))
  | 0x15 => accept (zeroBNx w) (.yield (ofBNx w e))
  | 0x16 => accept (zeroBN w) (.exit (ofBN w))
  | 0x17 => accept (zeroBN w) (.trap (ofBN w))
  | 0x18 => accept (zeroBEr w) (.eret (ofBEr w))
  | 0x19 => accept (zeroBSv w) (.svc (ofBSv w))
  | 0x1A => accept (zeroBN w) (.bkpt (ofBN w))
  | 0x1B => accept (zeroBLg w) (.plog (ofBLg w))
  | 0x1C => accept (zeroBLg w) (.vmlog (ofBLg w))
  | 0x1D => accept (zeroBLc w) (.lci (ofBLc w e))
  | 0x1E => accept (zeroBX w) (.xferb (ofBX w))
  | 0x1F => accept (zeroBG w && fld w 0 9 == 0) (.stkclr (ofBG w))
  | 0x20 => accept (zeroBG w && fld w 0 9 == 0) (.ifence (ofBG w))
  | 0x21 => accept (zeroBNx w) (.calwait (ofBNx w e))
  | _ => .error .unallocated

/-- The instruction of a word of the V slot that takes extension `e` (R35, R56). -/
def decodeV (w : BitVec 64) (e : Option W32) : Except DecodeErr Instr :=
  match (fld w 56 8).toNat with
  | 0x00 => if w == 0 then .ok .vnop else .error .reservedField
  | 0x01 => accept (zeroVR w) (.vadd (ofVR w e))
  | 0x02 => accept (zeroVR w) (.vsub (ofVR w e))
  | 0x03 => accept (zeroVR w) (.vmul (ofVR w e))
  | 0x04 => accept (zeroVR w) (.vfma (ofVR w e))
  | 0x05 => accept (zeroVR w) (.vfms (ofVR w e))
  | 0x06 => accept (zeroVR w) (.vfnma (ofVR w e))
  | 0x07 => accept (zeroVR w) (.vmin (ofVR w e))
  | 0x08 => accept (zeroVR w) (.vmax (ofVR w e))
  | 0x09 => accept (zeroVR w) (.vabs (ofVR w e))
  | 0x0A => accept (zeroVR w) (.vneg (ofVR w e))
  | 0x0B => accept (zeroVR w) (.vand (ofVR w e))
  | 0x0C => accept (zeroVR w) (.vor (ofVR w e))
  | 0x0D => accept (zeroVR w) (.vxor (ofVR w e))
  | 0x0E => accept (zeroVR w) (.vandn (ofVR w e))
  | 0x0F => accept (zeroVR w) (.vshl (ofVR w e))
  | 0x10 => accept (zeroVR w) (.vshr (ofVR w e))
  | 0x11 => accept (zeroVR w) (.vsra (ofVR w e))
  | 0x12 => accept (zeroVR w) (.vcmp (ofVR w e))
  | 0x13 => accept (zeroVR w) (.vsel (ofVR w e))
  | 0x14 => accept (zeroVR w) (.vmov (ofVR w e))
  | 0x15 => accept (zeroVR w) (.vbcst (ofVR w e))
  | 0x16 => accept (zeroVR w) (.vperm (ofVR w e))
  | 0x17 => accept (zeroVR w) (.vslide (ofVR w e))
  | 0x18 => accept (zeroVR w) (.vzip (ofVR w e))
  | 0x19 => accept (zeroVR w) (.vunzip (ofVR w e))
  | 0x1A => accept (zeroVR w) (.vcvt (ofVR w e))
  | 0x1B => accept (zeroVR w) (.vpack (ofVR w e))
  | 0x1C => accept (zeroVR w) (.vwiden (ofVR w e))
  | 0x1D => accept (zeroVR w) (.vqnt (ofVR w e))
  | 0x1E => accept (zeroVR w) (.vdqnt (ofVR w e))
  | 0x1F => accept (zeroVR w) (.vamax (ofVR w e))
  | 0x20 => accept (zeroVR w) (.vscale (ofVR w e))
  | 0x21 => accept (zeroVR w) (.vrsum (ofVR w e))
  | 0x22 => accept (zeroVR w) (.vrmax (ofVR w e))
  | 0x23 => accept (zeroVR w) (.vrmin (ofVR w e))
  | 0x24 => accept (zeroVR w) (.vrdot (ofVR w e))
  | 0x25 => accept (zeroVR w) (.vlacc (ofVR w e))
  | 0x26 => accept (zeroVR w) (.vlarnd (ofVR w e))
  | 0x27 => accept (zeroVR w) (.vclass (ofVR w e))
  | 0x28 => accept (zeroVR w) (.vpopc (ofVR w e))
  | 0x29 => accept (zeroVR w) (.vclz (ofVR w e))
  | 0x2A => accept (zeroVR w) (.vmaddi (ofVR w e))
  | 0x2B => accept (zeroVR w) (.vabsd (ofVR w e))
  | 0x2C => accept (zeroVR w) (.vrcp (ofVR w e))
  | 0x2D => accept (zeroVR w) (.vrsq (ofVR w e))
  | 0x2E => accept true (.vld (ofVL w e))
  | 0x2F => accept true (.vst (ofVL w e))
  | 0x30 => accept true (.vldx (ofVL w e))
  | 0x31 => accept true (.vstx (ofVL w e))
  | 0x32 => accept true (.vldb (ofVL w e))
  | 0x33 => accept (zeroVR w) (.vlscale (ofVR w e))
  | 0x34 => accept (zeroVX w) (.xferv (ofVX w))
  | 0x35 => accept (zeroVR w) (.viota (ofVR w e))
  | 0x36 => accept (zeroVR w) (.vcpsgn (ofVR w e))
  | 0x37 => accept (zeroVR w) (.vrint (ofVR w e))
  | _ => .error .unallocated

/-- The instruction of a word of the M slot that takes extension `e` (R35, R57). -/
def decodeM (w : BitVec 64) (e : Option W32) : Except DecodeErr Instr :=
  match (fld w 56 8).toNat with
  | 0x00 => if w == 0 then .ok .mnop else .error .reservedField
  | 0x01 => if fld w 35 1 == 1 then accept (zeroMR w) (.msetHi (ofMR w e)) else accept (zeroMR w) (.mset (ofMR w e))
  | 0x02 => accept (zeroMR w) (.maddM (ofMR w e))
  | 0x03 => accept (zeroMR w) (.mmov (ofMR w e))
  | 0x04 => accept (zeroMX w) (.xferm (ofMX w e))
  | 0x05 => accept true (.saff (ofMS w e))
  | 0x06 => accept true (.saffw (ofMS w e))
  | 0x07 => accept true (.sind (ofMS w e))
  | 0x08 => accept true (.sindw (ofMS w e))
  | 0x09 => accept true (.srec (ofMS w e))
  | 0x0A => accept true (.swin (ofMS w e))
  | 0x0B => accept true (.smcast (ofMS w e))
  | 0x0C => accept true (.temit (ofMS w e))
  | 0x0D => accept true (.tcons (ofMS w e))
  | 0x0E => accept true (.scopy (ofMS w e))
  | 0x0F => accept true (.sfill (ofMS w e))
  | 0x10 => accept true (.scancel (ofMS w e))
  | 0x11 => accept (zeroMR w) (.sbar (ofMR w e))
  | 0x12 => accept (zeroMR w) (.swload (ofMR w e))
  | 0x13 => accept (zeroMR w) (.swact (ofMR w e))
  | 0x14 => accept (zeroMR w) (.cfgload (ofMR w e))
  | 0x15 => accept (zeroMR w) (.cfgact (ofMR w e))
  | 0x16 => accept (zeroMR w) (.afire (ofMR w e))
  | 0x17 => accept (zeroMR w) (.aflush (ofMR w e))
  | 0x18 => accept (zeroMR w) (.adepth (ofMR w e))
  | 0x19 => accept (zeroMR w) (.mnopen (ofMR w e))
  | 0x1A => accept true (.mnfeed (ofMS w e))
  | 0x1B => accept (zeroMR w) (.mnflush (ofMR w e))
  | 0x1C => accept true (.mndrain (ofMS w e))
  | 0x1D => if fld w 35 1 == 1 then accept (zeroMR w) (.mncloseA (ofMR w e)) else accept (zeroMR w) (.mnclose (ofMR w e))
  | 0x1E => accept true (.nsdot (ofMS w e))
  | 0x1F => accept (zeroMR w) (.launch (ofMR w e))
  | 0x20 => accept (zeroMR w) (.spawn (ofMR w e))
  | 0x21 => accept (zeroMR w) (.jinit (ofMR w e))
  | 0x22 => if fld w 37 1 == 1 then accept (zeroMR w) (.pgreqRel (ofMR w e)) else accept (zeroMR w) (.pgreq (ofMR w e))
  | 0x23 => accept true (.spref (ofMS w e))
  | 0x24 => accept true (.grecv (ofMS w e))
  | 0x25 => accept true (.sdual (ofMS w e))
  | 0x26 => accept (zeroMR w) (.sstat (ofMR w e))
  | 0x27 => if fld w 35 1 == 1 then accept (zeroMR w) (.lapinRel (ofMR w e)) else accept (zeroMR w) (.lapin (ofMR w e))
  | 0x28 => accept (zeroMR w) (.publish (ofMR w e))
  | 0x29 => accept (zeroMR w) (.cfgpref (ofMR w e))
  | _ => .error .unallocated

/-- Whether a word of a slot is in an extendable form (R33, R37); a NOP never is. -/
def extendable (s : Slot) (w : W64) : Bool :=
  match s with
  | .a =>
    let op := (fld w 26 6).toNat
    (0x10 ≤ op && op ≤ 0x18) || (0x20 ≤ op && op ≤ 0x22) || op == 0x2D || op == 0x2E
  | .v =>
    let op := (fld w 56 8).toNat
    (op ∈ [0x01, 0x02, 0x03, 0x04, 0x05, 0x06, 0x07, 0x08, 0x0B, 0x0C, 0x0D, 0x0E, 0x0F, 0x10, 0x11, 0x12, 0x13,
           0x16, 0x17, 0x18, 0x19, 0x1D, 0x1E, 0x20, 0x24, 0x2A, 0x2B, 0x36]) ||
    (op == 0x25 && fld w 6 1 == 1) || (0x2E ≤ op && op ≤ 0x32)
  | .m =>
    let op := (fld w 56 8).toNat
    1 ≤ op && op ≤ 0x29
  | .b =>
    let op := (fld w 26 6).toNat
    op == 0x01 || op == 0x02 || (0x05 ≤ op && op ≤ 0x07) || op == 0x15 || op == 0x1D || op == 0x21 ||
    ((op ∈ [0x09, 0x0B, 0x0C, 0x0F, 0x10]) && fld w 8 1 == 1)

/-- Whether an operation is once-only (R46), by its slot and word. -/
def onceOnlyWord (s : Slot) (w : W64) : Bool :=
  match s with
  | .a => (fld w 26 6).toNat ∈ [0x2A, 0x2B, 0x2C]
  | .v => (fld w 56 8).toNat == 0x33
  | .m => (fld w 56 8).toNat ∈ [0x10, 0x12, 0x13, 0x14, 0x15, 0x29, 0x17, 0x18, 0x19, 0x1B, 0x1D, 0x1F, 0x20, 0x21,
                                0x22, 0x27, 0x28]
  | .b => false

/-- Decode one slot word. -/
def decodeSlot (s : Slot) (w : W64) (e : Option W32) : Except DecodeErr Instr :=
  match s with
  | .a => decodeA (w.setWidth 32) e
  | .b => decodeB (w.setWidth 32) e
  | .v => decodeV w e
  | .m => decodeM w e

/-- A decoded bundle (R29, R30). -/
structure Bundle where
  rep : Nat
  a : Option Instr
  v : Option Instr
  m : Option Instr
  b : Option Instr
  bytes : Nat
  deriving DecidableEq, Repr

/-- The first failing check of steps 1 and 2 of R52. -/
inductive BundleErr where
  | illegalBundle
  | illegalOp (s : Slot)
  deriving DecidableEq, Repr

/-- A header word (R29, R32). -/
def headerOk (h : W32) : Bool := fld h 31 1 == 1 && fld h 0 20 == 0

/-- The bundle length in bytes that a header gives (R30). -/
def bundleBytes (h : W32) : Nat :=
  4 + 4 * (fld h 27 1).toNat + 8 * (fld h 28 1).toNat + 8 * (fld h 29 1).toNat + 4 * (fld h 30 1).toNat +
  4 * (fld h 20 1).toNat

/-- One 64-bit slot word from two words, low word first (R30). -/
def word64 (ws : List W32) : W64 :=
  match ws with
  | lo :: hi :: _ => hi ++ lo
  | [lo] => lo.setWidth 64
  | [] => 0

/-- The present slot words of a header in the order A, V, M, B, and the words after them (R30). -/
def slotWords (h : W32) (ws : List W32) : List (Slot × W64) × List W32 :=
  let (l1, ws) := if fld h 27 1 == 1 then ([(Slot.a, (ws.headD 0).setWidth 64)], ws.drop 1) else ([], ws)
  let (l2, ws) := if fld h 28 1 == 1 then ([(Slot.v, word64 ws)], ws.drop 2) else ([], ws)
  let (l3, ws) := if fld h 29 1 == 1 then ([(Slot.m, word64 ws)], ws.drop 2) else ([], ws)
  let (l4, ws) := if fld h 30 1 == 1 then ([(Slot.b, (ws.headD 0).setWidth 64)], ws.drop 1) else ([], ws)
  (l1 ++ l2 ++ l3 ++ l4, ws)

/-- The slot that takes the extension: the first present operation in an extendable form (R33). -/
def extTaker : List (Slot × W64) → Option Slot
  | [] => none
  | (s, w) :: rest => if extendable s w then some s else extTaker rest

/-- The operations of gallery cores alone (R355). -/
def galleryOp (i : Instr) : Bool :=
  match i with
  | .greq _ => true
  | .gwr _ => true
  | .gwrm _ => true
  | .gtagwT _ => true
  | .gtagwC _ => true
  | .gtagq _ => true
  | .gbin _ => true
  | .gbdrain _ => true
  | .gbdrainClr _ => true
  | .gdedup _ => true
  | .gdedupClr _ => true
  | .gpool _ => true
  | .gprnd _ => true
  | .ghand _ => true
  | .gfence _ => true
  | _ => false

/-- Decode the present slot words in order; the first failure is reported (R52 step 2). Only a gallery core, `gal`, has the
operations of gallery cores (R355). -/
def decodeSlots (gal : Bool) (taker : Option Slot) (x : W32) : List (Slot × W64) → Except BundleErr (List (Slot × Instr))
  | [] => .ok []
  | (s, w) :: rest =>
    match decodeSlot s w (if taker == some s then some x else none) with
    | .error _ => .error (.illegalOp s)
    | .ok i =>
      if !gal && galleryOp i then .error (.illegalOp s) else
      match decodeSlots gal taker x rest with
      | .error e => .error e
      | .ok l => .ok ((s, i) :: l)

/-- The operation of a slot in a decoded list. -/
def slotOf (s : Slot) (l : List (Slot × Instr)) : Option Instr := (l.find? (fun p => p.1 == s)).map (·.2)

/-- Decode a bundle from its header and the words after it; `gal` applies the mask rule of gallery cores (R34).
Steps 1 (R32, R33, R34, R46) and 2 of R52; the bounds of R31 belong to the fetch. -/
def decodeBundle (gal : Bool) (h : W32) (ws : List W32) : Except BundleErr Bundle :=
  if !headerOk h then .error .illegalBundle else
  let (slots, after) := slotWords h ws
  let rep := (fld h 21 6).toNat
  let x := fld h 20 1 == 1
  let taker := if x then extTaker slots else none
  if gal && !(fld h 28 1 == 0 && fld h 29 1 == 0 && (fld h 27 1 != fld h 30 1)) then .error .illegalBundle
  else if x && taker == none then .error .illegalBundle
  else if rep != 0 && slots.any (fun p => onceOnlyWord p.1 p.2) then .error .illegalBundle
  else
    match decodeSlots gal taker (after.headD 0) slots with
    | .error e => .error e
    | .ok l => .ok { rep := rep, a := slotOf .a l, v := slotOf .v l, m := slotOf .m l, b := slotOf .b l,
                     bytes := bundleBytes h }

/-! ### The words of an instruction: the encoder, from the same formats -/

/-- The word of an operation of the A slot. -/
def encodeA : Instr → BitVec 32
  | .anop => 0
  | .add f => 0x01#6 ++ f.rd ++ f.ra ++ f.rb ++ 0#4 ++ f.gp
  | .sub f => 0x02#6 ++ f.rd ++ f.ra ++ f.rb ++ 0#4 ++ f.gp
  | .and f => 0x03#6 ++ f.rd ++ f.ra ++ f.rb ++ 0#4 ++ f.gp
  | .or f => 0x04#6 ++ f.rd ++ f.ra ++ f.rb ++ 0#4 ++ f.gp
  | .xor f => 0x05#6 ++ f.rd ++ f.ra ++ f.rb ++ 0#4 ++ f.gp
  | .andn f => 0x06#6 ++ f.rd ++ f.ra ++ f.rb ++ 0#4 ++ f.gp
  | .shl f => 0x07#6 ++ f.rd ++ f.ra ++ f.rb ++ 0#4 ++ f.gp
  | .shr f => 0x08#6 ++ f.rd ++ f.ra ++ f.rb ++ 0#4 ++ f.gp
  | .sra f => 0x09#6 ++ f.rd ++ f.ra ++ f.rb ++ 0#4 ++ f.gp
  | .min f => 0x0A#6 ++ f.rd ++ f.ra ++ f.rb ++ 0#4 ++ f.gp
  | .minu f => 0x0A#6 ++ f.rd ++ f.ra ++ f.rb ++ 1#4 ++ f.gp
  | .max f => 0x0B#6 ++ f.rd ++ f.ra ++ f.rb ++ 0#4 ++ f.gp
  | .maxu f => 0x0B#6 ++ f.rd ++ f.ra ++ f.rb ++ 1#4 ++ f.gp
  | .abs f => 0x0C#6 ++ f.rd ++ f.ra ++ 0#6 ++ 0#4 ++ f.gp
  | .clz f => 0x0D#6 ++ f.rd ++ f.ra ++ 0#6 ++ 0#4 ++ f.gp
  | .popc f => 0x0E#6 ++ f.rd ++ f.ra ++ 0#6 ++ 0#4 ++ f.gp
  | .cmp f => 0x0F#6 ++ f.rd ++ f.ra ++ f.rb ++ f.fn ++ f.gp
  | .addi f => 0x10#6 ++ f.rd ++ f.ra ++ f.imm ++ f.gp
  | .andi f => 0x11#6 ++ f.rd ++ f.ra ++ f.imm ++ f.gp
  | .ori f => 0x12#6 ++ f.rd ++ f.ra ++ f.imm ++ f.gp
  | .xori f => 0x13#6 ++ f.rd ++ f.ra ++ f.imm ++ f.gp
  | .shli f => 0x14#6 ++ f.rd ++ f.ra ++ f.imm ++ f.gp
  | .shri f => 0x15#6 ++ f.rd ++ f.ra ++ f.imm ++ f.gp
  | .srai f => 0x16#6 ++ f.rd ++ f.ra ++ f.imm ++ f.gp
  | .movi f => 0x17#6 ++ f.rd ++ 0#6 ++ f.imm ++ f.gp
  | .movhi f => 0x18#6 ++ f.rd ++ f.ra ++ f.imm ++ f.gp
  | .mul f => 0x19#6 ++ f.rd ++ f.ra ++ f.rb ++ 0#4 ++ f.gp
  | .mulh f => 0x1A#6 ++ f.rd ++ f.ra ++ f.rb ++ 0#4 ++ f.gp
  | .mulhu f => 0x1A#6 ++ f.rd ++ f.ra ++ f.rb ++ 1#4 ++ f.gp
  | .mulhsu f => 0x1A#6 ++ f.rd ++ f.ra ++ f.rb ++ 2#4 ++ f.gp
  | .madd f => 0x1B#6 ++ f.rd ++ f.ra ++ f.rb ++ 0#4 ++ f.gp
  | .sel f => 0x1C#6 ++ f.rd ++ f.ra ++ f.rb ++ 0#4 ++ f.gp
  | .bfx f => 0x1D#6 ++ f.rd ++ f.ra ++ f.rb ++ 0#4 ++ f.gp
  | .bfxs f => 0x1D#6 ++ f.rd ++ f.ra ++ f.rb ++ 1#4 ++ f.gp
  | .bfi f => 0x1E#6 ++ f.rd ++ f.ra ++ f.rb ++ 0#4 ++ f.gp
  | .lea f => 0x1F#6 ++ f.rd ++ f.ra ++ f.rb ++ f.fn ++ f.gp
  | .ld f => 0x20#6 ++ f.rd ++ f.ra ++ f.step ++ f.sz ++ f.q ++ f.gp
  | .lds f => 0x21#6 ++ f.rd ++ f.ra ++ f.step ++ f.sz ++ f.q ++ f.gp
  | .st f => 0x22#6 ++ f.rd ++ f.ra ++ f.step ++ f.sz ++ f.q ++ f.gp
  | .ldx f => 0x23#6 ++ f.rd ++ f.ra ++ f.rb ++ f.sz ++ f.q ++ f.gp
  | .ldxs f => 0x24#6 ++ f.rd ++ f.ra ++ f.rb ++ f.sz ++ f.q ++ f.gp
  | .stx f => 0x25#6 ++ f.rd ++ f.ra ++ f.rb ++ f.sz ++ f.q ++ f.gp
  | .aspq f => 0x26#6 ++ f.rd ++ f.ra ++ f.rb ++ 0#4 ++ f.gp
  | .aspc f => 0x27#6 ++ f.rd ++ f.ra ++ 0#6 ++ f.fn ++ f.gp
  | .xfera f => 0x28#6 ++ f.rd ++ f.sf ++ f.src ++ f.sel ++ f.gp
  | .rdcr f => 0x29#6 ++ f.reg ++ 0#6 ++ f.num ++ f.gp
  | .wrcr f => 0x2A#6 ++ 0#6 ++ f.reg ++ f.num ++ f.gp
  | .setcr f => 0x2B#6 ++ 0#6 ++ f.reg ++ f.num ++ f.gp
  | .clrcr f => 0x2C#6 ++ 0#6 ++ f.reg ++ f.num ++ f.gp
  | .addpc f => 0x2D#6 ++ f.rd ++ 0#6 ++ f.imm ++ f.gp
  | .muli f => 0x2E#6 ++ f.rd ++ f.ra ++ f.imm ++ f.gp
  | .ext f => 0x2F#6 ++ f.rd ++ f.ra ++ 0#6 ++ f.fn ++ f.gp
  | .greq f => 0x30#6 ++ f.rd ++ f.ra ++ f.rb ++ f.fn ++ f.gp
  | .gwr f => 0x31#6 ++ f.rd ++ f.ra ++ f.rb ++ f.fn ++ f.gp
  | .gwrm f => 0x32#6 ++ f.rd ++ f.ra ++ f.rb ++ f.fn ++ f.gp
  | .gtagwT f => 0x33#6 ++ f.rd ++ f.ra ++ 0#6 ++ 0#4 ++ f.gp
  | .gtagwC f => 0x33#6 ++ f.rd ++ f.ra ++ 0#6 ++ 1#4 ++ f.gp
  | .gtagq f => 0x34#6 ++ f.rd ++ f.ra ++ 0#6 ++ 0#4 ++ f.gp
  | .gbin f => 0x35#6 ++ f.rd ++ f.ra ++ f.rb ++ 0#4 ++ f.gp
  | .gbdrain f => 0x36#6 ++ f.rd ++ 0#12 ++ 0#4 ++ f.gp
  | .gbdrainClr f => 0x36#6 ++ f.rd ++ 0#12 ++ 1#4 ++ f.gp
  | .gdedup f => 0x37#6 ++ f.rd ++ f.ra ++ 0#6 ++ 0#4 ++ f.gp
  | .gdedupClr f => 0x37#6 ++ f.rd ++ 0#12 ++ 1#4 ++ f.gp
  | .gpool f => 0x38#6 ++ 0#6 ++ f.ra ++ f.rb ++ f.fn ++ f.gp
  | .gprnd f => 0x39#6 ++ 0#6 ++ f.ra ++ f.rb ++ f.fn ++ f.gp
  | .ghand f => 0x3A#6 ++ f.rd ++ f.ra ++ f.rb ++ f.fn ++ f.gp
  | .gfence f => 0x3B#6 ++ 0#6 ++ f.ra ++ 0#10 ++ f.gp
  | _ => 0

/-- The word of an operation of the B slot. -/
def encodeB : Instr → BitVec 32
  | .bnop => 0
  | .br f => 0x01#6 ++ f.gp ++ f.gn ++ f.ofs
  | .call f => 0x02#6 ++ f.gp ++ f.gn ++ f.ofs
  | .ret f => 0x03#6 ++ f.gp ++ f.gn ++ 0#12 ++ 0#9
  | .brx f => 0x04#6 ++ f.gp ++ f.gn ++ 0#12 ++ 0#9
  | .loop f => 0x05#6 ++ f.lc ++ f.cnt ++ f.last
  | .loopr f => 0x06#6 ++ f.lc ++ 0#12 ++ f.last
  | .loops f => 0x07#6 ++ f.lc ++ 0#8 ++ f.hnd ++ f.last
  | .waitc f => 0x08#6 ++ f.gp ++ 0#2 ++ f.nld ++ f.nst ++ f.nstr ++ f.narr ++ f.nsync
  | .wait f => 0x09#6 ++ f.gp ++ f.gn ++ f.va ++ f.vb ++ f.vd ++ f.imm ++ 0#4 ++ f.fn
  | .fence f => 0x0A#6 ++ f.gp ++ f.gn ++ 0#18 ++ f.scope
  | .acquire f => 0x0B#6 ++ f.gp ++ f.gn ++ f.va ++ f.vb ++ f.vd ++ f.imm ++ 0#4 ++ f.fn
  | .acquireX f => 0x0B#6 ++ f.gp ++ f.gn ++ f.va ++ 0#8 ++ 2#9
  | .release f => 0x0C#6 ++ f.gp ++ f.gn ++ f.va ++ f.vb ++ 0#4 ++ f.imm ++ 0#4 ++ f.fn
  | .releaseX f => 0x0C#6 ++ f.gp ++ f.gn ++ f.va ++ 0#8 ++ 2#9
  | .bind f => 0x0D#6 ++ f.gp ++ f.gn ++ f.va ++ f.vb ++ f.vd ++ 0#6 ++ f.scope
  | .unbind f => 0x0E#6 ++ f.gp ++ f.gn ++ f.va ++ 0#8 ++ 0#9
  | .unbindAll f => 0x0E#6 ++ f.gp ++ f.gn ++ 0#12 ++ 1#9
  | .atom f => 0x0F#6 ++ f.gp ++ f.gn ++ f.va ++ f.vb ++ f.vd ++ f.imm ++ 0#4 ++ f.fn
  | .atomnr f => 0x10#6 ++ f.gp ++ f.gn ++ f.va ++ f.vb ++ 0#4 ++ f.imm ++ 0#4 ++ f.fn
  | .atomcas f => 0x11#6 ++ f.gp ++ f.gn ++ f.va ++ f.vb ++ f.vd ++ 0#9
  | .join f => 0x12#6 ++ f.gp ++ f.gn ++ 0#12 ++ 0#9
  | .pwait f => 0x13#6 ++ f.gp ++ f.gn ++ f.port ++ 0#16 ++ f.dir
  | .evwait f => 0x14#6 ++ f.gp ++ f.gn ++ 0#13 ++ f.mask
  | .yield f => 0x15#6 ++ f.gp ++ f.gn ++ 0#12 ++ f.n
  | .exit f => 0x16#6 ++ f.gp ++ f.gn ++ 0#12 ++ f.n
  | .trap f => 0x17#6 ++ f.gp ++ f.gn ++ 0#12 ++ f.n
  | .eret f => 0x18#6 ++ f.gp ++ f.gn ++ 0#20 ++ f.skip
  | .svc f => 0x19#6 ++ f.gp ++ f.gn ++ f.va ++ 0#4 ++ f.vd ++ f.n
  | .bkpt f => 0x1A#6 ++ f.gp ++ f.gn ++ 0#12 ++ f.n
  | .plog f => 0x1B#6 ++ f.gp ++ f.gn ++ f.va ++ f.vb ++ f.vd ++ 0#5 ++ f.tt
  | .vmlog f => 0x1C#6 ++ f.gp ++ f.gn ++ f.va ++ f.vb ++ f.vd ++ 0#5 ++ f.tt
  | .lci f => 0x1D#6 ++ f.lc ++ f.cnt ++ 0#12
  | .xferb f => 0x1E#6 ++ f.dk ++ f.dst ++ f.sf ++ f.src ++ f.ty ++ 0#6
  | .stkclr f => 0x1F#6 ++ f.gp ++ f.gn ++ 0#12 ++ 0#9
  | .ifence f => 0x20#6 ++ f.gp ++ f.gn ++ 0#12 ++ 0#9
  | .calwait f => 0x21#6 ++ f.gp ++ f.gn ++ 0#12 ++ f.n
  | _ => 0

/-- The word of an operation of the V slot. -/
def encodeV : Instr → BitVec 64
  | .vnop => 0
  | .vadd f => 0x01#8 ++ f.vd ++ f.va ++ f.vb ++ f.vc ++ f.vm ++ f.ty ++ f.rm ++ f.sm ++ f.fn ++ 0#2
  | .vsub f => 0x02#8 ++ f.vd ++ f.va ++ f.vb ++ f.vc ++ f.vm ++ f.ty ++ f.rm ++ f.sm ++ f.fn ++ 0#2
  | .vmul f => 0x03#8 ++ f.vd ++ f.va ++ f.vb ++ f.vc ++ f.vm ++ f.ty ++ f.rm ++ f.sm ++ f.fn ++ 0#2
  | .vfma f => 0x04#8 ++ f.vd ++ f.va ++ f.vb ++ f.vc ++ f.vm ++ f.ty ++ f.rm ++ f.sm ++ f.fn ++ 0#2
  | .vfms f => 0x05#8 ++ f.vd ++ f.va ++ f.vb ++ f.vc ++ f.vm ++ f.ty ++ f.rm ++ f.sm ++ f.fn ++ 0#2
  | .vfnma f => 0x06#8 ++ f.vd ++ f.va ++ f.vb ++ f.vc ++ f.vm ++ f.ty ++ f.rm ++ f.sm ++ f.fn ++ 0#2
  | .vmin f => 0x07#8 ++ f.vd ++ f.va ++ f.vb ++ f.vc ++ f.vm ++ f.ty ++ f.rm ++ f.sm ++ f.fn ++ 0#2
  | .vmax f => 0x08#8 ++ f.vd ++ f.va ++ f.vb ++ f.vc ++ f.vm ++ f.ty ++ f.rm ++ f.sm ++ f.fn ++ 0#2
  | .vabs f => 0x09#8 ++ f.vd ++ f.va ++ f.vb ++ f.vc ++ f.vm ++ f.ty ++ f.rm ++ f.sm ++ f.fn ++ 0#2
  | .vneg f => 0x0A#8 ++ f.vd ++ f.va ++ f.vb ++ f.vc ++ f.vm ++ f.ty ++ f.rm ++ f.sm ++ f.fn ++ 0#2
  | .vand f => 0x0B#8 ++ f.vd ++ f.va ++ f.vb ++ f.vc ++ f.vm ++ f.ty ++ f.rm ++ f.sm ++ f.fn ++ 0#2
  | .vor f => 0x0C#8 ++ f.vd ++ f.va ++ f.vb ++ f.vc ++ f.vm ++ f.ty ++ f.rm ++ f.sm ++ f.fn ++ 0#2
  | .vxor f => 0x0D#8 ++ f.vd ++ f.va ++ f.vb ++ f.vc ++ f.vm ++ f.ty ++ f.rm ++ f.sm ++ f.fn ++ 0#2
  | .vandn f => 0x0E#8 ++ f.vd ++ f.va ++ f.vb ++ f.vc ++ f.vm ++ f.ty ++ f.rm ++ f.sm ++ f.fn ++ 0#2
  | .vshl f => 0x0F#8 ++ f.vd ++ f.va ++ f.vb ++ f.vc ++ f.vm ++ f.ty ++ f.rm ++ f.sm ++ f.fn ++ 0#2
  | .vshr f => 0x10#8 ++ f.vd ++ f.va ++ f.vb ++ f.vc ++ f.vm ++ f.ty ++ f.rm ++ f.sm ++ f.fn ++ 0#2
  | .vsra f => 0x11#8 ++ f.vd ++ f.va ++ f.vb ++ f.vc ++ f.vm ++ f.ty ++ f.rm ++ f.sm ++ f.fn ++ 0#2
  | .vcmp f => 0x12#8 ++ f.vd ++ f.va ++ f.vb ++ f.vc ++ f.vm ++ f.ty ++ f.rm ++ f.sm ++ f.fn ++ 0#2
  | .vsel f => 0x13#8 ++ f.vd ++ f.va ++ f.vb ++ f.vc ++ f.vm ++ f.ty ++ f.rm ++ f.sm ++ f.fn ++ 0#2
  | .vmov f => 0x14#8 ++ f.vd ++ f.va ++ f.vb ++ f.vc ++ f.vm ++ f.ty ++ f.rm ++ f.sm ++ f.fn ++ 0#2
  | .vbcst f => 0x15#8 ++ f.vd ++ f.va ++ f.vb ++ f.vc ++ f.vm ++ f.ty ++ f.rm ++ f.sm ++ f.fn ++ 0#2
  | .vperm f => 0x16#8 ++ f.vd ++ f.va ++ f.vb ++ f.vc ++ f.vm ++ f.ty ++ f.rm ++ f.sm ++ f.fn ++ 0#2
  | .vslide f => 0x17#8 ++ f.vd ++ f.va ++ f.vb ++ f.vc ++ f.vm ++ f.ty ++ f.rm ++ f.sm ++ f.fn ++ 0#2
  | .vzip f => 0x18#8 ++ f.vd ++ f.va ++ f.vb ++ f.vc ++ f.vm ++ f.ty ++ f.rm ++ f.sm ++ f.fn ++ 0#2
  | .vunzip f => 0x19#8 ++ f.vd ++ f.va ++ f.vb ++ f.vc ++ f.vm ++ f.ty ++ f.rm ++ f.sm ++ f.fn ++ 0#2
  | .vcvt f => 0x1A#8 ++ f.vd ++ f.va ++ f.vb ++ f.vc ++ f.vm ++ f.ty ++ f.rm ++ f.sm ++ f.fn ++ 0#2
  | .vpack f => 0x1B#8 ++ f.vd ++ f.va ++ f.vb ++ f.vc ++ f.vm ++ f.ty ++ f.rm ++ f.sm ++ f.fn ++ 0#2
  | .vwiden f => 0x1C#8 ++ f.vd ++ f.va ++ f.vb ++ f.vc ++ f.vm ++ f.ty ++ f.rm ++ f.sm ++ f.fn ++ 0#2
  | .vqnt f => 0x1D#8 ++ f.vd ++ f.va ++ f.vb ++ f.vc ++ f.vm ++ f.ty ++ f.rm ++ f.sm ++ f.fn ++ 0#2
  | .vdqnt f => 0x1E#8 ++ f.vd ++ f.va ++ f.vb ++ f.vc ++ f.vm ++ f.ty ++ f.rm ++ f.sm ++ f.fn ++ 0#2
  | .vamax f => 0x1F#8 ++ f.vd ++ f.va ++ f.vb ++ f.vc ++ f.vm ++ f.ty ++ f.rm ++ f.sm ++ f.fn ++ 0#2
  | .vscale f => 0x20#8 ++ f.vd ++ f.va ++ f.vb ++ f.vc ++ f.vm ++ f.ty ++ f.rm ++ f.sm ++ f.fn ++ 0#2
  | .vrsum f => 0x21#8 ++ f.vd ++ f.va ++ f.vb ++ f.vc ++ f.vm ++ f.ty ++ f.rm ++ f.sm ++ f.fn ++ 0#2
  | .vrmax f => 0x22#8 ++ f.vd ++ f.va ++ f.vb ++ f.vc ++ f.vm ++ f.ty ++ f.rm ++ f.sm ++ f.fn ++ 0#2
  | .vrmin f => 0x23#8 ++ f.vd ++ f.va ++ f.vb ++ f.vc ++ f.vm ++ f.ty ++ f.rm ++ f.sm ++ f.fn ++ 0#2
  | .vrdot f => 0x24#8 ++ f.vd ++ f.va ++ f.vb ++ f.vc ++ f.vm ++ f.ty ++ f.rm ++ f.sm ++ f.fn ++ 0#2
  | .vlacc f => 0x25#8 ++ f.vd ++ f.va ++ f.vb ++ f.vc ++ f.vm ++ f.ty ++ f.rm ++ f.sm ++ f.fn ++ 0#2
  | .vlarnd f => 0x26#8 ++ f.vd ++ f.va ++ f.vb ++ f.vc ++ f.vm ++ f.ty ++ f.rm ++ f.sm ++ f.fn ++ 0#2
  | .vclass f => 0x27#8 ++ f.vd ++ f.va ++ f.vb ++ f.vc ++ f.vm ++ f.ty ++ f.rm ++ f.sm ++ f.fn ++ 0#2
  | .vpopc f => 0x28#8 ++ f.vd ++ f.va ++ f.vb ++ f.vc ++ f.vm ++ f.ty ++ f.rm ++ f.sm ++ f.fn ++ 0#2
  | .vclz f => 0x29#8 ++ f.vd ++ f.va ++ f.vb ++ f.vc ++ f.vm ++ f.ty ++ f.rm ++ f.sm ++ f.fn ++ 0#2
  | .vmaddi f => 0x2A#8 ++ f.vd ++ f.va ++ f.vb ++ f.vc ++ f.vm ++ f.ty ++ f.rm ++ f.sm ++ f.fn ++ 0#2
  | .vabsd f => 0x2B#8 ++ f.vd ++ f.va ++ f.vb ++ f.vc ++ f.vm ++ f.ty ++ f.rm ++ f.sm ++ f.fn ++ 0#2
  | .vrcp f => 0x2C#8 ++ f.vd ++ f.va ++ f.vb ++ f.vc ++ f.vm ++ f.ty ++ f.rm ++ f.sm ++ f.fn ++ 0#2
  | .vrsq f => 0x2D#8 ++ f.vd ++ f.va ++ f.vb ++ f.vc ++ f.vm ++ f.ty ++ f.rm ++ f.sm ++ f.fn ++ 0#2
  | .vld f => 0x2E#8 ++ f.vd ++ f.va ++ f.vb ++ f.ofs ++ f.vm ++ f.ty ++ f.rm ++ f.sm ++ f.step ++ f.q
  | .vst f => 0x2F#8 ++ f.vd ++ f.va ++ f.vb ++ f.ofs ++ f.vm ++ f.ty ++ f.rm ++ f.sm ++ f.step ++ f.q
  | .vldx f => 0x30#8 ++ f.vd ++ f.va ++ f.vb ++ f.ofs ++ f.vm ++ f.ty ++ f.rm ++ f.sm ++ f.step ++ f.q
  | .vstx f => 0x31#8 ++ f.vd ++ f.va ++ f.vb ++ f.ofs ++ f.vm ++ f.ty ++ f.rm ++ f.sm ++ f.step ++ f.q
  | .vldb f => 0x32#8 ++ f.vd ++ f.va ++ f.vb ++ f.ofs ++ f.vm ++ f.ty ++ f.rm ++ f.sm ++ f.step ++ f.q
  | .vlscale f => 0x33#8 ++ f.vd ++ f.va ++ f.vb ++ f.vc ++ f.vm ++ f.ty ++ f.rm ++ f.sm ++ f.fn ++ 0#2
  | .xferv f => 0x34#8 ++ f.vd ++ f.src ++ f.lane ++ f.bc ++ 0#15 ++ f.vm ++ f.ty ++ 0#12
  | .viota f => 0x35#8 ++ f.vd ++ f.va ++ f.vb ++ f.vc ++ f.vm ++ f.ty ++ f.rm ++ f.sm ++ f.fn ++ 0#2
  | .vcpsgn f => 0x36#8 ++ f.vd ++ f.va ++ f.vb ++ f.vc ++ f.vm ++ f.ty ++ f.rm ++ f.sm ++ f.fn ++ 0#2
  | .vrint f => 0x37#8 ++ f.vd ++ f.va ++ f.vb ++ f.vc ++ f.vm ++ f.ty ++ f.rm ++ f.sm ++ f.fn ++ 0#2
  | _ => 0

/-- The word of an operation of the M slot. -/
def encodeM : Instr → BitVec 64
  | .mnop => 0
  | .mset f => 0x01#8 ++ f.md ++ f.ma ++ f.mb ++ f.fn ++ f.gp ++ 0#15 ++ f.imm
  | .msetHi f => 0x01#8 ++ f.md ++ f.ma ++ f.mb ++ f.fn ++ f.gp ++ 0#15 ++ f.imm
  | .maddM f => 0x02#8 ++ f.md ++ f.ma ++ f.mb ++ f.fn ++ f.gp ++ 0#15 ++ f.imm
  | .mmov f => 0x03#8 ++ f.md ++ f.ma ++ f.mb ++ f.fn ++ f.gp ++ 0#15 ++ f.imm
  | .xferm f => 0x04#8 ++ f.md ++ f.src ++ 0#4 ++ 0#6 ++ f.gp ++ 0#15 ++ 0#16
  | .saff f => 0x05#8 ++ f.mp ++ f.mb ++ f.sh ++ f.port ++ f.step ++ f.gp ++ f.fn ++ f.follow ++ f.imm
  | .saffw f => 0x06#8 ++ f.mp ++ f.mb ++ f.sh ++ f.port ++ f.step ++ f.gp ++ f.fn ++ f.follow ++ f.imm
  | .sind f => 0x07#8 ++ f.mp ++ f.mb ++ f.sh ++ f.port ++ f.step ++ f.gp ++ f.fn ++ f.follow ++ f.imm
  | .sindw f => 0x08#8 ++ f.mp ++ f.mb ++ f.sh ++ f.port ++ f.step ++ f.gp ++ f.fn ++ f.follow ++ f.imm
  | .srec f => 0x09#8 ++ f.mp ++ f.mb ++ f.sh ++ f.port ++ f.step ++ f.gp ++ f.fn ++ f.follow ++ f.imm
  | .swin f => 0x0A#8 ++ f.mp ++ f.mb ++ f.sh ++ f.port ++ f.step ++ f.gp ++ f.fn ++ f.follow ++ f.imm
  | .smcast f => 0x0B#8 ++ f.mp ++ f.mb ++ f.sh ++ f.port ++ f.step ++ f.gp ++ f.fn ++ f.follow ++ f.imm
  | .temit f => 0x0C#8 ++ f.mp ++ f.mb ++ f.sh ++ f.port ++ f.step ++ f.gp ++ f.fn ++ f.follow ++ f.imm
  | .tcons f => 0x0D#8 ++ f.mp ++ f.mb ++ f.sh ++ f.port ++ f.step ++ f.gp ++ f.fn ++ f.follow ++ f.imm
  | .scopy f => 0x0E#8 ++ f.mp ++ f.mb ++ f.sh ++ f.port ++ f.step ++ f.gp ++ f.fn ++ f.follow ++ f.imm
  | .sfill f => 0x0F#8 ++ f.mp ++ f.mb ++ f.sh ++ f.port ++ f.step ++ f.gp ++ f.fn ++ f.follow ++ f.imm
  | .scancel f => 0x10#8 ++ f.mp ++ f.mb ++ f.sh ++ f.port ++ f.step ++ f.gp ++ f.fn ++ f.follow ++ f.imm
  | .sbar f => 0x11#8 ++ f.md ++ f.ma ++ f.mb ++ f.fn ++ f.gp ++ 0#15 ++ f.imm
  | .swload f => 0x12#8 ++ f.md ++ f.ma ++ f.mb ++ f.fn ++ f.gp ++ 0#15 ++ f.imm
  | .swact f => 0x13#8 ++ f.md ++ f.ma ++ f.mb ++ f.fn ++ f.gp ++ 0#15 ++ f.imm
  | .cfgload f => 0x14#8 ++ f.md ++ f.ma ++ f.mb ++ f.fn ++ f.gp ++ 0#15 ++ f.imm
  | .cfgact f => 0x15#8 ++ f.md ++ f.ma ++ f.mb ++ f.fn ++ f.gp ++ 0#15 ++ f.imm
  | .afire f => 0x16#8 ++ f.md ++ f.ma ++ f.mb ++ f.fn ++ f.gp ++ 0#15 ++ f.imm
  | .aflush f => 0x17#8 ++ f.md ++ f.ma ++ f.mb ++ f.fn ++ f.gp ++ 0#15 ++ f.imm
  | .adepth f => 0x18#8 ++ f.md ++ f.ma ++ f.mb ++ f.fn ++ f.gp ++ 0#15 ++ f.imm
  | .mnopen f => 0x19#8 ++ f.md ++ f.ma ++ f.mb ++ f.fn ++ f.gp ++ 0#15 ++ f.imm
  | .mnfeed f => 0x1A#8 ++ f.mp ++ f.mb ++ f.sh ++ f.port ++ f.step ++ f.gp ++ f.fn ++ f.follow ++ f.imm
  | .mnflush f => 0x1B#8 ++ f.md ++ f.ma ++ f.mb ++ f.fn ++ f.gp ++ 0#15 ++ f.imm
  | .mndrain f => 0x1C#8 ++ f.mp ++ f.mb ++ f.sh ++ f.port ++ f.step ++ f.gp ++ f.fn ++ f.follow ++ f.imm
  | .mnclose f => 0x1D#8 ++ f.md ++ f.ma ++ f.mb ++ f.fn ++ f.gp ++ 0#15 ++ f.imm
  | .mncloseA f => 0x1D#8 ++ f.md ++ f.ma ++ f.mb ++ f.fn ++ f.gp ++ 0#15 ++ f.imm
  | .nsdot f => 0x1E#8 ++ f.mp ++ f.mb ++ f.sh ++ f.port ++ f.step ++ f.gp ++ f.fn ++ f.follow ++ f.imm
  | .launch f => 0x1F#8 ++ f.md ++ f.ma ++ f.mb ++ f.fn ++ f.gp ++ 0#15 ++ f.imm
  | .spawn f => 0x20#8 ++ f.md ++ f.ma ++ f.mb ++ f.fn ++ f.gp ++ 0#15 ++ f.imm
  | .jinit f => 0x21#8 ++ f.md ++ f.ma ++ f.mb ++ f.fn ++ f.gp ++ 0#15 ++ f.imm
  | .pgreq f => 0x22#8 ++ f.md ++ f.ma ++ f.mb ++ f.fn ++ f.gp ++ 0#15 ++ f.imm
  | .pgreqRel f => 0x22#8 ++ f.md ++ f.ma ++ f.mb ++ f.fn ++ f.gp ++ 0#15 ++ f.imm
  | .spref f => 0x23#8 ++ f.mp ++ f.mb ++ f.sh ++ f.port ++ f.step ++ f.gp ++ f.fn ++ f.follow ++ f.imm
  | .grecv f => 0x24#8 ++ f.mp ++ f.mb ++ f.sh ++ f.port ++ f.step ++ f.gp ++ f.fn ++ f.follow ++ f.imm
  | .sdual f => 0x25#8 ++ f.mp ++ f.mb ++ f.sh ++ f.port ++ f.step ++ f.gp ++ f.fn ++ f.follow ++ f.imm
  | .sstat f => 0x26#8 ++ f.md ++ f.ma ++ f.mb ++ f.fn ++ f.gp ++ 0#15 ++ f.imm
  | .lapin f => 0x27#8 ++ f.md ++ f.ma ++ f.mb ++ f.fn ++ f.gp ++ 0#15 ++ f.imm
  | .lapinRel f => 0x27#8 ++ f.md ++ f.ma ++ f.mb ++ f.fn ++ f.gp ++ 0#15 ++ f.imm
  | .publish f => 0x28#8 ++ f.md ++ f.ma ++ f.mb ++ f.fn ++ f.gp ++ 0#15 ++ f.imm
  | .cfgpref f => 0x29#8 ++ f.md ++ f.ma ++ f.mb ++ f.fn ++ f.gp ++ 0#15 ++ f.imm
  | _ => 0

/-- The extension an operation took. -/
def Instr.extOf : Instr → Option W32
  | .addi f => f.ext
  | .andi f => f.ext
  | .ori f => f.ext
  | .xori f => f.ext
  | .shli f => f.ext
  | .shri f => f.ext
  | .srai f => f.ext
  | .movi f => f.ext
  | .movhi f => f.ext
  | .ld f => f.ext
  | .lds f => f.ext
  | .st f => f.ext
  | .addpc f => f.ext
  | .muli f => f.ext
  | .br f => f.ext
  | .call f => f.ext
  | .loop f => f.ext
  | .loopr f => f.ext
  | .loops f => f.ext
  | .wait f => f.ext
  | .acquire f => f.ext
  | .release f => f.ext
  | .atom f => f.ext
  | .atomnr f => f.ext
  | .yield f => f.ext
  | .lci f => f.ext
  | .calwait f => f.ext
  | .vadd f => f.ext
  | .vsub f => f.ext
  | .vmul f => f.ext
  | .vfma f => f.ext
  | .vfms f => f.ext
  | .vfnma f => f.ext
  | .vmin f => f.ext
  | .vmax f => f.ext
  | .vabs f => f.ext
  | .vneg f => f.ext
  | .vand f => f.ext
  | .vor f => f.ext
  | .vxor f => f.ext
  | .vandn f => f.ext
  | .vshl f => f.ext
  | .vshr f => f.ext
  | .vsra f => f.ext
  | .vcmp f => f.ext
  | .vsel f => f.ext
  | .vmov f => f.ext
  | .vbcst f => f.ext
  | .vperm f => f.ext
  | .vslide f => f.ext
  | .vzip f => f.ext
  | .vunzip f => f.ext
  | .vcvt f => f.ext
  | .vpack f => f.ext
  | .vwiden f => f.ext
  | .vqnt f => f.ext
  | .vdqnt f => f.ext
  | .vamax f => f.ext
  | .vscale f => f.ext
  | .vrsum f => f.ext
  | .vrmax f => f.ext
  | .vrmin f => f.ext
  | .vrdot f => f.ext
  | .vlacc f => f.ext
  | .vlarnd f => f.ext
  | .vclass f => f.ext
  | .vpopc f => f.ext
  | .vclz f => f.ext
  | .vmaddi f => f.ext
  | .vabsd f => f.ext
  | .vrcp f => f.ext
  | .vrsq f => f.ext
  | .vld f => f.ext
  | .vst f => f.ext
  | .vldx f => f.ext
  | .vstx f => f.ext
  | .vldb f => f.ext
  | .vlscale f => f.ext
  | .viota f => f.ext
  | .vcpsgn f => f.ext
  | .vrint f => f.ext
  | .mset f => f.ext
  | .msetHi f => f.ext
  | .maddM f => f.ext
  | .mmov f => f.ext
  | .xferm f => f.ext
  | .saff f => f.ext
  | .saffw f => f.ext
  | .sind f => f.ext
  | .sindw f => f.ext
  | .srec f => f.ext
  | .swin f => f.ext
  | .smcast f => f.ext
  | .temit f => f.ext
  | .tcons f => f.ext
  | .scopy f => f.ext
  | .sfill f => f.ext
  | .scancel f => f.ext
  | .sbar f => f.ext
  | .swload f => f.ext
  | .swact f => f.ext
  | .cfgload f => f.ext
  | .cfgact f => f.ext
  | .afire f => f.ext
  | .aflush f => f.ext
  | .adepth f => f.ext
  | .mnopen f => f.ext
  | .mnfeed f => f.ext
  | .mnflush f => f.ext
  | .mndrain f => f.ext
  | .mnclose f => f.ext
  | .mncloseA f => f.ext
  | .nsdot f => f.ext
  | .launch f => f.ext
  | .spawn f => f.ext
  | .jinit f => f.ext
  | .pgreq f => f.ext
  | .pgreqRel f => f.ext
  | .spref f => f.ext
  | .grecv f => f.ext
  | .sdual f => f.ext
  | .sstat f => f.ext
  | .lapin f => f.ext
  | .lapinRel f => f.ext
  | .publish f => f.ext
  | .cfgpref f => f.ext
  | _ => none

/-- The slot, word and extension of a slot operation; an event has none. -/
def encode (i : Instr) : Option (Slot × W64 × Option W32) :=
  match i.slot with
  | some .a => some (.a, (encodeA i).setWidth 64, i.extOf)
  | some .b => some (.b, (encodeB i).setWidth 64, i.extOf)
  | some .v => some (.v, encodeV i, i.extOf)
  | some .m => some (.m, encodeM i, i.extOf)
  | none => none

/-- Bytes of a 32-bit word, lowest address first (R2). -/
def wordBytes (w : W32) : List Byte := [fld w 0 8, fld w 8 8, fld w 16 8, fld w 24 8]

/-- The bundle that holds one operation alone, as words (R29, R30). -/
def soloWords (s : Slot) (w : W64) (e : Option W32) : List W32 :=
  let x : BitVec 32 := if e.isSome then 0x00100000#32 else 0#32
  let tail := match e with | some v => [v] | none => []
  match s with
  | .a => (0x88000000#32 ||| x) :: w.setWidth 32 :: tail
  | .b => (0xC0000000#32 ||| x) :: w.setWidth 32 :: tail
  | .v => (0x90000000#32 ||| x) :: w.setWidth 32 :: fld w 32 32 :: tail
  | .m => (0xA0000000#32 ||| x) :: w.setWidth 32 :: fld w 32 32 :: tail

/-- The slot word that a row of the opcode table stands for. A table row is a slot word without its slot: a word of
at most 32 bits is read as an A word, and as a B word where the A slot refuses it; a longer one as a V word, then as an M
word (log entry 6). -/
def tableSlot (nbits w : Nat) : Option (Slot × Instr) :=
  let pick (s t : Slot) (x : W64) : Option (Slot × Instr) :=
    match decodeSlot s x none with
    | .ok i => some (s, i)
    | .error _ =>
      match decodeSlot t x none with
      | .ok i => some (t, i)
      | .error _ => none
  if nbits ≤ 32 then pick .a .b (BitVec.ofNat 64 (w % 2 ^ 32)) else pick .v .m (BitVec.ofNat 64 w)

/-- The instruction the decoder reads from a row's word. -/
def decodeTableWord (nbits w : Nat) : Option Instr := (tableSlot nbits w).map (·.2)

end Sys2Proof
end

