-- ==== Sys2Proof/Machine/Assoc.lean ====
section
/-! DEFINITION. Keyed plain data: sorted association lists. A `Map` keeps one record per key, an absent key standing
for a default; a `Mem` is a byte memory and a `RegFile` a register file in canonical form: keys strictly rising, and no
entry equal to what an absent key reads as. -/

namespace Sys2Proof.Machine

/-- Records by number, keys rising. -/
abbrev Map (α : Type) := List (Nat × α)

/-- The record at a key. -/
def mapGet? {α : Type} (k : Nat) : Map α → Option α
  | [] => none
  | (j, x) :: t => if j = k then some x else mapGet? k t

/-- The record at a key, or the default. -/
def mapGet {α : Type} (d : α) (m : Map α) (k : Nat) : α := (mapGet? k m).getD d

/-- Set the record at a key. -/
def mapPut {α : Type} (k : Nat) (x : α) : Map α → Map α
  | [] => [(k, x)]
  | (j, y) :: t => if k < j then (k, x) :: (j, y) :: t else if j = k then (k, x) :: t else (j, y) :: mapPut k x t

/-- Remove a key. -/
def mapDel {α : Type} (k : Nat) : Map α → Map α
  | [] => []
  | (j, y) :: t => if j = k then mapDel k t else (j, y) :: mapDel k t

/-- Set a key, or remove it when the value is the default: keeps the canonical form. -/
def mapSet {α : Type} [DecidableEq α] (d : α) (k : Nat) (x : α) (m : Map α) : Map α :=
  if x = d then mapDel k m else mapPut k x m

/-- Keys strictly rising from a bound, no default value listed. -/
def mapWfFrom {α : Type} [DecidableEq α] (d : α) : Nat → Map α → Bool
  | _, [] => true
  | lo, (j, x) :: t => decide (lo ≤ j) && decide (x ≠ d) && mapWfFrom d (j + 1) t

/-- The canonical form. -/
def mapWf {α : Type} [DecidableEq α] (d : α) (m : Map α) : Bool := mapWfFrom d 0 m

/-- A byte memory: cells in canonical form over the byte an unlisted address reads as, 0 (R260, R457; log entry 4). -/
abbrev Mem := List Host.Cell

/-- One byte. -/
def Mem.read (m : Mem) (a : Nat) : Byte := mapGet 0 m a

/-- Write one byte, keeping the canonical form. -/
def Mem.write (m : Mem) (a : Nat) (b : Byte) : Mem := mapSet 0 a b m

/-- Canonical form of a memory. -/
def Memory.wf (m : Mem) : Bool := mapWf (0 : Byte) m

/-- `n` bytes from address `a` as one little-endian number (R2). -/
def Mem.readLE (m : Mem) (a : Nat) : Nat → Nat
  | 0 => 0
  | n + 1 => (m.read a).toNat + 256 * Mem.readLE m (a + 1) n

/-- Write the low `n` bytes of `v` at `a`, little-endian. -/
def Mem.writeLE (m : Mem) (a : Nat) (v : Nat) : Nat → Mem
  | 0 => m
  | n + 1 => Mem.writeLE (m.write a (BitVec.ofNat 8 v)) (a + 1) (v / 256) n

/-- `n` bytes from `a` as a list. -/
def Mem.readBytes (m : Mem) (a : Nat) : Nat → List Byte
  | 0 => []
  | n + 1 => m.read a :: Mem.readBytes m (a + 1) n

/-- Write a list of bytes at `a`. -/
def Mem.writeBytes (m : Mem) (a : Nat) : List Byte → Mem
  | [] => m
  | b :: bs => Mem.writeBytes (m.write a b) (a + 1) bs

/-- Write the bytes that are present; `none` leaves a byte alone. -/
def Mem.writeMasked (m : Mem) (a : Nat) : List (Option Byte) → Mem
  | [] => m
  | none :: bs => Mem.writeMasked m (a + 1) bs
  | some b :: bs => Mem.writeMasked (m.write a b) (a + 1) bs

/-- Write cells of another memory, moved up by `a`. -/
def Mem.writeCells (m : Mem) (a : Nat) (l : Mem) : Mem := l.foldl (fun m c => m.write (a + c.1) c.2) m

/-- Drop every listed byte in [a, a+n): they read as zero. -/
def Mem.clear (m : Mem) (a n : Nat) : Mem := m.filter (fun c => decide (c.1 < a) || decide (a + n ≤ c.1))

/-- Little-endian number of a byte list. -/
def bytesToNat : List Byte → Nat
  | [] => 0
  | b :: bs => b.toNat + 256 * bytesToNat bs

/-- The low `n` bytes of a number. -/
def natToBytes (v : Nat) : Nat → List Byte
  | 0 => []
  | n + 1 => BitVec.ofNat 8 v :: natToBytes (v / 256) n

/-- A register file of width `w`: an absent register reads zero (R24, R26). -/
abbrev RegFile (w : Nat) := Map (BitVec w)

/-- One register. -/
def RegFile.read {w : Nat} (f : RegFile w) (n : Nat) : BitVec w := mapGet 0 f n

/-- Write one register. -/
def RegFile.write {w : Nat} (f : RegFile w) (n : Nat) (v : BitVec w) : RegFile w := mapSet 0 n v f

/-- A set of numbers, rising. -/
abbrev NatSet := List Nat

/-- Membership. -/
def NatSet.has (s : NatSet) (k : Nat) : Bool := s.elem k

/-- Insert, keeping the order. -/
def NatSet.add (k : Nat) : NatSet → NatSet
  | [] => [k]
  | j :: t => if k < j then k :: j :: t else if j = k then j :: t else j :: NatSet.add k t

/-- Remove. -/
def NatSet.del (s : NatSet) (k : Nat) : NatSet := s.filter (fun j => decide (j ≠ k))

end Sys2Proof.Machine
end

