-- ==== Sys2Proof/Machine/State.lean ====
section
/-! DEFINITION. The state of the Z960 as plain data, and the state after reset. A context is numbered n: 0 to 511 are
the contexts of tiles (tile n / 2, context n % 2), 512 + g is gallery core g. A record absent from a `Map` is the
record of a unit that nothing has touched since reset. -/

namespace Sys2Proof.Machine

/-! ### One context (R11) -/

/-- A destination of a delivery (R7, R13). -/
inductive Dst where
  | a (n : Nat) | v (n : Nat) | m (n : Nat) | p (n : Nat) | vm (n : Nat) | lc (n : Nat)
  | none
  deriving DecidableEq, Repr

/-- A scratchpad or gallery store. -/
inductive PadId where
  | tile (t : Nat) | cluster (k : Nat) | gal (g : Nat)
  deriving DecidableEq, Repr

/-- One element of a scratchpad access: where its bytes lie and the lane it belongs to. -/
structure Cell where
  pad  : PadId
  off  : Nat
  n    : Nat
  lane : Nat
  deriving DecidableEq, Repr

/-- The conversion of a vector load (R141): memory and lane formats, modes, and the key of its stochastic bits. -/
structure VConv where
  mf   : Nat
  ty   : Nat
  rm   : Nat
  sm   : Nat
  key  : W64
  src  : Nat
  n    : Nat
  bcst : Bool := false
  deriving DecidableEq, Repr

/-- A scratchpad read not performed: with `need` it waits for its granules to be full (R101, R143), and `tick` counts
the cycles (R321); without, for accesses of issues before `iss` (R293). `at_` is the tick of its issue (R267). -/
structure FeWait where
  cells  : List Cell
  need   : Bool := false
  iss    : Nat := 0
  at_    : Nat := 0
  clear  : Bool := false
  addr   : W64
  signed : Bool := false
  conv   : Option VConv := none
  tick   : Nat := 0
  deriving DecidableEq, Repr

/-- A snapshot register (R18): one pending result. `mask` says which bits it writes. -/
structure Pend where
  dst     : Dst
  val     : W512
  mask    : W512
  pos     : Nat
  slot    : Nat
  seq     : Nat := 0
  arrived : Bool := true
  ready   : Nat := 0
  flags   : Nat := 0
  load    : Bool := false
  fe      : Option FeWait := none
  lost    : Option W64 := none
  trapped : Option Cause := none
  tag     : Nat := 0
  deriving DecidableEq, Repr

/-- A sticky record (R44): the operation and its current steppable address. -/
structure StickyRec where
  op   : Instr
  addr : W64 := 0
  deriving DecidableEq, Repr

/-- A store of an issue, performed after every load of its bundle has read (R20); slot `slot` of issue `iss`. -/
structure StoreOp where
  pad     : PadId
  off     : Nat
  bytes   : List (Option Byte)
  setFull : Bool
  addr    : W64
  slot    : Nat := 0
  iss     : Nat := 0
  deriving DecidableEq, Repr

/-- The wait of an `.EF` store for empty granules (R267, R321): the cycles, its slot, pointer and cells, the tick it began
at, whether it held when the bundle was last prepared, and whether it alone did. -/
structure FeHold where
  tick  : Nat
  slot  : Nat
  addr  : W64
  cells : List Cell
  at_   : Nat
  hit   : Bool := false
  sole  : Bool := false
  deriving DecidableEq, Repr

/-- A control-register write of the current issue: number, bits written, value (R107). -/
structure CrWrite where
  num  : Nat
  mask : W64
  val  : W64
  deriving DecidableEq, Repr

/-- What the B operation of an issue leaves for the end of the issue. -/
inductive Final where
  | none
  | exit (status : Nat)
  | soft (c : Cause) (n : Nat)
  | eret (skip : Bool)
  | halt (n : Nat)
  | clear
  | yield (n : Nat)
  deriving DecidableEq, Repr

/-- The effects an issue collects before it commits. `ev`: EVPEND bits that its operations set (R107). -/
structure IssueBuf where
  stores : List StoreOp := []
  crw    : List CrWrite := []
  next   : Option W64 := none
  taken  : Bool := false
  lost   : Nat := 0
  lcNow  : List (Nat × BitVec 32) := []
  loopb  : List (Nat × W64) := []
  loope  : List (Nat × W64) := []
  final  : Final := .none
  ev     : W64 := 0
  deriving DecidableEq, Repr

/-- An entry of the binding table (R310). -/
structure Binding where
  obj   : W64
  base  : W64
  len   : W64
  scope : Nat
  deriving DecidableEq, Repr

/-- A stream fault record (R388): SFREC0 to SFREC7. -/
structure SfRec where
  words : List W64
  deriving DecidableEq, Repr

/-- The set-aside program of a running handler (R382). -/
structure Shadow where
  recA  : StickyRec
  recV  : StickyRec
  recM  : StickyRec
  k     : Nat
  pend  : List Pend
  ctime : Nat
  pc    : W64
  deriving DecidableEq, Repr

/-! ### Sync engines (R305 to R324) -/

/-- Who asked a sync engine for an operation; a peer's package, tile and context (R318). -/
inductive SyncFrom where
  | ctx (n : Nat) | host | peer (pkg party : Nat) | engine
  deriving DecidableEq, Repr

/-- What a sync engine does (R312 to R316, R456, R7). Conditions are EQ, NE, GE, LT, ANY (0 to 4, R314), X (5), and ACQUIRE's GE and EQ (6, 7). -/
inductive SyncOp where
  | atom (fn : Nat) | cas (expect : W64) | relAdd | relSet | relX | wait (cond : Nat) | read | signal
  deriving DecidableEq, Repr

/-- A request to a sync engine: the object's address space and pointer, the operation, its operand and the tick of its
issue. `tag` names the pending result it answers, `port` the port that carries it to another package, 12 for none (R444). -/
structure SyncReq where
  who  : SyncFrom
  asid : Nat
  ptr  : W64
  op   : SyncOp
  v    : W64
  tag  : Nat := 0
  ret  : Bool := false
  at_  : Nat := 0
  port : Nat := 12
  deriving DecidableEq, Repr

/-- A waiter of an object, in order of arrival (R312, R314). -/
structure Waiter where
  who  : SyncFrom
  cond : Nat
  v    : W64
  at_  : Nat := 0
  port : Nat := 12
  deriving DecidableEq, Repr

/-- A sync object that occupies storage (R305). -/
structure SyncObj where
  val     : W64 := 0
  waiters : List Waiter := []
  deriving DecidableEq, Repr

/-- One sync engine; record 2 stands for the engines of other packages (R317). Objects are keyed ASID × 2^64 + pointer.
`remote` counts the waiters of other packages (R318). -/
structure Die where
  objs   : Map SyncObj := []
  queue  : List SyncReq := []
  parked : List SyncReq := []
  sram   : List Nat := []
  ovfl   : List Nat := []
  virt   : List Nat := []
  pause  : Nat := 0
  remote : Nat := 0
  events : List (Nat × Nat × W64) := []
  deriving DecidableEq, Repr

/-! ### One context, continued -/

/-- The request of a pre-issue hold (R324, R384, R341, R415): what was sent and what has come back. Kinds of a wait are
the conditions of R314, 5 for ACQUIRE.X, 6 and 7 for ACQUIRE.GE and .EQ. A grant of ACQUIRE.X names its object. -/
inductive HoldReq where
  | none
  | wait (obj : W64) (kind : Nat) (v : W64)
  | granted (o : W64) (x : Option W64)
  | failed (c : Cause)
  | svc
  | reply (v : W64)
  | power (cls : Nat) (granted : Bool)
  | retry (at_ : Nat) (r : SyncReq)
  deriving DecidableEq, Repr

/-- The life of a context (R11, R26, R166). A context being saved has a `Save` at its tile. -/
inductive Life where
  | free
  | live
  | ended (status : Nat) (cause : Option Cause) (pc : W64)
  deriving DecidableEq, Repr

/-- The step a context holds, or a task of a lane (R156, R157, R163): its launch, its own number `sid`, and the number of
its parent. In a child lane `parked` names the save slot of a parked step (R165), and `iss` is the place of the issue that
spawned it (R293). -/
structure Task where
  launch : Nat
  sid    : Nat
  lin    : W64
  team   : Nat := 0
  child  : Bool := false
  parent : Nat := 0
  entry  : W64 := 0
  args   : List W64 := []
  pri    : Nat := 0
  cap    : Nat := 0
  coords : List W64 := []
  cswin  : W64 := 0
  parked : Option Nat := none
  iss    : Nat := 0
  deriving DecidableEq, Repr

/-- A read-buffer line: its pointer, its physical address and its 64 bytes (R287). -/
structure Line where
  va    : Nat
  pa    : Nat
  bytes : List Byte
  deriving DecidableEq, Repr

/-- A barrier a later command obeys (R240): commands issued before `upto` on a masked handle, their reads, their
writes. -/
structure Bar where
  upto : Nat
  mask : Nat
  r    : Bool
  w    : Bool
  deriving DecidableEq, Repr

/-- A command of a handle (R215 to R224): what it issued with, and its progress. `k` counts elements moved, `j` indices
or rows taken, `total` the element count once known, `idx` the indices taken and not done with, `buf` gathered codes (R282) or read bytes, `rseq` a multicast's places at remote
ports (R239), `ended` that the session of a drain has been closed (R343), `at_` the tick from which it may complete (R217), `iat` the tick and `iss` the place of its issue (R293), `idle`
that it has come back from a save and waits for a stream context (R215), `few` the bytes of a block that waits for full
granules, or with `fills` for empty ones (R226, R267), `sent` the requests to another package that have not been performed: their
tick, and the address block of each with its port, none while no port is up (R444, R446). -/
structure Cmd where
  op      : Nat
  fn      : Nat
  port    : Nat
  base    : W64
  ps      : List W64 := []
  aux     : Nat := 0
  val     : W64 := 0
  follow  : Option Nat := none
  seq     : Nat
  ctime   : Nat
  pc      : W64
  bars    : List Bar := []
  started : Bool := false
  k       : Nat := 0
  j       : Nat := 0
  total   : Option Nat := none
  idx     : List Nat := []
  idxEnd  : Bool := false
  prev    : Option Nat := none
  primed  : Bool := false
  ended   : Bool := false
  fin     : Bool := false
  faulted : Bool := false
  cancel  : Bool := false
  refused : Bool := false
  retry   : Bool := false
  cost    : Nat := 0
  buf     : List Nat := []
  posted  : Option Nat := none
  taker   : Option Nat := none
  arrived : Bool := false
  dead    : NatSet := []
  rseq    : Map Nat := []
  at_     : Nat := 0
  iat     : Nat := 0
  iss     : Nat := 0
  idle    : Bool := false
  few     : List Cell := []
  fills   : Bool := false
  sent    : Option (Nat × List (Nat × Nat)) := none
  deriving DecidableEq, Repr

/-- A stream handle (R215, R233, R244). `asks` holds who waits for an entry of its element queue, in order: 0 a LOOPS, else a
command's `seq` and one. -/
structure Handle where
  cmds  : List Cmd := []
  queue : List W64 := []
  op    : Nat := 0
  flags : Nat := 0
  done  : Nat := 0
  cancelled : Bool := false
  lines : List Line := []
  asks  : List Nat := []
  deriving DecidableEq, Repr

/-- One context. `stq` holds stores of issue `iss` and before that wait for an earlier load (R20, R293), `syq` the sync
requests that do, with their issues, `text` the text
lines fetched and not discarded (R42, R124), `hold` the request of a B operation's hold, `pwr` of a power hold, `feh` the
full/empty holds of stores (R321), `grecvd` the handles whose GRECV completed unobserved (R368), `born` the tick of entry
(R421). -/
structure Ctx where
  life    : Life := .free
  pc      : W64 := 0
  a       : RegFile 64 := []
  v       : RegFile 512 := []
  m       : RegFile 64 := []
  p       : RegFile 1 := []
  vm      : RegFile 64 := []
  lc      : RegFile 32 := []
  recA    : StickyRec := { op := .anop }
  recV    : StickyRec := { op := .vnop }
  recM    : StickyRec := { op := .mnop }
  k       : Nat := 0
  skip    : Bool := false
  ctime   : Nat := 0
  hpos    : Nat := 0
  seq     : Nat := 0
  iss     : Nat := 0
  pend    : List Pend := []
  stq     : List StoreOp := []
  syq     : List (Nat × SyncReq) := []
  text    : Map (List (Option W32)) := []
  buf     : IssueBuf := {}
  ld      : Nat := 0
  st      : Nat := 0
  str     : Nat := 0
  arr     : Nat := 0
  sync    : Nat := 0
  crs     : RegFile 64 := []
  binds   : List Binding := []
  spawnOrd : Nat := 0
  handles : Map Handle := []
  sfrec   : Map SfRec := []
  shadow  : Option Shadow := none
  hold    : HoldReq := .none
  pwr     : HoldReq := .none
  feh     : List FeHold := []
  reqs    : Nat := 0
  deferred : List TrapInfo := []
  entryErr : Option TrapInfo := none
  task    : Task := { launch := 0, sid := 0, lin := 0 }
  asid    : Nat := 0
  gen     : Nat := 0
  code    : W64 := 0
  textOff : Nat := 0
  textLen : Nat := 0
  stall   : Nat := 0
  halted  : Bool := false
  badRegs : List (Nat × Nat) := []
  jcnt    : Nat := 0
  len     : Nat := 8
  sbars   : List Bar := []
  loans   : List (Nat × Nat) := []
  grecvd  : NatSet := []
  born    : Nat := 0
  deriving DecidableEq, Repr

/-! ### One tile -/

/-- Merge-issue history of a core (R161): who issued in the previous cycle, and in the current one. -/
structure MergeHist where
  winner : Option Nat := none
  lost0  : Nat := 0
  lost1  : Nat := 0
  prev0  : Bool := false
  prev1  : Bool := false
  now0   : Bool := false
  now1   : Bool := false
  deriving DecidableEq, Repr

/-- A step-private allocation (R259). -/
structure Alloc where
  owner : Nat
  base  : Nat
  size  : Nat
  deriving DecidableEq, Repr

/-- A scratchpad (R258, R267, R268): its bytes, its full granules, the 1 KiB blocks whose zero-summary bit is clear,
its words with an uncorrectable error (R397), and the tile that each bank granted a full/empty access last (R267). -/
structure Pad where
  mem   : Mem := []
  full  : NatSet := []
  dirty : NatSet := []
  bad   : NatSet := []
  grants : Map Nat := []
  deriving DecidableEq, Repr

/-- A TLB entry (R276): its tag, whether it came from a pool pointer, the page size as a power of two, the page number
in the pointer's own coordinates and in virtual addresses, the physical page address and the permissions. -/
structure TlbEntry where
  asid : Nat
  gen  : Nat
  pool : Bool
  bits : Nat
  page : Nat
  va   : Nat
  pa   : Nat
  r    : Bool
  w    : Bool
  deriving DecidableEq, Repr

/-- A walk-cache entry (R276): its tag, the base and size in GiB of the pool window as its walk read them, and a table of
the walk, with `up` levels above it, that serves the virtual addresses which begin with `pre`. -/
structure WalkEntry where
  asid  : Nat
  gen   : Nat
  base  : Nat
  gib   : Nat
  up    : Nat
  pre   : Nat
  table : Nat
  deriving DecidableEq, Repr

/-! ### The dataflow array (R177 to R214) -/

/-- A token (R179). `bad`: a word that holds it has an uncorrectable error (R393). -/
structure Tok where
  data : W512 := 0
  ty   : Nat := 0
  n    : Nat := 1
  sc   : Nat := 127
  last : Bool := false
  nul  : Bool := false
  bad  : Bool := false
  deriving DecidableEq, Repr

/-- A token on an edge or in a port, in transit until `ready`, of image slot `img`; or, without a token, a depth marker
(R200), or with depth 0 a switch marker (R198). -/
structure EItem where
  ready : Nat
  tok   : Option Tok
  img   : Nat := 0
  depth : Nat := 0
  deriving DecidableEq, Repr

/-- An edge into one operand input (R181); `freed` slots were freed in cycle `at_`. -/
structure Edge where
  q     : List EItem := []
  depth : Nat := 0
  freed : Nat := 0
  at_   : Nat := 0
  deriving DecidableEq, Repr

/-- An exact partial sum: kind 0 the number m × 2^e, 1 +infinity, 2 −infinity, 3 NaN (R212). -/
structure Ex where
  kind : Nat := 0
  m    : Int := 0
  e    : Int := 0
  deriving DecidableEq, Repr

/-- One processing element: the operator it has loaded and that operator's state (R214). Uncorrectable errors (R393):
`bad` in the operator's partial block or sums, `accBad` in those accumulator halves (2 × number, and one more for the upper
half). -/
structure Pe where
  img    : Option Nat := none
  op     : Nat := 0
  fires  : Nat := 0
  busy   : Nat := 0
  key    : W64 := 0
  cnt    : Nat := 0
  sc     : Nat := 127
  permit : Option Nat := none
  held   : List Tok := []
  codes  : List Nat := []
  fill   : List Tok := []
  sets   : List (List Tok) := []
  part   : List Ex := []
  row    : Nat := 0
  nsets  : Nat := 0
  dirty  : Bool := false
  acc    : Map (BitVec 128) := []
  emit   : List (Nat × Tok) := []
  bad    : Bool := false
  accBad : NatSet := []
  deriving DecidableEq, Repr

/-- A run of a group (R185): its arming context, the opcode, context time and PC of what armed it, the place of its issue for
an AFIRE (R293), the first tick it may begin at, when it began, and the output ports that have taken a LAST, each as often as it has. `lost`: it met an
uncorrectable error, `flushed`: and AFLUSH ends it (R390). -/
structure ArmedRun where
  ctx   : Nat
  op    : Nat
  ctime : Nat
  pc    : W64
  iss   : Nat := 0
  after : Nat := 0
  begun : Option Nat := none
  ends  : List Nat := []
  lost  : Bool := false
  flushed : Bool := false
  deriving DecidableEq, Repr

/-- A load of an image or a switch table in progress (R237, R245), with the tick and the place of its issue. -/
structure CfgLoad where
  slot    : Nat
  ctx     : Nat
  ptr     : W64
  op      : Nat
  ctime   : Nat
  pc      : W64
  at_     : Nat := 0
  iss     : Nat := 0
  faulted : Bool := false
  retry   : Bool := false
  deriving DecidableEq, Repr

/-- A resident image (R190, R196). -/
structure Img where
  raw   : Mem := []
  inv   : Nat := 1
  heavy : Bool := false
  src   : Option W64 := none
  deriving DecidableEq, Repr

/-- The array of a tile. Edges are keyed image slot × 256 + PE × 4 + input, runs image slot × 16 + group. `swAt` is the
tick of the last CFGACT and `since` the tick from which the bound of R198 runs; `blocks` counts the elements of the block in
progress that left an output port by its circuit (R193, R238); `nuls` are the NUL tokens of AFLUSH waiting at full ports (R249). -/
structure Arr where
  imgs   : Map Img := []
  act    : Option Nat := none
  target : Option Nat := none
  since  : Option Nat := none
  swAt   : Nat := 0
  key    : W64 := 0
  owner  : Option Nat := none
  pes    : Map Pe := []
  edges  : Map Edge := []
  inp    : Map (List EItem) := []
  band   : Map (List EItem) := []
  out    : Map (List EItem) := []
  blocks : Map Nat := []
  nuls   : Map (List EItem) := []
  runs   : Map (List ArmedRun) := []
  flags  : Nat := 0
  loads  : List CfgLoad := []
  deriving DecidableEq, Repr

/-! ### Saves (R421 to R435) -/

/-- A save in progress (R423): its context and slot, the tick of its request, the tick of the tile's last array firing or
drained token, and its stage: 0 draining, 1 completing locally and writing out. `park`: the step joins the child lane
(R165). `array`: the array goes into this slot, or into that of `mate` (R424). `named`: the context to which a saved
holder returns (R421). `cmd`: a PCTL command asked for it. `late`: the deadline has passed, `ext`: how often it was
extended (R412, R430). -/
structure Save where
  ctx   : Nat
  slot  : Nat
  start : Nat
  quiet : Nat
  stage : Nat := 0
  park  : Bool := false
  array : Bool := false
  mate  : Option Nat := none
  named : Bool := false
  cmd   : Bool := false
  ext   : Nat := 0
  late  : Bool := false
  deriving DecidableEq, Repr

/-- A resume entry (R430). The saved step is context 2^32 + slot, which holds its STEPLIN, EFF and JCNT; `seq` orders
entries. `parked`: it waits in the child lane (R165). `mate`: the other slot of a save of both contexts (R424). `named`:
it returns at once (R421). `restoring`: it has taken a context of the tile and waits to be refilled (R433). -/
structure Resume where
  slot   : Nat
  seq    : Nat
  parked : Bool := false
  mate   : Option Nat := none
  named  : Option Nat := none
  restoring : Option Nat := none
  deriving DecidableEq, Repr

/-- One tile. A freeze stops it from tick `frz` on, before `freeze` (R394, R419). `retired`: its scratchpad banks that a spare
stands in for (R396). -/
structure Tile where
  pad    : Pad := {}
  tlb    : List TlbEntry := []
  walks  : List WalkEntry := []
  crs    : RegFile 64 := [(0x30, 0xFFFFFFFFFFFFFFFF), (0x36, 0x0002000000010000), (0x44, 1), (0xC1, 1750000)]
  hist   : MergeHist := {}
  weights : List Nat := []
  freeze : Nat := 0
  frz    : Nat := 0
  disp   : List Task := []
  child  : List Task := []
  allocs : List Alloc := []
  chans  : Map (List W64) := []
  arr    : Arr := {}
  seq    : Nat := 0
  table  : Option Mem := none
  pending : Mem := []
  tloads : List CfgLoad := []
  saves  : List Save := []
  resume : List Resume := []
  resOf  : Map Nat := []
  retired : List Nat := []
  deriving DecidableEq, Repr

/-! ### One cluster -/

/-- An entry of the merge network (R328): `val` is an LA128, a 64-bit sum or an FP32 code. -/
structure MnEntry where
  coord : W64
  lane  : Nat
  ord   : Nat
  val   : BitVec 128
  deriving DecidableEq, Repr

/-- The merge network of a cluster (R328 to R345). Commands are named context × 16 + handle. `seq` is the output sequence:
coordinate, the values to combine, and flags met while merging. -/
structure Merge where
  state   : Nat := 0
  ord     : Bool := false
  dz      : Bool := false
  vty     : Nat := 0
  oty     : Nat := 0
  rm      : Nat := 0
  sm      : Nat := 0
  base    : W64 := 0
  size    : Nat := 0
  asid    : Nat := 0
  gen     : Nat := 0
  launch  : Nat := 0
  team    : Nat := 0
  ctx     : Nat := 0
  step    : Nat := 0
  key     : W64 := 0
  ctime   : Nat := 0
  pc      : W64 := 0
  cap     : Nat := 16384
  maxRuns : Nat := 64
  late    : Nat := 0
  fcause  : Nat := 0
  drained : Nat := 0
  buf     : List MnEntry := []
  runs    : List Nat := []
  lanes   : Map Nat := []
  waits   : List (Nat × Nat) := []
  ords    : Map Nat := []
  seq     : List (W64 × List Nat × Nat) := []
  drains  : List Nat := []
  pause   : Nat := 0
  deriving DecidableEq, Repr

/-- One cluster. `retired`: its scratchpad banks that a spare stands in for (R396). -/
structure Cluster where
  pad    : Pad := {}
  crs    : RegFile 64 := [(0x31, 0xFFFFFFFFFFFFFFFF), (0x32, 0xFFFFFFFFFFFFFFFF), (0x33, 0xFFFFFFFFFFFFFFFF),
    (0x37, 0x10000), (0x60, 0x404000)]
  allocs : List Alloc := []
  mn     : Merge := {}
  retired : List Nat := []
  deriving DecidableEq, Repr

/-! ### One gallery core, beside its context -/

/-- A packet (R353): kind 0 read, 1 write, 2 hand-off; `at_` is the tick of its issue. -/
structure Packet where
  kind : Nat
  addr : W64 := 0
  off  : Nat := 0
  len  : Nat := 0
  data : List (Option Byte) := []
  tile : Nat := 0
  chan : Nat := 0
  pos  : Nat := 0
  taken : Option Nat := none
  seq  : Nat := 0
  at_  : Nat := 0
  sent : Option (Nat × List (Nat × Nat)) := none
  deriving DecidableEq, Repr

/-- A tag (R353): state 0 FREE, 1 BUSY, 2 DONE, with its status (R354; 4 for the refusal of R445), completion order and
failing address. -/
structure Tag where
  state  : Nat := 0
  status : Nat := 0
  order  : Nat := 0
  va     : W64 := 0
  sub    : Nat := 0
  pkt    : Option Packet := none
  deriving DecidableEq, Repr

/-- One gallery core (R347, R351): its store, pool file, dedup keys in slot order, bin buffer in insertion order (key and
cookie), tags by id, and its job. Its read-buffer lines stand in handle 0 of its context. -/
structure Gal where
  store : Pad := {}
  tlb   : List TlbEntry := []
  walks : List WalkEntry := []
  pool  : Map (BitVec 128) := []
  dedup : List W64 := []
  bins  : List (Nat × Nat) := []
  tags  : Map Tag := []
  state : Nat := 0
  cause : Nat := 0
  pc    : W64 := 0
  compl : W64 := 0
  count : Nat := 0
  freeze : Nat := 0
  poolBad : NatSet := []
  deriving DecidableEq, Repr

/-! ### Launches and queues (R150 to R174) -/

/-- A team of a launch (R155): its cluster, its steps and children placed and not retired, and its steps not placed.
Its allocation stands with its cluster. -/
structure Team where
  cluster : Nat
  live    : Nat
  left    : Nat
  deriving DecidableEq, Repr

/-- A record that a queue has started (R150 to R168). `next` is the next LIN to place and `total` the number of steps;
`live` counts steps and children placed and not retired. -/
structure Launch where
  q       : Nat
  asid    : Nat
  gen     : Nat
  record  : Mem
  crec    : W64 := 0
  compl   : W64 := 0
  checked : Bool := false
  reject  : Option Cause := none
  total   : Nat := 0
  next    : Nat := 0
  live    : Nat := 0
  retired : Nat := 0
  cancel  : Bool := false
  ncancel : Nat := 0
  nfault  : Nat := 0
  fault   : Option (W64 × Nat × Nat × W64) := none
  exitst  : Option (W64 × Nat) := none
  teams   : Map Team := []
  byStep  : Option Nat := none
  deriving DecidableEq, Repr

/-- What the reader and scheduler keep of a queue beside its descriptor: the WRIDX last read, the launches read and not
completed, oldest first, whether it was backlogged (R174), and the records that a LAUNCH put at a ring index, with the
issuing step (R251). `fault` is the address of a fault of the current cycle, which halts the queue at its end unless a DESTROY
meets it (R172, R173). -/
structure Queue where
  wr       : Nat := 0
  launches : List Nat := []
  active   : Bool := false
  notes    : List (Nat × Nat) := []
  fault    : Option Nat := none
  deriving DecidableEq, Repr

/-- A LAUNCH or PUBLISH under way (R251, R452), with the tick and the place of its issue. A PUBLISH that faulted stays outstanding. -/
structure OutReq where
  ctx   : Nat
  ptr   : W64
  q     : Nat := 0
  val   : W64 := 0
  ctime : Nat
  pc    : W64
  step  : Nat := 0
  buf   : Option (List Byte) := none
  at_   : Nat := 0
  iss   : Nat := 0
  faulted : Bool := false
  deriving DecidableEq, Repr

/-- A request at the power arbiter (R414): an implicit one holds context `ctx`, a PGREQ one makes a reserve. -/
structure PwrReq where
  tile     : Nat
  cls      : Nat
  ctx      : Nat
  implicit : Bool
  deriving DecidableEq, Repr

/-- An entry of the error log (R400). -/
structure ErrEntry where
  tick : Nat
  tile : Nat
  part : Nat
  cls  : Nat
  idx  : Nat
  addr : Nat := 0
  deriving DecidableEq, Repr

/-- The identity and measurement state of the supervisor (R460 to R462). -/
structure Trust where
  revoked : NatSet := []
  minSvn  : Nat := 0
  svn     : Nat := 0
  mreg    : Map (BitVec 256) := []
  leaf    : Nat := 0
  quotes  : Nat := 0
  signer  : Bool := false
  out     : List Byte := []
  deriving DecidableEq, Repr

/-! ### What saves hold beside the bytes whose layout the spec gives (R427, R434) -/

/-- Of one save slot: the array with LAPINS, and the full/empty bits of the private allocation. -/
structure SlotKeep where
  arr    : Option Arr := none
  lapins : W64 := 0
  full   : NatSet := []
  deriving DecidableEq, Repr

/-- Of a package image: package number and SVN (R459), the launches with their counters, what the reader keeps of queues, the
RDIDX of those that are halted, and the tiles' and clusters' owners, allocations, lanes and resume entries; `img` the bytes of
the image from its first (R434), by which it is known. -/
structure PkgKeep where
  pkgnum   : Nat
  svn      : Nat
  launches : Map Launch
  queues   : Map Queue
  rds      : List (Nat × Nat)
  launchNo : Nat
  stepNo   : Nat
  passG    : Nat
  slots    : NatSet
  tiles    : Map Tile
  clusters : Map Cluster
  img      : Mem := []
  deriving DecidableEq, Repr

/-! ### The package -/

/-- A landing in progress (R402): kind 1 minor, 2 major, 3 grand; its first tick and the tick it ends at, extension
included. -/
structure Landing where
  kind  : Nat
  start : Nat
  stop  : Nat
  deriving DecidableEq, Repr

/-- An operation or event that is to run, with the units it happens to. -/
structure Due where
  op   : Instr
  cur  : Nat := 0
  unit : Nat := 0
  sub  : Nat := 0
  deriving DecidableEq, Repr

/-- Why the machine stops with a fault. -/
inductive Fault where
  /-- Raised by an outside write or a DRAM request at an address beyond the 52-bit physical space (R272), which does
  not exist. Safe: the model stops where no hardware address answers. -/
  | noPhysicalAddress
  deriving DecidableEq, Repr

/-- Why the model gives no meaning. -/
inductive Refusal where
  /-- An instruction not modelled, by its mnemonic. Safe. -/
  | notModelled (mnemonic : String)
  deriving DecidableEq, Repr

/-- The machine. `hostq` holds host writes to management registers that wait for earlier ones to memory (R301). `launchNo` and `stepNo` number launches and steps; `quantum` is the launch and the steps left of the
quantum being placed (R174), `passG` the global pass; `drawn` the units of the power budget in use (R414); `slots` the save
slots in use (R426), `slotKeep` and `pkg` what the slots and the package images, by address, hold in layouts the spec leaves open (R427,
R434); `qpend` the QCMD command that waits in a landing (R171, R409); `pctl` the PCTL command in progress (R434) and `pctlAsk` the contexts it has yet to ask for; `shoot` the KIND,
ASID, first page and page count of a shootdown (R277). A saved step keeps its registers as context 2^32 + slot. `agenda` is what the current cycle has yet to run, `merged` says whether the merge stages of the cycle
have decided, `warm` says that the last reset was a warm one (R459), `elective` holds the stacks whose elective retraining was moved (R412), `msix` counts the messages of each MSI-X vector (R455), and `free` counts the free values drawn. -/
structure State where
  ctxs   : Map Ctx := []
  tiles  : Map Tile := []
  clusters : Map Cluster := []
  gals   : Map Gal := []
  dies   : Map Die := []
  mem    : Mem := []
  tick   : Nat := 0
  landing : Option Landing := none
  ovr    : Nat := 0
  badPa  : NatSet := []
  held   : List DramReq := []
  hostq  : List Due := []
  win    : RegFile 64 := [(0x1400, 1280), (0x1410, 1750000)]
  queues : Map Queue := []
  qpend  : Option Nat := none
  launches : Map Launch := []
  launchNo : Nat := 0
  quantum : Option (Nat × Nat) := none
  passG  : Nat := 0
  reqs   : List OutReq := []
  pubs   : List OutReq := []
  waits  : List PwrReq := []
  drawn  : Nat := 0
  slots  : NatSet := []
  slotKeep : Map SlotKeep := []
  pkg    : Map PkgKeep := []
  warm   : Bool := false
  stepNo : Nat := 0
  pctl   : Nat := 0
  pctlAsk : List Nat := []
  shoot  : Option (Nat × Nat × Nat × Nat) := none
  down   : NatSet := []
  bridge : Bool := true
  poolUp : Bool := true
  errs   : Map (Nat × Nat) := []
  log    : List ErrEntry := []
  msix   : Map Nat := []
  tests  : List ErrSite := []
  elective : NatSet := []
  frozen : Bool := false
  trust  : Trust := {}
  cur    : Nat := 0
  unit   : Nat := 0
  sub    : Nat := 0
  agenda : List Due := []
  merged : Bool := false
  free   : Nat := 0
  deriving DecidableEq, Repr

/-- The machine right after device reset (R26, R157, R260, R457). -/
def State.reset : State := {}

end Sys2Proof.Machine
end

