-- ==== Sys2Proof/Machine/Ops.lean ====
section
/-! DEFINITION. The named operations over the state: records by number, the register files, delivery (R7, R13, R14),
traps (R382, R383) and what ends the B operation of an issue. -/

namespace Sys2Proof.Machine

/-! ### Records by number -/

/-- Context n. -/
def State.ctx (s : State) (n : Nat) : Ctx := mapGet {} s.ctxs n
/-- Set context n. -/
def State.setCtx (s : State) (n : Nat) (c : Ctx) : State := { s with ctxs := mapPut n c s.ctxs }
/-- The context the current event or operation belongs to. -/
def State.cx (s : State) : Ctx := s.ctx s.cur
/-- Set the current context. -/
def State.setCx (s : State) (c : Ctx) : State := s.setCtx s.cur c
/-- Tile t. -/
def State.tile (s : State) (t : Nat) : Tile := mapGet {} s.tiles t
/-- Set tile t. -/
def State.setTile (s : State) (t : Nat) (x : Tile) : State := { s with tiles := mapPut t x s.tiles }
/-- Cluster k. -/
def State.cluster (s : State) (k : Nat) : Cluster := mapGet {} s.clusters k
/-- Set cluster k. -/
def State.setCluster (s : State) (k : Nat) (x : Cluster) : State := { s with clusters := mapPut k x s.clusters }
/-- Gallery core g. -/
def State.gal (s : State) (g : Nat) : Gal := mapGet {} s.gals g
/-- Set gallery core g. -/
def State.setGal (s : State) (g : Nat) (x : Gal) : State := { s with gals := mapPut g x s.gals }

/-- Whether a context number is a gallery core's (R347). -/
def isGal (n : Nat) : Bool := 512 ≤ n && n < 2 ^ 32
/-- The tile of a context. -/
def tileOf (n : Nat) : Nat := n / 2
/-- The cluster of a tile: tile id bits [7:3] (R1, R256). -/
def clusterOf (t : Nat) : Nat := t / 8
/-- The die of a context: tile id bit 7 (R1), or the die of the gallery core's stack (R347). -/
def dieOf (n : Nat) : Nat := if isGal n then (n - 512) / 32 else n / 256

/-- Sync engine d; 2 stands for other packages. -/
def State.die (s : State) (d : Nat) : Die := mapGet {} s.dies d
/-- Set sync engine d. -/
def State.setDie (s : State) (d : Nat) (x : Die) : State := { s with dies := mapPut d x s.dies }
/-- Change sync engine d. -/
def State.modDie (s : State) (d : Nat) (f : Die → Die) : State := s.setDie d (f (s.die d))

/-- Change the current context. -/
def State.modCx (s : State) (f : Ctx → Ctx) : State := s.setCx (f s.cx)
/-- Change context n. -/
def State.modCtx (s : State) (n : Nat) (f : Ctx → Ctx) : State := s.setCtx n (f (s.ctx n))
/-- Change tile t. -/
def State.modTile (s : State) (t : Nat) (f : Tile → Tile) : State := s.setTile t (f (s.tile t))
/-- Change cluster k. -/
def State.modCluster (s : State) (k : Nat) (f : Cluster → Cluster) : State := s.setCluster k (f (s.cluster k))
/-- Change gallery core g. -/
def State.modGal (s : State) (g : Nat) (f : Gal → Gal) : State := s.setGal g (f (s.gal g))

/-- A free value: the counter that the step reads and advances. -/
def State.fresh (s : State) : Nat × State := (s.free, { s with free := s.free + 1 })

/-! ### Registers (R9, R10) -/

/-- An A register; a0 reads zero. -/
def Ctx.ra (c : Ctx) (n : BitVec 6) : W64 := if n = 0 then 0 else c.a.read n.toNat
/-- A V register. -/
def Ctx.rv (c : Ctx) (n : Nat) : W512 := c.v.read n
/-- An M register. -/
def Ctx.rm (c : Ctx) (n : Nat) : W64 := c.m.read n
/-- A predicate; p0 reads true. -/
def Ctx.rp (c : Ctx) (n : Nat) : Bool := n == 0 || c.p.read n == 1
/-- A vector mask; vm0 reads all ones. -/
def Ctx.rvm (c : Ctx) (n : Nat) : W64 := if n = 0 then BitVec.allOnes 64 else c.vm.read n
/-- A loop counter. -/
def Ctx.rlc (c : Ctx) (n : Nat) : BitVec 32 := c.lc.read n

/-- The guard of an A or M operation (R38). -/
def Ctx.guard (c : Ctx) (gp : BitVec 4) : Bool := c.rp gp.toNat
/-- The guard of a B operation (R38). -/
def Ctx.guardB (c : Ctx) (gp : BitVec 4) (gn : BitVec 1) : Bool := c.rp gp.toNat != (gn == 1)

/-- Whether a handler runs: TRCTL.INH (R381). -/
def Ctx.inh (c : Ctx) : Bool := c.shadow.isSome
/-- `Now()` of R7: context time, or the handler position while a handler runs (R12, R383). -/
def Ctx.now (c : Ctx) : Nat := if c.inh then c.hpos else c.ctime

/-! ### Deliveries (R13, R14, R18) -/

/-- Replace the masked bits of an old value. -/
def blend (mask old new : W512) : W512 := (old &&& ~~~mask) ||| (new &&& mask)

/-- The file and number of a register (R381): 0 A, 1 V, 2 M, 3 B, where a mask is 128 + n and a counter 256 + n. -/
def Dst.reg : Dst → Option (Nat × Nat)
  | .a n => some (0, n)
  | .v n => some (1, n)
  | .m n => some (2, n)
  | .p n => some (3, n)
  | .vm n => some (3, 128 + n)
  | .lc n => some (3, 256 + n)
  | .none => Option.none

/-- A write mends the uncorrectable words of a register that it covers whole (R397). -/
def Ctx.mend (c : Ctx) (d : Dst) (mask : W512) : Ctx :=
  if c.badRegs.isEmpty then c
  else
    match d.reg with
    | some (1, n) => { c with badRegs := c.badRegs.filter (fun r => !(r.1 == 1 && r.2 / 8 == n && fld mask (64 * (r.2 % 8)) 64 == BitVec.allOnes 64)) }
    | some f => if mask != BitVec.allOnes 512 then c else { c with badRegs := c.badRegs.filter (· != f) }
    | none => c
/-- Whether a register has an uncorrectable word. -/
def Ctx.badReg (c : Ctx) (r : Nat × Nat) : Bool := c.badRegs.any (fun b => b.1 == r.1 && (if r.1 = 1 then b.2 / 8 else b.2) == r.2)

/-- Write a delivered value to its register; a fixed register discards it (R10). -/
def Ctx.writeDst (c : Ctx) (d : Dst) (mask val : W512) : Ctx :=
  let c := c.mend d mask
  match d with
  | .a n => if n = 0 then c else { c with a := c.a.write n ((blend mask ((c.a.read n).setWidth 512) val).setWidth 64) }
  | .v n => { c with v := c.v.write n (blend mask (c.v.read n) val) }
  | .m n => { c with m := c.m.write n ((blend mask ((c.m.read n).setWidth 512) val).setWidth 64) }
  | .p n => if n = 0 then c else { c with p := c.p.write n (val.setWidth 1) }
  | .vm n => if n = 0 then c else { c with vm := c.vm.write n (val.setWidth 64) }
  | .lc n => { c with lc := c.lc.write n (val.setWidth 32) }
  | .none => c

/-- Insert a pending result behind every one whose position is not later (R14). -/
def insertPend (e : Pend) : List Pend → List Pend
  | [] => [e]
  | x :: t => if x.pos ≤ e.pos then x :: insertPend e t else e :: x :: t

/-- Add a pending result. A slot issues one operation a position, whose result is due 6 positions later at most and holds every
bundle from then on until it is there, so that no slot has more than 6 pending (R18, R22). -/
def Ctx.push (c : Ctx) (e : Pend) : Ctx := { c with pend := insertPend { e with seq := c.seq } c.pend, seq := c.seq + 1 }

/-- `Deliver(d, v, lat)` of R7 for a whole register. -/
def Ctx.deliver (c : Ctx) (d : Dst) (v : W512) (lat slot : Nat) : Ctx :=
  c.push { dst := d, val := v, mask := BitVec.allOnes 512, pos := c.now + lat, slot := slot }

/-- Deliver an A register. -/
def Ctx.deliverA (c : Ctx) (rd : BitVec 6) (v : W64) (lat : Nat) : Ctx := c.deliver (.a rd.toNat) (v.setWidth 512) lat 0
/-- Deliver an M register. -/
def Ctx.deliverM (c : Ctx) (md : BitVec 5) (v : W64) (lat : Nat) : Ctx := c.deliver (.m md.toNat) (v.setWidth 512) lat 2

/-- ASTAT flags are ORed in when their result is delivered (R91). -/
def Ctx.orFlags (c : Ctx) (f : Nat) : Ctx := { c with crs := c.crs.write 2 (c.crs.read 2 ||| BitVec.ofNat 64 f) }

/-- Take the effect of one arrived pending result. A lost or withdrawn one delivers nothing (R397, R321). -/
def Ctx.applyPend (c : Ctx) (e : Pend) : Ctx :=
  if e.lost.isSome || e.trapped.isSome then c
  else
    let c := c.writeDst e.dst e.mask e.val
    if e.flags = 0 then c else c.orFlags e.flags

/-- Whether a pending result is due at position t and its data is present. -/
def Pend.due (e : Pend) (t : Nat) : Bool := decide (e.pos ≤ t) && e.arrived

/-- Bits that later-positioned entries already delivered are taken from a late one of the same register (R14). -/
def cutOlder (e : Pend) (l : List Pend) : List Pend :=
  l.map (fun x => if !x.arrived && x.dst == e.dst then { x with mask := x.mask &&& ~~~e.mask } else x)

/-- Deliver everything due at position t, in position order; the lost ones stay for `lostTrap`. -/
def settleList (t : Nat) (c : Ctx) (late : List Pend) : List Pend → Ctx × List Pend
  | [] => (c, late.reverse)
  | e :: rest =>
    if e.due t && e.lost.isNone && e.trapped.isNone
    then settleList t (c.applyPend e) (cutOlder e late) rest
    else settleList t c (e :: late) rest

/-- Every delivery at or below the current position takes effect (R13). -/
def Ctx.settle (c : Ctx) : Ctx :=
  let (c', l) := settleList c.now c [] c.pend
  { c' with pend := l }

/-! ### Control registers held as plain words -/

/-- Read a plain context control register. -/
def Ctx.cr (c : Ctx) (n : Nat) : W64 := c.crs.read n
/-- Write a plain context control register. -/
def Ctx.setCr (c : Ctx) (n : Nat) (v : W64) : Ctx := { c with crs := c.crs.write n v }
/-- Set EVPEND bits (R111). -/
def Ctx.setEv (c : Ctx) (bit : Nat) : Ctx := c.setCr 7 (c.cr 7 ||| BitVec.ofNat 64 (2 ^ bit))
/-- The same by an operation of the current issue: the setting follows a clear of the same issue (R107). -/
def Ctx.setEvIn (c : Ctx) (bit : Nat) : Ctx :=
  { c.setEv bit with buf := { c.buf with ev := c.buf.ev ||| BitVec.ofNat 64 (2 ^ bit) } }

/-! ### Launches whose steps end or are cancelled (R164, R166, R169, R173) -/

/-- A launch by number. -/
def State.launch? (s : State) (i : Nat) : Option Launch := mapGet? i s.launches
/-- Change a launch. -/
def State.modLaunch (s : State) (i : Nat) (f : Launch → Launch) : State :=
  match s.launch? i with
  | some l => { s with launches := mapPut i (f l) s.launches }
  | none => s

/-- Steps not yet placed. -/
def Launch.undispatched (l : Launch) : Nat := if l.checked && l.reject.isNone then l.total - l.next else 0

/-- The context of the step numbered `sid`, resident or saved. -/
def State.stepCtx (s : State) (sid : Nat) : Option Nat :=
  (s.ctxs.find? (fun p => p.2.life != .free && p.2.task.sid == sid && !isGal p.1)).map (·.1)
/-- Change the step numbered `sid` (R251, R344). -/
def State.modStep (s : State) (sid : Nat) (f : Ctx → Ctx) : State :=
  match s.stepCtx sid with
  | some n => s.modCtx n f
  | none => s

/-- A step or child of a launch is gone: its team and its parent count it no more. -/
def stepGone (t : Task) (s : State) : State :=
  let s := s.modLaunch t.launch (fun l =>
    { l with live := l.live - 1,
             teams := match mapGet? t.team l.teams with
               | some x => mapPut t.team { x with live := x.live - 1 } l.teams
               | none => l.teams })
  if t.child then
    s.modStep t.parent (fun c =>
      let c' := { c with jcnt := c.jcnt - 1 }
      if c.jcnt = 1 then c'.setEv 6 else c')
  else s

/-- The private allocation of a step is released (R166). -/
def freeAlloc (t sid : Nat) (s : State) : State :=
  s.modTile t (fun T => { T with allocs := T.allocs.filter (fun a => a.owner != sid) })

/-- The steps of a launch that are not placed never are (R169, R173). -/
def cancelUnplaced (i : Nat) (s : State) : State :=
  let s := s.modLaunch i (fun l =>
    { l with ncancel := l.ncancel + l.undispatched, next := l.total,
             teams := l.teams.map (fun m => (m.1, { m.2 with left := 0 })) })
  { s with quantum := match s.quantum with
                      | some (j, n) => if j = i then none else some (j, n)
                      | none => none }

/-- Cancel a launch (R169): the entries of lanes leave them, what is not placed is never placed. -/
def cancelLaunch (i : Nat) (s : State) : State :=
  let goes := fun (t : Task) => t.launch == i && t.parked.isNone
  let gone : List (Nat × Task) := s.tiles.flatMap (fun t => ((t.2.disp ++ t.2.child).filter goes).map (fun x => (t.1, x)))
  let s := { s with tiles := s.tiles.map (fun t =>
      (t.1, { t.2 with disp := t.2.disp.filter (fun x => !goes x), child := t.2.child.filter (fun x => !goes x) })) }
  let s := gone.foldl (fun s e => stepGone e.2 (freeAlloc e.1 e.2.sid s)) s
  cancelUnplaced i (s.modLaunch i (fun l => { l with cancel := true, ncancel := l.ncancel + gone.length }))

/-- The launch of a step that has ended with a fault is cancelled, from the fault on (R169). -/
def cancelFault (x : Nat) (s : State) : State :=
  match (s.ctx x).life, s.launch? (s.ctx x).task.launch with
  | .ended _ (some _) _, some l => if isGal x || l.cancel then s else cancelLaunch (s.ctx x).task.launch s
  | _, _ => s

/-! ### Traps (R378 to R383) -/

/-- The result of an operation before it commits: its effect, its trap, or a trap that leaves an effect (R357). -/
inductive Res where
  | ok (s : State)
  | trap (t : TrapInfo)
  | trapIn (t : TrapInfo) (s : State)
  deriving DecidableEq, Repr

/-- TRCAUSE of R381. -/
def trcause (t : TrapInfo) (k : Nat) : W64 :=
  BitVec.ofNat 64 (t.cause.code * 2 ^ 56 + (t.sub % 256) * 2 ^ 48 + (k % 64) * 2 ^ 42 +
    (if t.whole then 0 else t.slot % 4) * 2 ^ 40 + (if t.soft then 2 ^ 39 else 0) + (if t.defer then 2 ^ 38 else 0) +
    (if t.whole then 2 ^ 37 else 0) + t.arg % 4096)

/-- Loads that have not arrived keep their place in the load class, delivering nothing (R25, R102). -/
def discard (l : List Pend) : List Pend :=
  (l.filter (fun e => e.load && !e.arrived)).map (fun e => { e with dst := .none, flags := 0 })

/-- The step of a context ends by R123 or R383: nothing more issues, pending results are discarded (R25). A trap
waiting for a later bundle retires the step with its cause (R379). -/
def Ctx.endStep (c : Ctx) (status : Nat) (cause : Option Cause) (pc : W64) : Ctx :=
  let pend := c.pend ++ (match c.shadow with | some h => h.pend | none => [])
  let late := match c.deferred with
    | t :: _ => some t.cause
    | [] =>
      match pend.find? (fun e => e.lost.isSome || e.trapped.isSome) with
      | some e => some (e.trapped.getD .dataLost)
      | none => none
  { c with life := .ended status (match cause with | some x => some x | none => late) pc
           pend := discard pend
           shadow := none, hold := .none, pwr := .none, feh := [], deferred := [], buf := {} }

/-- `Unhandled(c)` of R383 at the bundle at h. -/
def unhandled (t : TrapInfo) (h : W64) (s : State) : State :=
  cancelFault s.cur (s.modCx (·.endStep 0 (some t.cause) h))

/-- What entry into a handler leaves (R382): `h` is the bundle's address and `resume` the address TRPC takes. Of the
results due, the lost ones (tag 2) are reported after the return, and the others (tag 1) are waited for. -/
def enterHandler (t : TrapInfo) (resume : W64) (tick : Nat) (c : Ctx) : Ctx :=
  let c := c.settle
  let late := c.pend.filter (fun e => decide (e.pos ≤ c.now))
  let later := c.pend.filter (fun e => !decide (e.pos ≤ c.now))
  let lost := (late.filter (fun e => e.lost.isSome || e.trapped.isSome)).map (fun e => { e with tag := 2 })
  let wait := (late.filter (fun e => e.lost.isNone && e.trapped.isNone)).map (fun e => { e with pos := 0, tag := 1 })
  { c with
    crs := (((c.crs.write 0x82 (trcause t c.k)).write 0x83 resume).write 0x84 t.addr).write 0x81 (c.cr 0x81 &&& 4)
    shadow := some { recA := c.recA, recV := c.recV, recM := c.recM, k := c.k, pend := lost ++ later,
                     ctime := c.ctime, pc := resume }
    recA := { op := .anop }, recV := { op := .vnop }, recM := { op := .mnop }
    k := 0, pend := wait, hpos := 0, hold := .none, pwr := .none, feh := [], buf := {}
    pc := c.cr 0x80 &&& 0xFFFFFFFFFFFFFFFC
    stall := max c.stall (tick + 9) }

/-- A context takes a trap of the bundle at h; `resume` is the bundle that TRPC names (R382). -/
def takeTrapAt (t : TrapInfo) (h resume : W64) (s : State) : State :=
  let c := s.cx
  if !t.cause.handleable || t.fatal || !(c.cr 0x80).getLsbD 0 || c.inh then unhandled t h s
  else s.setCx (enterHandler t resume s.tick c)

/-- A precise trap of the bundle at PC (R378): the issue has no effect. -/
def takeTrap (t : TrapInfo) (s : State) : State := takeTrapAt t s.cx.pc s.cx.pc s

/-! ### Faults of engine operations (R387, R388) -/

/-- A fault after issue: cause, subcode and address; the virtual address, where the record takes that (R275). -/
structure Flt where
  cause : Cause
  sub   : Nat := 0
  addr  : W64 := 0
  va    : Option W64 := none
  deriving DecidableEq, Repr

/-- Write a record at a source of a context: LOST when its record is still held (R387). -/
def Ctx.record (c : Ctx) (src : Nat) (words : List W64) : Ctx :=
  if (c.cr 0x90).getLsbD src then c.setCr 0x90 (c.cr 0x90 ||| 0x100000)
  else ({ c with sfrec := mapPut src { words := words } c.sfrec }.setCr 0x90 (c.cr 0x90 ||| BitVec.ofNat 64 (2 ^ src))).setEv 0

/-- SFREC0 to SFREC7 (R388). -/
def sfWords (f : Flt) (op src k idx oy shape ctime : Nat) (pc : W64) : List W64 :=
  [BitVec.ofNat 64 (f.cause.code * 2 ^ 56 + f.sub * 2 ^ 48 + op * 2 ^ 40 + src * 2 ^ 35), f.va.getD f.addr, BitVec.ofNat 64 (k % 2 ^ 40),
   BitVec.ofNat 64 idx, BitVec.ofNat 64 (oy % 65536), BitVec.ofNat 64 shape, BitVec.ofNat 64 ctime, pc]

end Sys2Proof.Machine
end

