-- ==== Sys2Proof/Machine/Calendar.lean ====
section
/-! DEFINITION. The calendar (R402, R404): slots, landings and risers at a tick. -/

namespace Sys2Proof.Machine

/-- The kind of the slot at tick T (R402): 3 grand, 2 major, 1 minor. -/
def slotKind (T : Nat) : Nat := if T % 2 ^ 27 = 0 then 3 else if T % 2 ^ 20 = 0 then 2 else 1

/-- The length of a landing of a kind (R402). -/
def landingLen (k : Nat) : Nat := if k = 3 then 131072 else if k = 2 then 8192 else 416

/-- The first tick of the next landing that has not begun (R404): slots strictly inside the landing in progress are
absorbed (R402). -/
def State.nextSlot (s : State) : Nat :=
  let lo := match s.landing with | some l => max (s.tick + 1) l.stop | none => s.tick + 1
  max 8192 ((lo + 8191) / 8192 * 8192)

/-- CAL_NEXT.DIST (R404). -/
def State.calDist (s : State) : Nat := s.nextSlot - s.tick

/-- Whether the tick lies in a riser, outside any landing (R402, R404). -/
def State.inRiser (s : State) : Bool := s.landing.isNone && decide (s.calDist ≤ 256)

/-- CAL_KIND (R404). -/
def State.calKind (s : State) : Nat :=
  min s.ovr 255 * 2 ^ 16 + (if s.inRiser then 16 else 0) +
  (match s.landing with | some l => l.kind * 4 | none => 0) + slotKind s.nextSlot

/-- The condition that ends CALWAIT w (R410). -/
def State.calClear (s : State) (w : Nat) : Bool :=
  s.landing.isNone && !s.inRiser && decide (s.tick + w + 256 ≤ s.nextSlot)

end Sys2Proof.Machine
end

