-- ==== Sys2Proof/Machine/Pads.lean ====
section
/-! DEFINITION. Scratchpads: pointers (R256, R257), reachable bytes (R262), the checks of scalar accesses (R100), and
the reads and writes of bytes with their full/empty and zero-summary bits (R267, R268). -/

namespace Sys2Proof.Machine

/-! ### Pointers -/

/-- The space code (R256). -/
def ptrCode (p : W64) : Nat := (fld p 60 4).toNat
/-- A code that names a space (R256). -/
def spaceNamed (c : Nat) : Bool := c == 0 || c == 8 || c == 9 || c == 10 || c == 12 || c == 14
/-- The must-be-zero bits are zero (R256). -/
def mbzOk (p : W64) : Bool :=
  match ptrCode p with
  | 0 => fld p 56 4 == 0
  | 8 => fld p 17 43 == 0
  | 9 => fld p 56 4 == 0 && fld p 18 30 == 0
  | 10 => fld p 53 7 == 0 && fld p 23 25 == 0
  | 12 => fld p 40 20 == 0 && fld p 0 3 == 0
  | 14 => fld p 45 15 == 0
  | _ => false
/-- Well formed (R256). -/
def ptrWf (p : W64) : Bool := spaceNamed (ptrCode p) && mbzOk p
/-- The tile id or cluster id of a scratchpad pointer (R256). -/
def ptrTile (p : W64) : Nat := (fld p 48 8).toNat
def ptrCluster (p : W64) : Nat := (fld p 48 5).toNat
def off8 (p : W64) : Nat := (fld p 0 17).toNat
def off9 (p : W64) : Nat := (fld p 0 18).toNat
def offA (p : W64) : Nat := (fld p 0 23).toNat

/-! ### Windows (R259 to R262) -/

/-- PVWIN's base and size in bytes (R261). -/
def Ctx.pvBase (c : Ctx) : Nat := (fld (c.cr 0x34) 0 18).toNat
def Ctx.pvSize (c : Ctx) : Nat := (fld (c.cr 0x34) 32 8).toNat * 1024
/-- CSWIN's base and size in bytes (R261). -/
def Ctx.csBase (c : Ctx) : Nat := (fld (c.cr 0x35) 0 23).toNat
def Ctx.csSize (c : Ctx) : Nat := (fld (c.cr 0x35) 32 13).toNat * 1024
/-- TSOWN's floor, and whether it names an address space (R261). -/
def Tile.floor (t : Tile) : Nat := (fld (t.crs.read 0x36) 32 18).toNat
def Tile.owns (t : Tile) (asid : Nat) : Bool :=
  !(t.crs.read 0x36).getLsbD 16 && (fld (t.crs.read 0x36) 0 16).toNat == asid
/-- CSOWN's floor, and whether it names an address space (R261). -/
def Cluster.floor (k : Cluster) : Nat := (fld (k.crs.read 0x37) 32 23).toNat
def Cluster.owns (k : Cluster) (asid : Nat) : Bool :=
  !(k.crs.read 0x37).getLsbD 16 && (fld (k.crs.read 0x37) 0 16).toNat == asid

/-- The reach rule of R262 for the n bytes from `off` of a scratchpad of `size` bytes whose pool begins at `floor`:
`owned` says the shared area's owner matches, and [base, base + len) is the party's own allocation in the pool. -/
def reach (owned : Bool) (floor size base len off n : Nat) : Option Cause :=
  if off < floor && !owned then some .spaceForeign
  else if size < off + n then some .spaceRange
  else if off + n ≤ floor then none
  else if base ≤ max off floor && off + n ≤ base + len then none
  else some .spaceRange

/-- Where a checked pointer lies: a scratchpad and an offset in it. -/
structure PadLoc where
  pad : PadId
  off : Nat
  deriving DecidableEq, Repr

/-- The id and owner rules for a context's own scalar and vector accesses (R100 causes 1 to 3, R257, R262): n bytes at
p. -/
def State.localLoc (s : State) (p : W64) (n : Nat) : Except Cause PadLoc :=
  let c := s.cx
  if isGal s.cur then
    if ptrCode p ≠ 8 then .error .spaceForeign
    else if !mbzOk p || 131072 < off8 p + n then .error .spaceRange
    else .ok ⟨.gal (s.cur - 512), off8 p⟩
  else
    let t := tileOf s.cur
    let T := s.tile t
    match ptrCode p with
    | 8 =>
      if !mbzOk p || c.pvSize < off8 p + n then .error .spaceRange else .ok ⟨.tile t, c.pvBase + off8 p⟩
    | 9 =>
      if !mbzOk p then .error .spaceRange
      else if ptrTile p ≠ t then .error .spaceForeign
      else
        match reach (T.owns c.asid) T.floor 0x40000 c.pvBase c.pvSize (off9 p) n with
        | some e => .error e
        | none => .ok ⟨.tile t, off9 p⟩
    | 10 =>
      if !mbzOk p then .error .spaceRange
      else if ptrCluster p ≠ clusterOf t then .error .spaceForeign
      else
        let K := s.cluster (clusterOf t)
        match reach (K.owns c.asid) K.floor 0x600000 c.csBase c.csSize (offA p) n with
        | some e => .error e
        | none => .ok ⟨.cluster (clusterOf t), offA p⟩
    | _ => .error .spaceForeign

/-- `CheckScalar(p, n)` (R100) for slot `slot`. -/
def State.checkScalar (s : State) (p : W64) (n slot : Nat) : Except TrapInfo PadLoc :=
  match s.localLoc p n with
  | .error e => .error { cause := e, slot := slot, addr := p }
  | .ok l => if p.toNat % n ≠ 0 then .error { cause := .misaligned, slot := slot, addr := p } else .ok l

/-! ### Bytes -/

/-- A scratchpad. -/
def State.pad (s : State) : PadId → Pad
  | .tile t => (s.tile t).pad
  | .cluster k => (s.cluster k).pad
  | .gal g => (s.gal g).store
/-- Replace a scratchpad. -/
def State.setPad (s : State) (i : PadId) (p : Pad) : State :=
  match i with
  | .tile t => s.modTile t (fun x => { x with pad := p })
  | .cluster k => s.modCluster k (fun x => { x with pad := p })
  | .gal g => s.modGal g (fun x => { x with store := p })

/-- Size of a scratchpad in bytes (R258, R347). -/
def padSize : PadId → Nat
  | .tile _ => 0x40000
  | .cluster _ => 0x600000
  | .gal _ => 0x20000

/-- Whether a full/empty bit is full (R267). -/
def Pad.isFull (p : Pad) (off : Nat) : Bool := p.full.has (off / 16)
/-- Set or clear full/empty bits of the granules of some bytes. -/
def Pad.setFull (p : Pad) (offs : List Nat) : Pad := { p with full := offs.foldl (fun f o => f.add (o / 16)) p.full }
def Pad.setEmpty (p : Pad) (offs : List Nat) : Pad :=
  let gs := offs.map (· / 16)
  { p with full := p.full.filter (fun g => !gs.elem g) }

/-- The offsets of the present bytes of a masked block. -/
def presentOffs (off : Nat) : List (Option Byte) → List Nat
  | [] => []
  | none :: t => presentOffs (off + 1) t
  | some _ :: t => off :: presentOffs (off + 1) t

/-- Whether some byte of a list lies in an uncorrectable word (R397). -/
def Pad.hitsBad (p : Pad) (offs : List Nat) : Bool := !p.bad.isEmpty && offs.any (fun o => p.bad.has (o / 8))

/-- Bad words that a write touches without covering them whole (R397). -/
def Pad.partialBad (p : Pad) (offs : List Nat) : List Nat :=
  p.bad.filter (fun w => offs.any (fun o => o / 8 == w) && !(List.range 8).all (fun i => offs.elem (8 * w + i)))

/-- Remove the bytes of a masked block that fall in some words. -/
def dropWords (ws : List Nat) (off : Nat) : List (Option Byte) → List (Option Byte)
  | [] => []
  | x :: t => (if ws.elem (off / 8) then none else x) :: dropWords ws (off + 1) t

/-- Write bytes through the bank arbiter (R268: the zero-summary bit of each block touched clears; R397: a write into
part of an uncorrectable word is dropped and reported). Answers the first dropped word's offset. -/
def Pad.write (p : Pad) (off : Nat) (bytes : List (Option Byte)) : Pad × Option Nat :=
  let offs := presentOffs off bytes
  let pb := if p.bad.isEmpty then [] else p.partialBad offs
  let bytes' := if pb.isEmpty then bytes else dropWords pb off bytes
  ({ p with mem := p.mem.writeMasked off bytes',
            dirty := offs.foldl (fun d o => d.add (o / 1024)) p.dirty,
            bad := if p.bad.isEmpty then [] else p.bad.filter (fun w => pb.elem w || !(offs.elem (8 * w))) },
   pb.head?.map (8 * ·))

/-- Zero-fill a range: bytes zero, full/empty bits empty, zero-summary bits set (R259, R260). The range is in whole
KiB. -/
def Pad.zeroFill (p : Pad) (base size : Nat) : Pad :=
  { p with mem := p.mem.clear base size,
           full := p.full.filter (fun g => decide (16 * g < base) || decide (base + size ≤ 16 * g)),
           dirty := p.dirty.filter (fun b => decide (1024 * b < base) || decide (base + size ≤ 1024 * b)),
           bad := p.bad.filter (fun w => decide (8 * w < base) || decide (base + size ≤ 8 * w)) }

/-- `n` consecutive numbers from `a`. -/
def span (a n : Nat) : List Nat := (List.range n).map (a + ·)

/-- Whether every granule of some cells is full. -/
def State.cellsFull (s : State) (cs : List Cell) : Bool :=
  cs.all (fun c => (span c.off c.n).all (fun o => (s.pad c.pad).isFull o))
/-- Whether some granule of some cells is full. -/
def State.cellsSomeFull (s : State) (cs : List Cell) : Bool :=
  cs.any (fun c => (span c.off c.n).any (fun o => (s.pad c.pad).isFull o))
/-- Clear the full/empty bits of some cells. -/
def State.cellsEmpty (s : State) (cs : List Cell) : State :=
  cs.foldl (fun s c => s.setPad c.pad ((s.pad c.pad).setEmpty (span c.off c.n))) s
/-- Whether some cell meets an uncorrectable word (R397). -/
def State.cellsBad (s : State) (cs : List Cell) : Bool :=
  cs.any (fun c => (s.pad c.pad).hitsBad (span c.off c.n))

/-- The bank of a scratchpad offset (R258). -/
def padBank : PadId → Nat → Nat
  | .cluster _, o => o / 0x20000
  | _, o => o / 0x4000
/-- A bank grants a full/empty access to tile t (R267). -/
def Pad.grant (p : Pad) (bank t : Nat) : Pad := { p with grants := mapPut bank t p.grants }

/-- Apply stores in order (R20), `.EF` ones as their banks grant them (R267); a dropped partial write leaves a deferred
`DATA_LOST` (R379). -/
def applyStores (s : State) : List StoreOp → State
  | [] => s
  | o :: t =>
    let (p, bad) := (s.pad o.pad).write o.off o.bytes
    let p := if o.setFull then (p.setFull (presentOffs o.off o.bytes)).grant (padBank o.pad o.off) (tileOf s.cur) else p
    let s := s.setPad o.pad p
    let s := if bad.isSome then
        s.modCx (fun c => { c with deferred := c.deferred ++ [{ cause := .dataLost, whole := true, defer := true,
                                                                addr := o.addr }] })
      else s
    applyStores s t

/-- The program's and a handler's results of a context, the program's first. -/
def Ctx.results (c : Ctx) : List Pend := (match c.shadow with | some h => h.pend | none => []) ++ c.pend

/-- Whether a load of an issue before `iss` has not been performed, of those that wait for full granules (R293). -/
def Ctx.feBefore (c : Ctx) (iss : Nat) : Bool :=
  c.results.any (fun e => !e.arrived && (match e.fe with | some w => w.need && decide (w.iss < iss) | none => false))
/-- Whether a store of an issue before `iss` has not been performed. -/
def Ctx.storeBefore (c : Ctx) (iss : Nat) : Bool := c.stq.any (fun o => decide (o.iss < iss))
/-- Whether some load of an issue up to `iss` has not been performed: its stores wait for it (R20, R293). -/
def Ctx.loadUpTo (c : Ctx) (iss : Nat) : Bool :=
  c.results.any (fun e => !e.arrived && (match e.fe with | some w => decide (w.iss ≤ iss) | none => false))

/-- Whether an access of context x issued before `iss` has not been performed, of those that what is issued at `iss` follows
(R293): a full/empty load, or a store behind one. -/
def State.behind (s : State) (x iss : Nat) : Bool := (s.ctx x).feBefore iss || (s.ctx x).storeBefore iss

/-- Whether a store is performed no earlier than now: a load of its issue or of an earlier one waits, or, for an `.EF`
store that has waited, a granule of its access is full (R267). -/
def State.storeWaits (s : State) (o : StoreOp) (rest : List StoreOp) : Bool :=
  s.cx.loadUpTo o.iss ||
  (o.setFull && (o :: rest.filter (fun q => q.iss == o.iss && q.slot == o.slot)).any
    (fun q => (presentOffs q.off q.bytes).any (s.pad q.pad).isFull))

/-- Perform waiting stores of the current context in issue order, up to the first that still waits; `open_` names the
access, by issue and slot, that is being performed. -/
def performQueue (open_ : Option (Nat × Nat)) : List StoreOp → State → State
  | [], s => s.modCx (fun c => { c with stq := [] })
  | o :: t, s =>
    if open_ != some (o.iss, o.slot) && s.storeWaits o t then s.modCx (fun c => { c with stq := o :: t })
    else performQueue (some (o.iss, o.slot)) t (applyStores s [o])

/-- Perform the stores of the current context that wait no more. -/
def performStores (s : State) : State := if s.cx.stq.isEmpty then s else performQueue none s.cx.stq s

/-! ### The order in which a bank serves full/empty accesses (R267) -/

/-- A full/empty access at the banks: whose it is, the tick of its issue, its place in its context, whether it takes
or fills its granules, and its bytes. -/
structure FeAsk where
  tile  : Nat
  at_   : Nat
  ctx   : Nat
  seq   : Nat
  take  : Bool
  fill  : Bool
  cells : List Cell
  deriving DecidableEq, Repr

/-- The granules of some cells, numbered over all scratchpads. -/
def granulesOf (cs : List Cell) : List Nat :=
  let pad := fun (p : PadId) => match p with | .tile t => t | .cluster k => 256 + k | .gal g => 288 + g
  cs.flatMap (fun c => (span c.off c.n).map (fun o => pad c.pad * 2 ^ 20 + o / 16))
/-- The tile that the bank of a granule so numbered granted last. -/
def State.lastGrant (s : State) (g : Nat) : Nat :=
  let n := g / 2 ^ 20
  let p : PadId := if n < 256 then .tile n else if n < 288 then .cluster (n - 256) else .gal (n - 288)
  mapGet 7 (s.pad p).grants (padBank p (g % 2 ^ 20 * 16))
/-- The place of an access in the order of a bank: tiles round robin by tile-in-cluster after the tile granted last, and each
tile's in issue order, context 0's first. -/
def FeAsk.key (last : Nat) (a : FeAsk) : List Nat := [(a.tile % 8 + 7 - last % 8) % 8, a.tile, a.at_, a.ctx, a.seq]
/-- Lexicographic order. -/
def keyLt : List Nat → List Nat → Bool
  | a :: s, b :: t => decide (a < b) || (a == b && keyLt s t)
  | _, _ => false

/-- Whether a freeze stops a tile in a tick (R162, R394). -/
def Tile.frozenAt (T : Tile) (tick : Nat) : Bool := decide (T.frz ≤ tick) && decide (tick < T.freeze)
/-- Whether a freeze stops tile t now, or the package (R162, R399). -/
def State.tileStopped (s : State) (t : Nat) : Bool := s.frozen || (s.tile t).frozenAt s.tick

/-- The full/empty accesses of context x whose granules have the state they wait for. -/
def State.ctxAsks (s : State) (x : Nat) (c : Ctx) : List FeAsk :=
  let t := tileOf x
  if 512 ≤ x || s.tileStopped t || (s.tile t).saves.any (fun v => v.ctx == x) then []
  else
    c.results.filterMap (fun e =>
      match e.fe with
      | some w =>
        if !e.arrived && w.need && !c.feBefore w.iss && !c.storeBefore w.iss && s.cellsFull w.cells then
          some { tile := t, at_ := w.at_, ctx := x, seq := e.seq, take := w.clear, fill := false, cells := w.cells }
        else none
      | none => none) ++
    c.feh.filterMap (fun h =>
      if h.sole && c.life == .live && !s.cellsSomeFull h.cells then
        some { tile := t, at_ := h.at_, ctx := x, seq := 0, take := true, fill := true, cells := h.cells }
      else none) ++
    c.handles.filterMap (fun e =>
      match e.2.cmds with
      | k :: _ =>
        if !k.few.isEmpty && !k.cancel && !k.faulted &&
            (if k.fills then !s.cellsSomeFull k.few else s.cellsFull k.few) then
          some { tile := t, at_ := k.iat, ctx := x, seq := 0, take := true, fill := k.fills, cells := k.few }
        else none
      | [] => none)

/-- Whether access b goes before access a at the lowest granule of both: the bank of that granule decides for the two. -/
def State.beats (s : State) (b a : FeAsk) : Bool :=
  b.fill == a.fill && (a.take || b.take) &&
  (match ((granulesOf a.cells).filter (granulesOf b.cells).elem).min? with
   | some g => keyLt (b.key (s.lastGrant g)) (a.key (s.lastGrant g))
   | none => false)
/-- The accesses that go before some of `l`, directly or through others, with `l`; `fuel` bounds the rounds. -/
def State.before (s : State) (asks : List FeAsk) : Nat → List FeAsk → List FeAsk
  | 0, l => l
  | fuel + 1, l => s.before asks fuel (l ++ asks.filter (fun b => !l.elem b && l.any (s.beats b)))
/-- Whether an access waits for one that could be performed now. Where accesses of several granules of different banks each wait
for another, the first in the order of the tiles goes (log entry 90). -/
def State.beaten (s : State) (a : FeAsk) : Bool :=
  let asks := s.ctxs.flatMap (fun e => s.ctxAsks e.1 e.2)
  let l := s.before asks asks.length [a]
  l.any (fun b => s.beats b a) &&
    (l.any (fun b => asks.all (fun c => !s.beats c b)) || l.any (fun b => keyLt (b.key 7) (a.key 7)))

/-- The banks of an access have granted it to a tile. -/
def State.granted (s : State) (t : Nat) (cs : List Cell) : State :=
  cs.foldl (fun s c => s.setPad c.pad ((s.pad c.pad).grant (padBank c.pad c.off) t)) s

end Sys2Proof.Machine
end

