-- ==== Sys2Proof/Machine/Cr.lean ====
section
/-! DEFINITION. Control registers (R106 to R112, R157 to R159, R261, R265, R323, R333, R349, R380, R381, R387, R404,
R417, R420, R431): their fields by access code, their values, and their writes. -/

namespace Sys2Proof.Machine

/-- The fields of a control register by access code (R5); what is in none of them is reserved. -/
structure CrInfo where
  rw  : W64 := 0
  ro  : W64 := 0
  w1c : W64 := 0
  deriving DecidableEq, Repr

/-- All 64 bits. -/
def all64 : W64 := BitVec.allOnes 64

/-- The register map (R108). -/
def crInfo (n : Nat) : Option CrInfo :=
  if n = 0x000 then some { ro := all64 }
  else if n = 0x001 then some { ro := 3 }
  else if n = 0x002 then some { w1c := 0x3F }
  else if n = 0x003 then some { ro := all64 }
  else if n = 0x004 ∨ n = 0x005 then some { rw := all64 }
  else if n = 0x006 then some { ro := 0x0FFFFFFFFFFFFFFF }
  else if n = 0x007 then some { w1c := 0xFF }
  else if 0x008 ≤ n ∧ n ≤ 0x00F then some { rw := all64 }
  else if n = 0x010 then some { rw := 7, ro := 0x770 }
  else if n = 0x011 then some { ro := all64 }
  else if 0x012 ≤ n ∧ n ≤ 0x019 then some { ro := 0x01FFFFFF07FFFFFF }
  else if n = 0x01A then some { ro := 0xFFFF }
  else if n = 0x01B then some { ro := 0x00FFFEFFFFFFFFFF }
  else if n = 0x01C then some { ro := all64 }
  else if n = 0x020 then some { ro := 0xFF }
  else if n = 0x021 then some { ro := all64 }
  else if 0x030 ≤ n ∧ n ≤ 0x033 then some { rw := all64 }
  else if n = 0x034 then some { ro := 0x000000FF0003FFFF }
  else if n = 0x035 then some { ro := 0x00001FFF007FFFFF }
  else if n = 0x036 then some { ro := 0x0003FFFF0001FFFF }
  else if n = 0x037 then some { ro := 0x007FFFFF0001FFFF }
  else if n = 0x040 then some { ro := 0xFFFFFFFF }
  else if n = 0x041 then some { ro := 0x00FF001F }
  else if n = 0x042 ∨ n = 0x043 then some { ro := all64 }
  else if n = 0x044 then some { rw := 1, ro := 0x0000FFFF00000774 }
  else if n = 0x045 then some { ro := 0xFFFF }
  else if n = 0x046 then some { ro := all64 }
  else if n = 0x050 then some { rw := 0xFFFFFFFF }
  else if n = 0x051 then some { ro := 0x1F }
  else if n = 0x052 then some { w1c := 1 }
  else if n = 0x053 then some { ro := all64 }
  else if n = 0x060 then some { rw := 0x7F7FFF }
  else if n = 0x061 then some { ro := 0xE7FFFFFF00FFFFFF }
  else if n = 0x080 then some { rw := 0xFFFFFFFFFFFFFFFD }
  else if n = 0x081 then some { rw := 4, ro := 3 }
  else if n = 0x082 then some { ro := 0xFFFFFFE000000FFF }
  else if n = 0x083 then some { rw := all64 }
  else if n = 0x084 then some { ro := all64 }
  else if 0x085 ≤ n ∧ n ≤ 0x088 then some { rw := all64 }
  else if n = 0x090 then some { w1c := 0x1FFFFF }
  else if n = 0x091 then some { rw := 0x1F }
  else if 0x098 ≤ n ∧ n ≤ 0x09F then some { ro := all64 }
  else if n = 0x0C0 then some { ro := 0xFFFFC000FFFFFFFF }
  else if n = 0x0C1 then some { ro := 0x1FFFFFFFF }
  else if n = 0x0C2 then some { ro := 0x0001FFFFFFFFFFFF }
  else none

/-- The registers a gallery core has (R349, R380). -/
def galCr (n : Nat) : Bool :=
  n ≤ 2 || n == 4 || n == 5 || n == 6 || (8 ≤ n && n ≤ 0xF) || n == 0x20 || n == 0x21 || (0x80 ≤ n && n ≤ 0x88)

/-- The register a context can name, or none: `ILLEGAL_OP` (R108, R349). -/
def State.crInfo? (s : State) (n : Nat) : Option CrInfo :=
  if isGal s.cur then (if galCr n then (if n = 0x20 then some { ro := 0x13F } else crInfo n) else none) else crInfo n

/-- CTXPRI.EFF: the larger of BASE and every loan (R158, R320). -/
def Ctx.eff (c : Ctx) : Nat := c.loans.foldl (fun m l => max m l.2) (fld (c.cr 0x10) 0 3).toNat

/-- A record's word, zero for a source without one (R388). -/
def Ctx.sfWord (c : Ctx) (j : Nat) : W64 :=
  match mapGet? (c.cr 0x91).toNat c.sfrec with
  | some r => (r.words[j]?).getD 0
  | none => 0

/-- PGRANT_STAT.PEND of a tile in its place (R417). -/
def State.pendBits (s : State) (t : Nat) : Nat :=
  (List.range 3).foldl (fun a c => if s.waits.any (fun w => w.tile == t && w.cls == c) then a + 2 ^ (8 + c) else a) 0

/-- MNSTAT (R333). -/
def Merge.stat (m : Merge) : W64 :=
  BitVec.ofNat 64 (m.state * 2 ^ 61 + (if m.ord then 2 ^ 58 else 0) + m.runs.length * 2 ^ 51 + m.buf.length * 2 ^ 36 +
    m.late * 2 ^ 32 + m.fcause * 2 ^ 21 + m.drained % 2 ^ 21)

/-- The value of a control register for context n at the current tick (R106). -/
def State.crRead (s : State) (ctx n : Nat) : W64 :=
  let c := s.ctx ctx
  let t := tileOf ctx
  if n = 0x000 then BitVec.ofNat 64 c.ctime
  else if n = 0x006 then BitVec.ofNat 64 (c.sync * 2 ^ 48 + c.arr * 2 ^ 36 + c.str * 2 ^ 24 + min 4095 c.st * 2 ^ 12 + min 4095 c.ld)
  else if n = 0x010 then (c.cr 0x10 &&& 0x707) ||| BitVec.ofNat 64 (c.eff % 8 * 16)
  else if n = 0x01A then BitVec.ofNat 64 c.jcnt
  else if n = 0x020 then (if isGal ctx then BitVec.ofNat 64 (256 + (ctx - 512)) else BitVec.ofNat 64 t)
  else if n = 0x021 then BitVec.ofNat 64 s.tick
  else if n = 0x040 then BitVec.ofNat 64 s.calDist
  else if n = 0x041 then BitVec.ofNat 64 s.calKind
  else if n = 0x042 then BitVec.ofNat 64 s.tick
  else if n = 0x044 then (s.tile t).crs.read n ||| BitVec.ofNat 64 (s.pendBits t)
  else if n = 0x051 then BitVec.ofNat 64 c.binds.length
  else if n = 0x081 then (c.cr 0x81 &&& 6) ||| (if c.inh then 1 else 0)
  else if 0x098 ≤ n ∧ n ≤ 0x09F then c.sfWord (n - 0x98)
  else if n = 0x030 ∨ n = 0x036 ∨ (0x043 ≤ n ∧ n ≤ 0x046) ∨ n = 0x0C1 ∨ n = 0x0C2 then (s.tile t).crs.read n
  else if n = 0x061 then (s.cluster (clusterOf t)).mn.stat
  else if (0x031 ≤ n ∧ n ≤ 0x033) ∨ n = 0x037 ∨ n = 0x060 then (s.cluster (clusterOf t)).crs.read n
  else c.cr n

/-- Nibble k of a word. -/
def nib (w : W64) (k : Nat) : Nat := (fld w (4 * k) 4).toNat

/-- Value rules of a write that would leave `v` in register n (R158, R265, R333, R387). -/
def State.crValueCheck (s : State) (n : Nat) (v : W64) : Option Cause :=
  let c := s.cx
  let t := tileOf s.cur
  if n = 0x010 then (if (fld v 8 3).toNat < (fld v 0 3).toNat then some .illegalOp else none)
  else if 0x030 ≤ n ∧ n ≤ 0x033 then
    if (List.range 16).any (fun k => nib v k == 0xE) then some .illegalOp
    else if n = 0x030 then (if (s.tile t).owns c.asid then none else some .spaceForeign)
    else (if (s.cluster (clusterOf t)).owns c.asid then none else some .spaceForeign)
  else if n = 0x060 then
    if !(s.cluster (clusterOf t)).owns c.asid then some .spaceForeign
    else
      let runs := (fld v 16 7).toNat
      let cap := (fld v 0 15).toNat
      if 1 ≤ runs ∧ runs ≤ 64 ∧ 4 ≤ cap ∧ cap ≤ 16384 then none else some .illegalOp
  else if n = 0x091 then (if 20 ≤ v.toNat then some .illegalOp else none)
  else none

/-- What a WRCR of `a` writes: mask and value, or its trap (R5, R106). -/
def State.wrcr (s : State) (n : Nat) (a : W64) : Except Cause CrWrite :=
  match s.crInfo? n with
  | none => .error .illegalOp
  | some i =>
    let cur := s.crRead s.cur n
    if i.rw ||| i.w1c == 0 then .error .illegalOp
    else if a &&& ~~~(i.rw ||| i.ro ||| i.w1c) != 0 then .error .illegalOp
    else if a &&& i.ro != cur &&& i.ro then .error .illegalOp
    else
      match s.crValueCheck n ((cur &&& ~~~i.rw) ||| (a &&& i.rw)) with
      | some e => .error e
      | none => .ok { num := n, mask := i.rw ||| (a &&& i.w1c), val := a &&& i.rw }

/-- What a SETCR (`on`) or CLRCR of `a` writes (R106). -/
def State.setclr (s : State) (on : Bool) (n : Nat) (a : W64) : Except Cause CrWrite :=
  match s.crInfo? n with
  | none => .error .illegalOp
  | some i =>
    let cur := s.crRead s.cur n
    if i.rw == 0 then .error .illegalOp
    else if a &&& ~~~i.rw != 0 then .error .illegalOp
    else
      match s.crValueCheck n (if on then cur ||| a else cur &&& ~~~a) with
      | some e => .error e
      | none => .ok { num := n, mask := a, val := if on then a else 0 }

/-- Clear the records of the sources whose bits are written 1, and resume what R390 resumes. -/
def Ctx.clearSources (c : Ctx) (v : W64) : Ctx :=
  let on := fun (i : Nat) => v.getLsbD i
  { c with sfrec := c.sfrec.filter (fun r => !on r.1),
           handles := c.handles.map (fun h =>
             if on h.1 then (h.1, { h.2 with cmds := match h.2.cmds with
                                                     | k :: t => { k with faulted := false, retry := k.faulted } :: t
                                                     | [] => [] })
             else h) }

/-- A cleared record of source 16 retries the loads of a context that faulted (R390). -/
def retryLoads (n : Nat) (s : State) : State :=
  let go := fun (l : List CfgLoad) => l.map (fun k => if k.ctx = n then { k with faulted := false, retry := k.faulted } else k)
  s.modTile (tileOf n) (fun t => { t with tloads := go t.tloads, arr := { t.arr with loads := go t.arr.loads } })

/-- The faulted PUBLISHes of an ended step go with its other faulted commands (R392; log entry 49). -/
def dropPubs (n : Nat) (s : State) : State :=
  let gone := fun (r : OutReq) => r.ctx == n && r.faulted
  if s.pubs.any gone then
    { s with pubs := s.pubs.filter (fun r => !gone r) }.modCtx n (fun c => { c with str := c.str - (s.pubs.filter gone).length })
  else s

/-- Apply one control-register write at the end of its issue (R107). A clear issued at position t falls on the side of
t + 1: it clears flags that were delivered at t (log entry 72, DESIGN CHOICE). -/
def applyCr (w : CrWrite) (s : State) : State :=
  let t := tileOf s.cur
  let put := fun (f : RegFile 64) => f.write w.num ((f.read w.num &&& ~~~w.mask) ||| (w.val &&& w.mask))
  if w.num = 0x030 ∨ w.num = 0x044 then s.modTile t (fun x => { x with crs := put x.crs })
  else if (0x031 ≤ w.num ∧ w.num ≤ 0x033) ∨ w.num = 0x060 then
    s.modCluster (clusterOf t) (fun x => { x with crs := put x.crs })
  else if w.num = 0x090 then
    let s := if w.mask.getLsbD 16 then retryLoads s.cur s else s
    s.modCx (fun c => { c.clearSources w.mask with crs := put c.crs })
  else if w.num = 0x083 then s.modCx (fun c => { c with crs := (put c.crs).write 0x81 (c.cr 0x81 ||| 2) })
  else s.modCx (fun c => { c with crs := put c.crs })

end Sys2Proof.Machine
end

