-- ==== Sys2Proof/Machine/Commit.lean ====
section
/-! DEFINITION. The end of an issue: stores after loads (R20), control-register writes seen from the next position
(R107), the next PC, and what the B operation left (R123, R384, R385, R51, R122). And how an operation standing alone
becomes an outcome. -/

namespace Sys2Proof.Machine

/-- The return from a handler (R385): every handler result takes effect, the program's records, issue index, snapshot
registers and context time come back, and PC is where the program continues. A full/empty load still waiting, and an
error the handler met, follow into the program (R379). TRCTL, TRCAUSE and TRPC are read as they stood before the issue `o` of
the ERET (R107). -/
def returnFromHandler (skip : Bool) (tick : Nat) (o c : Ctx) : Ctx :=
  match c.shadow with
  | none => c
  | some h =>
    let open_ := fun (e : Pend) => (e.fe.isSome && !e.arrived) || e.lost.isSome || e.trapped.isSome
    let late := (c.pend.filter open_).map (fun e => { e with pos := h.ctime, tag := if e.fe.isSome then 0 else 2 })
    let now := c.pend.filter (fun e => !open_ e)
    let c := now.foldl (fun c e => c.applyPend e) c
    let moved := (o.cr 0x81).getLsbD 1
    let soft := (o.cr 0x82).getLsbD 39
    { c with recA := h.recA, recV := h.recV, recM := h.recM
             k := if moved || soft then 0 else h.k
             pend := late.foldl (fun l e => insertPend e l) h.pend
             ld := c.ld - (now.filter (fun e => e.load && !e.arrived)).length
             ctime := h.ctime, shadow := none, hpos := 0
             pc := o.cr 0x83
             skip := skip && !moved && !soft
             crs := c.crs.write 0x81 (c.cr 0x81 &&& 4)
             stall := max c.stall (tick + 9) }

/-- Act on what the B operation left, for the bundle at h; `o` is the context before the issue. -/
def applyFinal (h : W64) (o : Ctx) (f : Final) (s : State) : State :=
  match f with
  | .none => s
  | .exit st => cancelFault s.cur (s.modCx (fun c => c.endStep st none h))
  | .soft cause n =>
    takeTrapAt { cause := cause, slot := 3, soft := true, arg := n } h s.cx.pc s
  | .eret skip => s.modCx (returnFromHandler skip s.tick o)
  | .halt _ => s.modCx (fun c => { c with halted := true })
  | .clear => s.modCx (fun c => { c with recA := { op := .anop }, recV := { op := .vnop }, recM := { op := .mnop } })
  | .yield n => s.modCx (fun c => { c with stall := max c.stall (s.tick + 1 + n) })

/-- Address registers LOOPB and LOOPE written by a loop operation (R115). -/
def Ctx.setLoops (c : Ctx) (b : IssueBuf) : Ctx :=
  let c := b.loopb.foldl (fun c x => c.setCr (8 + x.1) x.2) c
  b.loope.foldl (fun c x => c.setCr (12 + x.1) x.2) c

/-- The stores of an issue are performed, or wait behind a load of this issue or an earlier one (R20, R293). -/
def commitStores (s : State) : State :=
  let c := s.cx
  if c.buf.stores.isEmpty then s
  else if c.stq.isEmpty && !c.loadUpTo c.iss then applyStores s c.buf.stores
  else performStores (s.modCx (fun c => { c with stq := c.stq ++ c.buf.stores.map (fun o => { o with iss := c.iss }) }))

/-- End the issue of the current context. EVPEND bits that its operations set follow its clears (R107). A CALL or a loop
operation writes LINK, LOOPB and LOOPE after the A slot's WRCR of the same issue (log entry 91, DESIGN CHOICE). -/
def commit (s : State) : State :=
  let b := s.cx.buf
  let h := s.cx.pc
  let o := s.cx
  let s := commitStores s
  let s := b.crw.foldl (fun s w => applyCr w s) s
  let s := s.modCx (fun c =>
    let c := c.setLoops b
    let c := if b.ev = 0 then c else c.setCr 7 (c.cr 7 ||| b.ev)
    { c with buf := {}, pc := b.next.getD c.pc, iss := c.iss + 1,
             stall := if b.lost = 0 then c.stall else max c.stall (s.tick + 1 + b.lost) })
  applyFinal h o b.final s

/-- The outcome of an operation alone, where it leaves nothing for the end of its issue. -/
def finish (s : State) (r : Res) : Host.Outcome State Fault Refusal :=
  match r with
  | .ok s' => .next s'
  | .trap t => .next (takeTrap t s)
  | .trapIn t s' => .next (takeTrap t s')

/-- The outcome of an operation alone that may hold its bundle, and leaves effects for the end of its issue. -/
def finishHold (s : State) (hold : Option State) (r : Res) : Host.Outcome State Fault Refusal :=
  match hold with
  | some s' => .next s'
  | none =>
    match r with
    | .ok s' => .next (commit s')
    | .trap t => .next (takeTrap t s)
    | .trapIn t s' => .next (takeTrap t s')

end Sys2Proof.Machine
end

