-- ==== Sys2Proof/Machine/Alu.lean ====
section
/-! DEFINITION. A-slot arithmetic (R93 to R97), ASPQ and ASPC (R263, R264). Each operation is given over shared
definitions; `exec…` is its outcome when it issues alone. -/

namespace Sys2Proof.Machine

/-- An A operation whose only effect is RD (R38, R93): its guard, destination, latency and value. -/
def alu (gp : BitVec 4) (rd : BitVec 6) (lat : Nat) (v : W64) (s : State) : Res :=
  if s.cx.guard gp then .ok (s.setCx (s.cx.deliverA rd v lat)) else .ok s

/-- The signed value of a pattern (R93). -/
abbrev sgn (a : W64) : Int := a.toInt
/-- 1 or 0. -/
def ofBool (b : Bool) : W64 := if b then 1 else 0
/-- Bits [5:0] of b as a shift amount (R95). -/
def sh6 (b : W64) : Nat := b.toNat % 64

/-- CLZ (R95). -/
def clzN (x : Nat) : Nat → Nat
  | 0 => 0
  | n + 1 => if (x / 2 ^ n) % 2 = 1 then 0 else 1 + clzN x n
/-- POPC (R95). -/
def popcN (x : Nat) : Nat → Nat
  | 0 => 0
  | n + 1 => (x / 2 ^ n) % 2 + popcN x n

/-- CMP by FN (R95). -/
def cmpA (fn : Nat) (a b : W64) : W64 :=
  ofBool (match fn with
    | 0 => a == b
    | 1 => a != b
    | 2 => decide (sgn a < sgn b)
    | 3 => decide (sgn b ≤ sgn a)
    | 4 => decide (a.toNat < b.toNat)
    | _ => decide (b.toNat ≤ a.toNat))

/-- The position and length of R96. -/
def bfPos (b : W64) : Nat := b.toNat % 64
def bfLen (b : W64) : Nat := min (bitsOf b.toNat 14 8) (64 - bfPos b)

/-- BFX and BFXS (R96). -/
def bfxVal (signed : Bool) (a b : W64) : W64 :=
  if bfLen b = 0 then 0
  else
    let x := (a.toNat / 2 ^ bfPos b) % 2 ^ bfLen b
    if signed then BitVec.ofInt 64 (sext x (bfLen b)) else BitVec.ofNat 64 x

/-- BFI (R96). -/
def bfiVal (d a b : W64) : W64 :=
  if bfLen b = 0 then d
  else
    let m : W64 := BitVec.ofNat 64 ((2 ^ bfLen b - 1) * 2 ^ bfPos b)
    (d &&& ~~~m) ||| (BitVec.ofNat 64 (a.toNat % 2 ^ bfLen b * 2 ^ bfPos b) &&& m)

/-- EXT by FN (R95). -/
def extVal (fn : Nat) (a : W64) : W64 :=
  let n := 8 * 2 ^ (fn % 4)
  if fn < 4 then BitVec.ofInt 64 (sext a.toNat n) else BitVec.ofNat 64 (a.toNat % 2 ^ n)

/-- The immediate of an AI operation (R97): IMM10 or the extension, sign-extended. -/
def immA (imm : BitVec 10) (e : Option W32) : W64 :=
  match e with
  | some x => x.signExtend 64
  | none => imm.signExtend 64

/-- SRA (R95). -/
def sraVal (a : W64) (n : Nat) : W64 := BitVec.sshiftRight a n

/-- ADD (R95). -/
def opAdd (f : AR) (s : State) : Res := alu f.gp f.rd 1 (s.cx.ra f.ra + s.cx.ra f.rb) s
/-- SUB (R95). -/
def opSub (f : AR) (s : State) : Res := alu f.gp f.rd 1 (s.cx.ra f.ra - s.cx.ra f.rb) s
/-- AND (R95). -/
def opAnd (f : AR) (s : State) : Res := alu f.gp f.rd 1 (s.cx.ra f.ra &&& s.cx.ra f.rb) s
/-- OR (R95). -/
def opOr (f : AR) (s : State) : Res := alu f.gp f.rd 1 (s.cx.ra f.ra ||| s.cx.ra f.rb) s
/-- XOR (R95). -/
def opXor (f : AR) (s : State) : Res := alu f.gp f.rd 1 (s.cx.ra f.ra ^^^ s.cx.ra f.rb) s
/-- ANDN (R95). -/
def opAndn (f : AR) (s : State) : Res := alu f.gp f.rd 1 (s.cx.ra f.ra &&& ~~~(s.cx.ra f.rb)) s
/-- SHL (R95). -/
def opShl (f : AR) (s : State) : Res := alu f.gp f.rd 1 (s.cx.ra f.ra <<< sh6 (s.cx.ra f.rb)) s
/-- SHR (R95). -/
def opShr (f : AR) (s : State) : Res := alu f.gp f.rd 1 (s.cx.ra f.ra >>> sh6 (s.cx.ra f.rb)) s
/-- SRA (R95). -/
def opSra (f : AR) (s : State) : Res := alu f.gp f.rd 1 (sraVal (s.cx.ra f.ra) (sh6 (s.cx.ra f.rb))) s
/-- MIN (R95). -/
def opMin (f : AR) (s : State) : Res :=
  alu f.gp f.rd 1 (if sgn (s.cx.ra f.ra) ≤ sgn (s.cx.ra f.rb) then s.cx.ra f.ra else s.cx.ra f.rb) s
/-- MINU (R95). -/
def opMinu (f : AR) (s : State) : Res :=
  alu f.gp f.rd 1 (if (s.cx.ra f.ra).toNat ≤ (s.cx.ra f.rb).toNat then s.cx.ra f.ra else s.cx.ra f.rb) s
/-- MAX (R95). -/
def opMax (f : AR) (s : State) : Res :=
  alu f.gp f.rd 1 (if sgn (s.cx.ra f.ra) ≤ sgn (s.cx.ra f.rb) then s.cx.ra f.rb else s.cx.ra f.ra) s
/-- MAXU (R95). -/
def opMaxu (f : AR) (s : State) : Res :=
  alu f.gp f.rd 1 (if (s.cx.ra f.ra).toNat ≤ (s.cx.ra f.rb).toNat then s.cx.ra f.rb else s.cx.ra f.ra) s
/-- ABS (R95). -/
def opAbs (f : AR1) (s : State) : Res :=
  alu f.gp f.rd 1 (if (s.cx.ra f.ra).msb then 0 - s.cx.ra f.ra else s.cx.ra f.ra) s
/-- CLZ (R95). -/
def opClz (f : AR1) (s : State) : Res := alu f.gp f.rd 1 (BitVec.ofNat 64 (clzN (s.cx.ra f.ra).toNat 64)) s
/-- POPC (R95). -/
def opPopc (f : AR1) (s : State) : Res := alu f.gp f.rd 1 (BitVec.ofNat 64 (popcN (s.cx.ra f.ra).toNat 64)) s
/-- CMP (R95). -/
def opCmp (f : ARn) (s : State) : Res := alu f.gp f.rd 1 (cmpA f.fn.toNat (s.cx.ra f.ra) (s.cx.ra f.rb)) s
/-- ADDI (R97). -/
def opAddi (f : AI) (s : State) : Res := alu f.gp f.rd 1 (s.cx.ra f.ra + immA f.imm f.ext) s
/-- ANDI (R97). -/
def opAndi (f : AI) (s : State) : Res := alu f.gp f.rd 1 (s.cx.ra f.ra &&& immA f.imm f.ext) s
/-- ORI (R97). -/
def opOri (f : AI) (s : State) : Res := alu f.gp f.rd 1 (s.cx.ra f.ra ||| immA f.imm f.ext) s
/-- XORI (R97). -/
def opXori (f : AI) (s : State) : Res := alu f.gp f.rd 1 (s.cx.ra f.ra ^^^ immA f.imm f.ext) s
/-- SHLI (R97). -/
def opShli (f : AI) (s : State) : Res := alu f.gp f.rd 1 (s.cx.ra f.ra <<< sh6 (immA f.imm f.ext)) s
/-- SHRI (R97). -/
def opShri (f : AI) (s : State) : Res := alu f.gp f.rd 1 (s.cx.ra f.ra >>> sh6 (immA f.imm f.ext)) s
/-- SRAI (R97). -/
def opSrai (f : AI) (s : State) : Res := alu f.gp f.rd 1 (sraVal (s.cx.ra f.ra) (sh6 (immA f.imm f.ext))) s
/-- MOVI (R97). -/
def opMovi (f : AI0) (s : State) : Res := alu f.gp f.rd 1 (immA f.imm f.ext) s
/-- MOVHI (R97). -/
def opMovhi (f : AI) (s : State) : Res :=
  alu f.gp f.rd 1 ((fld (s.cx.ra f.ra) 0 32).setWidth 64 ||| ((fld (immA f.imm f.ext) 0 32).setWidth 64 <<< 32)) s
/-- ADDPC (R97): H is the address of this bundle's header. -/
def opAddpc (f : AI0) (s : State) : Res := alu f.gp f.rd 1 (s.cx.pc + immA f.imm f.ext * 4) s
/-- MULI (R97). -/
def opMuli (f : AI) (s : State) : Res := alu f.gp f.rd 3 (s.cx.ra f.ra * immA f.imm f.ext) s
/-- MUL (R95). -/
def opMul (f : AR) (s : State) : Res := alu f.gp f.rd 3 (s.cx.ra f.ra * s.cx.ra f.rb) s
/-- MULH (R95). -/
def opMulh (f : AR) (s : State) : Res :=
  alu f.gp f.rd 3 (BitVec.ofInt 64 (sgn (s.cx.ra f.ra) * sgn (s.cx.ra f.rb) / 2 ^ 64)) s
/-- MULHU (R95). -/
def opMulhu (f : AR) (s : State) : Res :=
  alu f.gp f.rd 3 (BitVec.ofNat 64 ((s.cx.ra f.ra).toNat * (s.cx.ra f.rb).toNat / 2 ^ 64)) s
/-- MULHSU (R95). -/
def opMulhsu (f : AR) (s : State) : Res :=
  alu f.gp f.rd 3 (BitVec.ofInt 64 (sgn (s.cx.ra f.ra) * ((s.cx.ra f.rb).toNat : Int) / 2 ^ 64)) s
/-- MADD (R95). -/
def opMadd (f : AR) (s : State) : Res := alu f.gp f.rd 3 (s.cx.ra f.rd + s.cx.ra f.ra * s.cx.ra f.rb) s
/-- SEL (R95): never guarded; GP selects. -/
def opSel (f : AR) (s : State) : Res :=
  .ok (s.setCx (s.cx.deliverA f.rd (if s.cx.guard f.gp then s.cx.ra f.ra else s.cx.ra f.rb) 1))
/-- BFX (R96). -/
def opBfx (f : AR) (s : State) : Res := alu f.gp f.rd 1 (bfxVal false (s.cx.ra f.ra) (s.cx.ra f.rb)) s
/-- BFXS (R96). -/
def opBfxs (f : AR) (s : State) : Res := alu f.gp f.rd 1 (bfxVal true (s.cx.ra f.ra) (s.cx.ra f.rb)) s
/-- BFI (R96). -/
def opBfi (f : AR) (s : State) : Res := alu f.gp f.rd 1 (bfiVal (s.cx.ra f.rd) (s.cx.ra f.ra) (s.cx.ra f.rb)) s
/-- LEA (R95). -/
def opLea (f : ARn) (s : State) : Res := alu f.gp f.rd 1 (s.cx.ra f.ra + s.cx.ra f.rb <<< f.fn.toNat) s
/-- EXT (R95). -/
def opExt (f : AR1n) (s : State) : Res := alu f.gp f.rd 1 (extVal f.fn.toNat (s.cx.ra f.ra)) s

/-! ### Space query and cast -/

/-- STREAM of R263 for a well-formed pointer: the space and id rules of R227 and the owner rule for the one byte. -/
def State.streamOk (s : State) (p : W64) : Bool :=
  let t := tileOf s.cur
  if isGal s.cur then (ptrCode p == 0 || ptrCode p == 14)
  else
  match ptrCode p with
  | 0 => true
  | 14 => true
  | 8 => true
  | 9 => clusterOf (ptrTile p) == clusterOf t &&
      (decide ((s.tile (ptrTile p)).floor ≤ off9 p) || (s.tile (ptrTile p)).owns s.cx.asid)
  | 10 => ptrCluster p == clusterOf t &&
      (decide ((s.cluster (clusterOf t)).floor ≤ offA p) || (s.cluster (clusterOf t)).owns s.cx.asid)
  | _ => false

/-- The value of ASPQ (R263). -/
def State.aspqVal (s : State) (a b : W64) : W64 :=
  let c := ptrCode a
  let n := max (b.toNat % 2 ^ 32) 1
  let wf := ptrWf a
  let loc := wf && (c == 8 || c == 9 || c == 10) && (match s.localLoc a n with | .ok _ => true | .error _ => false)
  let str := wf && s.streamOk a
  let id := if c == 9 || c == 10 then (fld a 48 8).toNat else if c == 8 then (s.crRead s.cur 0x20).toNat % 256 else 0
  BitVec.ofNat 64 (id * 256 + (if a.toNat % n = 0 then 128 else 0) + (if str then 64 else 0) + (if loc then 32 else 0) +
    (if wf then 16 else 0) + c)

/-- The value of ASPC (R264). -/
def State.aspcVal (s : State) (a : W64) (T : Nat) : W64 :=
  let c := ptrCode a
  let base := s.cx.pvBase
  let size := s.cx.pvSize
  let t := tileOf s.cur
  if !ptrWf a then 0
  else if c = T then a
  else if T = 9 ∧ c = 8 ∧ off8 a < size then BitVec.ofNat 64 (9 * 2 ^ 60 + t * 2 ^ 48 + (base + off8 a))
  else if T = 8 ∧ c = 9 ∧ ptrTile a = t ∧ base ≤ off9 a ∧ off9 a < base + size then
    BitVec.ofNat 64 (8 * 2 ^ 60 + (off9 a - base))
  else 0

/-- ASPQ (R263). -/
def opAspq (f : AR) (s : State) : Res := alu f.gp f.rd 1 (s.aspqVal (s.cx.ra f.ra) (s.cx.ra f.rb)) s
/-- ASPC (R264). -/
def opAspc (f : AR1n) (s : State) : Res := alu f.gp f.rd 1 (s.aspcVal (s.cx.ra f.ra) f.fn.toNat) s

/-! ### Outcomes -/

/-- ADD alone (R93). -/
def execAdd (f : AR) (s : State) : Host.Outcome State Fault Refusal := finish s (opAdd f s)
/-- SUB alone (R93). -/
def execSub (f : AR) (s : State) : Host.Outcome State Fault Refusal := finish s (opSub f s)
/-- AND alone (R93). -/
def execAnd (f : AR) (s : State) : Host.Outcome State Fault Refusal := finish s (opAnd f s)
/-- OR alone (R93). -/
def execOr (f : AR) (s : State) : Host.Outcome State Fault Refusal := finish s (opOr f s)
/-- XOR alone (R93). -/
def execXor (f : AR) (s : State) : Host.Outcome State Fault Refusal := finish s (opXor f s)
/-- ANDN alone (R93). -/
def execAndn (f : AR) (s : State) : Host.Outcome State Fault Refusal := finish s (opAndn f s)
/-- SHL alone (R93). -/
def execShl (f : AR) (s : State) : Host.Outcome State Fault Refusal := finish s (opShl f s)
/-- SHR alone (R93). -/
def execShr (f : AR) (s : State) : Host.Outcome State Fault Refusal := finish s (opShr f s)
/-- SRA alone (R93). -/
def execSra (f : AR) (s : State) : Host.Outcome State Fault Refusal := finish s (opSra f s)
/-- MIN alone (R93). -/
def execMin (f : AR) (s : State) : Host.Outcome State Fault Refusal := finish s (opMin f s)
/-- MINU alone (R93). -/
def execMinu (f : AR) (s : State) : Host.Outcome State Fault Refusal := finish s (opMinu f s)
/-- MAX alone (R93). -/
def execMax (f : AR) (s : State) : Host.Outcome State Fault Refusal := finish s (opMax f s)
/-- MAXU alone (R93). -/
def execMaxu (f : AR) (s : State) : Host.Outcome State Fault Refusal := finish s (opMaxu f s)
/-- ABS alone (R93). -/
def execAbs (f : AR1) (s : State) : Host.Outcome State Fault Refusal := finish s (opAbs f s)
/-- CLZ alone (R93). -/
def execClz (f : AR1) (s : State) : Host.Outcome State Fault Refusal := finish s (opClz f s)
/-- POPC alone (R93). -/
def execPopc (f : AR1) (s : State) : Host.Outcome State Fault Refusal := finish s (opPopc f s)
/-- CMP alone (R93). -/
def execCmp (f : ARn) (s : State) : Host.Outcome State Fault Refusal := finish s (opCmp f s)
/-- ADDI alone (R93). -/
def execAddi (f : AI) (s : State) : Host.Outcome State Fault Refusal := finish s (opAddi f s)
/-- ANDI alone (R93). -/
def execAndi (f : AI) (s : State) : Host.Outcome State Fault Refusal := finish s (opAndi f s)
/-- ORI alone (R93). -/
def execOri (f : AI) (s : State) : Host.Outcome State Fault Refusal := finish s (opOri f s)
/-- XORI alone (R93). -/
def execXori (f : AI) (s : State) : Host.Outcome State Fault Refusal := finish s (opXori f s)
/-- SHLI alone (R93). -/
def execShli (f : AI) (s : State) : Host.Outcome State Fault Refusal := finish s (opShli f s)
/-- SHRI alone (R93). -/
def execShri (f : AI) (s : State) : Host.Outcome State Fault Refusal := finish s (opShri f s)
/-- SRAI alone (R93). -/
def execSrai (f : AI) (s : State) : Host.Outcome State Fault Refusal := finish s (opSrai f s)
/-- MOVI alone (R93). -/
def execMovi (f : AI0) (s : State) : Host.Outcome State Fault Refusal := finish s (opMovi f s)
/-- MOVHI alone (R93). -/
def execMovhi (f : AI) (s : State) : Host.Outcome State Fault Refusal := finish s (opMovhi f s)
/-- ADDPC alone (R93). -/
def execAddpc (f : AI0) (s : State) : Host.Outcome State Fault Refusal := finish s (opAddpc f s)
/-- MULI alone (R93). -/
def execMuli (f : AI) (s : State) : Host.Outcome State Fault Refusal := finish s (opMuli f s)
/-- MUL alone (R93). -/
def execMul (f : AR) (s : State) : Host.Outcome State Fault Refusal := finish s (opMul f s)
/-- MULH alone (R93). -/
def execMulh (f : AR) (s : State) : Host.Outcome State Fault Refusal := finish s (opMulh f s)
/-- MULHU alone (R93). -/
def execMulhu (f : AR) (s : State) : Host.Outcome State Fault Refusal := finish s (opMulhu f s)
/-- MULHSU alone (R93). -/
def execMulhsu (f : AR) (s : State) : Host.Outcome State Fault Refusal := finish s (opMulhsu f s)
/-- MADD alone (R93). -/
def execMadd (f : AR) (s : State) : Host.Outcome State Fault Refusal := finish s (opMadd f s)
/-- SEL alone (R93). -/
def execSel (f : AR) (s : State) : Host.Outcome State Fault Refusal := finish s (opSel f s)
/-- BFX alone (R93). -/
def execBfx (f : AR) (s : State) : Host.Outcome State Fault Refusal := finish s (opBfx f s)
/-- BFXS alone (R93). -/
def execBfxs (f : AR) (s : State) : Host.Outcome State Fault Refusal := finish s (opBfxs f s)
/-- BFI alone (R93). -/
def execBfi (f : AR) (s : State) : Host.Outcome State Fault Refusal := finish s (opBfi f s)
/-- LEA alone (R93). -/
def execLea (f : ARn) (s : State) : Host.Outcome State Fault Refusal := finish s (opLea f s)
/-- EXT alone (R93). -/
def execExt (f : AR1n) (s : State) : Host.Outcome State Fault Refusal := finish s (opExt f s)
/-- ASPQ alone (R93). -/
def execAspq (f : AR) (s : State) : Host.Outcome State Fault Refusal := finish s (opAspq f s)
/-- ASPC alone (R93). -/
def execAspc (f : AR1n) (s : State) : Host.Outcome State Fault Refusal := finish s (opAspc f s)
/-- ANOP (R50): no effect. -/
def execAnop (s : State) : Host.Outcome State Fault Refusal := .next s

end Sys2Proof.Machine
end

