-- ==== Sys2Proof/Machine/Numeric.lean ====
section
/-! DEFINITION. Number formats and rounding (R60 to R89): decoding to exact values, `Round`, `Overflow`, conversion,
the arithmetic of R79 and R80, TS8, the long accumulator and the stochastic generator. Codes are natural numbers. -/

namespace Sys2Proof.Machine

/-! ### Flags in the positions of ASTAT (R90) -/

def fNV : Nat := 1
def fDZ : Nat := 2
def fOF : Nat := 4
def fUF : Nat := 8
def fNX : Nat := 16
def fBZ : Nat := 32

/-- A code and the flags its making sets. -/
abbrev Coded := Nat × Nat

/-! ### Floating-point formats (R60) -/

/-- Width of the mantissa field. -/
def manW (t : Nat) : Nat := match t with | 0 => 23 | 1 => 10 | 2 => 7 | 3 => 3 | _ => 2
/-- Width of the exponent field. -/
def expW (t : Nat) : Nat := match t with | 0 => 8 | 1 => 5 | 2 => 8 | 3 => 4 | _ => 5
/-- The bias. -/
def bias (t : Nat) : Nat := 2 ^ (expW t - 1) - 1
/-- Emax of R61. -/
def eMax (t : Nat) : Nat := 2 ^ expW t - 1
/-- Whether a format has infinities (R60). -/
def hasInf (t : Nat) : Bool := t != tyE4

/-- An exact value: a NaN with its format and mantissa, an infinity, or (−1)^neg × m × 2^e (m = 0 is a signed zero). -/
inductive FV where
  | nan (neg : Bool) (fmt man : Nat)
  | inf (neg : Bool)
  | num (neg : Bool) (m : Nat) (e : Int)
  deriving DecidableEq, Repr

/-- Decode a floating-point code (R61). -/
def decodeFloat (t x : Nat) : FV :=
  let m := manW t
  let neg := bitOf x (m + expW t)
  let E := (x / 2 ^ m) % 2 ^ expW t
  let M := x % 2 ^ m
  if E = 0 then .num neg M (1 - (bias t : Int) - m)
  else if E = eMax t then
    if t = tyE4 then (if M = 7 then .nan neg t M else .num neg (2 ^ m + M) (E - (bias t : Int) - m))
    else if M = 0 then .inf neg else .nan neg t M
  else .num neg (2 ^ m + M) (E - (bias t : Int) - m)

/-! ### TS8 (R66, R67), in units of 2^-7 -/

/-- The value of a TS8 code in units of 2^-7. -/
def ts8Units (x : Nat) : Int :=
  let a : Int := 2 ^ (7 - bitsOf x 6 4)
  let b : Int := 2 ^ (7 - bitsOf x 2 0)
  (if bitOf x 7 then -a else a) + (if bitOf x 3 then -b else b)

/-- The canonical code of a value in units (R67): the smallest pattern with HA ≤ HB. -/
def ts8Code (u : Int) : Nat :=
  ((List.range 256).find? (fun x => decide (bitsOf x 6 4 ≤ bitsOf x 2 0) && ts8Units x == u)).getD 0x08

/-- The TS8 magnitudes in units, ascending. -/
def ts8Mags : List Nat :=
  (List.range 257).filter (fun u => (List.range 256).any (fun x => ts8Units x == (u : Int)))

/-- Decode any code of a type but LA (R61, R64, R66). -/
def decodeVal (t x : Nat) : FV :=
  if isFloat t then decodeFloat t (x % 2 ^ tyWidth t)
  else if t = tyT8 then
    let u := ts8Units (x % 256)
    .num (decide (u < 0)) u.natAbs (-7)
  else if isSigned t then
    let v := sext x (tyWidth t)
    .num (decide (v < 0)) v.natAbs 0
  else .num false (x % 2 ^ tyWidth t) 0

/-! ### Exact magnitudes and comparison -/

/-- A positive magnitude: num / den, or its square root. -/
structure Mag where
  num  : Nat
  den  : Nat
  root : Bool := false
  deriving DecidableEq, Repr

/-- m × 2^e as a magnitude. -/
def Mag.dyadic (m : Nat) (e : Int) : Mag :=
  if 0 ≤ e then { num := m * 2 ^ e.toNat, den := 1 } else { num := m, den := 2 ^ (-e).toNat }

/-- Compare a magnitude with m × 2^e. -/
def Mag.cmp (x : Mag) (m : Nat) (e : Int) : Ordering :=
  let y := Mag.dyadic m e
  if x.root then compare (x.num * (y.den * y.den)) (y.num * y.num * x.den)
  else compare (x.num * y.den) (y.num * x.den)

/-- floor(log2 x) of a positive magnitude. -/
def Mag.log2 (x : Mag) : Int :=
  let k : Int := (Nat.log2 x.num : Int) - Nat.log2 x.den
  let k := if (if 0 ≤ k then x.num < x.den * 2 ^ k.toNat else x.num * 2 ^ (-k).toNat < x.den) then k - 1 else k
  if x.root then k / 2 else k

/-- Integer square root by bits, from 2^(2n) down. -/
def isqrt (x : Nat) : Nat → Nat → Nat
  | 0, r => r
  | n + 1, r => if (r + 2 ^ n) * (r + 2 ^ n) ≤ x then isqrt x n (r + 2 ^ n) else isqrt x n r

/-- floor(x / 2^q). -/
def Mag.floorScaled (x : Mag) (q : Int) : Nat :=
  if x.root then
    let y := if 0 ≤ q then x.num / (x.den * 4 ^ q.toNat) else x.num * 4 ^ (-q).toNat / x.den
    isqrt y (Nat.log2 y / 2 + 1) 0
  else if 0 ≤ q then x.num / (x.den * 2 ^ q.toNat) else x.num * 2 ^ (-q).toNat / x.den

/-! ### Round and Overflow (R69, R70) -/

/-- A rounding mode: RM, SM and, for the stochastic mode, U (R73). -/
structure Rnd where
  rm : Nat := 0
  sm : Nat := 0
  u  : Nat := 0
  deriving DecidableEq, Repr

/-- Whether a magnitude that lies strictly between n × 2^q and (n + 1) × 2^q goes up (R69); `odd` says the lower
candidate's significand is odd. -/
def roundUp (r : Rnd) (neg : Bool) (x : Mag) (n : Nat) (q : Int) (odd : Bool) : Bool :=
  match r.rm with
  | 0 => match x.cmp (2 * n + 1) (q - 1) with | .gt => true | .lt => false | .eq => odd
  | 1 => false
  | 2 => !neg
  | 3 => neg
  | _ => x.cmp (n * 2 ^ 24 + r.u) (q - 24) == .gt

/-- A sign bit in its place. -/
def signBit (t : Nat) (neg : Bool) : Nat := if neg then 2 ^ (tyWidth t - 1) else 0
/-- The canonical NaN (R62). -/
def canonNan (t : Nat) : Nat := match t with | 0 => 0x7FC00000 | 1 => 0x7E00 | 2 => 0x7FC0 | 3 => 0x7F | _ => 0x7E
/-- The code of +infinity. -/
def infCode (t : Nat) : Nat := eMax t * 2 ^ manW t
/-- The code of the largest finite magnitude (R60). -/
def maxCode (t : Nat) : Nat := if t = tyE4 then 0x7E else infCode t - 1

/-- `Overflow` for floating-point formats (R70). -/
def overflowFloat (t : Nat) (r : Rnd) (neg : Bool) : Nat :=
  let up := (r.rm == 2 && !neg) || (r.rm == 3 && neg)
  let near := r.rm == 0 || r.rm == 4
  if hasInf t then signBit t neg + (if near || up then infCode t else maxCode t)
  else if r.sm == 1 && (near || up) then signBit t neg + canonNan t
  else signBit t neg + maxCode t

/-- Largest and smallest integers of an integer format (R64). -/
def intMax (t : Nat) : Int := if isSigned t then 2 ^ (tyWidth t - 1) - 1 else 2 ^ tyWidth t - 1
def intMin (t : Nat) : Int := if isSigned t then -(2 ^ (tyWidth t - 1)) else 0
/-- `Sat` of R7 as a code. -/
def satCode (t : Nat) (v : Int) : Nat := wrapInt (max (intMin t) (min (intMax t) v)) (tyWidth t)

/-- Round a nonzero magnitude into a floating-point format (R69). -/
def roundFloat (t : Nat) (r : Rnd) (neg : Bool) (x : Mag) : Coded :=
  let m := manW t
  let k := x.log2
  let emin : Int := 1 - bias t
  let q := max k emin - m
  let n := x.floorScaled q
  let exact := x.cmp n q == .eq
  let n' := if exact then n else if roundUp r neg x n q (n % 2 == 1) then n + 1 else n
  let uf := if !exact && decide (k < emin) then fUF else 0
  let nx := if exact then 0 else fNX
  -- renormalise a carry into the next binade
  let (n', q) := if n' = 2 ^ (m + 1) then (2 ^ m, q + 1) else (n', q)
  let E : Int := if n' < 2 ^ m then 0 else q + m + bias t
  let code := if n' < 2 ^ m then (n' : Int) else E * 2 ^ m + (n' - 2 ^ m)
  if (maxCode t : Int) < code then
    let c := overflowFloat t r neg
    (c, fOF + fNX)
  else (signBit t neg + code.toNat, nx + uf)

/-- Round a nonzero magnitude into an integer format (R64, R69). -/
def roundInt (t : Nat) (r : Rnd) (neg : Bool) (x : Mag) : Coded :=
  let n := x.floorScaled 0
  let exact := x.cmp n 0 == .eq
  let n' := if exact then n else if roundUp r neg x n 0 (n % 2 == 1) then n + 1 else n
  let v : Int := if neg then -(n' : Int) else n'
  if intMin t ≤ v ∧ v ≤ intMax t then (wrapInt v (tyWidth t), if exact then 0 else fNX)
  else (satCode t v, fOF + fNX)

/-- The adjacent TS8 magnitudes around x (in units), from an ascending list. -/
def ts8Around (x : Mag) (lo : Nat) : List Nat → Nat × Nat
  | [] => (lo, lo)
  | u :: t => if x.cmp u (-7) == .lt then (lo, u) else ts8Around x u t

/-- Round a nonzero magnitude into TS8 (R68, R69). -/
def roundTs8 (r : Rnd) (neg : Bool) (x : Mag) : Coded :=
  let sg := fun (u : Nat) => ts8Code (if neg then -(u : Int) else u)
  if x.cmp 256 (-7) == .gt then (sg 256, fOF + fNX)
  else
    let (lo, hi) := ts8Around x 0 ts8Mags
    if x.cmp lo (-7) == .eq then (sg lo, 0)
    else
      let up : Bool := match r.rm with
        | 0 => match x.cmp (lo + hi) (-8) with | .gt => true | .lt => false | .eq => decide (sg hi < sg lo)
        | 1 => false
        | 2 => !neg
        | 3 => neg
        | _ => x.cmp (lo * 2 ^ 24 + (hi - lo) * r.u) (-31) == .gt
      (sg (if up then hi else lo), fNX)

/-- The zero of a format (R69). -/
def zeroCode (t : Nat) (neg : Bool) : Nat :=
  if isFloat t then signBit t neg else if t = tyT8 then 0x08 else 0

/-- `Round` of a magnitude, zero included (R69). -/
def roundMag (t : Nat) (r : Rnd) (neg : Bool) (x : Mag) : Coded :=
  if x.num = 0 then (zeroCode t neg, 0)
  else if isFloat t then roundFloat t r neg x
  else if t = tyT8 then roundTs8 r neg x
  else roundInt t r neg x

/-! ### Conversion (R72, R76 to R78) -/

/-- Whether a NaN is signalling (R62). -/
def isSig (fmt man : Nat) : Bool := fmt != tyE4 && !bitOf man (manW fmt - 1)

/-- The mantissa of a NaN carried from one format to another (R76). -/
def carryMan (src man dst : Nat) : Nat :=
  let m := if manW dst ≤ manW src then man / 2 ^ (manW src - manW dst) else man * 2 ^ (manW dst - manW src)
  if m = 0 then 1 else m

/-- A NaN converted to a type (R64, R68, R76). -/
def convNan (neg : Bool) (src man t : Nat) : Coded :=
  if isFloat t then
    if t = tyE4 then (signBit t neg + 0x7F, 0)
    else if src = tyE4 then (signBit t neg + canonNan t, 0)
    else (signBit t neg + infCode t + carryMan src man t, 0)
  else if t = tyT8 then (0x08, fNV)
  else (0, fNV)

/-- An infinity converted to a type (R72). -/
def convInf (neg : Bool) (t : Nat) (r : Rnd) : Coded :=
  if isFloat t then
    if hasInf t then (signBit t neg + infCode t, 0)
    else (signBit t neg + (if r.sm = 1 then canonNan t else maxCode t), fOF + fNX)
  else if t = tyT8 then (ts8Code (if neg then -256 else 256), fOF + fNX)
  else (satCode t (if neg then intMin t else intMax t), fOF + fNX)

/-- A value converted to a type with one rounding (R78). -/
def convert (v : FV) (t : Nat) (r : Rnd) : Coded :=
  match v with
  | .nan neg f m => convNan neg f m t
  | .inf neg => convInf neg t r
  | .num neg m e => roundMag t r neg (Mag.dyadic m e)

/-- A value times 2^k. -/
def FV.scale (v : FV) (k : Int) : FV :=
  match v with
  | .num neg m e => .num neg m (e + k)
  | x => x

/-! ### Arithmetic (R79, R80) -/

/-- A NaN as the result of arithmetic in format t: converted, then quieted (R79). -/
def quietNan (neg : Bool) (fmt man t : Nat) : Nat :=
  if t = tyE4 then signBit t neg + 0x7F
  else
    let c := (convNan neg fmt man t).1
    if bitOf c (manW t - 1) then c else c + 2 ^ (manW t - 1)

/-- The NV of signalling sources. -/
def sigFlag : List FV → Nat
  | [] => 0
  | .nan _ f m :: t => if isSig f m then fNV else sigFlag t
  | _ :: t => sigFlag t

/-- The first NaN source, as a result in format t. -/
def firstNan (t : Nat) : List FV → Option Nat
  | [] => none
  | .nan neg f m :: _ => some (quietNan neg f m t)
  | _ :: r => firstNan t r

/-- An invalid operation (R79). -/
def invalid (t : Nat) : Coded := (canonNan t, fNV)

/-- The signed integer of a value at exponent e ≤ its own. -/
def signedAt (neg : Bool) (m : Nat) (me e : Int) : Int :=
  let x : Int := (m * 2 ^ (me - e).toNat : Nat)
  if neg then -x else x

/-- The exact sum of two finite values, rounded; `zneg` gives an exact zero's sign where both are zeros of one sign. -/
def addNum (t : Nat) (r : Rnd) (n1 : Bool) (m1 : Nat) (e1 : Int) (n2 : Bool) (m2 : Nat) (e2 : Int) : Coded :=
  let e := min e1 e2
  let v := signedAt n1 m1 e1 e + signedAt n2 m2 e2 e
  if v = 0 then
    let neg := if m1 = 0 ∧ m2 = 0 ∧ n1 = n2 then n1 else r.rm == 3
    (zeroCode t neg, 0)
  else roundMag t r (decide (v < 0)) (Mag.dyadic v.natAbs e)

/-- a + b in format t. -/
def fAdd (t : Nat) (r : Rnd) (a b : FV) : Coded :=
  match firstNan t [a, b] with
  | some c => (c, sigFlag [a, b])
  | none =>
    match a, b with
    | .inf n1, .inf n2 => if n1 = n2 then (signBit t n1 + infCode t, 0) else invalid t
    | .inf n1, _ => (signBit t n1 + infCode t, 0)
    | _, .inf n2 => (signBit t n2 + infCode t, 0)
    | .num n1 m1 e1, .num n2 m2 e2 => addNum t r n1 m1 e1 n2 m2 e2
    | _, _ => invalid t

/-- The negation of a value. -/
def FV.neg : FV → FV
  | .nan n f m => .nan (!n) f m
  | .inf n => .inf (!n)
  | .num n m e => .num (!n) m e

/-- −x for a number, the NaN itself for a NaN: the operand of a subtraction (R79 takes the NaN source as it is). -/
def FV.flip : FV → FV
  | .nan n f m => .nan n f m
  | x => x.neg

/-- a × b in format t. -/
def fMul (t : Nat) (r : Rnd) (a b : FV) : Coded :=
  match firstNan t [a, b] with
  | some c => (c, sigFlag [a, b])
  | none =>
    match a, b with
    | .inf n1, .inf n2 => (signBit t (n1 != n2) + infCode t, 0)
    | .inf n1, .num n2 m2 _ => if m2 = 0 then invalid t else (signBit t (n1 != n2) + infCode t, 0)
    | .num n1 m1 _, .inf n2 => if m1 = 0 then invalid t else (signBit t (n1 != n2) + infCode t, 0)
    | .num n1 m1 e1, .num n2 m2 e2 => roundMag t r (n1 != n2) (Mag.dyadic (m1 * m2) (e1 + e2))
    | _, _ => invalid t

/-- a × b + c in format t, one rounding. `np` negates the product, `nc` the addend; the NaN sources stay as they are. A NaN
addend is the result, without the NV of an invalid product (log entry 78, DESIGN CHOICE). -/
def fFma (t : Nat) (r : Rnd) (np nc : Bool) (a b c : FV) : Coded :=
  match firstNan t [a, b, c] with
  | some x => (x, sigFlag [a, b, c])
  | none =>
    let c := if nc then c.flip else c
    let prod : Option FV :=
      match a, b with
      | .inf n1, .inf n2 => some (.inf (n1 != n2))
      | .inf n1, .num n2 m2 _ => if m2 = 0 then none else some (.inf (n1 != n2))
      | .num n1 m1 _, .inf n2 => if m1 = 0 then none else some (.inf (n1 != n2))
      | .num n1 m1 e1, .num n2 m2 e2 => some (.num (n1 != n2) (m1 * m2) (e1 + e2))
      | _, _ => none
    match prod with
    | none => invalid t
    | some p =>
      let p := if np then p.flip else p
      match p, c with
      | .inf n1, .inf n2 => if n1 = n2 then (signBit t n1 + infCode t, 0) else invalid t
      | .inf n1, _ => (signBit t n1 + infCode t, 0)
      | _, .inf n2 => (signBit t n2 + infCode t, 0)
      | .num n1 m1 e1, .num n2 m2 e2 => addNum t r n1 m1 e1 n2 m2 e2
      | _, _ => invalid t

/-- 1 / a in format t (R79). -/
def fRcp (t : Nat) (r : Rnd) (a : FV) : Coded :=
  match a with
  | .nan n f m => (quietNan n f m t, sigFlag [a])
  | .inf n => (zeroCode t n, 0)
  | .num n m e =>
    if m = 0 then (signBit t n + infCode t, fDZ)
    else roundMag t r n { num := 2 ^ (-e).toNat, den := m * 2 ^ e.toNat }

/-- 1 / sqrt(a) in format t (R79). -/
def fRsqrt (t : Nat) (r : Rnd) (a : FV) : Coded :=
  match a with
  | .nan n f m => (quietNan n f m t, sigFlag [a])
  | .inf n => if n then invalid t else (zeroCode t false, 0)
  | .num n m e =>
    if m = 0 then (signBit t n + infCode t, fDZ)
    else if n then invalid t
    else roundMag t r false { num := 2 ^ (-e).toNat, den := m * 2 ^ e.toNat, root := true }

/-- Three-way comparison of two values that are not NaN. -/
def FV.cmp : FV → FV → Ordering
  | .inf a, .inf b => if a = b then .eq else if a then .lt else .gt
  | .inf a, _ => if a then .lt else .gt
  | _, .inf b => if b then .gt else .lt
  | .num n1 m1 e1, .num n2 m2 e2 =>
    let e := min e1 e2
    compare (signedAt n1 m1 e1 e) (signedAt n2 m2 e2 e)
  | _, _ => .eq

/-- Whether a value is NaN. -/
def FV.isNan : FV → Bool
  | .nan _ _ _ => true
  | _ => false
/-- Whether a value is zero. -/
def FV.isZero : FV → Bool
  | .num _ m _ => m == 0
  | _ => false
/-- Whether a value is infinite. -/
def FV.isInf : FV → Bool
  | .inf _ => true
  | _ => false
/-- The sign. -/
def FV.isNeg : FV → Bool
  | .nan n _ _ => n
  | .inf n => n
  | .num n _ _ => n

/-! ### The long accumulator (R81 to R83) -/

/-- A decoded LA128. -/
inductive LA where
  | empty
  | ord (anchor : Int) (sum : Int) (sticky : Bool)
  | inf (neg : Bool)
  | nan
  deriving DecidableEq, Repr

/-- Decode (R81). -/
def LA.decode (x : BitVec 128) : LA :=
  let v := x.toNat
  let a := v / 2 ^ 112
  if a = 0x8000 then (if v % 2 ^ 112 = 0 then .empty else .nan)
  else if a = 0x7FFF then
    if v % 2 ^ 112 = 4 then .inf false else if v % 2 ^ 112 = 8 then .inf true else .nan
  else .ord (sext a 16) (sext (v / 2) 111) (bitOf v 0)

/-- Encode (R81). -/
def LA.encode : LA → BitVec 128
  | .empty => BitVec.ofNat 128 (0x8000 * 2 ^ 112)
  | .inf false => BitVec.ofNat 128 (0x7FFF * 2 ^ 112 + 4)
  | .inf true => BitVec.ofNat 128 (0x7FFF * 2 ^ 112 + 8)
  | .nan => BitVec.ofNat 128 (0x7FFF * 2 ^ 112 + 12)
  | .ord a s st => BitVec.ofNat 128 (wrapInt a 16 * 2 ^ 112 + wrapInt s 111 * 2 + (if st then 1 else 0))

/-- The smallest e with |m × 2^k| < 2^e, m nonzero. -/
def magExp (m : Int) (k : Int) : Int := k + Nat.log2 m.natAbs + 1

/-- An exact signed dyadic P = m × 2^e. -/
structure Dy where
  m : Int
  e : Int
  deriving DecidableEq, Repr

/-- The exact sum of two dyadics. -/
def Dy.add (a b : Dy) : Dy :=
  if a.m = 0 then b else if b.m = 0 then a
  else
    let e := min a.e b.e
    ⟨a.m * 2 ^ (a.e - e).toNat + b.m * 2 ^ (b.e - e).toNat, e⟩

/-- floor(T / 2^k) and whether it is exact. -/
def Dy.floorAt (t : Dy) (k : Int) : Int × Bool :=
  if k ≤ t.e then (t.m * 2 ^ (t.e - k).toNat, true)
  else
    let d : Int := 2 ^ (k - t.e).toNat
    (t.m / d, t.m % d == 0)

/-- The window value of an ordinary LA128. -/
def LA.dy (a s : Int) : Dy := ⟨s, a - 110⟩

/-- Place T in a window whose anchor is at least a0 (R82). -/
def LA.place (t : Dy) (a0 : Int) (sticky : Bool) : LA × Nat :=
  let a := if t.m = 0 then a0 else max a0 (magExp t.m t.e)
  if 32766 < a then (.inf (decide (t.m < 0)), fOF)
  else
    let (s, exact) := t.floorAt (a - 110)
    (.ord a s (sticky || !exact), 0)

/-- Add a finite exact value (R82). -/
def LA.addDy (la : LA) (p : Dy) : LA × Nat :=
  match la with
  | .empty => if p.m = 0 then (.empty, 0) else LA.place p (-32767) false
  | .ord a s st => LA.place ((LA.dy a s).add p) a st
  | x => (x, 0)

/-- Add an infinity (R82). -/
def LA.addInf (la : LA) (neg : Bool) : LA :=
  match la with
  | .nan => .nan
  | .inf n => if n = neg then .inf n else .nan
  | _ => .inf neg

/-- Add an infinity, with the NV of an invalid sum (R79, R82). -/
def LA.addInfNv (la : LA) (neg : Bool) : LA × Nat :=
  let r := la.addInf neg
  (r, if r = .nan ∧ la ≠ .nan then fNV else 0)

/-- Add one value of a floating-point format or a block sum (R82). -/
def LA.addVal (la : LA) (v : FV) : LA × Nat :=
  match v with
  | .nan _ _ _ => (.nan, 0)
  | .inf n => la.addInfNv n
  | .num n m e => la.addDy ⟨if n then -(m : Int) else m, e⟩

/-- Add another LA128 (R82). The steps of R82 are followed as they are written: a window of exactly −2^ANCHOR added to an
empty accumulator takes the anchor ANCHOR + 1, where its sentence on a bit-for-bit copy would keep ANCHOR (log entry 77,
DESIGN CHOICE). -/
def LA.addLA (a b : LA) : LA × Nat :=
  match b with
  | .empty => (a, 0)
  | .nan => (.nan, 0)
  | .inf n => a.addInfNv n
  | .ord ab sb stb =>
    match a with
    | .empty => LA.place (LA.dy ab sb) ab stb
    | .ord aa sa sta =>
      match LA.place ((LA.dy aa sa).add (LA.dy ab sb)) aa sta with
      | (.ord x y st, f) => (.ord x y (st || stb), f)
      | r => r
    | x => (x, 0)

/-- Read an LA128 out in a format (R83). -/
def LA.read (la : LA) (t : Nat) (r : Rnd) : Coded :=
  match la with
  | .empty => (zeroCode t false, 0)
  | .nan => if isFloat t then (canonNan t, 0) else if t = tyT8 then (0x08, fNV) else (0, fNV)
  | .inf n => convInf n t r
  | .ord a s st =>
    let m : Int := 2 * s + (if st then 1 else 0)
    if m = 0 then (zeroCode t false, 0)
    else roundMag t r (decide (m < 0)) (Mag.dyadic m.natAbs (a - 111))

/-! ### The stochastic generator (R73) -/

/-- `Mix64`. -/
def mix64 (x : W64) : W64 :=
  let x := x ^^^ (x >>> 32)
  let x := x * 0x8F3A5C71E2B94D65
  let x := x ^^^ (x >>> 29)
  let x := x * 0x6B2E9147A3D5C0F9
  x ^^^ (x >>> 32)

/-- KSTEP. -/
def kstep (seed lin : W64) : W64 := mix64 (seed ^^^ mix64 lin)

/-- U for a key and the inputs src, n and e of R74. -/
def stochU (key : W64) (src n e : Nat) : Nat :=
  ((mix64 ((key + mix64 (BitVec.ofNat 64 n)) ^^^ BitVec.ofNat 64 (src * 2 ^ 56) ^^^ BitVec.ofNat 64 (e % 2 ^ 56))) >>> 40).toNat

/-! ### Quantisation to blocks (R86 to R89) -/

/-- The largest finite magnitude of a block element format: 448, 57,344, 2 or 127. -/
def blkMax (t : Nat) : Nat := match t with | 3 => 448 | 4 => 57344 | 5 => 2 | _ => 127

/-- Whether |v| / 2^k ≤ M for a finite value. -/
def fits (v : FV) (k : Int) (M : Nat) : Bool :=
  match v with
  | .num _ m e => m == 0 || (Mag.dyadic m e).cmp M k != .gt
  | _ => true

/-- The scale exponent of one finite value before the clamp (R86): the smallest k with |v| / 2^k ≤ M. -/
def scaleExp (v : FV) (M : Nat) : Option Int :=
  match v with
  | .num _ m e =>
    if m = 0 then none
    else
      let k := (Mag.dyadic m e).log2 - Nat.log2 M
      some (if fits v (k - 1) M then k - 1 else if fits v k M then k else k + 1)
  | _ => none

/-- The larger of two optional exponents. -/
def maxOpt (a b : Option Int) : Option Int :=
  match a, b with
  | some x, some y => some (max x y)
  | some x, none => some x
  | none, y => y

/-- The scale code of a block (R86 to R88) and the flags it sets. -/
def blockScale (t : Nat) (vs : List FV) : Nat × Nat :=
  if vs.any (·.isNan) then (0xFF, fNV)
  else
    match vs.foldl (fun a v => maxOpt a (scaleExp v (blkMax t))) none with
    | some k => ((max (-126) (min 127 k) + 127).toNat, 0)
    | none => if vs.any (·.isInf) then (0x7F, 0) else (0, fBZ)

/-- The value of a NaN-scaled element in a type (R65, R88). -/
def nanScaled (t : Nat) : Nat := if isFloat t then canonNan t else if t = tyT8 then 0x08 else 0

/-- Quantise one element under a scale code (R86 to R88). -/
def quantElem (t : Nat) (scale : Nat) (r : Rnd) (v : FV) : Coded :=
  if scale = 0xFF then (nanScaled t, fNV)
  else if scale = 0 then (zeroCode t false, 0)
  else convert (v.scale (127 - (scale : Int))) t r

/-- Dequantise one element (R65, R89). -/
def dequantElem (src x scale dst : Nat) (r : Rnd) : Coded :=
  if scale = 0xFF then (nanScaled dst, fNV)
  else convert ((decodeVal src x).scale ((scale : Int) - 127)) dst r

end Sys2Proof.Machine
end

