-- ==== Sys2Proof/Machine/Scalar.lean ====
section
/-! DEFINITION. Scalar scratchpad accesses (R98 to R102), A-slot transfers (R103) and control-register operations
(R106). -/

namespace Sys2Proof.Machine

/-- The access size of SZ (R36). -/
def szBytes (sz : BitVec 2) : Nat := 2 ^ sz.toNat

/-- The latency of a scratchpad load: 6, or 4 in profile L4 (R19, R22). -/
def Ctx.loadLat (c : Ctx) : Nat := if c.cr 1 = 1 then 4 else 6

/-- Cycles until the data of a load is present with no bank delay (R16). -/
def padCycles : PadId → Nat
  | .cluster _ => 14
  | _ => 6

/-- The address of an AM operation at its first issue (R98). -/
def amAddr (ra : BitVec 6) (e : Option W32) (c : Ctx) : W64 :=
  c.ra ra + (match e with | some x => x.signExtend 64 | none => 0)

/-- The address of an AX operation (R99). -/
def axAddr (f : AX) (c : Ctx) : W64 := c.ra f.ra + c.ra f.rb * BitVec.ofNat 64 (szBytes f.sz)

/-- The loaded value (R98): zero- or sign-extended. -/
def loadVal (signed : Bool) (n x : Nat) : W64 := if signed then BitVec.ofInt 64 (sext x (8 * n)) else BitVec.ofNat 64 x

/-- A qualifier on a gallery core (R348). -/
def galQ (s : State) (q : BitVec 2) : Bool := isGal s.cur && q != 0

/-- Assemble lane codes into a register value and the OR of their flags. -/
def packLanes (w : Nat) : List (Nat × Coded) → Nat × Nat
  | [] => (0, 0)
  | (i, c) :: t =>
    let r := packLanes w t
    (r.1 ||| (c.1 % 2 ^ w) <<< (w * i), r.2 ||| c.2)

/-- The mask of some lanes. -/
def laneMask (w : Nat) : List Nat → Nat
  | [] => 0
  | i :: t => laneMask w t ||| (2 ^ w - 1) <<< (w * i)

/-- One memory element as a lane code (R141); equal formats pass the bytes unchanged. -/
def VConv.load (v : VConv) (lane x : Nat) : Coded :=
  if v.mf = v.ty then (x, 0)
  else convert (decodeVal v.mf x) v.ty
    { rm := v.rm, sm := v.sm, u := if v.rm = 4 then stochU v.key v.src v.n lane else 0 }

/-- The value and flags a scratchpad read delivers (R98, R141). -/
def State.feValue (s : State) (w : FeWait) : W512 × Nat :=
  match w.conv with
  | none =>
    match w.cells with
    | c :: _ => ((loadVal w.signed c.n ((s.pad c.pad).mem.readLE c.off c.n)).setWidth 512, 0)
    | [] => (0, 0)
  | some v =>
    let codes := w.cells.map (fun c => (c.lane, v.load c.lane ((s.pad c.pad).mem.readLE c.off c.n)))
    if !v.bcst then
      let r := packLanes (tyWidth v.ty) codes
      (BitVec.ofNat 512 r.1, r.2)
    else
      let x := match codes with | c :: _ => c.2 | [] => (0, 0)
      let r := packLanes (tyWidth v.ty) ((List.range (512 / tyWidth v.ty)).map (fun i => (i, (x.1, 0))))
      (BitVec.ofNat 512 r.1, x.2)

/-- Cycles until the data of some cells is present (R16). -/
def cellsCycles (cs : List Cell) : Nat := cs.foldl (fun m c => max m (padCycles c.pad)) 6

/-- Perform a scratchpad read of a tile now: its value, its flags, and the address of an uncorrectable word it meets
(R98, R141, R397); a qualified one is granted by its banks, and `.FEC` empties its granules (R267). -/
def State.readCells (s : State) (t : Nat) (w : FeWait) : (W512 × Nat × Option W64) × State :=
  let r := s.feValue w
  let lost := if s.cellsBad w.cells then some w.addr else none
  let s := if w.clear then s.cellsEmpty w.cells else s
  ((r.1, r.2, lost), if w.need then s.granted t w.cells else s)

/-- Whether a read of context x, the result numbered `seq`, is performed no earlier than now: an access of an earlier issue
goes first (R20, R293), or its granules are not all full, or another access goes first at one of them (R101, R143, R267). -/
def State.readWaits (s : State) (x : Nat) (c : Ctx) (seq : Nat) (w : FeWait) : Bool :=
  c.feBefore w.iss || c.storeBefore w.iss ||
  (w.need && (!s.cellsFull w.cells ||
    s.beaten { tile := tileOf x, at_ := w.at_, ctx := x, seq := seq, take := w.clear, fill := false, cells := w.cells }))

/-- Issue a scratchpad read (R98, R140): the value is read now, before the stores of the bundle write (R20), unless the
read waits. It counts one in the load class until its data is present (R102, R144). -/
def issueLoad (dst : Dst) (mask : W512) (slot q : Nat) (w : FeWait) (s : State) : State :=
  let e : Pend := { dst := dst, val := 0, mask := mask, pos := s.cx.now + s.cx.loadLat, slot := slot, arrived := false,
                    ready := s.tick + cellsCycles w.cells, load := true }
  let w := { w with need := q != 0, iss := s.cx.iss, at_ := s.tick }
  if s.readWaits s.cur s.cx s.cx.seq w then s.modCx (fun c => { c.push { e with fe := some w } with ld := c.ld + 1 })
  else
    let r := s.readCells (tileOf s.cur) w
    r.2.modCx (fun c => { c.push { e with val := r.1.1, flags := r.1.2.1, lost := r.1.2.2 } with ld := c.ld + 1 })

/-- LD, LDS, LDX and LDXS at address p (R98 to R102). -/
def loadA (gp : BitVec 4) (rd : BitVec 6) (sz q : BitVec 2) (signed : Bool) (p : W64) (s : State) : Res :=
  let n := szBytes sz
  if galQ s q then .trap { cause := .illegalOp, slot := 0 }
  else if !s.cx.guard gp then .ok s
  else
    match s.checkScalar p n 0 with
    | .error t => .trap t
    | .ok l =>
      .ok (issueLoad (.a rd.toNat) (BitVec.allOnes 512) 0 q.toNat
        { cells := [⟨l.pad, l.off, n, 0⟩], clear := q == 2, addr := p, signed := signed } s)

/-- ST and STX at address p (R98 to R102). -/
def storeA (gp : BitVec 4) (rd : BitVec 6) (sz q : BitVec 2) (p : W64) (s : State) : Res :=
  let n := szBytes sz
  if galQ s q then .trap { cause := .illegalOp, slot := 0 }
  else if !s.cx.guard gp then .ok s
  else
    match s.checkScalar p n 0 with
    | .error t => .trap t
    | .ok l =>
      .ok (s.modCx (fun c =>
        { c with buf := { c.buf with stores := c.buf.stores ++ [{ pad := l.pad, off := l.off, setFull := q == 1, addr := p,
                                                                  bytes := (natToBytes (c.ra rd).toNat n).map some }] },
                 st := c.st + 1 }))

/-- The hold of a load: its class stands at 4,095 (R110), or one above it, which two loads of a bundle may reach (log entry 99,
DESIGN CHOICE). -/
def holdLoad (gp : BitVec 4) (s : State) : Option State :=
  if s.cx.guard gp && decide (4095 ≤ s.cx.ld) then some s else none

/-- The hold of the `.EF` store of a slot at p, as it stands. -/
def Ctx.fehOf (c : Ctx) (slot : Nat) (p : W64) : Option FeHold := c.feh.find? (fun h => h.slot == slot && h.addr == p)

/-- Note that the `.EF` store of a slot holds its bundle (R321). -/
def State.holdFe (s : State) (slot : Nat) (p : W64) (cs : List Cell) : State :=
  s.modCx (fun c =>
    let h : FeHold := (c.fehOf slot p).getD { tick := 0, slot := slot, addr := p, cells := cs, at_ := s.tick }
    { c with feh := { h with cells := cs, hit := true } :: c.feh.filter (fun o => o.slot != slot) })

/-- The hold of an `.EF` store of some cells (R101, R143): until they are empty and its turn has come (R267), and until
every earlier access that it must follow has been performed (R289, R293). -/
def holdEf (slot : Nat) (p : W64) (cs : List Cell) (s : State) : Option State :=
  let c := s.cx
  let at_ := match c.fehOf slot p with | some h => h.at_ | none => s.tick
  if c.feBefore c.iss || c.storeBefore c.iss || s.cellsSomeFull cs ||
      s.beaten { tile := tileOf s.cur, at_ := at_, ctx := s.cur, seq := 0, take := true, fill := true, cells := cs } then
    some (s.holdFe slot p cs)
  else none

/-- The holds of a store: its class stands at 4,095 (R110), or `.EF` finds the granule full (R101). -/
def holdStore (gp : BitVec 4) (sz q : BitVec 2) (p : W64) (s : State) : Option State :=
  if !s.cx.guard gp then none
  else if 4095 ≤ s.cx.st then some s
  else if q = 1 then
    match s.checkScalar p (szBytes sz) 0 with
    | .ok l => holdEf 0 p [⟨l.pad, l.off, szBytes sz, 0⟩] s
    | .error _ => none
  else none

/-- LD at p (R98). -/
def opLd (f : AM) (p : W64) (s : State) : Res := loadA f.gp f.rd f.sz f.q false p s
/-- LDS at p (R98). -/
def opLds (f : AM) (p : W64) (s : State) : Res := loadA f.gp f.rd f.sz f.q true p s
/-- ST at p (R98). -/
def opSt (f : AM) (p : W64) (s : State) : Res := storeA f.gp f.rd f.sz f.q p s
/-- LDX (R99). -/
def opLdx (f : AX) (s : State) : Res := loadA f.gp f.rd f.sz f.q false (axAddr f s.cx) s
/-- LDXS (R99). -/
def opLdxs (f : AX) (s : State) : Res := loadA f.gp f.rd f.sz f.q true (axAddr f s.cx) s
/-- STX (R99). -/
def opStx (f : AX) (s : State) : Res := storeA f.gp f.rd f.sz f.q (axAddr f s.cx) s

/-- LD alone (R98). -/
def execLd (f : AM) (s : State) : Host.Outcome State Fault Refusal :=
  finishHold s (holdLoad f.gp s) (opLd f (amAddr f.ra f.ext s.cx) s)
/-- LDS alone (R98). -/
def execLds (f : AM) (s : State) : Host.Outcome State Fault Refusal :=
  finishHold s (holdLoad f.gp s) (opLds f (amAddr f.ra f.ext s.cx) s)
/-- ST alone (R98). -/
def execSt (f : AM) (s : State) : Host.Outcome State Fault Refusal :=
  finishHold s (holdStore f.gp f.sz f.q (amAddr f.ra f.ext s.cx) s) (opSt f (amAddr f.ra f.ext s.cx) s)
/-- LDX alone (R99). -/
def execLdx (f : AX) (s : State) : Host.Outcome State Fault Refusal :=
  finishHold s (holdLoad f.gp s) (opLdx f s)
/-- LDXS alone (R99). -/
def execLdxs (f : AX) (s : State) : Host.Outcome State Fault Refusal :=
  finishHold s (holdLoad f.gp s) (opLdxs f s)
/-- STX alone (R99). -/
def execStx (f : AX) (s : State) : Host.Outcome State Fault Refusal :=
  finishHold s (holdStore f.gp f.sz f.q (axAddr f s.cx) s) (opStx f s)

/-! ### XFERA (R103) -/

/-- The transferred value (R103), for a well-formed XFERA. -/
def xferaVal (f : AT) (c : Ctx) : W64 :=
  let src := f.src.toNat
  let sel := f.sel.toNat
  match f.sf.toNat with
  | 0 => if sel / 16 = 1 then ((c.rv src).extractLsb' (32 * (sel % 16)) 32).setWidth 64
         else (c.rv src).extractLsb' (64 * (sel % 8)) 64
  | 1 => c.rm (src % 32)
  | _ =>
    match src / 128 with
    | 0 => ofBool (c.rp (src % 16))
    | 1 => c.rvm (src % 16)
    | _ => (c.rlc (src % 4)).setWidth 64

/-- XFERA (R103); a gallery core has no V or M file (R349). -/
def opXfera (f : AT) (s : State) : Res :=
  if isGal s.cur && f.sf.toNat < 2 then .trap { cause := .illegalOp, slot := 0 }
  else alu f.gp f.rd 2 (xferaVal f s.cx) s
/-- XFERA alone (R103). -/
def execXfera (f : AT) (s : State) : Host.Outcome State Fault Refusal := finish s (opXfera f s)

/-! ### Control registers (R106) -/

/-- RDCR (R106). A number that no register has traps whatever the guard (R38, R108). -/
def opRdcr (f : ACR) (s : State) : Res :=
  match s.crInfo? f.num.toNat with
  | none => .trap { cause := .illegalOp, slot := 0 }
  | some _ =>
    if !s.cx.guard f.gp then .ok s else .ok (s.setCx (s.cx.deliverA f.reg (s.crRead s.cur f.num.toNat) 2))

/-- A control-register write joins the end of its issue (R107). A register that `fields` shows not writable traps
whatever the guard (R38, R106); a value that may not be written traps only where the guard holds (log entry 95, DESIGN
CHOICE). -/
def crOp (fields : CrInfo → W64) (num : Nat) (gp : BitVec 4) (w : Except Cause CrWrite) (s : State) : Res :=
  if (match s.crInfo? num with | none => true | some i => fields i == 0) then .trap { cause := .illegalOp, slot := 0 }
  else if !s.cx.guard gp then .ok s
  else
    match w with
    | .error e => .trap { cause := e, slot := 0 }
    | .ok w => .ok (s.modCx (fun c => { c with buf := { c.buf with crw := c.buf.crw ++ [w] } }))

/-- WRCR (R106). -/
def opWrcr (f : ACR) (s : State) : Res := crOp (fun i => i.rw ||| i.w1c) f.num.toNat f.gp (s.wrcr f.num.toNat (s.cx.ra f.reg)) s
/-- SETCR (R106). -/
def opSetcr (f : ACR) (s : State) : Res := crOp (·.rw) f.num.toNat f.gp (s.setclr true f.num.toNat (s.cx.ra f.reg)) s
/-- CLRCR (R106). -/
def opClrcr (f : ACR) (s : State) : Res := crOp (·.rw) f.num.toNat f.gp (s.setclr false f.num.toNat (s.cx.ra f.reg)) s

/-- RDCR alone (R106). -/
def execRdcr (f : ACR) (s : State) : Host.Outcome State Fault Refusal := finish s (opRdcr f s)
/-- WRCR alone (R106). -/
def execWrcr (f : ACR) (s : State) : Host.Outcome State Fault Refusal := finishHold s none (opWrcr f s)
/-- SETCR alone (R106). -/
def execSetcr (f : ACR) (s : State) : Host.Outcome State Fault Refusal := finishHold s none (opSetcr f s)
/-- CLRCR alone (R106). -/
def execClrcr (f : ACR) (s : State) : Host.Outcome State Fault Refusal := finishHold s none (opClrcr f s)

end Sys2Proof.Machine
end

