-- ==== Sys2Proof/Machine/Vector.lean ====
section
/-! DEFINITION. V-slot operations on registers (R126 to R139, R145 to R147). -/

namespace Sys2Proof.Machine

/-- Lane i of a register in lanes of width w (R127). -/
def lane (w i : Nat) (x : W512) : Nat := (x.extractLsb' (w * i) w).toNat

/-- Whether the mask governs lane i on (R38, R127). -/
def Ctx.on (c : Ctx) (vm : BitVec 4) (i : Nat) : Bool := (c.rvm vm.toNat).getLsbD i

/-- The active lanes of n (R127). -/
def Ctx.lanes (c : Ctx) (vm : BitVec 4) (n : Nat) : List Nat := (List.range n).filter (c.on vm)

/-- The extension as a lane of width w (R37). -/
def extLane (w : Nat) (e : W32) : Nat := if w = 64 then (e.signExtend 64).toNat else e.toNat % 2 ^ w

/-- Lane i of the VB operand: the register, or the extension broadcast (R37). -/
def vbLane (f : VR) (c : Ctx) (w i : Nat) : Nat :=
  match f.ext with
  | some e => extLane w e
  | none => lane w i (c.rv f.vb.toNat)

/-- U for element e of an operation of the current bundle (R74, R129). -/
def Ctx.rnd (c : Ctx) (rm sm e : Nat) : Rnd :=
  { rm := rm, sm := sm, u := if rm = 4 then stochU (c.cr 3) (if c.inh then 1 else 0) c.now e else 0 }

/-- Deliver some lanes of width w to VD with the flags of their making (R91, R127). No active lane delivers nothing. -/
def vDeliver (vd lat w : Nat) (out : List (Nat × Coded)) (s : State) : State :=
  if out.isEmpty then s
  else
    let r := packLanes w out
    s.modCx (fun c => c.push { dst := .v vd, val := BitVec.ofNat 512 r.1, mask := BitVec.ofNat 512 (laneMask w (out.map (·.1))),
                               pos := c.now + lat, slot := 1, flags := r.2 })

/-- Deliver a whole register (R127). -/
def vWhole (vd lat : Nat) (v : Nat) (flags : Nat) (s : State) : State :=
  s.modCx (fun c => c.push { dst := .v vd, val := BitVec.ofNat 512 v, mask := BitVec.allOnes 512, pos := c.now + lat,
                             slot := 1, flags := flags })

/-- An element-wise operation (R130): lane i from lane i of each source. -/
def elementwise (f : VR) (lat : Nat) (g : Rnd → Nat → Nat → Nat → Coded) (s : State) : Res :=
  let c := s.cx
  let w := tyWidth f.ty.toNat
  .ok (vDeliver f.vd.toNat lat w
    ((c.lanes f.vm (512 / w)).map (fun i =>
      (i, g (c.rnd f.rm.toNat f.sm.toNat i) (lane w i (c.rv f.va.toNat)) (vbLane f c w i) (lane w i (c.rv f.vc.toNat))))) s)

/-! ### Lane results (R131) -/

/-- The exact integer of an INT code. -/
def intVal (t x : Nat) : Int := if isSigned t then sext x (tyWidth t) else (x % 2 ^ tyWidth t : Nat)
/-- An exact integer wrapped into an INT type. -/
def wrapCode (t : Nat) (v : Int) : Coded := (wrapInt v (tyWidth t), 0)
/-- Wrapped or saturated (R131). -/
def intOut (t fn : Nat) (v : Int) : Coded := if fn = 1 then (satCode t v, 0) else wrapCode t v

/-- VADD. -/
def lAdd (t fn : Nat) (r : Rnd) (a b : Nat) : Coded :=
  if isFP t then fAdd t r (decodeFloat t a) (decodeFloat t b) else intOut t fn (intVal t a + intVal t b)
/-- VSUB. -/
def lSub (t fn : Nat) (r : Rnd) (a b : Nat) : Coded :=
  if isFP t then fAdd t r (decodeFloat t a) (decodeFloat t b).flip else intOut t fn (intVal t a - intVal t b)
/-- VMUL. -/
def lMul (t : Nat) (r : Rnd) (a b : Nat) : Coded :=
  if isFP t then fMul t r (decodeFloat t a) (decodeFloat t b) else wrapCode t (intVal t a * intVal t b)
/-- VFMA, VFMS (`nc`), VFNMA (`np`). -/
def lFma (t : Nat) (np nc : Bool) (r : Rnd) (a b c : Nat) : Coded :=
  fFma t r np nc (decodeFloat t a) (decodeFloat t b) (decodeFloat t c)

/-- Order of two non-NaN values with −0 below +0 (R131). -/
def ordZero (a b : FV) : Ordering :=
  if a.isZero && b.isZero then (if a.isNeg == b.isNeg then .eq else if a.isNeg then .lt else .gt) else a.cmp b

/-- VMIN and VMAX (R131): equal values return a. -/
def lMinMax (isMax : Bool) (t : Nat) (a b : Nat) : Coded :=
  if isFP t then
    let x := decodeFloat t a
    let y := decodeFloat t b
    match firstNan t [x, y] with
    | some c => (c, sigFlag [x, y])
    | none =>
      let takeB := if isMax then ordZero x y == .lt else ordZero x y == .gt
      (if takeB then b else a, 0)
  else
    let takeB := if isMax then decide (intVal t a < intVal t b) else decide (intVal t b < intVal t a)
    (if takeB then b else a, 0)

/-- VABS. -/
def lAbs (t a : Nat) : Coded :=
  if isFP t then (a % 2 ^ (tyWidth t - 1), 0) else wrapCode t (intVal t a).natAbs
/-- VNEG. -/
def lNeg (t a : Nat) : Coded :=
  if isFP t then (a ^^^ 2 ^ (tyWidth t - 1), 0) else wrapCode t (-(intVal t a))
/-- VCPSGN. -/
def lCpsgn (t a b : Nat) : Coded := (a % 2 ^ (tyWidth t - 1) + (b / 2 ^ (tyWidth t - 1)) * 2 ^ (tyWidth t - 1), 0)

/-- VSHL, VSHR, VSRA by `kind` 0, 1, 2 (R131). -/
def lShift (kind t a b : Nat) : Coded :=
  let w := tyWidth t
  if w ≤ b then (if kind = 2 ∧ bitOf a (w - 1) then 2 ^ w - 1 else 0, 0)
  else
    match kind with
    | 0 => (a * 2 ^ b % 2 ^ w, 0)
    | 1 => (a / 2 ^ b, 0)
    | _ => (wrapInt (sext a w / 2 ^ b) w, 0)

/-- VSCALE (R131). Beyond ±4,096 the exponent decides nothing more: the result is the same overflow or underflow. -/
def lScale (t : Nat) (r : Rnd) (a b : Nat) : Coded :=
  match decodeFloat t a with
  | .nan n f m => (quietNan n f m t, sigFlag [.nan n f m])
  | .inf _ => (a, 0)
  | .num n m e => roundMag t r n (Mag.dyadic m (e + max (-4096) (min 4096 (sext b (tyWidth t)))))

/-- VABSD (R131). -/
def lAbsd (t : Nat) (r : Rnd) (a b : Nat) : Coded :=
  if isFP t then
    let x := decodeFloat t a
    let y := decodeFloat t b
    match firstNan t [x, y] with
    | some c => (c, sigFlag [x, y])
    | none =>
      match x, y with
      | .inf n1, .inf n2 => if n1 = n2 then invalid t else (infCode t, 0)
      | .num n1 m1 e1, .num n2 m2 e2 =>
        let e := min e1 e2
        roundMag t r false (Mag.dyadic (signedAt n1 m1 e1 e - signedAt n2 m2 e2 e).natAbs e)
      | _, _ => (infCode t, 0)
  else ((intVal t a - intVal t b).natAbs % 2 ^ tyWidth t, 0)

/-- VRINT (R131): NX alone is set where the result differs, for a value below the smallest normal too, whose UF R90 could
be read to ask (log entry 79, DESIGN CHOICE). -/
def lRint (t : Nat) (r : Rnd) (a : Nat) : Coded :=
  match decodeFloat t a with
  | .nan n f m => (quietNan n f m t, sigFlag [.nan n f m])
  | .inf _ => (a, 0)
  | .num n m e =>
    let x := Mag.dyadic m e
    if m = 0 then (a, 0)
    else
      let k := x.floorScaled 0
      let exact := x.cmp k 0 == .eq
      let k' := if exact then k else if roundUp r n x k 0 (k % 2 == 1) then k + 1 else k
      ((roundMag t {} n (Mag.dyadic k' 0)).1, if exact then 0 else fNX)

/-- VCLASS (R131). -/
def lClass (t a : Nat) : Coded :=
  match decodeFloat t a with
  | .nan _ f m => (if isSig f m then 2 ^ 8 else 2 ^ 9, 0)
  | .inf n => (if n then 1 else 2 ^ 7, 0)
  | .num n m _ =>
    let sub := (a / 2 ^ manW t) % 2 ^ expW t == 0
    (if m = 0 then (if n then 2 ^ 3 else 2 ^ 4)
     else if n then (if sub then 2 ^ 2 else 2) else (if sub then 2 ^ 5 else 2 ^ 6), 0)

/-- VADD (R130). -/
def opVadd (f : VR) (s : State) : Res := elementwise f 4 (fun r a b _ => lAdd f.ty.toNat f.fn.toNat r a b) s
/-- VSUB (R130). -/
def opVsub (f : VR) (s : State) : Res := elementwise f 4 (fun r a b _ => lSub f.ty.toNat f.fn.toNat r a b) s
/-- VMUL (R130). -/
def opVmul (f : VR) (s : State) : Res := elementwise f 5 (fun r a b _ => lMul f.ty.toNat r a b) s
/-- VFMA (R130). -/
def opVfma (f : VR) (s : State) : Res := elementwise f 5 (lFma f.ty.toNat false false) s
/-- VFMS (R130). -/
def opVfms (f : VR) (s : State) : Res := elementwise f 5 (lFma f.ty.toNat false true) s
/-- VFNMA (R130). -/
def opVfnma (f : VR) (s : State) : Res := elementwise f 5 (lFma f.ty.toNat true false) s
/-- VMIN (R130). -/
def opVmin (f : VR) (s : State) : Res := elementwise f 4 (fun _ a b _ => lMinMax false f.ty.toNat a b) s
/-- VMAX (R130). -/
def opVmax (f : VR) (s : State) : Res := elementwise f 4 (fun _ a b _ => lMinMax true f.ty.toNat a b) s
/-- VABS (R130). -/
def opVabs (f : VR) (s : State) : Res := elementwise f 4 (fun _ a _ _ => lAbs f.ty.toNat a) s
/-- VNEG (R130). -/
def opVneg (f : VR) (s : State) : Res := elementwise f 4 (fun _ a _ _ => lNeg f.ty.toNat a) s
/-- VAND (R130). -/
def opVand (f : VR) (s : State) : Res := elementwise f 4 (fun _ a b _ => (a &&& b, 0)) s
/-- VOR (R130). -/
def opVor (f : VR) (s : State) : Res := elementwise f 4 (fun _ a b _ => (a ||| b, 0)) s
/-- VXOR (R130). -/
def opVxor (f : VR) (s : State) : Res := elementwise f 4 (fun _ a b _ => (a ^^^ b, 0)) s
/-- VANDN (R130). -/
def opVandn (f : VR) (s : State) : Res := elementwise f 4 (fun _ a b _ => (a - (a &&& b), 0)) s
/-- VSHL (R130). -/
def opVshl (f : VR) (s : State) : Res := elementwise f 4 (fun _ a b _ => lShift 0 f.ty.toNat a b) s
/-- VSHR (R130). -/
def opVshr (f : VR) (s : State) : Res := elementwise f 4 (fun _ a b _ => lShift 1 f.ty.toNat a b) s
/-- VSRA (R130). -/
def opVsra (f : VR) (s : State) : Res := elementwise f 4 (fun _ a b _ => lShift 2 f.ty.toNat a b) s
/-- VSCALE (R130). -/
def opVscale (f : VR) (s : State) : Res := elementwise f 4 (fun r a b _ => lScale f.ty.toNat r a b) s
/-- VCLASS (R130). -/
def opVclass (f : VR) (s : State) : Res := elementwise f 4 (fun _ a _ _ => lClass f.ty.toNat a) s
/-- VPOPC (R130). -/
def opVpopc (f : VR) (s : State) : Res := elementwise f 4 (fun _ a _ _ => (popcN a (tyWidth f.ty.toNat), 0)) s
/-- VCLZ (R130). -/
def opVclz (f : VR) (s : State) : Res := elementwise f 4 (fun _ a _ _ => (clzN a (tyWidth f.ty.toNat), 0)) s
/-- VMADDI (R130). -/
def opVmaddi (f : VR) (s : State) : Res :=
  elementwise f 5 (fun _ a b c => wrapCode f.ty.toNat (intVal f.ty.toNat c + intVal f.ty.toNat a * intVal f.ty.toNat b)) s
/-- VABSD (R130). -/
def opVabsd (f : VR) (s : State) : Res := elementwise f 4 (fun r a b _ => lAbsd f.ty.toNat r a b) s
/-- VRCP (R130). -/
def opVrcp (f : VR) (s : State) : Res := elementwise f 5 (fun r a _ _ => fRcp f.ty.toNat r (decodeFloat f.ty.toNat a)) s
/-- VRSQ (R130). -/
def opVrsq (f : VR) (s : State) : Res := elementwise f 5 (fun r a _ _ => fRsqrt f.ty.toNat r (decodeFloat f.ty.toNat a)) s
/-- VCPSGN (R130). -/
def opVcpsgn (f : VR) (s : State) : Res := elementwise f 4 (fun _ a b _ => lCpsgn f.ty.toNat a b) s
/-- VRINT (R130). -/
def opVrint (f : VR) (s : State) : Res := elementwise f 4 (fun r a _ _ => lRint f.ty.toNat r a) s

/-! ### Compare, select and rearrangement (R132) -/

/-- The relation of VCMP by FN on an ordering; UN is handled apart. -/
def relHolds (fn : Nat) (o : Ordering) : Bool :=
  match fn with
  | 0 => o == .eq
  | 1 => o != .eq
  | 2 => o == .lt
  | 3 => o != .gt
  | 4 => o == .gt
  | 5 => o != .lt
  | _ => false

/-- VCMP on one lane. -/
def lCmp (t fn a b : Nat) : Coded :=
  let ones := 2 ^ tyWidth t - 1
  if isFP t then
    let x := decodeFloat t a
    let y := decodeFloat t b
    if x.isNan || y.isNan then (if fn = 1 ∨ fn = 6 then ones else 0, sigFlag [x, y])
    else (if relHolds fn (x.cmp y) then ones else 0, 0)
  else (if relHolds fn (compare (intVal t a) (intVal t b)) then ones else 0, 0)

/-- VCMP (R132). -/
def opVcmp (f : VR) (s : State) : Res := elementwise f 4 (fun _ a b _ => lCmp f.ty.toNat f.fn.toNat a b) s
/-- VSEL (R132). -/
def opVsel (f : VR) (s : State) : Res := elementwise f 4 (fun _ a b c => (if c ≠ 0 then a else b, 0)) s
/-- VMOV (R132). -/
def opVmov (f : VR) (s : State) : Res := elementwise f 4 (fun _ a _ _ => (a, 0)) s

/-- A rearrangement: lane i of the result from its number (R132). -/
def rearrange (f : VR) (g : Ctx → Nat → Nat → Nat) (s : State) : Res :=
  let c := s.cx
  let w := tyWidth f.ty.toNat
  .ok (vDeliver f.vd.toNat 4 w ((c.lanes f.vm (512 / w)).map (fun i => (i, (g c w i, 0)))) s)

/-- Lane j of the sequence Q of R132. -/
def qLane (f : VR) (c : Ctx) (w j : Nat) : Nat :=
  let n := 512 / w
  if j < n then lane w j (c.rv f.va.toNat) else vbLane f c w (j - n)

/-- VBCST (R132). -/
def opVbcst (f : VR) (s : State) : Res := rearrange f (fun c w _ => lane w f.fn.toNat (c.rv f.va.toNat)) s
/-- VPERM (R132). -/
def opVperm (f : VR) (s : State) : Res :=
  rearrange f (fun c w i => qLane f c w (lane w i (c.rv f.vc.toNat) % (2 * (512 / w)))) s
/-- VSLIDE (R132). -/
def opVslide (f : VR) (s : State) : Res := rearrange f (fun c w i => qLane f c w (i + f.fn.toNat)) s
/-- VZIP (R132). -/
def opVzip (f : VR) (s : State) : Res :=
  rearrange f (fun c w i =>
    let j := f.fn.toNat * (512 / w / 2) + i / 2
    if i % 2 = 0 then lane w j (c.rv f.va.toNat) else vbLane f c w j) s
/-- VUNZIP (R132). -/
def opVunzip (f : VR) (s : State) : Res :=
  rearrange f (fun c w i =>
    let h := 512 / w / 2
    if i < h then lane w (2 * i + f.fn.toNat) (c.rv f.va.toNat) else vbLane f c w (2 * (i - h) + f.fn.toNat)) s
/-- VIOTA (R132). -/
def opViota (f : VR) (s : State) : Res := rearrange f (fun _ w i => i % 2 ^ w) s

/-! ### Conversion (R133) -/

/-- n elements of S from element `first` of VA to element dst0 of VD; the elements of `zeros` are written 0. -/
def convertRun (f : VR) (n first dst0 : Nat) (zeros : List Nat) (s : State) : Res :=
  let c := s.cx
  let src := f.fn.toNat % 16
  let ws := tyWidth src
  .ok (vDeliver f.vd.toNat 4 (tyWidth f.ty.toNat)
    (((List.range n).filter (fun i => c.on f.vm (dst0 + i))).map (fun i =>
        (dst0 + i, convert (decodeVal src (lane ws (first + i) (c.rv f.va.toNat))) f.ty.toNat
          (c.rnd f.rm.toNat f.sm.toNat (dst0 + i)))) ++
      zeros.map (fun i => (i, (0, 0)))) s)

/-- VCVT (R133). -/
def opVcvt (f : VR) (s : State) : Res :=
  let wd := tyWidth f.ty.toNat
  let n := 512 / max (tyWidth (f.fn.toNat % 16)) wd
  convertRun f n 0 0 ((List.range (512 / wd)).filter (fun i => decide (n ≤ i))) s
/-- VWIDEN (R133). -/
def opVwiden (f : VR) (s : State) : Res :=
  let n := 512 / tyWidth f.ty.toNat
  convertRun f n (n * (f.fn.toNat / 16)) 0 [] s
/-- VPACK (R133). -/
def opVpack (f : VR) (s : State) : Res :=
  let n := 512 / tyWidth (f.fn.toNat % 16)
  convertRun f n 0 (n * (f.fn.toNat / 16)) [] s

/-! ### Block quantisation (R134 to R136) -/

/-- Element j of a run of registers from vN (R128). -/
def runElem (c : Ctx) (vn w j : Nat) : Nat := lane w (j % (512 / w)) (c.rv (vn + j / (512 / w)))

/-- VAMAX (R134). -/
def opVamax (f : VR) (s : State) : Res :=
  let c := s.cx
  let t := f.ty.toNat
  let vs := (List.range 128).map (fun j => decodeFloat t (runElem c f.va.toNat (tyWidth t) j))
  .ok (vWhole f.vd.toNat 6 (blockScale (f.fn.toNat % 16) vs).1 0 s)

/-- The scale code of VQNT and VDQNT: Bits(VB, 7, 0). -/
def scaleArg (f : VR) (c : Ctx) : Nat := vbLane f c 8 0

/-- One element of VQNT (R135). -/
def lQnt (t scale : Nat) (r : Rnd) (v : FV) : Coded :=
  if scale = 0 then
    (zeroCode t false, fBZ + (if v.isNan then fNV else if v.isInf then fOF else if v.isZero then 0 else fNX))
  else quantElem t scale r v

/-- VQNT (R135). -/
def opVqnt (f : VR) (s : State) : Res :=
  let c := s.cx
  let src := f.fn.toNat % 16
  let ws := tyWidth src
  .ok (vDeliver f.vd.toNat 4 8
    ((c.lanes f.vm 64).map (fun i =>
      (i, lQnt f.ty.toNat (scaleArg f c) (c.rnd f.rm.toNat f.sm.toNat i) (decodeFloat src (runElem c f.va.toNat ws i))))) s)

/-- VDQNT (R136). -/
def opVdqnt (f : VR) (s : State) : Res :=
  let c := s.cx
  let wd := tyWidth f.ty.toNat
  let n := 512 / wd
  .ok (vDeliver f.vd.toNat 4 wd
    ((c.lanes f.vm n).map (fun i =>
      (i, dequantElem (f.fn.toNat % 16) (lane 8 (n * (f.fn.toNat / 16) + i) (c.rv f.va.toNat)) (scaleArg f c) f.ty.toNat
        (c.rnd f.rm.toNat 0 i)))) s)

/-! ### Reductions (R137) -/

/-- The exact sum of finite values. -/
def sumDy : List FV → Dy
  | [] => ⟨0, 0⟩
  | .num n m e :: t => Dy.add ⟨if n then -(m : Int) else m, e⟩ (sumDy t)
  | _ :: t => sumDy t

/-- The exact product of two values that are not NaN, or none for 0 × ∞ (R79). -/
def prodVal (a b : FV) : Option FV :=
  match a, b with
  | .inf n1, .inf n2 => some (.inf (n1 != n2))
  | .inf n1, .num n2 m2 _ => if m2 = 0 then none else some (.inf (n1 != n2))
  | .num n1 m1 _, .inf n2 => if m1 = 0 then none else some (.inf (n1 != n2))
  | .num n1 m1 e1, .num n2 m2 e2 => some (.num (n1 != n2) (m1 * m2) (e1 + e2))
  | x, _ => some x

/-- A sum of exact terms without NaN, rounded once into t (R137). -/
def sumTerms (t : Nat) (r : Rnd) (vs : List FV) : Coded :=
  let pinf := vs.any (fun v => v.isInf && !v.isNeg)
  let ninf := vs.any (fun v => v.isInf && v.isNeg)
  if pinf && ninf then invalid t
  else if pinf || ninf then (signBit t ninf + infCode t, 0)
  else
    let d := sumDy vs
    if d.m = 0 then
      let allNeg := !vs.isEmpty && vs.all (fun v => v.isZero && v.isNeg)
      let allPos := vs.all (fun v => v.isZero && !v.isNeg)
      (zeroCode t (allNeg || (!allPos && r.rm == 3)), 0)
    else roundMag t r (decide (d.m < 0)) (Mag.dyadic d.m.natAbs d.e)

/-- VRSUM on FP participants. -/
def redSum (t : Nat) (r : Rnd) (vs : List FV) : Coded :=
  match firstNan t vs with
  | some c => (c, sigFlag vs)
  | none => sumTerms t r vs

/-- VRDOT on FP participant pairs, into F32: an invalid product sets NV beside a NaN participant too (R79; log entry 29,
DEDUCED). -/
def redDot (r : Rnd) (ps : List (FV × FV)) : Coded :=
  let flat := ps.flatMap (fun p => [p.1, p.2])
  let prods := ps.map (fun p => prodVal p.1 p.2)
  match firstNan tyF32 flat with
  | some c => (c, sigFlag flat ||| (if prods.any (·.isNone) then fNV else 0))
  | none =>
    if prods.any (·.isNone) then invalid tyF32
    else sumTerms tyF32 r (prods.filterMap id)

/-- VRSUM (R137). -/
def opVrsum (f : VR) (s : State) : Res :=
  let c := s.cx
  let t := f.ty.toNat
  let w := tyWidth t
  let xs := (c.lanes f.vm (512 / w)).map (fun i => lane w i (c.rv f.va.toNat))
  let r := if isFP t then redSum t (c.rnd f.rm.toNat 0 0) (xs.map (decodeFloat t))
    else (wrapInt (xs.foldl (fun a x => a + intVal t x) 0) 64, 0)
  .ok (vWhole f.vd.toNat 6 r.1 r.2 s)

/-- VRMAX and VRMIN (R137). -/
def redMinMax (isMax : Bool) (t : Nat) (xs : List Nat) : Coded :=
  if isFP t then
    match firstNan t (xs.map (decodeFloat t)) with
    | some c => (c, sigFlag (xs.map (decodeFloat t)))
    | none =>
      match xs with
      | [] => (signBit t isMax + infCode t, 0)
      | x :: r => (r.foldl (fun a b => (lMinMax isMax t a b).1) x, 0)
  else
    match xs with
    | [] => wrapCode t (if isMax then intMin t else intMax t)
    | x :: r => (r.foldl (fun a b => (lMinMax isMax t a b).1) x, 0)

/-- VRMAX or VRMIN. -/
def opRedMM (isMax : Bool) (f : VR) (s : State) : Res :=
  let c := s.cx
  let w := tyWidth f.ty.toNat
  let r := redMinMax isMax f.ty.toNat ((c.lanes f.vm (512 / w)).map (fun i => lane w i (c.rv f.va.toNat)))
  .ok (vWhole f.vd.toNat 6 r.1 r.2 s)
/-- VRMAX (R137). -/
def opVrmax (f : VR) (s : State) : Res := opRedMM true f s
/-- VRMIN (R137). -/
def opVrmin (f : VR) (s : State) : Res := opRedMM false f s

/-- VRDOT (R137). -/
def opVrdot (f : VR) (s : State) : Res :=
  let c := s.cx
  let t := f.ty.toNat
  let w := tyWidth t
  let ps := (c.lanes f.vm (512 / w)).map (fun i => (lane w i (c.rv f.va.toNat), vbLane f c w i))
  let r := if isFP t then redDot (c.rnd f.rm.toNat 0 0) (ps.map (fun p => (decodeFloat t p.1, decodeFloat t p.2)))
    else (wrapInt (ps.foldl (fun a p => a + intVal t p.1 * intVal t p.2) 0) 64, 0)
  .ok (vWhole f.vd.toNat 6 r.1 r.2 s)

/-! ### Long accumulators (R138, R139) -/

/-- Add a list of exact terms into an accumulator as one value P (R82, R138); `bad` says a product was invalid. A NaN beside
opposite infinities is no invalid sum (log entry 29, DEDUCED). -/
def laAddSum (la : LA) (vs : List FV) (bad : Bool) : LA × Nat :=
  let sig := sigFlag vs
  if vs.any (·.isNan) || bad then (.nan, sig ||| (if bad then fNV else 0))
  else
    let pinf := vs.any (fun v => v.isInf && !v.isNeg)
    let ninf := vs.any (fun v => v.isInf && v.isNeg)
    if pinf && ninf then (.nan, fNV)
    else if pinf || ninf then la.addInfNv ninf
    else la.addDy (sumDy vs)

/-- VLACC (R138): an invalid product sets NV beside a NaN in another lane of its group too. -/
def opVlacc (f : VR) (s : State) : Res :=
  let c := s.cx
  let fn := f.fn.toNat
  let src := fn % 16
  let w := tyWidth src
  let g := 512 / w / 4
  .ok (vDeliver f.vd.toNat 6 128
    ((c.lanes f.vm 4).map (fun j =>
      let acc := if fn / 32 = 1 then LA.empty else LA.decode ((c.rv f.vd.toNat).extractLsb' (128 * j) 128)
      let as := (List.range g).map (fun i => decodeFloat src (lane w (g * j + i) (c.rv f.va.toNat)))
      let bs := (List.range g).map (fun i => decodeFloat src (vbLane f c w (g * j + i)))
      let r :=
        if fn / 16 % 2 = 1 then
          let flat := as ++ bs
          let ps := (as.zip bs).map (fun p => prodVal p.1 p.2)
          if flat.any (·.isNan) then (LA.nan, sigFlag flat ||| (if ps.any (·.isNone) then fNV else 0))
          else
            laAddSum acc (ps.filterMap id) (ps.any (·.isNone))
        else laAddSum acc as false
      (j, (r.1.encode.toNat, r.2)))) s)

/-- VLARND (R139). -/
def opVlarnd (f : VR) (s : State) : Res :=
  let c := s.cx
  let t := f.ty.toNat
  let w := tyWidth t
  .ok (vDeliver f.vd.toNat 4 w
    ((c.lanes f.vm 4).map (fun j =>
        (j, (LA.decode ((c.rv f.va.toNat).extractLsb' (128 * j) 128)).read t (c.rnd f.rm.toNat f.sm.toNat j))) ++
      ((List.range (512 / w)).filter (fun i => decide (4 ≤ i))).map (fun i => (i, (0, 0)))) s)

/-! ### XFERV (R145) and VLSCALE (R147) -/

/-- XFERV (R145). -/
def opXferv (f : VX) (s : State) : Res :=
  let c := s.cx
  let w := tyWidth f.ty.toNat
  let x := (c.ra f.src).toNat % 2 ^ w
  let ls := if f.bc = 0 then [f.lane.toNat] else List.range (512 / w)
  .ok (vDeliver f.vd.toNat 2 w ((ls.filter (c.on f.vm)).map (fun i => (i, (x, 0)))) s)

/-- A signed 32-bit field. -/
def s32 (x : W512) (lo : Nat) : Int := (x.extractLsb' lo 32).toInt
/-- An unsigned 32-bit field. -/
def u32 (x : W512) (lo : Nat) : Nat := (x.extractLsb' lo 32).toNat

/-- The new bits [255:0] of the loss-scale state and the flags of the update (R147). -/
def lossUpdate (v : W512) (ovf : Bool) : Nat × Nat :=
  let emin := s32 v 32
  let emax := s32 v 64
  let low := v.toNat % 2 ^ 192
  if emax < emin ∨ emin < -126 ∨ 127 < emin ∨ emax < -126 ∨ 127 < emax then
    (low + bitsOf v.toNat 193 192 * 2 ^ 192 + 2 ^ 194 + u32 v 224 * 2 ^ 224, fNV)
  else
    let e0 := s32 v 0
    let e := min (max e0 emin) emax
    let big := 2 ^ 32 - 1
    let clean1 := min (u32 v 128 + 1) big
    let grow := decide (max (u32 v 96) 1 ≤ clean1)
    let clean := if ovf then 0 else if grow then 0 else clean1
    let skipped := if ovf ∧ e ≤ emin then min (u32 v 160 + 1) big else u32 v 160
    let floor := ovf && decide (e ≤ emin)
    let hold := !ovf && grow && decide (emax ≤ e)
    let e' := if ovf then (if emin < e then e - 1 else e) else if grow ∧ e < emax then e + 1 else e
    let held0 := decide (e' = e0) && bitOf v.toNat 192
    let floor0 := decide (e' = e0) && bitOf v.toNat 193
    let scale := (roundMag tyF32 {} false (Mag.dyadic 1 e')).1
    (wrapInt e' 32 + u32 v 32 * 2 ^ 32 + u32 v 64 * 2 ^ 64 + u32 v 96 * 2 ^ 96 + clean * 2 ^ 128 + skipped * 2 ^ 160 +
      (if held0 || hold then 2 ^ 192 else 0) + (if floor0 || floor then 2 ^ 193 else 0) + scale * 2 ^ 224, 0)

/-- VLSCALE (R147). -/
def opVlscale (f : VR) (s : State) : Res :=
  let c := s.cx
  let r := lossUpdate (c.rv f.vd.toNat) ((c.rv f.va.toNat).extractLsb' 0 64 != 0)
  .ok (s.modCx (fun c => c.push { dst := .v f.vd.toNat, val := BitVec.ofNat 512 r.1, mask := BitVec.ofNat 512 (2 ^ 256 - 1),
                                  pos := c.now + 4, slot := 1, flags := r.2 }))

/-! ### XFERB (R104) -/

/-- Whether a lane is nonzero, by value for floating-point and TS8 (R104). -/
def laneNonzero (t x : Nat) : Bool := if isFloat t || t == tyT8 then !(decodeVal t x).isZero else x != 0

/-- The lane-wise nonzero test (R104). -/
def nonzeroMask (t : Nat) (v : W512) : W64 :=
  let w := tyWidth t
  BitVec.ofNat 64 ((List.range (512 / w)).foldl (fun m i => if laneNonzero t (lane w i v) then m + 2 ^ i else m) 0)

/-- XFERB (R104); a gallery core has no V file (R349). -/
def opXferb (f : BX) (s : State) : Res :=
  if isGal s.cur && f.sf == 1 then .trap { cause := .illegalOp, slot := 3 }
  else
    .ok (s.modCx (fun c =>
      let a := c.ra (f.src.setWidth 6)
      let n := f.dst.toNat
      match f.dk.toNat with
      | 0 => c.deliver (.p n) ((ofBool (a != 0)).setWidth 512) 2 3
      | 1 => c.deliver (.vm n) ((if f.sf = 0 then a else nonzeroMask f.ty.toNat (c.rv f.src.toNat)).setWidth 512) 2 3
      | _ => c.deliver (.lc (n % 4)) ((fld a 0 32).setWidth 512) 2 3))

/-! ### Outcomes -/

/-- VADD alone (R130). -/
def execVadd (f : VR) (s : State) : Host.Outcome State Fault Refusal := finish s (opVadd f s)
/-- VSUB alone (R130). -/
def execVsub (f : VR) (s : State) : Host.Outcome State Fault Refusal := finish s (opVsub f s)
/-- VMUL alone (R130). -/
def execVmul (f : VR) (s : State) : Host.Outcome State Fault Refusal := finish s (opVmul f s)
/-- VFMA alone (R130). -/
def execVfma (f : VR) (s : State) : Host.Outcome State Fault Refusal := finish s (opVfma f s)
/-- VFMS alone (R130). -/
def execVfms (f : VR) (s : State) : Host.Outcome State Fault Refusal := finish s (opVfms f s)
/-- VFNMA alone (R130). -/
def execVfnma (f : VR) (s : State) : Host.Outcome State Fault Refusal := finish s (opVfnma f s)
/-- VMIN alone (R130). -/
def execVmin (f : VR) (s : State) : Host.Outcome State Fault Refusal := finish s (opVmin f s)
/-- VMAX alone (R130). -/
def execVmax (f : VR) (s : State) : Host.Outcome State Fault Refusal := finish s (opVmax f s)
/-- VABS alone (R130). -/
def execVabs (f : VR) (s : State) : Host.Outcome State Fault Refusal := finish s (opVabs f s)
/-- VNEG alone (R130). -/
def execVneg (f : VR) (s : State) : Host.Outcome State Fault Refusal := finish s (opVneg f s)
/-- VAND alone (R130). -/
def execVand (f : VR) (s : State) : Host.Outcome State Fault Refusal := finish s (opVand f s)
/-- VOR alone (R130). -/
def execVor (f : VR) (s : State) : Host.Outcome State Fault Refusal := finish s (opVor f s)
/-- VXOR alone (R130). -/
def execVxor (f : VR) (s : State) : Host.Outcome State Fault Refusal := finish s (opVxor f s)
/-- VANDN alone (R130). -/
def execVandn (f : VR) (s : State) : Host.Outcome State Fault Refusal := finish s (opVandn f s)
/-- VSHL alone (R130). -/
def execVshl (f : VR) (s : State) : Host.Outcome State Fault Refusal := finish s (opVshl f s)
/-- VSHR alone (R130). -/
def execVshr (f : VR) (s : State) : Host.Outcome State Fault Refusal := finish s (opVshr f s)
/-- VSRA alone (R130). -/
def execVsra (f : VR) (s : State) : Host.Outcome State Fault Refusal := finish s (opVsra f s)
/-- VSCALE alone (R130). -/
def execVscale (f : VR) (s : State) : Host.Outcome State Fault Refusal := finish s (opVscale f s)
/-- VCLASS alone (R130). -/
def execVclass (f : VR) (s : State) : Host.Outcome State Fault Refusal := finish s (opVclass f s)
/-- VPOPC alone (R130). -/
def execVpopc (f : VR) (s : State) : Host.Outcome State Fault Refusal := finish s (opVpopc f s)
/-- VCLZ alone (R130). -/
def execVclz (f : VR) (s : State) : Host.Outcome State Fault Refusal := finish s (opVclz f s)
/-- VMADDI alone (R130). -/
def execVmaddi (f : VR) (s : State) : Host.Outcome State Fault Refusal := finish s (opVmaddi f s)
/-- VABSD alone (R130). -/
def execVabsd (f : VR) (s : State) : Host.Outcome State Fault Refusal := finish s (opVabsd f s)
/-- VRCP alone (R130). -/
def execVrcp (f : VR) (s : State) : Host.Outcome State Fault Refusal := finish s (opVrcp f s)
/-- VRSQ alone (R130). -/
def execVrsq (f : VR) (s : State) : Host.Outcome State Fault Refusal := finish s (opVrsq f s)
/-- VCPSGN alone (R130). -/
def execVcpsgn (f : VR) (s : State) : Host.Outcome State Fault Refusal := finish s (opVcpsgn f s)
/-- VRINT alone (R130). -/
def execVrint (f : VR) (s : State) : Host.Outcome State Fault Refusal := finish s (opVrint f s)
/-- VCMP alone (R132). -/
def execVcmp (f : VR) (s : State) : Host.Outcome State Fault Refusal := finish s (opVcmp f s)
/-- VSEL alone (R132). -/
def execVsel (f : VR) (s : State) : Host.Outcome State Fault Refusal := finish s (opVsel f s)
/-- VMOV alone (R132). -/
def execVmov (f : VR) (s : State) : Host.Outcome State Fault Refusal := finish s (opVmov f s)
/-- VBCST alone (R132). -/
def execVbcst (f : VR) (s : State) : Host.Outcome State Fault Refusal := finish s (opVbcst f s)
/-- VPERM alone (R132). -/
def execVperm (f : VR) (s : State) : Host.Outcome State Fault Refusal := finish s (opVperm f s)
/-- VSLIDE alone (R132). -/
def execVslide (f : VR) (s : State) : Host.Outcome State Fault Refusal := finish s (opVslide f s)
/-- VZIP alone (R132). -/
def execVzip (f : VR) (s : State) : Host.Outcome State Fault Refusal := finish s (opVzip f s)
/-- VUNZIP alone (R132). -/
def execVunzip (f : VR) (s : State) : Host.Outcome State Fault Refusal := finish s (opVunzip f s)
/-- VIOTA alone (R132). -/
def execViota (f : VR) (s : State) : Host.Outcome State Fault Refusal := finish s (opViota f s)
/-- VCVT alone (R133). -/
def execVcvt (f : VR) (s : State) : Host.Outcome State Fault Refusal := finish s (opVcvt f s)
/-- VWIDEN alone (R133). -/
def execVwiden (f : VR) (s : State) : Host.Outcome State Fault Refusal := finish s (opVwiden f s)
/-- VPACK alone (R133). -/
def execVpack (f : VR) (s : State) : Host.Outcome State Fault Refusal := finish s (opVpack f s)
/-- VAMAX alone (R134). -/
def execVamax (f : VR) (s : State) : Host.Outcome State Fault Refusal := finish s (opVamax f s)
/-- VQNT alone (R135). -/
def execVqnt (f : VR) (s : State) : Host.Outcome State Fault Refusal := finish s (opVqnt f s)
/-- VDQNT alone (R136). -/
def execVdqnt (f : VR) (s : State) : Host.Outcome State Fault Refusal := finish s (opVdqnt f s)
/-- VRSUM alone (R137). -/
def execVrsum (f : VR) (s : State) : Host.Outcome State Fault Refusal := finish s (opVrsum f s)
/-- VRMAX alone (R137). -/
def execVrmax (f : VR) (s : State) : Host.Outcome State Fault Refusal := finish s (opVrmax f s)
/-- VRMIN alone (R137). -/
def execVrmin (f : VR) (s : State) : Host.Outcome State Fault Refusal := finish s (opVrmin f s)
/-- VRDOT alone (R137). -/
def execVrdot (f : VR) (s : State) : Host.Outcome State Fault Refusal := finish s (opVrdot f s)
/-- VLACC alone (R138). -/
def execVlacc (f : VR) (s : State) : Host.Outcome State Fault Refusal := finish s (opVlacc f s)
/-- VLARND alone (R139). -/
def execVlarnd (f : VR) (s : State) : Host.Outcome State Fault Refusal := finish s (opVlarnd f s)
/-- XFERV alone (R145). -/
def execXferv (f : VX) (s : State) : Host.Outcome State Fault Refusal := finish s (opXferv f s)
/-- VLSCALE alone (R147). -/
def execVlscale (f : VR) (s : State) : Host.Outcome State Fault Refusal := finish s (opVlscale f s)
/-- XFERB alone (R104). -/
def execXferb (f : BX) (s : State) : Host.Outcome State Fault Refusal := finish s (opXferb f s)
/-- VNOP (R50): no effect. -/
def execVnop (s : State) : Host.Outcome State Fault Refusal := .next s

end Sys2Proof.Machine
end

