-- ==== Sys2Proof/Machine/Array.lean ====
section
/-! DEFINITION. The dataflow array's images (R177, R178, R190 to R196, R201): their fields, what an operator reads and
writes, the types its edges carry, and the check of a landed image. -/

namespace Sys2Proof.Machine

/-! ### Fields of an image (R190 to R194) -/

/-- The operator word of PE p. -/
def imgOp (m : Mem) (p : Nat) : Nat := m.readLE (0x40 + 8 * p) 8
/-- The descriptor of input k of PE p. -/
def imgEdge (m : Mem) (p k : Nat) : Nat := m.readLE (0x240 + 16 * p + 4 * k) 4
/-- A port descriptor: ports 0 to 15 are inputs, 16 to 31 outputs. -/
def imgPort (m : Mem) (k : Nat) : Nat := m.readLE (0x640 + 4 * k) 4
/-- The PE mask of group g. -/
def imgMask (m : Mem) (g : Nat) : Nat := m.readLE (0x6C0 + 8 * g) 8
/-- NGRP. -/
def imgNgrp (m : Mem) : Nat := m.readLE 5 1

/-- OP, TA, TB, RM, SM, FN, CNT8, IMM32 of an operator word (R191). -/
def opOP (w : Nat) : Nat := bitsOf w 63 58
def opTA (w : Nat) : Nat := bitsOf w 57 54
def opTB (w : Nat) : Nat := bitsOf w 53 50
def opRM (w : Nat) : Nat := bitsOf w 49 47
def opSM (w : Nat) : Nat := bitsOf w 46 46
def opFN (w : Nat) : Nat := bitsOf w 45 40
def opCNT (w : Nat) : Nat := bitsOf w 39 32
def opIMM (w : Nat) : Nat := bitsOf w 31 0

/-- KIND, SRC, SRCOUT, DEPTH, INIT of an edge descriptor (R192). -/
def edKind (d : Nat) : Nat := bitsOf d 31 30
def edSrc (d : Nat) : Nat := bitsOf d 29 24
def edOut (d : Nat) : Nat := bitsOf d 23 23
def edDepth (d : Nat) : Nat := bitsOf d 22 16
def edInit (d : Nat) : Nat := bitsOf d 15 8

/-- TY, lane count, SCALED, USED, GROUP, SRC, SRCOUT of a port descriptor (R193). -/
def poTy (d : Nat) : Nat := bitsOf d 31 28
def poLanes (d : Nat) : Nat := bitsOf d 27 22 + 1
def poScaled (d : Nat) : Bool := bitOf d 21
def poUsed (d : Nat) : Bool := bitOf d 20
def poGroup (d : Nat) : Nat := bitsOf d 19 16
def poSrc (d : Nat) : Nat := bitsOf d 15 10
def poOut (d : Nat) : Nat := bitsOf d 9 9

/-- The groups whose mask holds PE p. -/
def imgGroups (m : Mem) (p : Nat) : List Nat := (List.range 16).filter (fun g => bitOf (imgMask m g) p)
/-- The group of a PE of a valid image. -/
def imgGroup (m : Mem) (p : Nat) : Nat := (imgGroups m p).headD 0

/-! ### Operators (R178, R202 to R212) -/

/-- Opcodes of R59. -/
def oIDLE : Nat := 0x00
def oFWD : Nat := 0x01
def oFORK : Nat := 0x02
def oPAIR : Nat := 0x03
def oMUX : Nat := 0x04
def oDEMUX : Nat := 0x05
def oFILT : Nat := 0x06
def oDELAY : Nat := 0x07
def oBDOT : Nat := 0x08
def oBDOTA : Nat := 0x09
def oLAADD : Nat := 0x0A
def oLARND : Nat := 0x0B
def oLACLR : Nat := 0x0C
def oSCMATCH : Nat := 0x0D
def oFFMA : Nat := 0x11
def oFCMP : Nat := 0x14
def oICMP : Nat := 0x1A
def oCVT : Nat := 0x1B
def oQNT : Nat := 0x1C
def oDQNT : Nat := 0x1D
def oLRED : Nat := 0x1E
def oCNT : Nat := 0x24
def oGATE : Nat := 0x25

/-- The element-wise arithmetic operators, which take b from i1 or IMM32 (R201, R204). -/
def oArith (o : Nat) : Bool := 0x0E ≤ o && o ≤ 0x1A
/-- The special functions (R208). -/
def oSpecial (o : Nat) : Bool := 0x1F ≤ o && o ≤ 0x23

/-- The inputs an operator reads, i1 of an arithmetic operator apart (R201). -/
def oInputs (o : Nat) : List Nat :=
  if o = oIDLE ∨ o = oCNT then []
  else if o = oMUX ∨ o = oBDOT then [0, 1, 2]
  else if o = oFFMA then [0, 2]
  else if o = oPAIR ∨ o = oDEMUX ∨ o = oFILT ∨ o = oGATE ∨ o = oLAADD ∨ o = oSCMATCH ∨ o = oBDOTA then [0, 1]
  else [0]
/-- The outputs an operator writes. -/
def oOuts (o : Nat) : List Nat := if o = oIDLE then [] else if o = oFORK ∨ o = oDEMUX then [0, 1] else [0]

/-- The routing set of R178. -/
def oRouting (o : Nat) : Bool := o ≤ 7 || o == oGATE
/-- Whether an operator may stand on PE p (R177, R178). -/
def oKindOk (o p : Nat) : Bool :=
  match p / 8 with
  | 0 => oRouting o || o == oCNT || o == oSCMATCH || o == oLACLR || o == 0x15 || o == 0x16 || o == 0x18 || o == 0x19 || o == oICMP
  | 1 => oRouting o || (oLAADD ≤ o && o ≤ oLRED)
  | 6 => oRouting o || (oLAADD ≤ o && o ≤ oLRED)
  | 7 => oRouting o || o == oCVT || oSpecial o
  | _ => o == oIDLE || o == oFWD || o == oFORK || o == oBDOT || o == oBDOTA

/-- Lanes of i0, firings per block F and NCOL of a block-dot type pair (R211). -/
def bdShape (ta tb : Nat) : Option (Nat × Nat × Nat) :=
  if (ta = tyE4 ∨ ta = tyE5) ∧ (tb = tyE4 ∨ tb = tyE5) then some (64, 2, 4)
  else if (ta = tyE4 ∨ ta = tyE5) ∧ tb = tyT8 then some (64, 2, 8)
  else if (ta = tyF16 ∨ ta = tyB16) ∧ ta = tb then some (32, 4, 4)
  else none

/-- The W type of a width (R204). -/
def wOfWidth (w : Nat) : Nat := if w = 8 then tyW8 else if w = 16 then tyW16 else if w = 32 then tyW32 else tyW64

/-- A type and a lane count. -/
abbrev Shape := Nat × Nat

/-- The type and lane count of an operator's outputs, from its word or from its inputs (R201). -/
def oShape (w : Nat) (ins : Nat → Option Shape) : Option Shape :=
  let o := opOP w
  let ta := opTA w
  if o = oLACLR then some (tyLA, opCNT w)
  else if o = oLRED then some (if opFN w = 3 then tyLA else ta, 1)
  else if o = oQNT then some (ta, 64)
  else if o = oBDOT ∨ o = oBDOTA then some (tyLA, 4)
  else if o = oCNT then some (ta, opFN w + 1)
  else if o = oMUX then (match ins 1 with | some x => some x | none => ins 2)
  else if o = oPAIR then
    (match ins 0, ins 1 with | some a, some b => some (a.1, a.2 + b.2) | _, _ => none)
  else if oRouting o ∨ o = oSCMATCH then ins 0
  else if o = oFCMP ∨ o = oICMP then (ins 0).map (fun x => (wOfWidth (tyWidth ta), x.2))
  else (ins 0).map (fun x => (ta, x.2))

/-- The type and lane count an edge takes from its source, given those of the PE outputs (R201). -/
def srcShape (m : Mem) (outs : Map Shape) (d : Nat) : Option Shape :=
  match edKind d with
  | 1 => mapGet? (edSrc d) outs
  | 2 => let p := imgPort m (edSrc d % 16); if poUsed p then some (poTy p, poLanes p) else none
  | 3 => some (tyW8, 1)
  | _ => none

/-- The shapes of the inputs of PE p. -/
def peIns (m : Mem) (outs : Map Shape) (p k : Nat) : Option Shape := srcShape m outs (imgEdge m p k)

/-- One round of the propagation of R201. -/
def shapeRound (m : Mem) (outs : Map Shape) : Map Shape :=
  (List.range 64).foldl (fun a p =>
    if (mapGet? p a).isSome ∨ opOP (imgOp m p) = oIDLE then a
    else match oShape (imgOp m p) (peIns m a p) with | some x => mapPut p x a | none => a) outs

/-- The shapes of every PE's outputs: 64 rounds reach the end of any chain. -/
def shapes (m : Mem) : Map Shape := (List.range 64).foldl (fun a _ => shapeRound m a) []

/-! ### The check of R195 -/

/-- The operator words of the non-IDLE PEs. -/
def livePes (m : Mem) : List Nat := (List.range 64).filter (fun p => opOP (imgOp m p) != oIDLE)
/-- Every PE and input. -/
def allEdges : List (Nat × Nat) := (List.range 64).flatMap (fun p => (List.range 4).map (fun k => (p, k)))
/-- The bound edges. -/
def boundEdges (m : Mem) : List (Nat × Nat) := allEdges.filter (fun e => edKind (imgEdge m e.1 e.2) != 0)
/-- The ports in use. -/
def usedPorts (m : Mem) : List Nat := (List.range 32).filter (fun k => poUsed (imgPort m k))

/-- Which of TA, TB, FN, CNT8, IMM32 an operator uses (R202 to R212). -/
def oUses (o : Nat) (i1 : Bool) : Bool × Bool × Bool × Bool × Bool :=
  if o = oDELAY ∨ o = oLACLR then (false, false, false, true, false)
  else if o = oGATE then (false, false, false, false, true)
  else if o ≤ 7 ∨ o = oSCMATCH then (false, false, false, false, false)
  else if o = oBDOT then (true, true, false, true, false)
  else if o = oBDOTA then (true, true, false, true, true)
  else if o = oCNT then (true, false, true, true, true)
  else if o = oCVT ∨ o = oQNT ∨ o = oDQNT then (true, true, false, false, false)
  else if o = oLRED then (true, false, true, false, false)
  else if oArith o then
    (true, false, o == oFCMP || o == 0x15 || o == 0x16 || o == 0x18 || o == 0x19 || o == oICMP, false, !i1)
  else (true, false, false, false, false)

/-- Must-be-zero fields of an operator word (R191); RM and SM where they do not apply give code 0x0A (R201). -/
def opMbz (w : Nat) (i1 : Bool) : Bool :=
  let u := oUses (opOP w) i1
  (u.1 || opTA w == 0) && (u.2.1 || opTB w == 0) && (u.2.2.1 || opFN w == 0) && (u.2.2.2.1 || opCNT w == 0) &&
  (u.2.2.2.2 || opIMM w == 0) && (opOP w != oBDOTA || opIMM w < 65536)

/-- Whether an operator rounds under RM (R201, R204 to R209). -/
def oRounds (w : Nat) : Bool :=
  let o := opOP w
  o == 0x0E || o == 0x0F || o == 0x10 || o == oFFMA || o == oLARND || o == oCVT || o == oQNT || o == oDQNT ||
  oSpecial o || (o == oLRED && opFN w == 0 && isFP (opTA w))

/-- TA of an operator (R204 to R212). -/
def oTaOk (w : Nat) : Bool :=
  let o := opOP w
  let t := opTA w
  if o = oLAADD then t == tyLA
  else if o = oLARND then t == tyF32 || t == tyF16 || t == tyB16 || t == tyE4 || t == tyE5 || t == tyI32 || t == tyI64
  else if (0x0E ≤ o ∧ o ≤ oFCMP) ∨ oSpecial o ∨ o = oDQNT then isFP t
  else if o = 0x15 ∨ o = 0x16 ∨ o = 0x17 ∨ o = 0x19 ∨ o = oICMP then isINT t
  else if o = 0x18 ∨ o = oCVT then t ≤ 13
  else if o = oQNT then isBlk t
  else if o = oLRED then isFP t || isINT t
  else if o = oCNT then t == tyI16 || t == tyI32 || t == tyW16 || t == tyW32
  else true
/-- TB of an operator. -/
def oTbOk (w : Nat) : Bool :=
  let o := opOP w
  let t := opTB w
  if o = oCVT then t ≤ 13 else if o = oQNT then isFP t else if o = oDQNT then isBlk t else true
/-- FN of an operator. -/
def oFnOk (w : Nat) : Bool :=
  let o := opOP w
  let n := opFN w
  if o = oFCMP then n ≤ 6
  else if o = oICMP then n ≤ 5
  else if o = 0x15 ∨ o = 0x16 then n ≤ 1
  else if o = 0x18 then n ≤ 3
  else if o = 0x19 then n ≤ 2
  else if o = oLRED then n ≤ 3 && (n != 3 || isFP (opTA w))
  else true
/-- Counts of an operator. -/
def oCountOk (w : Nat) : Bool :=
  let o := opOP w
  let c := opCNT w
  if o = oDELAY then 1 ≤ c && c ≤ 32
  else if o = oLACLR then 1 ≤ c && c ≤ 4
  else if o = oCNT then 1 ≤ opIMM w && (opFN w + 1) * tyWidth (opTA w) ≤ 512
  else if o = oBDOT then (bdShape (opTA w) (opTB w)).isSome && 1 ≤ c
  else if o = oBDOTA then
    (match bdShape (opTA w) (opTB w) with
     | some x => 1 ≤ c && c * x.2.2 ≤ 64 && 1 ≤ opIMM w
     | none => false)
  else true
/-- Every field of an operator word within its entry's range (code 0x0A). -/
def opRange (w : Nat) : Bool :=
  opRM w ≤ 4 && (oRounds w || opRM w == 0) && (opSM w == 0 || (oRounds w && opTA w == tyE4)) &&
  oTaOk w && oTbOk w && oFnOk w && oCountOk w

/-- Whether the inputs of an operator carry what it requires (code 0x06). -/
def opShapesOk (w : Nat) (ins : Nat → Option Shape) : Bool :=
  let o := opOP w
  let ta := opTA w
  match ins 0 with
  | none => o == oIDLE || o == oCNT
  | some (t, n) =>
    if o = oPAIR then
      (match ins 1 with | some b => tyWidth t == tyWidth b.1 && decide (n + b.2 ≤ 512 / tyWidth t) | none => false)
    else if o = oMUX then ins 1 == ins 2 && (ins 1).isSome
    else if oRouting o then (oInputs o).all (fun k => (ins k).isSome)
    else if o = oSCMATCH then 128 % n == 0 && ins 1 == some (tyW8, 1)
    else if o = oBDOT ∨ o = oBDOTA then
      (match bdShape ta (opTB w) with
       | some x => t == ta && n == x.1 && ins 1 == some (opTB w, x.1) && (o == oBDOTA || ins 2 == some (tyLA, 4))
       | none => true)
    else if o = oLAADD then t == tyLA && 1 ≤ n && n ≤ 4 && ins 1 == some (t, n)
    else if o = oLARND then t == tyLA && n ≤ 4
    else if o = oLACLR then true
    else if o = oCVT ∨ o = oDQNT then t == opTB w && decide (n * tyWidth ta ≤ 512)
    else if o = oQNT then t == opTB w && 128 % n == 0
    else if oArith o then
      t == ta && (match ins 1 with | some b => b == (t, n) | none => true) && (o != oFFMA || ins 2 == some (t, n))
    else t == ta

/-- The check of a landed image (R195): 0 when valid, else the lowest failing code. -/
def checkImage (m : Mem) : Nat :=
  let live := livePes m
  let edges := boundEdges m
  let ports := usedPorts m
  let sh := shapes m
  let ngrp := imgNgrp m
  let i1 := fun p => edKind (imgEdge m p 1) != 0
  let zeros := fun a n => (m.readBytes a n).all (· == 0)
  let srcOk := fun p o => opOP (imgOp m p) != oIDLE && (oOuts (opOP (imgOp m p))).elem o
  let uses := edges.map (fun e =>
      let d := imgEdge m e.1 e.2
      if edKind d = 1 then edSrc d * 2 + edOut d else 128 + edKind d * 16 + edSrc d % 16) ++
    (ports.filter (16 ≤ ·)).map (fun k => poSrc (imgPort m k) * 2 + poOut (imgPort m k))
  if m.readLE 0 4 ≠ 0x4746435A ∨ m.readLE 4 1 ≠ 1 ∨ ngrp = 0 ∨ 16 < ngrp ∨ m.readLE 8 4 ≠ 2048 then 0x01
  else if !(zeros 6 2 && zeros 12 52 && zeros 0x740 0xC0 &&
      (List.range 16).all (fun g => g < ngrp || imgMask m g == 0) &&
      allEdges.all (fun e =>
        let d := imgEdge m e.1 e.2
        match edKind d with
        | 0 => d == 0
        | 1 => d % 256 == 0
        | _ => d % 256 == 0 && edOut d == 0 && edSrc d < 16) &&
      (List.range 32).all (fun k =>
        let d := imgPort m k
        if poUsed d then d % 512 == 0 && (16 ≤ k || (poSrc d == 0 && poOut d == 0)) else d == 0) &&
      (List.range 64).all (fun p => 0x26 ≤ opOP (imgOp m p) || opMbz (imgOp m p) (i1 p))) then 0x02
  else if live.any (fun p => 0x26 ≤ opOP (imgOp m p)) then 0x03
  else if !live.all (fun p => oKindOk (opOP (imgOp m p)) p) then 0x04
  else if !((List.range 64).all (fun p =>
        let o := opOP (imgOp m p)
        (List.range 4).all (fun k =>
          let b := edKind (imgEdge m p k) != 0
          b == (oInputs o).elem k || (k == 1 && oArith o))) &&
      edges.all (fun e =>
        let d := imgEdge m e.1 e.2
        let q := imgPort m (edSrc d % 16)
        match edKind d with
        | 1 => srcOk (edSrc d) (edOut d)
        | 2 => poUsed q
        | _ => poUsed q && poScaled q) &&
      ports.all (fun k => k < 16 || srcOk (poSrc (imgPort m k)) (poOut (imgPort m k)))) then 0x05
  else if !(edges.all (fun e => (peIns m sh e.1 e.2).isSome) &&
      live.all (fun p => opShapesOk (imgOp m p) (peIns m sh p)) &&
      ports.all (fun k => k < 16 || mapGet? (poSrc (imgPort m k)) sh == some (poTy (imgPort m k), poLanes (imgPort m k)))) then
    0x06
  else if !((List.range 64).all (fun p =>
        ((List.range 4).foldl (fun a k => a + edDepth (imgEdge m p k)) 0 +
          (if opOP (imgOp m p) = oDELAY then opCNT (imgOp m p) else 0)) ≤ 64) &&
      edges.all (fun e =>
        let d := imgEdge m e.1 e.2
        1 ≤ edDepth d && edInit d ≤ edDepth d)) then 0x07
  else if !(uses.eraseDups.length == uses.length) then 0x08
  else if !(live.all (fun p => (imgGroups m p).length == 1) &&
      edges.all (fun e =>
        let d := imgEdge m e.1 e.2
        let g := imgGroup m e.1
        if edKind d = 1 then imgGroup m (edSrc d) == g else poGroup (imgPort m (edSrc d % 16)) == g) &&
      ports.all (fun k => k < 16 || imgGroup m (poSrc (imgPort m k)) == poGroup (imgPort m k)) &&
      (List.range ngrp).all (fun g => ports.any (fun k => 16 ≤ k && poGroup (imgPort m k) == g))) then 0x09
  else if !((List.range 64).all (fun p => opRange (imgOp m p)) &&
      ports.all (fun k =>
        let d := imgPort m k
        poTy d != 15 && poGroup d < ngrp && decide (poLanes d * tyWidth (poTy d) ≤ 512))) then 0x0A
  else 0

/-- More than 8 block-dot operators (R196). -/
def heavyImage (m : Mem) : Bool :=
  8 < ((List.range 64).filter (fun p => opOP (imgOp m p) == oBDOT || opOP (imgOp m p) == oBDOTA)).length

/-! ### The array's own accessors -/

/-- A resident image. -/
def Arr.img (a : Arr) (i : Nat) : Img := mapGet {} a.imgs i
/-- The current image (R219): the target of a switch in progress, else the active one. -/
def Arr.current (a : Arr) : Option Nat := match a.target with | some t => some t | none => a.act
/-- The descriptor of a port in the current image, 0 with none. -/
def Arr.port (a : Arr) (k : Nat) : Nat := match a.current with | some i => imgPort (a.img i).raw k | none => 0
/-- One PE. -/
def Arr.pe (a : Arr) (p : Nat) : Pe := mapGet {} a.pes p
/-- Set one PE. -/
def Arr.setPe (a : Arr) (p : Nat) (x : Pe) : Arr := { a with pes := mapPut p x a.pes }
/-- One edge of image slot i. -/
def Arr.edge (a : Arr) (i p k : Nat) : Edge := mapGet {} a.edges (i * 256 + p * 4 + k)
/-- Set one edge. -/
def Arr.setEdge (a : Arr) (i p k : Nat) (e : Edge) : Arr := { a with edges := mapPut (i * 256 + p * 4 + k) e a.edges }
/-- The FIFO of an input port, its side band, and the FIFO of an output port. -/
def Arr.inq (a : Arr) (k : Nat) : List EItem := mapGet [] a.inp k
def Arr.bandq (a : Arr) (k : Nat) : List EItem := mapGet [] a.band k
def Arr.outq (a : Arr) (k : Nat) : List EItem := mapGet [] a.out k
/-- The runs of a group of image slot i. -/
def Arr.runq (a : Arr) (i g : Nat) : List ArmedRun := mapGet [] a.runs (i * 16 + g)
/-- Set the runs of a group. -/
def Arr.setRuns (a : Arr) (i g : Nat) (l : List ArmedRun) : Arr := { a with runs := mapPut (i * 16 + g) l a.runs }
/-- An empty long accumulator. -/
def laEmpty : BitVec 128 := LA.encode .empty
/-- A zero token of a type and lane count (R179). -/
def zeroTok (ty n : Nat) (last : Bool := false) : Tok :=
  let w := tyWidth ty
  let z := if ty = tyLA then laEmpty.toNat else if ty = tyT8 then 0x08 else 0
  { data := BitVec.ofNat 512 ((List.range n).foldl (fun d i => d + z * 2 ^ (w * i)) 0), ty := ty, n := n, last := last }
/-- A NUL token. -/
def nulTok (ty n : Nat) (last : Bool) : Tok := { ty := ty, n := n, last := last, nul := true }
/-- A token of lane codes. -/
def mkTok (ty : Nat) (codes : List Nat) (last : Bool) (sc : Nat := 127) : Tok :=
  let w := tyWidth ty
  { data := BitVec.ofNat 512 ((codes.foldl (fun (a : Nat × Nat) c => (a.1 + (c % 2 ^ w) * 2 ^ (w * a.2), a.2 + 1)) (0, 0)).1),
    ty := ty, n := codes.length, sc := sc, last := last }
/-- The lane codes of a token. -/
def Tok.codes (t : Tok) : List Nat := (List.range t.n).map (fun i => lane (tyWidth t.ty) i t.data)
/-- Tokens queued, depth markers apart. -/
def tokCount (q : List EItem) : Nat := (q.filter (fun x => x.tok.isSome)).length

/-- Where output o of PE p leads in an image (R181): an edge (PE, input) or an output port. -/
inductive Sink where
  | edge (p k : Nat) | port (k : Nat) | none
  deriving DecidableEq, Repr

/-- The sink of an output. -/
def imgSink (m : Mem) (p o : Nat) : Sink :=
  match (boundEdges m).find? (fun e =>
      let d := imgEdge m e.1 e.2
      edKind d == 1 && edSrc d == p && edOut d == o) with
  | some e => .edge e.1 e.2
  | none =>
    match (usedPorts m).find? (fun k => 16 ≤ k && poSrc (imgPort m k) == p && poOut (imgPort m k) == o) with
    | some k => .port (k - 16)
    | none => .none
/-- The edge an input port's data FIFO (kind 2) or side band (kind 3) feeds. -/
def imgFed (m : Mem) (kind port : Nat) : Option (Nat × Nat) :=
  (boundEdges m).find? (fun e =>
    let d := imgEdge m e.1 e.2
    edKind d == kind && edSrc d % 16 == port)

/-! ### A freeze (R188) -/

/-- An item in transit a cycle later, unless it arrived before tick f. -/
def EItem.later (f : Nat) (e : EItem) : EItem := if f ≤ e.ready then { e with ready := e.ready + 1 } else e
/-- A PE a cycle later. -/
def Pe.later (f : Nat) (x : Pe) : Pe :=
  { x with busy := if f ≤ x.busy then x.busy + 1 else x.busy
           emit := x.emit.map (fun e => if f ≤ e.1 then (e.1 + 1, e.2) else e) }

/-- Put a list under a key, which an empty list leaves absent. -/
def putItems (m : Map (List EItem)) (k : Nat) (l : List EItem) : Map (List EItem) := if l.isEmpty then mapDel k m else mapPut k l m

/-- The array after tick f in which its tile was frozen: every pending event falls a cycle later (R188). -/
def Arr.later (f : Nat) (a : Arr) : Arr :=
  let items := fun (m : Map (List EItem)) => m.map (fun q => (q.1, q.2.map (EItem.later f)))
  { a with
    pes := a.pes.map (fun x => (x.1, x.2.later f))
    edges := a.edges.map (fun e => (e.1, { e.2 with q := e.2.q.map (EItem.later f) }))
    inp := items a.inp, band := items a.band, out := items a.out, nuls := items a.nuls
    runs := a.runs.map (fun r => (r.1, r.2.map (fun x => { x with after := if f ≤ x.after then x.after + 1 else x.after })))
    swAt := if a.target.isSome then a.swAt + 1 else a.swAt
    since := a.since.map (· + 1) }

end Sys2Proof.Machine
end

