-- ==== Sys2Proof/Machine/Elementary.lean ====
section
/-! DEFINITION. EXP2, LOG2 and TANH (R208): the exact real value, enclosed between two magnitudes 2^-284 apart and
rounded once. Where both ends round alike that code is the result; the enclosure leaves no operand of a format of R60
undecided that is known of, and a free value stands for one that would be (log entry 12). -/

namespace Sys2Proof.Machine

/-- Fraction bits of the fixed-point numbers below. -/
def fxP : Nat := 300
/-- A bound on the error of every fixed-point number below, in units of 2^-fxP. -/
def fxErr : Nat := 2 ^ 16

/-- t + t w²/3 + t w⁴/5 + … by `fuel` terms: atanh of w, with `w2` = w². -/
def atanhTerms (w2 : Nat) : Nat → Nat → Nat → Nat
  | 0, _, _ => 0
  | fuel + 1, k, t => t / (2 * k + 1) + atanhTerms w2 fuel (k + 1) (t * w2 / 2 ^ fxP)

/-- ln of num / den, from 1 to 2, in fixed point. -/
def fxLn (num den : Nat) : Nat :=
  let w := (num - den) * 2 ^ fxP / (num + den)
  2 * atanhTerms (w * w / 2 ^ fxP) 110 0 w

/-- ln 2. -/
def fxLn2 : Nat := fxLn 2 1

/-- 1 + y + y²/2 + … by `fuel` terms. -/
def expTerms (y : Nat) : Nat → Nat → Nat → Nat
  | 0, _, _ => 0
  | fuel + 1, k, t => t + expTerms y fuel (k + 1) (t * y / 2 ^ fxP / (k + 1))

/-- e^y of a fixed-point y from 0 to 1. -/
def fxExp (y : Nat) : Nat := expTerms y 90 0 (2 ^ fxP)

/-- Round a value between two magnitudes: the code both give. -/
def roundBetween (op t code : Nat) (r : Rnd) (neg : Bool) (lo hi : Mag) : Coded :=
  if roundMag t r neg lo = roundMag t r neg hi then roundMag t r neg lo
  else (Config.elementary op (t + 16 * r.rm + 128 * r.u) code, fNX)

/-- 2^(i + y), for a fixed-point y of ln 2 times the fraction. -/
def exp2Mag (i : Int) (v : Nat) : Mag := Mag.dyadic v (i - fxP)

/-- EXP2 of a finite value (R208). -/
def exp2Num (t code : Nat) (r : Rnd) (neg : Bool) (m : Nat) (e : Int) : Coded :=
  if m = 0 then roundMag t r false (Mag.dyadic 1 0)
  else if (Mag.dyadic m e).cmp 512 0 != .lt then roundMag t r false (Mag.dyadic 3 (if neg then -512 else 512))
  else
    let x : Int := if 0 ≤ e + fxP then (m * 2 ^ (e + fxP).toNat : Nat) else 0
    let x := if neg then -x else x
    let i := x / 2 ^ fxP
    let f := (x % 2 ^ fxP).toNat
    if f = 0 then roundMag t r false (Mag.dyadic 1 i)
    else
      let v := fxExp (f * fxLn2 / 2 ^ fxP)
      roundBetween 0x1F t code r false (exp2Mag i (v - fxErr)) (exp2Mag i (v + fxErr))

/-- LOG2 of a positive finite value m × 2^e (R208). -/
def log2Num (t code : Nat) (r : Rnd) (m : Nat) (e : Int) : Coded :=
  let b := Nat.log2 m
  let k : Int := e + b
  if m = 2 ^ b then roundMag t r (decide (k < 0)) (Mag.dyadic k.natAbs 0)
  else
    let l := fxLn m (2 ^ b) * 2 ^ fxP / fxLn2
    let v : Int := k * 2 ^ fxP + l
    roundBetween 0x20 t code r (decide (v < 0)) (Mag.dyadic (v.natAbs - fxErr) (-(fxP : Int)))
      (Mag.dyadic (v.natAbs + fxErr) (-(fxP : Int)))

/-- (E − 1) / (E + 1) for E = v × 2^(i - fxP). -/
def tanhMag (i v : Nat) : Mag := { num := v * 2 ^ i - 2 ^ fxP, den := v * 2 ^ i + 2 ^ fxP }

/-- TANH of a finite value (R208). Below 2^-40 the value lies between x − x³/2 and x − x³/4; from 128 on it lies so
close below 1 that every mode rounds it as 1 − 2^-400. -/
def tanhNum (t code : Nat) (r : Rnd) (neg : Bool) (m : Nat) (e : Int) : Coded :=
  if m = 0 then (zeroCode t neg, 0)
  else if (Mag.dyadic m e).cmp 128 0 != .lt then roundMag t r neg (Mag.dyadic (2 ^ 400 - 1) (-400))
  else if (Mag.dyadic m e).cmp 1 (-40) == .lt then
    let k := 2 - 2 * e
    roundBetween 0x23 t code r neg (Mag.dyadic (m * 2 ^ k.toNat - 2 * m ^ 3) (e - k))
      (Mag.dyadic (m * 2 ^ k.toNat - m ^ 3) (e - k))
  else
    let x := m * 2 ^ (e + fxP + 1).toNat
    let i := x / fxLn2
    let v := fxExp (x % fxLn2)
    roundBetween 0x23 t code r neg (tanhMag i (v - fxErr)) (tanhMag i (v + fxErr))

/-- EXP2, LOG2, RCP, RSQRT and TANH of one lane (R208). -/
def specialLane (op t : Nat) (r : Rnd) (code : Nat) : Coded :=
  let a := decodeFloat t code
  if op = 0x21 then fRcp t r a
  else if op = 0x22 then fRsqrt t r a
  else
    match a with
    | .nan n f m => (quietNan n f m t, sigFlag [a])
    | .inf n =>
      if op = 0x1F then (if n then zeroCode t false else infCode t, 0)
      else if op = 0x20 then (if n then invalid t else (infCode t, 0))
      else roundMag t r n (Mag.dyadic 1 0)
    | .num n m e =>
      if op = 0x1F then exp2Num t code r n m e
      else if op = 0x20 then
        if m = 0 then (signBit t true + infCode t, fDZ) else if n then invalid t else log2Num t code r m e
      else tanhNum t code r n m e

end Sys2Proof.Machine
end

