-- ==== Sys2Proof/Machine/ArrayOps.lean ====
section
/-! DEFINITION. What one firing of an operator consumes, emits and leaves in its PE (R183, R184, R202 to R213). -/

namespace Sys2Proof.Machine

/-- One firing: tokens taken from each input, tokens emitted by output in order, the PE after it, flags, and whether it
reads a weight or a sum with an uncorrectable error (R393). -/
structure Firing where
  take  : List (Nat × Nat) := []
  out   : List (Nat × Tok) := []
  pe    : Pe
  flags : Nat := 0
  lost  : Bool := false
  deriving DecidableEq, Repr

/-- Tokens that have reached the head of an edge by a tick, in order, up to a marker. -/
def headToks (tick : Nat) : List EItem → List Tok
  | [] => []
  | e :: t =>
    if e.ready ≤ tick then (match e.tok with | some x => x :: headToks tick t | none => []) else []

/-- The rounding of lane `i` of PE p (R74, R201). -/
def Pe.rnd (x : Pe) (p i : Nat) : Rnd :=
  { rm := opRM x.op, sm := opSM x.op, u := if opRM x.op = 4 then stochU x.key 2 x.fires (p * 64 + i) else 0 }

/-- The NUL token an operator emits for a NUL on i0 (R184). -/
def nulOut (w : Nat) (t : Tok) : Tok :=
  let s := (oShape w (fun k => if k = 0 then some (t.ty, t.n) else none)).getD (t.ty, t.n)
  nulTok s.1 s.2 t.last

/-- Latency (R203). -/
def oLat (o : Nat) : Nat :=
  if o = oLAADD ∨ o = oCVT then 2
  else if o = 0x17 ∨ o = oLARND ∨ o = oDQNT then 3
  else if o = 0x0E ∨ o = 0x0F ∨ o = 0x10 ∨ o = 0x12 ∨ o = 0x13 ∨ o = oFCMP ∨ o = oQNT then 4
  else if o = oFFMA then 5
  else if o = oLRED ∨ o = oBDOT ∨ o = oBDOTA then 6
  else if oSpecial o then 8
  else 1

/-- Cycles from one firing to the next (R203). -/
def oInterval (o n : Nat) : Nat := if oSpecial o then (n + 15) / 16 else 1

/-! ### Element-wise operators (R204, R205, R208, R209) -/

/-- One lane of an arithmetic operator (R204). -/
def arithLane (w : Nat) (r : Rnd) (a b c : Nat) : Coded :=
  let t := opTA w
  let fn := opFN w
  match opOP w with
  | 0x0E => lAdd t 0 r a b
  | 0x0F => lSub t 0 r a b
  | 0x10 => lMul t r a b
  | 0x11 => lFma t false false r a b c
  | 0x12 => lMinMax false t a b
  | 0x13 => lMinMax true t a b
  | 0x14 => lCmp t fn a b
  | 0x15 => lAdd t fn r a b
  | 0x16 => lSub t fn r a b
  | 0x17 => lMul t r a b
  | 0x18 => (match fn with | 0 => a &&& b | 1 => a ||| b | 2 => a ^^^ b | _ => a - (a &&& b), 0)
  | 0x19 => lShift fn t a b
  | _ => lCmp t fn a b

/-- One lane of LARND, CVT, DQNT and the special functions. -/
def unaryLane (w : Nat) (r : Rnd) (sc x : Nat) : Coded :=
  let o := opOP w
  let t := opTA w
  if o = oLARND then (LA.decode (BitVec.ofNat 128 x)).read t r
  else if o = oCVT then (if opTA w = opTB w ∧ opTA w ≠ tyT8 then (x, 0) else convert (decodeVal (opTB w) x) t r)
  else if o = oDQNT then dequantElem (opTB w) x sc t r
  else specialLane o t r x

/-- Number the elements of a list. -/
def enum {α : Type} (l : List α) : List (Nat × α) := (List.range l.length).zip l

/-- The OR of the flags of some codes. -/
def flagsOf (l : List Coded) : Nat := l.foldl (fun a c => a ||| c.2) 0

/-- A firing that makes one token of codes on o0. -/
def emit1 (x : Pe) (take : List (Nat × Nat)) (ty : Nat) (cs : List Coded) (last : Bool) : Option Firing :=
  some { take := take, out := [(0, mkTok ty (cs.map (·.1)) last)], pe := x, flags := flagsOf cs }

/-- The lanes of an immediate operand (R37, R201). -/
def immLanes (w n : Nat) : List Nat := List.replicate n (extLane (tyWidth (opTA w)) (BitVec.ofNat 32 (opIMM w)))

/-- An arithmetic operator (R204). -/
def fireArith (p : Nat) (x : Pe) (i1 : Bool) (h : Nat → List Tok) (a : Tok) : Option Firing :=
  let w := x.op
  let go := fun (bs cs : List Nat) (take : List (Nat × Nat)) =>
    emit1 x take (if opOP w = oFCMP ∨ opOP w = oICMP then wOfWidth (tyWidth (opTA w)) else opTA w)
      ((enum a.codes).map (fun e => arithLane w (x.rnd p e.1) e.2 (bs.getD e.1 0) (cs.getD e.1 0))) a.last
  match (if i1 then (h 1).map (·.codes) else [immLanes w a.n]) with
  | [] => none
  | bs :: _ =>
    let tk := if i1 then [(0, 1), (1, 1)] else [(0, 1)]
    if opOP w = oFFMA then
      match h 2 with
      | [] => none
      | c :: _ => go bs c.codes (tk ++ [(2, 1)])
    else go bs [] tk

/-! ### Routing (R202) -/

/-- FILT, DEMUX, PAIR and MUX need a second token. -/
def fireRoute2 (x : Pe) (a b : Tok) : Option Firing :=
  let o := opOP x.op
  if o = oPAIR then
    some { take := [(0, 1), (1, 1)], pe := x
           out := [(0, { a with data := a.data ||| (b.data <<< (tyWidth a.ty * a.n)), n := a.n + b.n })] }
  else if o = oDEMUX then
    some { take := [(0, 1), (1, 1)], out := [(if b.data.getLsbD 0 then 1 else 0, a)], pe := x }
  else
    some { take := [(0, 1), (1, 1)], pe := x
           out := if lane (tyWidth b.ty) 0 b.data ≠ 0 then [(0, a)]
                  else if a.last then [(0, nulTok a.ty a.n true)] else [] }

/-- GATE (R202): `permit` counts the tokens it still lets pass; 0 stands for all up to a LAST. -/
def fireGate (x : Pe) (h : Nat → List Tok) (a : Tok) : Option Firing :=
  let k := opIMM x.op
  let go := fun (g : Nat) (take : List (Nat × Nat)) =>
    let left : Option Nat := if g = 0 then (if a.last then none else some 0) else if g = 1 then none else some (g - 1)
    some { take := take, out := [(0, a)], pe := { x with permit := left } }
  match x.permit with
  | some g => go g [(0, 1)]
  | none => match h 1 with
    | [] => none
    | _ :: _ => go k [(0, 1), (1, 1)]

/-- DELAY (R202): LAST is that of the token consumed; the zero tokens of the first firings carry none (R179). -/
def fireDelay (x : Pe) (a : Tok) : Firing :=
  let q := x.held ++ [a]
  match q with
  | b :: t =>
    if opCNT x.op < q.length then { take := [(0, 1)], out := [(0, { b with last := a.last })], pe := { x with held := t } }
    else { take := [(0, 1)], out := [(0, zeroTok a.ty a.n)], pe := { x with held := q } }
  | [] => { pe := x }

/-- SCMATCH (R209). -/
def fireScmatch (x : Pe) (h : Nat → List Tok) (a : Tok) : Option Firing :=
  let go := fun (sc : Nat) (take : List (Nat × Nat)) =>
    let c := x.cnt + 1
    some { take := take, out := [(0, { a with sc := sc })]
           pe := { x with sc := sc, cnt := if 128 / a.n ≤ c ∨ a.last then 0 else c } : Firing }
  if x.cnt = 0 then
    match h 1 with
    | [] => none
    | b :: _ => go (b.data.toNat % 256) [(0, 1), (1, 1)]
  else go x.sc [(0, 1)]

/-! ### QNT, LRED and CNT (R206, R207, R210) -/

/-- QNT with an i0 token (R206). A block ends when it is full or at a NUL or LAST. The lane that R74 names for the
stochastic bits is that of the token emitted, so that the second token takes the bits of the first (log entry 74, DESIGN
CHOICE). -/
def fireQnt (p : Nat) (x : Pe) (a : Tok) : Firing :=
  let t := opTA x.op
  let codes := if a.nul then x.codes else x.codes ++ a.codes
  if a.nul && x.codes.isEmpty then { take := [(0, 1)], out := [(0, nulTok t 64 a.last)], pe := x }
  else if !a.nul && !a.last && codes.length < 128 then { take := [(0, 1)], pe := { x with codes := codes } }
  else
    let vs := (codes.map (decodeVal (opTB x.op))) ++ List.replicate (128 - codes.length) (.num false 0 0)
    let sc := blockScale t vs
    let cs := (enum vs).map (fun e => quantElem t sc.1 (x.rnd p (e.1 % 64)) e.2)
    { take := [(0, 1)]
      out := [(0, mkTok t ((cs.take 64).map (·.1)) false sc.1), (0, mkTok t ((cs.drop 64).map (·.1)) a.last sc.1)]
      pe := { x with codes := [] }, flags := sc.2 ||| flagsOf cs }

/-- LRED with an i0 token (R207). -/
def fireLred (p : Nat) (x : Pe) (a : Tok) : Firing :=
  let t := opTA x.op
  let xs := a.codes
  let one := fun (ty : Nat) (c : Coded) =>
    ({ take := [(0, 1)], out := [(0, mkTok ty [c.1] a.last)], pe := x, flags := c.2 } : Firing)
  match opFN x.op with
  | 0 => one t (if isFP t then redSum t (x.rnd p 0) (xs.map (decodeFloat t))
                else wrapCode t (xs.foldl (fun s y => s + intVal t y) 0))
  | 1 => one t (redMinMax true t xs)
  | 2 => one t (redMinMax false t xs)
  | _ =>
    let r := laAddSum .empty (xs.map (decodeFloat t)) false
    one tyLA (r.1.encode.toNat, r.2)

/-- CNT, which has emitted `cnt` tokens of the run (R210). -/
def fireCnt (x : Pe) : Option Firing :=
  let n := opFN x.op + 1
  let w := tyWidth (opTA x.op)
  if opIMM x.op ≤ x.cnt then none
  else
    some { out := [(0, mkTok (opTA x.op) ((List.range n).map (fun j => wrapInt (((x.cnt * n + j : Nat) : Int) * sext (opCNT x.op) 8) w))
                      (x.cnt + 1 == opIMM x.op))]
           pe := { x with cnt := x.cnt + 1 } }

/-! ### Block dots (R211 to R213) -/

/-- The exact value of a factor. -/
def Ex.ofFV (v : FV) : Ex :=
  match v with
  | .nan _ _ _ => { kind := 3 }
  | .inf n => { kind := if n then 2 else 1 }
  | .num n m e => { m := if n then -(m : Int) else m, e := e }

/-- A partial sum as a value. -/
def Ex.toFV (x : Ex) : FV :=
  match x.kind with
  | 0 => .num (decide (x.m < 0)) x.m.natAbs x.e
  | 1 => .inf false
  | 2 => .inf true
  | _ => .nan false tyF32 (2 ^ 22)

/-- The exact sum of two partial sums; ∞ − ∞ is invalid. -/
def Ex.add (a b : Ex) : Ex × Nat :=
  if a.kind = 3 ∨ b.kind = 3 then ({ kind := 3 }, 0)
  else if a.kind = 0 ∧ b.kind = 0 then
    let d := Dy.add ⟨a.m, a.e⟩ ⟨b.m, b.e⟩
    ({ m := d.m, e := d.e }, 0)
  else if a.kind = 0 then (b, 0)
  else if b.kind = 0 ∨ a.kind = b.kind then (a, 0)
  else ({ kind := 3 }, fNV)

/-- The exact product of two values (R79). -/
def Ex.mul (a b : FV) : Ex × Nat :=
  if a.isNan || b.isNan then ({ kind := 3 }, sigFlag [a, b])
  else
    match prodVal a b with
    | none => ({ kind := 3 }, fNV)
    | some v => (Ex.ofFV v, 0)

/-- Add a dot product to a partial sum. -/
def Ex.dot (acc : Ex × Nat) : List (FV × FV) → Ex × Nat
  | [] => acc
  | (a, b) :: t =>
    let m := Ex.mul a b
    let s := Ex.add acc.1 m.1
    Ex.dot (s.1, acc.2 ||| m.2 ||| s.2) t

/-- A partial sum times both block scales (R65, R84, R212). -/
def Ex.scaled (x : Ex) (sa sw : Nat) : FV :=
  if sa = 0xFF ∨ sw = 0xFF then .nan false tyF32 (2 ^ 22)
  else x.toFV.scale ((sa : Int) + sw - 254)

/-- Add a block sum to an LA128 (R82). -/
def laAddP (la : BitVec 128) (p : FV) : BitVec 128 × Nat :=
  let r := laAddSum (LA.decode la) [p] false
  (r.1.encode, r.2)

/-- Weight tokens of i1 that fill a free bank (R211, R212): taken without a firing. -/
def absorb (F ncol : Nat) (x : Pe) : List Tok → Nat → Pe × Nat
  | [], n => (x, n)
  | t :: rest, n =>
    if 2 ≤ x.sets.length then (x, n)
    else
      let f := x.fill ++ [t]
      let y := if f.length = F * ncol then { x with fill := [], sets := x.sets ++ [f] } else { x with fill := f }
      absorb F ncol y rest (n + 1)

/-- The LA tokens of BDOTA's accumulators, rows ascending (R212). -/
def accToks (x : Pe) (ncol : Nat) (last : Bool) : List Tok :=
  let n := opCNT x.op * ncol / 4
  (List.range n).map (fun k =>
    mkTok tyLA ((List.range 4).map (fun j => (mapGet laEmpty x.acc (4 * k + j)).toNat)) (last && k + 1 == n))

/-- Queue tokens for emission, one per cycle, from a tick on (R203). -/
def queueEmit (x : Pe) (from_ : Nat) (ts : List Tok) : Pe :=
  let lo := x.emit.foldl (fun a e => max a (e.1 + 1)) from_
  { x with emit := x.emit ++ (enum ts).map (fun e => (lo + e.1, e.2)) }

/-- BDOTA emits what it has accumulated and starts again (R212, R213). -/
def flushAcc (x : Pe) (ncol tick : Nat) (last : Bool) : Pe :=
  { queueEmit x (tick + 6) (accToks x ncol last) with acc := [], nsets := 0, dirty := false, accBad := [] }

/-- Whether the sums of BDOTA that a firing reads have an uncorrectable error: those of its row when a block ends, all when
they are emitted. -/
def Pe.accLost (x : Pe) (ncol : Nat) (emits : Bool) : Bool :=
  x.accBad.any (fun w => emits || (x.row * ncol ≤ w / 2 && w / 2 < (x.row + 1) * ncol))

/-- BDOT and BDOTA with an i0 token (R212, R213): a block that a NUL or LAST ends goes on with elements of +0. `cnt` is f,
`row` r and `sc` the scale of the block. -/
def fireBdot (tick : Nat) (x : Pe) (h : Nat → List Tok) (a : Tok) : Option Firing :=
  let w := x.op
  let isA := opOP w == oBDOTA
  match bdShape (opTA w) (opTB w) with
  | none => none
  | some (_, F, ncol) =>
    if a.nul && x.cnt == 0 then
      if isA && x.dirty then some { take := [(0, 1)], pe := flushAcc x ncol tick a.last, lost := x.accLost ncol true }
      else if x.emit.isEmpty then some { take := [(0, 1)], out := [(0, nulTok tyLA 4 a.last)], pe := x }
      else none
    else
      match x.sets with
      | [] => none
      | ws :: later =>
        let sa := if a.nul then x.sc else a.sc
        let full := a.nul || a.last || x.cnt + 1 == F
        let part := if x.part.isEmpty then List.replicate ncol {} else x.part
        let col := fun (j : Nat) => (ws.drop (j * F))
        let zeros := List.replicate 64 (FV.num false 0 0)
        let av := if a.nul then zeros else a.codes.map (decodeVal (opTA w))
        let wts := fun (j f : Nat) => (((col j).drop f).headD {}).codes.map (decodeVal (opTB w))
        let rest := if full then (List.range (F - (x.cnt + 1))).map (x.cnt + 1 + ·) else []
        let sums := (enum part).map (fun e =>
          rest.foldl (fun r f => Ex.dot r (zeros.zip (wts e.1 f))) (Ex.dot (e.2, 0) (av.zip (wts e.1 x.cnt))))
        let lost := (List.range ncol).any (fun j => (x.cnt :: rest).any (fun f => (((col j).drop f).headD {}).bad))
        let fl := sums.foldl (fun f e => f ||| e.2) 0
        let x := { x with sc := sa }
        if !full then some { take := [(0, 1)], pe := { x with part := sums.map (·.1), cnt := x.cnt + 1 }, flags := fl, lost := lost }
        else
          let ps := (enum sums).map (fun e => e.2.1.scaled sa ((col e.1).headD {}).sc)
          let partial_ := a.nul || x.cnt + 1 != F
          let wrap_ := x.row + 1 == opCNT w
          let y := { x with part := [], bad := false, cnt := 0, row := if wrap_ then 0 else x.row + 1
                            sets := if wrap_ then later else x.sets, nsets := if wrap_ then x.nsets + 1 else x.nsets }
          if isA then
            let acc := (enum ps).foldl (fun (r : Map (BitVec 128) × Nat) e =>
              let k := x.row * ncol + e.1
              let s := laAddP (mapGet laEmpty r.1 k) e.2
              (mapPut k s.1 r.1, r.2 ||| s.2)) (x.acc, 0)
            let y := { y with acc := acc.1, dirty := true }
            let emits := partial_ || (wrap_ && y.nsets == opIMM w)
            some { take := [(0, 1)], pe := if emits then flushAcc y ncol tick true else y, flags := fl ||| acc.2
                   lost := lost || x.accLost ncol emits }
          else if (h 2).length < ncol / 4 then none
          else
            let outs := (enum ((h 2).take (ncol / 4))).map (fun e =>
              let rs := (enum e.2.codes).map (fun c => laAddP (BitVec.ofNat 128 c.2) (ps.getD (4 * e.1 + c.1) (.num false 0 0)))
              (mkTok tyLA (rs.map (·.1.toNat)) a.last, rs.foldl (fun f r => f ||| r.2) 0))
            some { take := [(0, 1), (2, ncol / 4)], out := outs.map (fun o => (0, o.1)), pe := y
                   flags := fl ||| outs.foldl (fun f o => f ||| o.2) 0, lost := lost }

/-! ### The firing of a PE -/

/-- The firing of PE p in a cycle, if its operands are there: `h k` are the tokens at the head of input k, and `i1` says
whether i1 is bound. A NUL counts for no permit of GATE, and one with LAST ends a permit of 0 (log entry 100, DESIGN CHOICE). -/
def fireOp (tick p : Nat) (x : Pe) (i1 : Bool) (h : Nat → List Tok) : Option Firing :=
  let w := x.op
  let o := opOP w
  if o = oIDLE then none
  else if o = oCNT then fireCnt x
  else
    match h 0 with
    | [] => none
    | a :: _ =>
      if o = oBDOT ∨ o = oBDOTA then fireBdot tick x h a
      else if o = oQNT then some (fireQnt p x a)
      else if a.nul then
        let y := if o = oSCMATCH ∧ a.last then { x with cnt := 0 }
                 else if o = oGATE ∧ a.last ∧ x.permit = some 0 then { x with permit := none } else x
        some { take := [(0, 1)], out := (oOuts o).map (fun k => (k, nulOut w a)), pe := y }
      else if o = oFWD then some { take := [(0, 1)], out := [(0, a)], pe := x }
      else if o = oFORK then some { take := [(0, 1)], out := [(0, a), (1, a)], pe := x }
      else if o = oMUX then
        let s := if a.data.getLsbD 0 then 2 else 1
        match h s with
        | [] => none
        | b :: _ => some { take := [(0, 1), (s, 1)], out := [(0, { b with last := a.last })], pe := x }
      else if o = oPAIR ∨ o = oDEMUX ∨ o = oFILT then
        match h 1 with
        | [] => none
        | b :: _ => fireRoute2 x a b
      else if o = oDELAY then some (fireDelay x a)
      else if o = oGATE then fireGate x h a
      else if o = oLAADD then
        match h 1 with
        | [] => none
        | b :: _ =>
          emit1 x [(0, 1), (1, 1)] tyLA ((a.codes.zip b.codes).map (fun c =>
            let r := LA.addLA (LA.decode (BitVec.ofNat 128 c.1)) (LA.decode (BitVec.ofNat 128 c.2))
            (r.1.encode.toNat, r.2))) a.last
      else if o = oLACLR then some { take := [(0, 1)], out := [(0, zeroTok tyLA (opCNT w) a.last)], pe := x }
      else if o = oSCMATCH then fireScmatch x h a
      else if o = oLRED then some (fireLred p x a)
      else if oArith o then fireArith p x i1 h a
      else emit1 x [(0, 1)] (opTA w) ((enum a.codes).map (fun e => unaryLane w (x.rnd p e.1) a.sc e.2)) a.last

/-- The state a run's start resets (R186). -/
def Pe.runStart (x : Pe) : Pe :=
  { x with cnt := 0, permit := none, codes := [], part := [], row := 0, fill := [], bad := false }

end Sys2Proof.Machine
end

