-- ==== Sys2Proof/Machine/MSlot.lean ====
section
/-! DEFINITION. M-slot register operations: MSET, MADD and MMOV (R220), XFERM (R105) and JINIT (R253). -/

namespace Sys2Proof.Machine

/-- A trap of the M slot. -/
def trapM (c : Cause) (addr : W64 := 0) : Res := .trap { cause := c, slot := 2, addr := addr }

/-- An M operation whose only effect is MD (R38): its guard, destination, latency and value. -/
def mreg (gp : BitVec 4) (md : BitVec 5) (lat : Nat) (v : W64) (s : State) : Res :=
  if s.cx.guard gp then .ok (s.setCx (s.cx.deliverM md v lat)) else .ok s

/-- The signed immediate of format MR: IMM16, or the extension (R37). -/
def mrImm (f : MR) : W64 := match f.ext with | some e => e.signExtend 64 | none => f.imm.signExtend 64

/-- MSET (R220). -/
def opMset (f : MR) (s : State) : Res := mreg f.gp f.md 1 (mrImm f) s
/-- MSET.HI (R220). -/
def opMsetHi (f : MR) (s : State) : Res :=
  mreg f.gp f.md 1 (((s.cx.rm f.md.toNat).setWidth 32).setWidth 64 ||| (mrImm f) <<< 32) s
/-- MADD (R220). -/
def opMaddM (f : MR) (s : State) : Res :=
  mreg f.gp f.md 1 (s.cx.rm f.ma.toNat + (if f.fn = 0 then mrImm f else s.cx.rm f.mb.toNat)) s
/-- MMOV (R220). -/
def opMmov (f : MR) (s : State) : Res := mreg f.gp f.md 1 (s.cx.rm f.ma.toNat) s
/-- XFERM (R105). -/
def opXferm (f : MX) (s : State) : Res := mreg f.gp f.md 2 (s.cx.ra f.src) s

/-- JINIT (R253). -/
def opJinit (f : MR) (s : State) : Res :=
  if !s.cx.guard f.gp then .ok s
  else
    let n := s.cx.jcnt + immU f.imm f.ext
    if 65535 < n then trapM .paramRange else .ok (s.modCx (fun c => { c with jcnt := n }))

/-- MSET alone (R220). -/
def execMset (f : MR) (s : State) : Host.Outcome State Fault Refusal := finish s (opMset f s)
/-- MSET.HI alone (R220). -/
def execMsetHi (f : MR) (s : State) : Host.Outcome State Fault Refusal := finish s (opMsetHi f s)
/-- MADD alone (R220). -/
def execMaddM (f : MR) (s : State) : Host.Outcome State Fault Refusal := finish s (opMaddM f s)
/-- MMOV alone (R220). -/
def execMmov (f : MR) (s : State) : Host.Outcome State Fault Refusal := finish s (opMmov f s)
/-- XFERM alone (R105). -/
def execXferm (f : MX) (s : State) : Host.Outcome State Fault Refusal := finish s (opXferm f s)
/-- JINIT alone (R253). -/
def execJinit (f : MR) (s : State) : Host.Outcome State Fault Refusal := finish s (opJinit f s)

/-- MNOP (R50): no effect. -/
def execMnop (s : State) : Host.Outcome State Fault Refusal := .next s

end Sys2Proof.Machine
end

