-- ==== Sys2Proof/Machine/Xlate.lean ====
section
/-! DEFINITION. Physical memory (R272, R442), translation (R273 to R278) and the fetch of bundles (R31, R32, R42, R53). -/

namespace Sys2Proof.Machine

/-! ### Offsets of the management window (R453), each table row in doublewords in its order -/

def wMWSTAT : Nat := 0x0
def wINTSTAT : Nat := 0x8
def wINTMASK : Nat := 0x10
def wPKGNUM : Nat := 0x18
def wWRESET : Nat := 0x20
def wRESUME : Nat := 0x28
def wQTBASE : Nat := 0x1000
def wQCMD : Nat := 0x1008
def wQHALTMAP : Nat := 0x1010
def wASTBASE : Nat := 0x1100
def wTLBINV : Nat := 0x1108
def wTLBINVVA : Nat := 0x1110
def wSYNCOVF : Nat := 0x1200
def wSYNCHOST : Nat := 0x1210
def wDUMPBASE : Nat := 0x1300
def wSAVEPOOL : Nat := 0x1308
def wPCTL : Nat := 0x1310
def wPKGIMG : Nat := 0x1318
def wPWRBUD : Nat := 0x1400
def wRETRAIN : Nat := 0x1408
def wLINKTO : Nat := 0x1410
def wUAROUTE : Nat := 0x40000
def wEXPOSE : Nat := 0x41000

/-- Send the messages of the MSI-X vectors named by the bits of a word that INTMASK lets through (R455). -/
def State.vectors (s : State) (bits : W64) : State :=
  let on := bits &&& ~~~(s.win.read wINTMASK)
  { s with msix := (List.range 7).foldl (fun m i => if on.getLsbD i then mapPut i (mapGet 0 m i + 1) m else m) s.msix }
/-- Raise a bit of INTSTAT, and its vector (R455). -/
def State.raise (s : State) (bit : Nat) : State :=
  let b : W64 := BitVec.ofNat 64 (2 ^ bit)
  { s with win := s.win.write wINTSTAT (s.win.read wINTSTAT ||| b) }.vectors b

/-- The package number (R442). -/
def State.pkgnum (s : State) : Nat := (fld (s.win.read wPKGNUM) 0 8).toNat
/-- Whether the scale-up configuration names a package (R444). -/
def State.named (s : State) (p : Nat) : Bool := p == s.pkgnum || (s.win.read (wUAROUTE + 8 * p) != 0)
/-- Whether some port to a package is up (R446). -/
def State.peerUp (s : State) (pkg : Nat) : Bool :=
  let ports := (s.win.read (wUAROUTE + 8 * pkg)).toNat % 4096
  (List.range 12).any (fun i => bitOf ports i && !s.down.has i)
/-- The port that carries a request of a kind and key to a package, of those that are up (R444, R446); 12 for none. -/
def State.portTo (s : State) (pkg kind key : Nat) : Nat :=
  let ports := (s.win.read (wUAROUTE + 8 * pkg)).toNat % 4096
  let ups := (List.range 12).filter (fun i => bitOf ports i && !s.down.has i)
  ups.getD (Config.portHash kind key % ups.length) 12

/-! ### Physical addresses -/

def hbmSize : Nat := 2 ^ 39
def poolBase : Nat := 0x4000000000000
def hostBase : Nat := 0x8000000000000
def peerBase : Nat := 0xC000000000000
/-- HBM (R272). -/
def inHbm (pa : Nat) : Bool := pa < hbmSize
/-- The pool range (R272). -/
def inPool (pa : Nat) : Bool := poolBase ≤ pa && pa < poolBase + 2 ^ 45
/-- The host window (R272). -/
def inHost (pa : Nat) : Bool := hostBase ≤ pa && pa < peerBase
/-- A peer window and its package (R442). -/
def inPeer (pa : Nat) : Bool := peerBase ≤ pa && pa < peerBase + 2 ^ 48 && (pa % 2 ^ 40) < 2 ^ 39
def peerPkg (pa : Nat) : Nat := (pa - peerBase) / 2 ^ 40
/-- Whether a physical address is backed (R272, R442). -/
def State.backed (s : State) (pa : Nat) : Bool :=
  inHbm pa || inPool pa || inHost pa || (inPeer pa && peerPkg pa != s.pkgnum)

/-- Whether n bytes at a physical address meet an uncorrectable granule (R397). -/
def State.lostPa (s : State) (pa n : Nat) : Bool :=
  !s.badPa.isEmpty && s.badPa.any (fun g => decide (g * 32 < pa + n) && decide (pa < g * 32 + 32))

/-- Write masked bytes to physical memory; a granule covered whole is good again (R397). -/
def State.writePa (s : State) (pa : Nat) (bytes : List (Option Byte)) : State :=
  let offs := presentOffs pa bytes
  { s with mem := s.mem.writeMasked pa bytes,
           badPa := if s.badPa.isEmpty then []
                    else s.badPa.filter (fun g => !(List.range 32).all (fun i => offs.elem (32 * g + i))) }

/-! ### Page tables -/

/-- The answer of a translation (R275); `wait` while a landing keeps its walk from the page tables (R407). -/
inductive Xl where
  | ok (pa : Nat)
  | fail (sub : Nat)
  | lost
  | wait
  deriving DecidableEq, Repr

/-- The levels of a walk (R274): the low bit and number of bits indexed. -/
def walkLevels : List (Nat × Nat) := [(48, 8), (39, 9), (30, 9), (21, 9), (16, 5)]

/-- A leaf found by a walk: page size in bits, page address, R, W. -/
structure Leaf where
  bits : Nat
  pa   : Nat
  r    : Bool
  w    : Bool
  deriving DecidableEq, Repr

/-- Walk from a table (R275): a leaf, a failure code, or an uncorrectable read. -/
def walk (s : State) (va : Nat) (table : Nat) : List (Nat × Nat) → Except Xl Leaf
  | [] => .error (.fail 6)
  | (lo, n) :: rest =>
    let size := 8 * 2 ^ n
    if table % size ≠ 0 ∨ !inHbm table then .error (.fail 6)
    else
      let a := table + 8 * ((va / 2 ^ lo) % 2 ^ n)
      if s.lostPa a 8 then .error .lost
      else
        let e := s.mem.readLE a 8
        if e % 2 = 0 then .error (.fail 0)
        else
          let leaf := bitOf e 1
          let addr := (e % 2 ^ 52) / 256 * 256
          if bitsOf e 7 5 ≠ 0 then .error (.fail 6)
          else if leaf then
            if lo = 48 ∨ lo = 39 then .error (.fail 6)
            else if bitsOf e 15 8 ≠ 0 ∨ (!bitOf e 4 && bitsOf e 63 52 ≠ 0) then .error (.fail 6)
            else if addr % 2 ^ lo ≠ 0 then .error (.fail 6)
            else .ok { bits := lo, pa := addr, r := bitOf e 2, w := bitOf e 3 }
          else if lo = 16 ∨ bitsOf e 63 52 ≠ 0 ∨ bitsOf e 4 2 ≠ 0 then .error (.fail 6)
          else walk s va addr rest

/-- ASTBASE (R273, R453). -/
def State.astBase (s : State) : Nat := (s.win.read wASTBASE).toNat

/-- The address-space entry as a walk reads it (R275): a walk-cache entry of its top table. -/
def State.walkTop (s : State) (asid gen : Nat) : Except Xl WalkEntry :=
  let e := s.astBase + 32 * asid
  if s.lostPa e 32 then .error .lost
  else
    let root := s.mem.readLE e 8
    let g := s.mem.readLE (e + 8) 8
    let pv := s.mem.readLE (e + 16) 8
    let sh := s.mem.readLE (e + 24) 8
    if root % 2 = 0 then .error (.fail 0)
    else if bitsOf root 63 52 ≠ 0 ∨ bitsOf root 10 1 ≠ 0 ∨ bitsOf g 15 8 ≠ 0 ∨ bitsOf g 63 32 ≠ 0 ∨
        bitsOf pv 63 56 ≠ 0 ∨ bitsOf pv 29 0 ≠ 0 ∨ bitsOf sh 63 52 ≠ 0 ∨ bitsOf sh 3 0 ≠ 0 then .error (.fail 6)
    else if g % 256 ≠ gen then .error (.fail 4)
    else .ok { asid := asid, gen := gen, base := pv, gib := bitsOf g 31 16, up := 0, pre := 0, table := bitsOf root 51 11 * 2 ^ 11 }

/-- The virtual address of an access in the address space of an entry (R275). -/
def WalkEntry.va (w : WalkEntry) (pool : Bool) (off : Nat) : Nat := (if pool then w.base + off else off) % 2 ^ 56
/-- The bits of a virtual address below those that lead to a table with `up` levels above it. -/
def walkBits (up : Nat) : Nat :=
  match up with
  | 0 => 56
  | 1 => 48
  | 2 => 39
  | 3 => 30
  | _ => 21

/-- The rest of a walk of R275 from a table of it: the TLB entry it fills. -/
def State.walkFrom (s : State) (w : WalkEntry) (pool : Bool) (off : Nat) : Except Xl TlbEntry :=
  if pool ∧ w.gib * 2 ^ 30 ≤ off then .error (.fail 3)
  else
    match walk s (w.va pool off) w.table (walkLevels.drop w.up) with
    | .error x => .error x
    | .ok l => .ok { asid := w.asid, gen := w.gen, pool := pool, bits := l.bits, page := off / 2 ^ l.bits,
                     va := w.va pool off / 2 ^ l.bits, pa := l.pa, r := l.r, w := l.w }

/-- A walk of R275 from the address-space entry: the TLB entry it fills. -/
def State.walkAst (s : State) (asid gen : Nat) (pool : Bool) (off : Nat) : Except Xl TlbEntry :=
  match s.walkTop asid gen with
  | .error x => .error x
  | .ok w => s.walkFrom w pool off

/-- The tables that a walk from w reads, as walk-cache entries. -/
def walkTables (s : State) (va : Nat) (w : WalkEntry) : List (Nat × Nat) → List WalkEntry
  | [] => []
  | (lo, n) :: rest =>
    let e := s.mem.readLE (w.table + 8 * ((va / 2 ^ lo) % 2 ^ n)) 8
    w :: (if bitOf e 1 then [] else walkTables s va { w with up := w.up + 1, pre := va / 2 ^ lo, table := (e % 2 ^ 52) / 256 * 256 } rest)

/-- The access checks of R275 through a TLB entry. -/
def State.useEntry (s : State) (e : TlbEntry) (off : Nat) (write : Bool) : Xl :=
  let pa := e.pa + off % 2 ^ e.bits
  if !write && !e.r then .fail 2
  else if write && !e.w then .fail 1
  else if !s.backed pa then .fail 5
  else if e.pool != inPool pa then .fail 3
  else .ok pa

/-- The entry a TLB uses: of those that match, the one of the smallest page (R276, R278). -/
def tlbFind (asid gen : Nat) (pool : Bool) (off : Nat) : List TlbEntry → Option TlbEntry
  | [] => none
  | e :: t =>
    let r := tlbFind asid gen pool off t
    if e.asid = asid ∧ e.gen = gen ∧ e.pool = pool ∧ e.page = off / 2 ^ e.bits then
      match r with
      | some x => if x.bits < e.bits then some x else some e
      | none => some e
    else r

/-- The TLB of the party of context n: its tile's stream engine's, or the gallery core's own (R276). -/
def State.tlb (s : State) (n : Nat) : List TlbEntry :=
  if isGal n then (s.gal (n - 512)).tlb else (s.tile (tileOf n)).tlb
/-- The walk cache of that party (R276). -/
def State.walks (s : State) (n : Nat) : List WalkEntry :=
  if isGal n then (s.gal (n - 512)).walks else (s.tile (tileOf n)).walks

/-- Whether two walk-cache entries stand for the same table of one address space. -/
def WalkEntry.same (a b : WalkEntry) : Bool := a.asid == b.asid && a.gen == b.gen && a.up == b.up && a.pre == b.pre
/-- New walk-cache entries take the place of those for the same tables. -/
def addWalks (new old : List WalkEntry) : List WalkEntry := new ++ old.filter (fun w => !new.any w.same)

/-- Add a TLB entry and the walk-cache entries of its walk. -/
def State.addTlb (s : State) (n : Nat) (e : TlbEntry) (ws : List WalkEntry) : State :=
  if isGal n then s.modGal (n - 512) (fun g => { g with tlb := e :: g.tlb, walks := addWalks ws g.walks })
  else s.modTile (tileOf n) (fun t => { t with tlb := e :: t.tlb, walks := addWalks ws t.walks })

/-- Where a walk begins (R276): at a table of the walk cache, or at the address-space entry. Which of the entries that hit
is used, if any, is a free value (log entry 64). -/
def State.walkStart (s : State) (n asid gen : Nat) (pool : Bool) (off : Nat) : Except Xl WalkEntry × State :=
  match (s.walks n).filter (fun w => w.asid == asid && w.gen == gen && w.va pool off / 2 ^ walkBits w.up == w.pre) with
  | [] => (s.walkTop asid gen, s)
  | ws =>
    let (f, s) := s.fresh
    match ws[Config.walkHit f]? with
    | some w => (.ok w, s)
    | none => (s.walkTop asid gen, s)

/-- Translate a global (`pool` false) or pool offset for the party of context n (R275, R276). -/
def State.xlate (s : State) (n asid gen : Nat) (pool : Bool) (off : Nat) (write : Bool) : Xl × State :=
  match tlbFind asid gen pool off (s.tlb n) with
  | some e => (s.useEntry e off write, s)
  | none =>
    if s.landing.isSome then (.wait, s) else
    match s.walkStart n asid gen pool off with
    | (.error x, s) => (x, s)
    | (.ok w, s) =>
      match s.walkFrom w pool off with
      | .error x => (x, s)
      | .ok e => (s.useEntry e off write, s.addTlb n e (walkTables s (w.va pool off) w (walkLevels.drop w.up)))

/-- The virtual address of an access that the party of context n is about to make (R275): through the TLB entry it hits, or the
walk-cache entry its walk begins at, or the base of the pool window as the address-space entry stands; the offset where that
entry cannot be read. -/
def State.accessVa (s : State) (n asid gen : Nat) (pool : Bool) (off : Nat) : W64 :=
  let e := s.astBase + 32 * asid
  BitVec.ofNat 64 (
    if !pool then off % 2 ^ 56
    else match tlbFind asid gen pool off (s.tlb n) with
    | some x => x.va * 2 ^ x.bits + off % 2 ^ x.bits
    | none =>
      match (s.walkStart n asid gen pool off).1 with
      | .ok w => w.va pool off
      | .error _ => if s.lostPa e 32 then off else (s.mem.readLE (e + 16) 8 + off) % 2 ^ 56)

/-- Whether two TLB entries map a common page of one address space. -/
def TlbEntry.overlaps (a b : TlbEntry) : Bool :=
  a.asid == b.asid && a.gen == b.gen && a.pool == b.pool &&
    decide (a.page * 2 ^ a.bits < (b.page + 1) * 2 ^ b.bits) && decide (b.page * 2 ^ b.bits < (a.page + 1) * 2 ^ a.bits)

/-- Act for tile t with every translation walked again in the page tables as they stand (R390), when `on`; the entries
these walks fill replace those of the same pages. -/
def walkingAgain (on : Bool) (t : Nat) (act : State → α × State) (s : State) : α × State :=
  if on then
    let old := s.tile t
    let (a, s) := act (s.modTile t (fun T => { T with tlb := [], walks := [] }))
    (a, s.modTile t (fun T => { T with tlb := T.tlb ++ old.tlb.filter (fun e => !(T.tlb.any (fun n => n.overlaps e))),
                                       walks := addWalks T.walks old.walks }))
  else act s

/-- Translate without a TLB: the queue reader, the walker and the queue unit (R172, R251). -/
def State.xlateQ (s : State) (asid gen : Nat) (pool : Bool) (off : Nat) (write : Bool) : Xl :=
  if s.landing.isSome then .wait else
  match s.walkAst asid gen pool off with
  | .error x => x
  | .ok e => s.useEntry e off write

/-! ### Fetch -/

/-- The global virtual address of text offset pc of the current context (R42). -/
def Ctx.textVa (c : Ctx) (pc : W64) : Nat := (c.code.toNat + c.textOff + pc.toNat) % 2 ^ 56

/-- The text word kept at an offset (R124). -/
def Ctx.textWord (c : Ctx) (pc : W64) : Option W32 := (mapGet [] c.text (pc.toNat / 64))[pc.toNat % 64 / 4]?.join
/-- The `n` text words kept from an offset, within its 64-byte line; none when one is missing. -/
def Ctx.textWords (c : Ctx) (pc : W64) (n : Nat) : Option (List W32) :=
  let ws := ((mapGet [] c.text (pc.toNat / 64)).drop (pc.toNat % 64 / 4)).take n
  if ws.length = n ∧ ws.all Option.isSome then some (ws.map (·.getD 0)) else none
/-- Keep a line as it was read; words kept before stay (R42). -/
def Ctx.keepLine (c : Ctx) (line : Nat) (ws : List (Option W32)) : Ctx :=
  let old := mapGet [] c.text line
  { c with text := mapPut line ((List.range 16).map (fun i => match old[i]?.join with | some w => some w | none => ws[i]?.join)) c.text }

/-- The 16 words of a line at a physical address; none where a word has an uncorrectable error (R397). -/
def State.lineAt (s : State) (pa : Nat) : List (Option W32) :=
  (List.range 16).map (fun i => if s.lostPa (pa + 4 * i) 4 then none else some (BitVec.ofNat 32 (s.mem.readLE (pa + 4 * i) 4)))

/-- What reading a line of text answers: the line is kept, a landing keeps the read waiting (R409), or a trap. -/
inductive TextRead where
  | ok
  | wait
  | trap (t : TrapInfo)
  deriving DecidableEq, Repr

/-- Fetch ahead `n` lines from a line number on, as far as the text and its translation go (R124). -/
def State.readAhead (s : State) (line : Nat) : Nat → State
  | 0 => s
  | n + 1 =>
    if s.cx.textLen ≤ 64 * line then s
    else
      let va := s.cx.textVa (BitVec.ofNat 64 (64 * line))
      match (s.xlate s.cur s.cx.asid s.cx.gen false va false).1 with
      | .ok pa => State.readAhead (s.modCx (·.keepLine line (s.lineAt pa))) (line + 1) n
      | _ => s

/-- Read the line of text at pc (R42), and a free number of lines that follow it (log entry 70). -/
def State.readText (pc : W64) (s : State) : TextRead × State :=
  let c := s.cx
  let va := BitVec.ofNat 64 (c.textVa pc)
  match s.xlate s.cur c.asid c.gen false (c.textVa pc) false with
  | (.wait, s) => (.wait, s)
  | (.fail sub, s) => (.trap { cause := .streamXlate, sub := sub, whole := true, addr := va }, s)
  | (.lost, s) => (.trap { cause := .dataLost, whole := true, addr := va }, s)
  | (.ok pa, s) =>
    if s.landing.isSome && inHbm pa then (.wait, s)
    else
      let (f, s) := s.fresh
      let s := s.modCx (·.keepLine (pc.toNat / 64) (s.lineAt (pa - pc.toNat % 64)))
      (.ok, if s.cx.textLen ≤ 64 * (pc.toNat / 64 + 1) then s else s.readAhead (pc.toNat / 64 + 1) (Config.fetchAhead f))

/-- See that the `n` words from pc, within a line, are kept. -/
def State.needText (pc : W64) (n : Nat) (s : State) : TextRead × State :=
  if (s.cx.textWords pc n).isSome then (.ok, s)
  else
    match s.readText pc with
    | (.ok, s) =>
      if (s.cx.textWords pc n).isSome then (.ok, s)
      else (.trap { cause := .dataLost, whole := true, addr := BitVec.ofNat 64 (s.cx.textVa pc) }, s)
    | r => r

/-- What a seek finds (R32): a header at an address, a trap there, or a read that waits. -/
inductive Seek where
  | header (pc : W64) (h : W32)
  | trap (pc : W64) (t : TrapInfo)
  | wait
  deriving DecidableEq, Repr

/-- Seek the next bundle from pc (R32, R53), skipping padding; `fuel` bounds the words skipped by the text's length. -/
def seek (fuel : Nat) (pc : W64) (s : State) : Seek × State :=
  match fuel with
  | 0 => (.trap pc { cause := .illegalBundle, whole := true }, s)
  | fuel + 1 =>
    if s.cx.textLen ≤ pc.toNat ∨ pc.toNat % 4 ≠ 0 then (.trap pc { cause := .illegalBundle, whole := true }, s)
    else
      match s.needText pc 1 with
      | (.wait, s) => (.wait, s)
      | (.trap t, s) => (.trap pc t, s)
      | (.ok, s) =>
        let h := (s.cx.textWord pc).getD 0
        if h = 0 then seek fuel (pc + 4) s else (.header pc h, s)

/-- Seek from pc with the bound of the text's length. -/
def State.seekAt (s : State) (pc : W64) : Seek × State := seek (s.cx.textLen / 4 + 1) pc s

/-- What the fetch of the bundle at PC finds: the bundle and its address, the trap of its first failing check of steps 1
and 2 of R52, or a read that waits. -/
inductive Fetched where
  | bundle (pc : W64) (b : Bundle)
  | trap (pc : W64) (t : TrapInfo)
  | wait
  deriving DecidableEq, Repr

/-- The number TRCAUSE.SLOT gives a slot (R381). -/
def Slot.num : Slot → Nat
  | .a => 0 | .v => 1 | .m => 2 | .b => 3

/-- The NOP of a slot (R44). -/
def Slot.nop : Slot → Instr
  | .a => .anop | .v => .vnop | .m => .mnop | .b => .bnop
/-- What ERET.SKIP consumes of a bundle that fails step 1 or 2 of R52 (R385): its length and REP, each slot that decodes, and
the NOP of the others (log entry 92, DESIGN CHOICE). -/
def skipBundle (gal : Bool) (h : W32) (ws : List W32) : Bundle :=
  let (slots, after) := slotWords h ws
  let taker := if fld h 20 1 = 1 then extTaker slots else none
  let l := slots.map (fun e =>
    match decodeSlots gal taker (after.headD 0) [e] with
    | .ok (i :: _) => i
    | _ => (e.1, Slot.nop e.1))
  { rep := (fld h 21 6).toNat, a := slotOf .a l, v := slotOf .v l, m := slotOf .m l, b := slotOf .b l, bytes := bundleBytes h }

/-- Fetch and decode at PC (R31 to R34, R46, R52). -/
def State.fetch (s : State) : Fetched × State :=
  match s.seekAt s.cx.pc with
  | (.wait, s) => (.wait, s)
  | (.trap pc t, s) => (.trap pc t, s)
  | (.header pc h, s) =>
    let n := bundleBytes h
    let whole : TrapInfo := { cause := .illegalBundle, whole := true }
    if !headerOk h then (.trap pc whole, s)
    else if 64 < pc.toNat % 64 + n ∨ s.cx.textLen < pc.toNat + n then (.trap pc whole, s)
    else
      match s.needText pc (n / 4) with
      | (.wait, s) => (.wait, s)
      | (.trap t, s) => (.trap pc t, s)
      | (.ok, s) =>
        let ws := ((s.cx.textWords pc (n / 4)).getD []).drop 1
        match decodeBundle (isGal s.cur) h ws with
        | .error e =>
          if s.cx.skip then (.bundle pc (skipBundle (isGal s.cur) h ws), s)
          else
            match e with
            | .illegalBundle => (.trap pc whole, s)
            | .illegalOp sl => (.trap pc { cause := .illegalOp, slot := Slot.num sl }, s)
        | .ok b => (.bundle pc b, s)

/-- The address after the bundle at E, for a loop that skips its body (R115): E itself, or the word it fails at, where
no bundle is found there; none while the read of its header waits. -/
def State.afterBundle (s : State) (e : W64) : Option W64 × State :=
  match s.seekAt e with
  | (.wait, s) => (none, s)
  | (.trap pc _, s) => (some pc, s)
  | (.header pc h, s) => (some (if headerOk h then pc + BitVec.ofNat 64 (bundleBytes h) else pc), s)

end Sys2Proof.Machine
end

