-- ==== Sys2Proof/Machine/Power.lean ====
section
/-! DEFINITION. The power arbiter (R414 to R417): budget, requests in order of arrival, reserves, PGREQ. -/

namespace Sys2Proof.Machine

/-- The cost of a class in grant units (R414). -/
def powerCost (cls : Nat) : Nat := if cls = 0 then 4 else if cls = 1 then 24 else 3

/-- Whether a request would be granted at once (R414, R415). -/
def State.grantable (s : State) (cls : Nat) : Bool :=
  s.waits.isEmpty && decide (s.drawn + powerCost cls ≤ (s.win.read wPWRBUD).toNat)

/-- PGRANT_STAT of a tile. -/
def Tile.pgrant (t : Tile) : W64 := t.crs.read 0x44
/-- Write PGRANT_STAT. -/
def Tile.setPgrant (t : Tile) (v : W64) : Tile := { t with crs := t.crs.write 0x44 v }
/-- RES of a class, its bit in PGRANT_STAT. -/
def resBit (cls : Nat) : W64 := BitVec.ofNat 64 (2 ^ (4 + cls))

/-- Take the units of a class. -/
def State.draw (s : State) (cls : Nat) : State := { s with drawn := s.drawn + powerCost cls }
/-- Put a request behind those that wait. -/
def State.enqueue (s : State) (w : PwrReq) : State := { s with waits := s.waits ++ [w] }
/-- Withdraw requests. -/
def State.dequeue (s : State) (f : PwrReq → Bool) : State := { s with waits := s.waits.filter (fun w => !f w) }
/-- Return units to the budget. -/
def State.undraw (s : State) (n : Nat) : State := { s with drawn := s.drawn - n }

/-- A reserve of a class becomes held, made by context n. -/
def State.addReserve (s : State) (t cls n : Nat) : State :=
  s.modTile t (fun x => { x.setPgrant (x.pgrant ||| resBit cls) with resOf := mapPut cls n x.resOf })
/-- A reserve of a class is no longer held. -/
def State.dropReserve (s : State) (t cls : Nat) : State :=
  s.modTile t (fun x => { x.setPgrant (x.pgrant &&& ~~~resBit cls) with resOf := mapDel cls x.resOf })
/-- Whether a tile holds a reserve of a class. -/
def State.hasReserve (s : State) (t cls : Nat) : Bool := (s.tile t).pgrant &&& resBit cls != 0

/-- DENY counts a refusal, saturating (R417). -/
def State.countDeny (s : State) (t : Nat) : State :=
  s.modTile t (fun x =>
    if (fld x.pgrant 32 16).toNat = 65535 then x else x.setPgrant (x.pgrant + BitVec.ofNat 64 (2 ^ 32)))

/-- The hold of an operation that needs a grant of a class (R415), its other holds and checks passed. A refused request
under WAIT = 0 leaves its trap for the operation to take. -/
def holdPower (need : Bool) (cls : Nat) (s : State) : Option State :=
  if !need then none
  else
    match s.cx.pwr with
    | .power _ true => none
    | .failed _ => none
    | .power _ false => some s
    | _ =>
      let t := tileOf s.cur
      if s.hasReserve t cls then none
      else if s.grantable cls then
        some ((s.draw cls).modCx (fun c => { c with pwr := .power cls true }))
      else if (s.tile t).pgrant.getLsbD 0 then
        some ((s.enqueue { tile := t, cls := cls, ctx := s.cur, implicit := true }).modCx
          (fun c => { c with pwr := .power cls false }))
      else some ((s.countDeny t).modCx (fun c => { c with pwr := .failed .pgrantDeny }))

/-- The grant that a hold obtained, or the reserve, is taken by the operation. -/
def takeGrant (cls : Nat) (s : State) : State :=
  match s.cx.pwr with
  | .power _ _ => s.modCx (fun c => { c with pwr := .none })
  | _ => s.dropReserve (tileOf s.cur) cls

/-- What a context's power request leaves when its bundle does not issue: a waiting request goes, a grant returns. -/
def dropPower (n : Nat) (s : State) : State :=
  match (s.ctx n).pwr with
  | .power cls true => (s.undraw (powerCost cls)).modCtx n (fun c => { c with pwr := .none })
  | .power _ false =>
    (s.dequeue (fun w => w.implicit && w.ctx == n)).modCtx n (fun c => { c with pwr := .none })
  | _ => s

/-- Reserves and waiting requests of a retiring step are released (R416). -/
def releaseReserves (n : Nat) (s : State) : State :=
  let t := tileOf n
  let s := s.dequeue (fun w => !w.implicit && w.ctx == n)
  (List.range 3).foldl (fun s cls =>
    if mapGet? cls (s.tile t).resOf = some n then (s.dropReserve t cls).undraw (powerCost cls) else s) s

/-- The ARR grant of a tile is given up (R414). -/
def releaseArr (t : Nat) (s : State) : State :=
  if (s.tile t).pgrant.getLsbD 2 then
    (s.modTile t (fun x => x.setPgrant (x.pgrant &&& ~~~4))).undraw (powerCost 0)
  else s

/-- PGREQ (R416). -/
def opPgreq (f : MR) (s : State) : Res :=
  let cls := f.fn.toNat % 4
  let t := tileOf s.cur
  if !s.cx.guard f.gp then .ok s
  else if s.hasReserve t cls || s.waits.any (fun w => w.tile == t && w.cls == cls) ||
      (cls == 0 && (s.tile t).pgrant.getLsbD 2) then .ok s
  else if s.grantable cls then
    .ok (((s.draw cls).addReserve t cls s.cur).modCx (·.setEvIn 2))
  else .ok (s.enqueue { tile := t, cls := cls, ctx := s.cur, implicit := false })

/-- A context whose implicit request of a class was cancelled asks again while its bundle holds (R415). -/
def askAgain (cls n : Nat) (s : State) : State :=
  if (s.ctx n).pwr = .power cls false then s.modCtx n (fun c => { c with pwr := .none }) else s

/-- PGREQ.REL (R416): the tile's waiting request goes, whoever made it. -/
def opPgreqRel (f : MR) (s : State) : Res :=
  let cls := f.fn.toNat % 4
  let t := tileOf s.cur
  if !s.cx.guard f.gp then .ok s
  else
    let s := s.dequeue (fun w => w.tile == t && w.cls == cls)
    let s := (askAgain cls (2 * t + 1) (askAgain cls (2 * t) s))
    .ok (if s.hasReserve t cls then (s.dropReserve t cls).undraw (powerCost cls) else s)

/-- PGREQ alone (R416). -/
def execPgreq (f : MR) (s : State) : Host.Outcome State Fault Refusal := finishHold s none (opPgreq f s)
/-- PGREQ.REL alone (R416). -/
def execPgreqRel (f : MR) (s : State) : Host.Outcome State Fault Refusal := finish s (opPgreqRel f s)

/-- PGRANT_ARRIVE (R414 to R416): the head request is granted when the budget has room for it. -/
def execPgrantArrive (s : State) : Host.Outcome State Fault Refusal :=
  match s.waits with
  | [] => .next s
  | w :: rest =>
    if (s.win.read wPWRBUD).toNat < s.drawn + powerCost w.cls then .next s
    else
      let s := { s with waits := rest, drawn := s.drawn + powerCost w.cls }
      let s := if w.implicit then s.modCtx w.ctx (fun c => { c with pwr := .power w.cls true }) else s.addReserve w.tile w.cls w.ctx
      .next (s.modCtx w.ctx (·.setEv 2))

end Sys2Proof.Machine
end

