-- ==== Sys2Proof/Machine/ArrayRun.lean ====
section
/-! DEFINITION. The array of a tile at work: slots and transit (R181, R182), firings (R183, R184), runs (R185, R186),
switches (R198, R199), depth markers (R200), side bands and NULs of AFLUSH (R249). Events name the tile in `unit`; `sub`
is the PE, the group (image slot × 16 + group), or the place of a token. -/

namespace Sys2Proof.Machine

/-- The array of a tile. -/
def State.arr (s : State) (t : Nat) : Arr := (s.tile t).arr
/-- Change the array of a tile. -/
def State.modArr (s : State) (t : Nat) (f : Arr → Arr) : State := s.modTile t (fun x => { x with arr := f x.arr })
/-- Whether a freeze stops the array of a tile (R188). -/
def State.arrFrozen (s : State) (t : Nat) : Bool := s.tileStopped t

/-! ### Slots and transit (R181 to R183) -/

/-- Depth of the FIFO of a port (R180). -/
def portDepth : Nat := 8

/-- Free slots of an edge of image i; INIT tokens count before its PE has switched. -/
def Arr.edgeFree (a : Arr) (tick i p k : Nat) : Nat :=
  let e := a.edge i p k
  let d := imgEdge (a.img i).raw p k
  let used := tokCount e.q + (if e.at_ = tick then e.freed else 0)
  if (a.pe p).img = some i then e.depth - used else edDepth d - (used + edInit d)

/-- Free slots where output o of PE p leads; none for an output that nothing takes. -/
def Arr.sinkFree (a : Arr) (tick i p o : Nat) : Option Nat :=
  match imgSink (a.img i).raw p o with
  | .edge q k => some (a.edgeFree tick i q k)
  | .port k => some (portDepth - (a.outq k).length)
  | .none => none

/-- Whether n tokens fit where output o of PE p leads. -/
def Arr.fits (a : Arr) (tick i p o n : Nat) : Bool := match a.sinkFree tick i p o with | some f => decide (n ≤ f) | none => true

/-- Cycles between two PEs (R182). -/
def transit (p q : Nat) : Nat :=
  1 + ((p / 8 : Nat) - (q / 8 : Nat) : Int).natAbs + ((p % 8 : Nat) - (q % 8 : Nat) : Int).natAbs

/-- Send a token of output o of PE p, of latency L, in image i (R181, R182). -/
def Arr.send (a : Arr) (i p o : Nat) (at_ : Nat) (t : Tok) : Arr :=
  match imgSink (a.img i).raw p o with
  | .edge q k =>
    let e := a.edge i q k
    a.setEdge i q k { e with q := e.q ++ [{ ready := at_ + transit p q, tok := some { t with bad := false } }] }
  | .port k => { a with out := mapPut k (a.outq k ++ [{ ready := at_ + 2, tok := some { t with bad := false }, img := i }]) a.out }
  | .none => a

/-- Send tokens in order: those of one output leave one per cycle (R203, R206). -/
def Arr.sendAll (a : Arr) (i p at_ : Nat) (out : List (Nat × Tok)) : Arr :=
  ((List.range out.length).zip out).foldl (fun a e =>
    let earlier := ((out.take e.1).filter (fun x => x.1 == e.2.1)).length
    a.send i p e.2.1 (at_ + earlier) e.2.2) a

/-- Remove n tokens from the head of an edge. -/
def takeN : Nat → List EItem → List EItem
  | 0, l => l
  | _, [] => []
  | n + 1, _ :: t => takeN n t

/-- A marker that now stands at the head of its edge has got there in this cycle (R198, R200). -/
def markHead (tick : Nat) : List EItem → List EItem
  | e :: t => (if e.tok.isNone then { e with ready := max e.ready tick } else e) :: t
  | [] => []

/-- A firing takes n tokens from an edge; their slots are free from the next cycle on (R181). -/
def Arr.consume (a : Arr) (tick i p k n : Nat) : Arr :=
  let e := a.edge i p k
  a.setEdge i p k { e with q := markHead tick (takeN n e.q), at_ := tick, freed := n + (if e.at_ = tick then e.freed else 0) }

/-! ### Runs (R185, R186) -/

/-- Whether a group fires (R183): a run is in progress, or it ends in this tick and the next one is armed (R186). A run
that met an uncorrectable error fires no more until AFLUSH (R390). -/
def Arr.running (a : Arr) (tick i g : Nat) : Bool := match mapGet? (i * 16 + g) a.runs with
  | some (r :: _) => (r.begun.isSome || decide (tick < r.after)) && !r.lost
  | _ => false

/-- The output ports a group uses. -/
def groupOuts (m : Mem) (g : Nat) : List Nat :=
  ((usedPorts m).filter (fun k => 16 ≤ k && poGroup (imgPort m k) == g)).map (· - 16)
/-- The input ports a group uses. -/
def groupIns (m : Mem) (g : Nat) : List Nat := (usedPorts m).filter (fun k => k < 16 && poGroup (imgPort m k) == g)

/-- Whether any run of image i is armed. -/
def Arr.anyRuns (a : Arr) (i : Nat) : Bool := a.runs.any (fun r => r.1 / 16 == i && !r.2.isEmpty)

/-- After runs left a switching image: when the last has gone, the bound of R198 begins. -/
def Arr.noteLast (a : Arr) (tick : Nat) : Arr :=
  match a.target, a.act, a.since with
  | some _, some o, none => if a.anyRuns o then a else { a with since := some tick }
  | _, _, _ => a

/-- A run of context n leaves the array-group class (R185). -/
def uncountArr (n : Nat) (s : State) : State := s.modCtx n (fun c => { c with arr := c.arr - 1 })

/-- Arm group g of the current image for one run of context n (R185, R247, R248), by the operation `op` issued at `ctime`
and `pc`; its count stands already. The accesses of the context before issue `iss` come before the run (R293). -/
def armGroup (t g n op ctime iss : Nat) (pc : W64) (s : State) : State :=
  s.modArr t (fun a =>
    match a.current with
    | some i => a.setRuns i g (mapGet [] a.runs (i * 16 + g) ++ [{ ctx := n, op := op, ctime := ctime, pc := pc, iss := iss, after := s.tick }])
    | none => a)

/-- RUN_START (R186): the next run of a group begins, and what every run resets is reset; not before the accesses that an AFIRE
follows have been performed (R293). -/
def execRunStart (s : State) : Host.Outcome State Fault Refusal :=
  let t := s.unit
  let a := s.arr t
  let i := s.sub / 16
  let g := s.sub % 16
  match mapGet? s.sub a.runs with
  | some (r :: rest) =>
    if r.begun.isSome || s.arrFrozen t || decide (s.tick < r.after) || s.behind r.ctx r.iss || (a.act != some i && a.target != some i) then .next s
    else
      let m := (a.img i).raw
      .next (s.modArr t (fun a =>
        { a with runs := mapPut s.sub ({ r with begun := some s.tick } :: rest) a.runs,
                 pes := a.pes.map (fun x =>
                   if x.2.img = some i ∧ bitOf (imgMask m g) x.1 then (x.1, x.2.runStart) else x) }))
  | _ => .next s

/-! ### Firing (R183, R184) -/

/-- The tokens at the head of input k of PE p; a NUL at another input than i0 is dropped (R184). -/
def Arr.heads (a : Arr) (tick i p k : Nat) : List Tok := headToks tick (a.edge i p k).q

/-- Drop the NULs that have reached the head of i1 to i3 (R184). -/
def Arr.dropNuls (a : Arr) (tick i p : Nat) : Arr :=
  [1, 2, 3].foldl (fun a k =>
    match ((a.heads tick i p k).takeWhile (·.nul)).length with
    | 0 => a
    | n => a.consume tick i p k n) a

/-- BDOTA emits one token per cycle, each waiting for its own slot (R183, R203). -/
def Arr.emitOne (a : Arr) (tick i p : Nat) : Arr :=
  let x := a.pe p
  match x.emit with
  | [] => a
  | (at_, tok) :: rest =>
    if tick < at_ ∨ !a.fits tick i p 0 1 then a
    else (a.send i p 0 tick tok).setPe p { x with emit := rest.map (fun e => (max e.1 (tick + 1), e.2)) }

/-- Weight tokens of a block-dot operator pass into a free bank (R212). -/
def Arr.absorbW (a : Arr) (tick i p : Nat) : Arr :=
  let x := a.pe p
  if opOP x.op = oBDOT ∨ opOP x.op = oBDOTA then
    match bdShape (opTA x.op) (opTB x.op) with
    | none => a
    | some (_, F, ncol) =>
      let (y, n) := absorb F ncol x (a.heads tick i p 1) 0
      if n = 0 then a else (a.consume tick i p 1 n).setPe p y
  else a

/-- Whether the run in progress of a group is one that AFLUSH ends after an uncorrectable error (R390). -/
def Arr.flushing (a : Arr) (i g : Nat) : Bool := match mapGet? (i * 16 + g) a.runs with
  | some (r :: _) => r.flushed
  | _ => false

/-- Whether a firing of PE p would use a word with an uncorrectable error (R393, R397). -/
def Arr.firesLost (a : Arr) (tick i p : Nat) : Bool :=
  let m := (a.img i).raw
  let a := a.absorbW tick i p
  match fireOp tick p (a.pe p) (edKind (imgEdge m p 1) != 0) (a.heads tick i p) with
  | none => false
  | some f => f.lost || (a.pe p).bad || f.take.any (fun e => ((a.heads tick i p e.1).take e.2).any (·.bad))

/-- One attempt of PE p of image i to fire; weight tokens too enter a bank only while its group runs (log entry 101, DESIGN
CHOICE). -/
def Arr.fire (a : Arr) (tick i p : Nat) : Arr :=
  let a := (a.dropNuls tick i p).emitOne tick i p
  let m := (a.img i).raw
  if !a.running tick i (imgGroup m p) then a
  else
    let a := a.absorbW tick i p
    let x := a.pe p
    if tick < x.busy then a
    else
      match fireOp tick p x (edKind (imgEdge m p 1) != 0) (a.heads tick i p) with
      | none => a
      | some f =>
        if !([0, 1].all (fun o => a.fits tick i p o ((f.out.filter (fun e => e.1 == o)).length))) then a
        else
          let n := match a.heads tick i p 0 with | t :: _ => t.n | [] => 1
          let a := f.take.foldl (fun a e => a.consume tick i p e.1 e.2) a
          let a := a.setPe p { f.pe with fires := x.fires + 1, busy := tick + oInterval (opOP x.op) n }
          let a := a.sendAll i p (tick + oLat (opOP x.op)) f.out
          { a with flags := a.flags ||| f.flags }

/-- Note the last cycle of array activity for the drains of a tile (R423). -/
def touchSaves (t : Nat) (s : State) : State :=
  if (s.tile t).saves.isEmpty then s
  else s.modTile t (fun x => { x with saves := x.saves.map (fun v => { v with quiet := s.tick }) })

/-- A firing that would use an uncorrectable word (R393, R397): the run in progress of its group meets `DATA_LOST`, and its
arming context takes the record of source 17 (R387). -/
def loseRun (t i p : Nat) (s : State) : State :=
  let a := s.arr t
  let g := imgGroup (a.img i).raw p
  match a.runq i g with
  | r :: rest =>
    if r.lost then s
    else
      (s.modArr t (fun a => a.setRuns i g ({ r with lost := true } :: rest))).modCtx r.ctx (fun c =>
        c.record 17 (sfWords { cause := .dataLost, addr := BitVec.ofNat 64 p } r.op 17 0 0 0 0 r.ctime r.pc))
  | [] => s

/-- OPERATOR_FIRE (R183, R397). -/
def execOperatorFire (s : State) : Host.Outcome State Fault Refusal :=
  let t := s.unit
  let a := s.arr t
  match (a.pe s.sub).img with
  | none => .next s
  | some i =>
    if s.arrFrozen t then .next s
    else
      let b := a.fire s.tick i s.sub
      .next (if b = a then s
        else if (b.pe s.sub).fires ≠ (a.pe s.sub).fires ∧ !a.flushing i (imgGroup (a.img i).raw s.sub) ∧
            (a.dropNuls s.tick i s.sub).firesLost s.tick i s.sub then loseRun t i s.sub s
        else touchSaves t (s.modArr t (fun _ => b)))

/-! ### Arrivals (R180, R182, R185) -/

/-- The head item of a FIFO moves to the edge it feeds, when its PE has the image the token belongs to and the edge has
room; a switch marker takes none. `kind` is 2 for data and 3 for the side band. -/
def Arr.feed (a : Arr) (tick kind k : Nat) : Arr :=
  let q := if kind = 2 then a.inq k else a.bandq k
  match q with
  | [] => a
  | e :: rest =>
    match imgFed (a.img e.img).raw kind k with
    | none => a
    | some (p, j) =>
      if (a.pe p).img = some e.img ∧ (e.tok.isNone ∨ 0 < a.edgeFree tick e.img p j) then
        let d := a.edge e.img p j
        let a := a.setEdge e.img p j { d with q := d.q ++ [e] }
        if kind = 2 then { a with inp := mapPut k rest a.inp } else { a with band := mapPut k rest a.band }
      else a

/-- A LAST token arrives at output port k of image i: the run ends when every output port of its group has taken one
(R185). A LAST that a port takes before the others have taken theirs counts for the run after. -/
def lastArrives (t i k : Nat) (s : State) : State :=
  let a := s.arr t
  let m := (a.img i).raw
  let g := poGroup (imgPort m (16 + k))
  match mapGet? (i * 16 + g) a.runs with
  | some (r :: rest) =>
      let ends := k :: r.ends
      if (groupOuts m g).all (fun j => ends.elem j) then
        let left := (groupOuts m g).foldl (fun l j => l.erase j) ends
        let next := match rest with | n :: l => { n with after := s.tick + 1, ends := left } :: l | [] => []
        uncountArr r.ctx (s.modArr t (fun a => ({ a with runs := mapPut (i * 16 + g) next a.runs }).noteLast s.tick))
      else s.modArr t (fun a => { a with runs := mapPut (i * 16 + g) ({ r with ends := ends } :: rest) a.runs })
  | _ => s

/-- The first token of an output FIFO that is in it and not yet noted. -/
def arriveOut (tick : Nat) : List EItem → Option (EItem × List EItem)
  | [] => none
  | e :: t =>
    if e.depth ≠ 0 then (arriveOut tick t).map (fun r => (r.1, e :: r.2))
    else if e.ready ≤ tick then some (e, { e with depth := 1 } :: t)
    else none

/-- TOKEN_ARRIVE (R182). Places: image slot × 256 + PE × 4 + input, an edge; 512 + k, output port k; 544 + k, input port
k; 576 + k, its side band. -/
def execTokenArrive (s : State) : Host.Outcome State Fault Refusal :=
  let t := s.unit
  if s.arrFrozen t then .next s
  else if s.sub < 512 then .next (s.modArr t (fun a => a.dropNuls s.tick (s.sub / 256) (s.sub % 256 / 4)))
  else if s.sub < 544 then
    let k := s.sub - 512
    match arriveOut s.tick ((s.arr t).outq k) with
    | none => .next s
    | some (e, q) =>
      let s := s.modArr t (fun a => { a with out := mapPut k q a.out })
      .next (match e.tok with
        | some x => if x.last then lastArrives t e.img k s else s
        | none => s)
  else if s.sub < 576 then .next (s.modArr t (fun a => a.feed s.tick 2 (s.sub - 544)))
  else .next (s.modArr t (fun a => a.feed s.tick 3 (s.sub - 576)))

/-! ### Ports as streams use them (R180, R182, R249) -/

/-- The image slot a token written now belongs to (R219); 2 with none. -/
def Arr.tag (a : Arr) : Nat := a.current.getD 2
/-- Whether an input port has room, and its side band when a scale goes with the token. -/
def Arr.inRoom (a : Arr) (k : Nat) (band : Bool) : Bool :=
  (mapGet? k a.nuls).isNone && decide (tokCount (a.inq k) < portDepth) && (!band || decide (tokCount (a.bandq k) < 8))
/-- A token written at a port in a tick (R182). -/
def Arr.written (a : Arr) (tick : Nat) (t : Tok) : EItem := { ready := tick + 2, tok := some t, img := a.tag }
/-- Write a token into an input port, with the scale of a block it begins. -/
def Arr.inPut (a : Arr) (tick k : Nat) (t : Tok) (scale : Option Nat) : Arr :=
  let band := match scale with
    | none => a.band
    | some b => mapPut k (a.bandq k ++ [a.written tick (mkTok tyW8 [b] false)]) a.band
  { a with band := band, inp := mapPut k (a.inq k ++ [a.written tick t]) a.inp }
/-- The token an output port offers. -/
def Arr.outHead (a : Arr) (k : Nat) : Option Tok :=
  match a.outq k with
  | e :: _ => if e.depth ≠ 0 then e.tok else none
  | [] => none
/-- Take it. -/
def Arr.outTake (a : Arr) (k : Nat) : Arr := { a with out := mapPut k ((a.outq k).drop 1) a.out }

/-- AFLUSH_NUL_ENTER (R249): the oldest NUL that waits at a full port enters its FIFO when a slot frees, ahead of a switch marker
of its image that came after it. -/
def execAflushNulEnter (s : State) : Host.Outcome State Fault Refusal :=
  let a := s.arr s.unit
  match mapGet? s.sub a.nuls with
  | none => .next s
  | some [] => .next s
  | some (e :: later) =>
    if s.arrFrozen s.unit ∨ portDepth ≤ tokCount (a.inq s.sub) then .next s
    else
      let q := a.inq s.sub
      let ahead := q.takeWhile (fun x => x.tok.isSome || x.img != e.img)
      .next (s.modArr s.unit (fun a =>
        { a with nuls := putItems a.nuls s.sub later
                 inp := mapPut s.sub (ahead ++ { e with ready := s.tick + 2 } :: q.drop ahead.length) a.inp }))

/-! ### Depth (R200) -/

/-- EDGE_DEPTH_CHANGE (R200): a depth marker at the head of an empty edge takes effect in the cycle after it got
there. -/
def execEdgeDepthChange (s : State) : Host.Outcome State Fault Refusal :=
  let i := s.sub / 256
  let p := s.sub % 256 / 4
  let k := s.sub % 4
  match ((s.arr s.unit).edge i p k).q with
  | e :: rest =>
    if e.tok.isNone ∧ e.depth ≠ 0 ∧ e.ready < s.tick ∧ !s.arrFrozen s.unit then
      .next (s.modArr s.unit (fun a => a.setEdge i p k { a.edge i p k with q := markHead s.tick rest, depth := e.depth }))
    else .next s
  | [] => .next s

/-! ### Switching (R198, R199) -/

/-- Whether PE p of the old image o consumed the markers of all its bound inputs in the cycle before (R198): they stand
alone on its edges. A CNT has none, and has made the last emission of its last run. -/
def Arr.drained (a : Arr) (tick o p : Nat) : Bool :=
  let m := (a.img o).raw
  let w := imgOp m p
  let bound := (List.range 4).filter (fun k => edKind (imgEdge m p k) != 0)
  if bound.isEmpty then
    a.since.isNone && opOP w == oCNT && decide (opIMM w ≤ (a.pe p).cnt) &&
      (match a.runq o (imgGroup m p) with | [] => true | [r] => r.begun.isSome | _ => false)
  else bound.all (fun k =>
    match (a.edge o p k).q with
    | e :: _ => e.tok.isNone && e.depth == 0 && decide (e.ready < tick)
    | [] => false) && (a.pe p).emit.isEmpty

/-- The markers that PE p of image o sends on as it switches: on every edge it feeds, behind the tokens there, with the
transit of R182. -/
def Arr.sendMarkers (a : Arr) (tick o p : Nat) : Arr :=
  let m := (a.img o).raw
  (oOuts (opOP (imgOp m p))).foldl (fun a out =>
    match imgSink m p out with
    | .edge q k =>
      let e := a.edge o q k
      let at_ := e.q.foldl (fun n x => max n x.ready) (tick - 1 + transit p q)
      if (a.pe q).img = some o then a.setEdge o q k { e with q := e.q ++ [{ ready := at_, tok := none, img := o }] } else a
    | _ => a) a

/-- Whether PE p may switch now (R198): it has consumed its markers, or its bound has come. -/
def Arr.maySwitch (a : Arr) (tick p : Nat) : Bool :=
  let h := p / 8 + p % 8
  let bound := match a.since with | some e => decide (e + h + 1 ≤ tick) | none => false
  match (a.pe p).img with
  | none => decide (a.swAt + h + 1 ≤ tick)
  | some o =>
    if a.act ≠ some o then false
    else if opOP (a.pe p).op = oIDLE then decide (a.swAt + h + 1 ≤ tick)
    else bound || a.drained tick o p

/-- PE p loads operator, edges and INIT tokens of image i; what its old edges and the ports that fed it still hold is
discarded. -/
def Arr.loadPe (a : Arr) (tick i p : Nat) : Arr :=
  let m := (a.img i).raw
  let a := match (a.pe p).img with
    | none => a
    | some o =>
      let om := (a.img o).raw
      (List.range 4).foldl (fun (a : Arr) k =>
        let d := imgEdge om p k
        let a := { a with edges := mapDel (o * 256 + p * 4 + k) a.edges }
        let j := edSrc d % 16
        let kept := fun (l : List EItem) => l.filter (fun (e : EItem) => e.img != o)
        if edKind d = 2 then { a with inp := mapPut j (kept (a.inq j)) a.inp, nuls := putItems a.nuls j (kept (mapGet [] a.nuls j)) }
        else if edKind d = 3 then { a with band := mapPut j ((a.bandq j).filter (fun e => e.img != o)) a.band }
        else a) a
  let sh := shapes m
  let a := (List.range 4).foldl (fun (a : Arr) k =>
    let d := imgEdge m p k
    if edKind d = 0 then a
    else
      let s := (peIns m sh p k).getD (0, 1)
      let early := (a.edge i p k).q
      a.setEdge i p k { q := List.replicate (edInit d) { ready := tick, tok := some (zeroTok s.1 s.2) } ++ early
                        depth := edDepth d }) a
  a.setPe p { img := some i, op := imgOp m p, key := a.key }

/-- Whether LAPINS pins the accumulator file of PE p (R429). -/
def Tile.pinned (t : Tile) (p : Nat) : Bool :=
  let l := t.crs.read 0xC2
  l.getLsbD 48 && 16 ≤ p && p < 48 && l.getLsbD (p - 16)
/-- The accumulator file of a pinned PE as it was before its switch (R429). -/
def Arr.keepAcc (a old : Arr) (p : Nat) (pinned : Bool) : Arr :=
  if pinned then
    let x := old.pe p
    a.setPe p { a.pe p with acc := x.acc, nsets := x.nsets, dirty := x.dirty, accBad := x.accBad }
  else a

/-- Whether every PE has switched to image i. -/
def Arr.allSwitched (a : Arr) (i : Nat) : Bool := (List.range 64).all (fun p => (a.pe p).img == some i)

/-- PE_SWITCH (R198): PE `sub` of tile `unit` switches; with the last one the switch is complete, and an ARR grant that
the new image does not need returns (R414). -/
def execPeSwitch (s : State) : Host.Outcome State Fault Refusal :=
  let t := s.unit
  let a := s.arr t
  match a.target with
  | none => .next s
  | some i =>
    if s.arrFrozen t || (a.pe s.sub).img == some i || 64 ≤ s.sub || !a.maySwitch s.tick s.sub then .next s
    else
      let b := match (a.pe s.sub).img with
        | some o => if a.drained s.tick o s.sub then a.sendMarkers s.tick o s.sub else a
        | none => a
      let a := (b.loadPe s.tick i s.sub).keepAcc a s.sub ((s.tile t).pinned s.sub)
      let done := a.allSwitched i
      let a := if done then { a with act := some i, target := none, since := none } else a
      let s := s.modArr t (fun _ => a)
      .next (if done && !(a.img i).heavy then releaseArr t s else s)

end Sys2Proof.Machine
end

