-- ==== Sys2Proof/Machine/Branch.lean ====
section
/-! DEFINITION. B-slot branches, loops, waits and system operations (R113 to R124, R384, R385, R410). A B operation
leaves its effects in the issue buffer; `commit` ends the issue. -/

namespace Sys2Proof.Machine

/-- Change the issue buffer of the current context. -/
def State.modBuf (s : State) (f : IssueBuf → IssueBuf) : State := s.modCx (fun c => { c with buf := f c.buf })

/-- A trap of the B slot. -/
def trapB (c : Cause) (addr : W64 := 0) : Res := .trap { cause := c, slot := 3, addr := addr }

/-- The address after this bundle (R30). -/
def Ctx.after (c : Ctx) : W64 := c.pc + BitVec.ofNat 64 c.len

/-- The target of BR and CALL (R113). -/
def brTarget (f : BJ) (c : Ctx) : W64 :=
  c.pc + (match f.ext with | some e => e.signExtend 64 | none => f.ofs.signExtend 64) * 4

/-- Take a branch to t, losing cycles (R114). -/
def take (t : W64) (lost : Nat) (s : State) : State :=
  s.modBuf (fun b => { b with next := some t, taken := true, lost := lost })

/-- BR (R113). -/
def opBr (f : BJ) (s : State) : Res := .ok (if s.cx.guardB f.gp f.gn then take (brTarget f s.cx) 1 s else s)

/-- CALL (R113): LINK takes the address after the bundle. -/
def opCall (f : BJ) (s : State) : Res :=
  .ok (if s.cx.guardB f.gp f.gn then
    (take (brTarget f s.cx) 1 s).modBuf (fun b => { b with crw := b.crw ++ [{ num := 4, mask := all64, val := s.cx.after }] })
  else s)

/-- An indirect branch to t (R53, R113). -/
def indirect (t : W64) (s : State) : Res :=
  if t.toNat % 4 ≠ 0 then .trap { cause := .illegalBundle, whole := true } else .ok (take t 2 s)

/-- RET (R113). -/
def opRet (f : BG) (s : State) : Res := if s.cx.guardB f.gp f.gn then indirect (s.cx.cr 4) s else .ok s
/-- BRX (R113). -/
def opBrx (f : BG) (s : State) : Res := if s.cx.guardB f.gp f.gn then indirect (s.cx.cr 5) s else .ok s

/-! ### Loops (R115 to R117) -/

/-- Set lcN: seen from the next position, and by the loop-end check of this bundle (R115, R116, R117). -/
def setLc (n : Nat) (v : BitVec 32) (s : State) : State :=
  s.modCx (fun c =>
    let c := c.deliver (.lc n) (v.setWidth 512) 1 3
    { c with buf := { c.buf with lcNow := (n, v) :: c.buf.lcNow } })

/-- A loop bundle with count `cnt` whose body ends END12 words on (R115). -/
def loopStart (n : Nat) (cnt : BitVec 32) (last : BitVec 12) (s : State) : Res :=
  let c := s.cx
  let e := c.pc + (last.setWidth 64) * 4
  let s := setLc n cnt s
  let s := s.modBuf (fun b => { b with loopb := (n, c.after) :: b.loopb, loope := (n, e) :: b.loope })
  if cnt = 0 then
    let (t, s) := s.afterBundle e
    .ok (s.modBuf (fun b => { b with next := some (t.getD e), lost := 1 }))
  else .ok s

/-- A loop bundle that skips its body holds while a landing keeps it from the header at its end (R115, R409). -/
def holdLoop (cnt : BitVec 32) (last : BitVec 12) (s : State) : Option State :=
  if cnt = 0 ∧ (s.afterBundle (s.cx.pc + (last.setWidth 64) * 4)).1 = none then some s else none

/-- A count or value field: CNT12 or the extension (R37). -/
def cntOf (cnt : BitVec 12) (e : Option W32) : BitVec 32 := match e with | some x => x | none => cnt.setWidth 32

/-- LOOP (R115). -/
def opLoop (f : BL) (s : State) : Res := loopStart f.lc.toNat (cntOf f.cnt f.ext) f.last s
/-- LOOPR (R115). -/
def opLoopr (f : BLr) (s : State) : Res := loopStart f.lc.toNat (s.cx.rlc f.lc.toNat) f.last s

/-- Whether a command produces queue entries (R222, R233). -/
def Cmd.queueing (k : Cmd) : Bool := k.fn / 8 % 4 != 0 && (k.op == 0x05 || k.op == 0x07)
/-- A handle of a context. -/
def Ctx.handle (c : Ctx) (h : Nat) : Handle := mapGet {} c.handles h
/-- Set a handle. -/
def Ctx.setHandle (c : Ctx) (h : Nat) (x : Handle) : Ctx := { c with handles := mapPut h x c.handles }

/-- The handle LOOPS names (R115). -/
def loopsHandle (f : BLs) : Nat := match f.ext with | some e => e.toNat % 16 | none => f.hnd.toNat

/-- The consumers of an element queue that still wait for an entry, in the order they asked (R233). -/
def Ctx.asking (c : Ctx) (h : Nat) : List Nat :=
  (c.handle h).asks.filter (fun a => a == 0 || c.handles.any (fun e => match e.2.cmds with
    | k :: _ => k.seq + 1 == a && !k.faulted && !k.cancel
    | [] => false))
/-- Whether a consumer may take the next entry of a queue: it asked first, or none did. -/
def Ctx.mayTake (c : Ctx) (h who : Nat) : Bool :=
  match c.asking h with | a :: _ => a == who | [] => true
/-- A consumer asks for an entry. -/
def Ctx.ask (c : Ctx) (h who : Nat) : Ctx :=
  let l := c.asking h
  c.setHandle h { c.handle h with asks := if l.elem who then l else l ++ [who] }
/-- It asks no more. -/
def Ctx.unask (c : Ctx) (h who : Nat) : Ctx := c.setHandle h { c.handle h with asks := (c.handle h).asks.filter (· != who) }

/-- The bundle of a context asks for no entry of any queue. -/
def Ctx.unaskAll (c : Ctx) : Ctx :=
  { c with handles := c.handles.map (fun h => (h.1, { h.2 with asks := h.2.asks.filter (· != 0) })) }

/-- LOOPS holds while its queue is empty and its stream still runs (R115) or another consumer asked before it (R233), and as
every loop bundle. -/
def holdLoops (f : BLs) (s : State) : Option State :=
  let n := loopsHandle f
  let h := s.cx.handle n
  if isGal s.cur then none
  else
    match h.queue with
    | [] => if h.cmds.any (·.queueing) then some (s.modCx (·.ask n 0)) else none
    | x :: _ => if s.cx.mayTake n 0 then holdLoop (fld x 0 32) f.last s else some (s.modCx (·.ask n 0))

/-- LOOPS (R115). -/
def opLoops (f : BLs) (s : State) : Res :=
  if isGal s.cur then trapB .illegalOp
  else
    let h := s.cx.handle (loopsHandle f)
    match h.queue with
    | [] => trapB .streamHandle
    | x :: t =>
      loopStart f.lc.toNat (fld x 0 32) f.last
        (s.modCx (·.setHandle (loopsHandle f) { h with queue := t, asks := h.asks.filter (· != 0) }))

/-- LCI (R117). -/
def opLci (f : BLc) (s : State) : Res := .ok (setLc f.lc.toNat (cntOf f.cnt f.ext) s)

/-! ### Predicate and mask logic (R118) -/

/-- The truth table on one bit position. -/
def plogBit (tt : BitVec 4) (x y : Bool) : Bool := tt.getLsbD (2 * x.toNat + y.toNat)

/-- The result of VMLOG: the truth table on each of 64 positions. -/
def vmlogVal (tt : BitVec 4) (x y : W64) : W64 :=
  (if tt.getLsbD 0 then ~~~x &&& ~~~y else 0) ||| (if tt.getLsbD 1 then ~~~x &&& y else 0) |||
  (if tt.getLsbD 2 then x &&& ~~~y else 0) ||| (if tt.getLsbD 3 then x &&& y else 0)

/-- PLOG (R118). -/
def opPlog (f : BLg) (s : State) : Res :=
  .ok (if s.cx.guardB f.gp f.gn then
    s.modCx (fun c => c.deliver (.p f.vd.toNat)
      ((ofBool (plogBit f.tt (c.rp f.va.toNat) (c.rp f.vb.toNat))).setWidth 512) 1 3)
  else s)

/-- VMLOG (R118). -/
def opVmlog (f : BLg) (s : State) : Res :=
  .ok (if s.cx.guardB f.gp f.gn then
    s.modCx (fun c => c.deliver (.vm f.vd.toNat) ((vmlogVal f.tt (c.rvm f.va.toNat) (c.rvm f.vb.toNat)).setWidth 512) 1 3)
  else s)

/-! ### Waits (R119 to R122, R410) -/

/-- Drop every read-buffer line of a context's handles (R288). -/
def Ctx.dropLines (c : Ctx) : Ctx := { c with handles := c.handles.map (fun h => (h.1, { h.2 with lines := [] })) }

/-- Observing the completion of a GRECV on one of the handles drops every line (R288, R368). -/
def Ctx.observe (c : Ctx) (on : Nat → Bool) : Ctx :=
  if c.grecvd.any on then { c.dropLines with grecvd := c.grecvd.filter (fun h => !on h) } else c

/-- A class above its limit (R119). -/
def above (n : Nat) (lim : BitVec 4) : Bool := lim != 15 && decide (lim.toNat < n)

/-- The hold of WAITC (R119); one that names a class its core has not traps first (R52, R349). What the bundle's earlier issues
left outstanding counts (log entry 98, DESIGN CHOICE). -/
def holdWaitc (f : BW) (s : State) : Option State :=
  let c := s.cx
  if c.guard f.gp && !(isGal s.cur && (f.nstr != 15 || f.narr != 15)) && (above c.ld f.nld || above c.st f.nst || above c.str f.nstr || above c.arr f.narr ||
      above c.sync f.nsync) then some s else none
/-- WAITC (R119): its hold is its effect, with the lines that observing a GRECV drops (R288); the stream and array classes do not exist on a gallery core (R349). -/
def opWaitc (f : BW) (s : State) : Res :=
  if isGal s.cur && (f.nstr != 15 || f.narr != 15) then trapB .illegalOp
  else .ok (if s.cx.guard f.gp && f.nstr == 0 then s.modCx (·.observe (fun _ => true)) else s)

/-- The hold of JOIN (R120). -/
def holdJoin (f : BG) (s : State) : Option State :=
  if !isGal s.cur && s.cx.guardB f.gp f.gn && s.cx.jcnt != 0 then some s else none
/-- JOIN (R120). -/
def opJoin (_ : BG) (s : State) : Res := if isGal s.cur then trapB .illegalOp else .ok s

/-- The hold of EVWAIT (R120). -/
def holdEvwait (f : BMa) (s : State) : Option State :=
  if !isGal s.cur && s.cx.guardB f.gp f.gn && (s.cx.cr 7 &&& f.mask.setWidth 64) == 0 then some s else none
/-- EVWAIT (R120): clears nothing. -/
def opEvwait (f : BMa) (s : State) : Res :=
  if isGal s.cur then trapB .illegalOp
  else .ok (if s.cx.guardB f.gp f.gn && f.mask.getLsbD 4 && (s.cx.cr 7).getLsbD 4 then s.modCx (·.observe (fun _ => true)) else s)

/-- The number of YIELD and CALWAIT: FN or the extension. -/
def nOf (f : BNx) : Nat := match f.ext with | some e => e.toNat | none => f.n.toNat

/-- YIELD (R122). -/
def opYield (f : BNx) (s : State) : Res :=
  .ok (if s.cx.guardB f.gp f.gn then s.modBuf (fun b => { b with final := .yield (nOf f) }) else s)

/-- The ticks of CALWAIT (R410): 16 × FN, or the extension. -/
def calTicks (f : BNx) : Nat := match f.ext with | some e => e.toNat | none => 16 * f.n.toNat
/-- The hold of CALWAIT (R410). -/
def holdCalwait (f : BNx) (s : State) : Option State :=
  if s.cx.guardB f.gp f.gn && calTicks f ≤ 7520 && !s.calClear (calTicks f) then some s else none
/-- CALWAIT (R410). -/
def opCalwait (f : BNx) (s : State) : Res :=
  if s.cx.guardB f.gp f.gn && 7520 < calTicks f then trapB .paramRange else .ok s

/-- IFENCE (R124): control-register writes take effect at the end of their own issue, so nothing is left to wait for; the
text fetched ahead is discarded. -/
def opIfence (f : BG) (s : State) : Res :=
  .ok (if s.cx.guardB f.gp f.gn then s.modCx (fun c => { c with text := [] }) else s)

/-! ### System operations (R51, R123, R384, R385) -/

/-- Leave a final act, if the guard holds. -/
def finalB (gp : BitVec 4) (gn : BitVec 1) (x : Final) (s : State) : Res :=
  .ok (if s.cx.guardB gp gn then s.modBuf (fun b => { b with final := x }) else s)

/-- EXIT (R123). -/
def opExit (f : BN) (s : State) : Res := finalB f.gp f.gn (.exit f.n.toNat) s
/-- STKCLR (R51). -/
def opStkclr (f : BG) (s : State) : Res := finalB f.gp f.gn .clear s
/-- TRAP (R384). -/
def opTrap (f : BN) (s : State) : Res := finalB f.gp f.gn (.soft .software f.n.toNat) s

/-- DBGCTL of a tile (R453). -/
def wDBGCTL (t : Nat) : Nat := 0x10000 + 256 * t + 0x58
/-- Whether halting on BKPT is enabled for a context (R453). -/
def State.haltable (s : State) : Bool :=
  !isGal s.cur && (s.win.read (wDBGCTL (tileOf s.cur))).getLsbD (s.cur % 2)

/-- BKPT (R384): halts the context, or acts as TRAP with `BREAKPOINT`. -/
def opBkpt (f : BN) (s : State) : Res :=
  finalB f.gp f.gn (if s.haltable then .halt f.n.toNat else .soft .breakpoint f.n.toNat) s

/-- The hold of ERET (R385): the data of every handler result is present. -/
def holdEret (f : BEr) (s : State) : Option State :=
  if s.cx.guardB f.gp f.gn && s.cx.inh && s.cx.pend.any (fun e => !e.arrived) then some s else none
/-- ERET (R385); outside a handler it traps only where its guard holds (log entry 95, DESIGN CHOICE). -/
def opEret (f : BEr) (s : State) : Res :=
  if !s.cx.guardB f.gp f.gn then .ok s
  else if !s.cx.inh then trapB .illegalOp
  else if (s.cx.cr 0x81).getLsbD 1 && (s.cx.cr 0x83).toNat % 4 != 0 then
    .trap { cause := .illegalBundle, whole := true }
  else finalB f.gp f.gn (.eret (f.skip == 1)) s

/-- The hold of SVC (R384): the request is sent once, and its reply waits. -/
def holdSvc (f : BSv) (s : State) : Option State :=
  if !s.cx.guardB f.gp f.gn then none
  else
    match s.cx.hold with
    | .reply _ => none
    | _ =>
      let (n, s') := s.fresh
      some (s'.modCx (fun c => { c with hold := .reply (Config.svcReply f.n.toNat (c.rvm f.va.toNat) n) }))
/-- SVC (R384). -/
def opSvc (f : BSv) (s : State) : Res :=
  if !s.cx.guardB f.gp f.gn then .ok s
  else
    match s.cx.hold with
    | .reply v => .ok (s.modCx (fun c => { c.deliver (.vm f.vd.toNat) (v.setWidth 512) 1 3 with hold := .none }))
    | _ => .ok s

/-! ### Outcomes -/

/-- BR alone (R113). -/
def execBr (f : BJ) (s : State) : Host.Outcome State Fault Refusal := finishHold s none (opBr f s)
/-- CALL alone (R113). -/
def execCall (f : BJ) (s : State) : Host.Outcome State Fault Refusal := finishHold s none (opCall f s)
/-- RET alone (R113). -/
def execRet (f : BG) (s : State) : Host.Outcome State Fault Refusal := finishHold s none (opRet f s)
/-- BRX alone (R113). -/
def execBrx (f : BG) (s : State) : Host.Outcome State Fault Refusal := finishHold s none (opBrx f s)
/-- LOOP alone (R115). -/
def execLoop (f : BL) (s : State) : Host.Outcome State Fault Refusal := finishHold s (holdLoop (cntOf f.cnt f.ext) f.last s) (opLoop f s)
/-- LOOPR alone (R115). -/
def execLoopr (f : BLr) (s : State) : Host.Outcome State Fault Refusal := finishHold s (holdLoop (s.cx.rlc f.lc.toNat) f.last s) (opLoopr f s)
/-- LOOPS alone (R115). -/
def execLoops (f : BLs) (s : State) : Host.Outcome State Fault Refusal := finishHold s (holdLoops f s) (opLoops f s)
/-- LCI alone (R117). -/
def execLci (f : BLc) (s : State) : Host.Outcome State Fault Refusal := finishHold s none (opLci f s)
/-- PLOG alone (R118). -/
def execPlog (f : BLg) (s : State) : Host.Outcome State Fault Refusal := finishHold s none (opPlog f s)
/-- VMLOG alone (R118). -/
def execVmlog (f : BLg) (s : State) : Host.Outcome State Fault Refusal := finishHold s none (opVmlog f s)
/-- WAITC alone (R119). -/
def execWaitc (f : BW) (s : State) : Host.Outcome State Fault Refusal := finishHold s (holdWaitc f s) (opWaitc f s)
/-- JOIN alone (R120). -/
def execJoin (f : BG) (s : State) : Host.Outcome State Fault Refusal := finishHold s (holdJoin f s) (opJoin f s)
/-- EVWAIT alone (R120). -/
def execEvwait (f : BMa) (s : State) : Host.Outcome State Fault Refusal := finishHold s (holdEvwait f s) (opEvwait f s)
/-- YIELD alone (R122). -/
def execYield (f : BNx) (s : State) : Host.Outcome State Fault Refusal := finishHold s none (opYield f s)
/-- CALWAIT alone (R410). -/
def execCalwait (f : BNx) (s : State) : Host.Outcome State Fault Refusal := finishHold s (holdCalwait f s) (opCalwait f s)
/-- IFENCE alone (R124). -/
def execIfence (f : BG) (s : State) : Host.Outcome State Fault Refusal := finishHold s none (opIfence f s)
/-- EXIT alone (R123). -/
def execExit (f : BN) (s : State) : Host.Outcome State Fault Refusal := finishHold s none (opExit f s)
/-- STKCLR alone (R51). -/
def execStkclr (f : BG) (s : State) : Host.Outcome State Fault Refusal := finishHold s none (opStkclr f s)
/-- TRAP alone (R384). -/
def execTrap (f : BN) (s : State) : Host.Outcome State Fault Refusal := finishHold s none (opTrap f s)
/-- BKPT alone (R384). -/
def execBkpt (f : BN) (s : State) : Host.Outcome State Fault Refusal := finishHold s none (opBkpt f s)
/-- ERET alone (R385). -/
def execEret (f : BEr) (s : State) : Host.Outcome State Fault Refusal := finishHold s (holdEret f s) (opEret f s)
/-- SVC alone (R384). -/
def execSvc (f : BSv) (s : State) : Host.Outcome State Fault Refusal := finishHold s (holdSvc f s) (opSvc f s)
/-- BNOP (R50): no effect. -/
def execBnop (s : State) : Host.Outcome State Fault Refusal := .next s

end Sys2Proof.Machine
end

