-- ==== Sys2Proof/Machine/Sync.lean ====
section
/-! DEFINITION. Synchronisation (R305 to R324): binding tables, sync engines, waits, releases, atomics, fences and
priority lending. The scratchpad stores of an issue have been performed when it ends, but for those behind a load that
waits (R20), and every joined operation's writes when it completed, so a RELEASE and a FENCE find nothing else to wait for
(log entry 2). -/

namespace Sys2Proof.Machine

/-! ### Pointers and lines -/

/-- The checks of R309 on an object pointer. -/
def State.checkObj (s : State) (p : W64) : Option Cause :=
  if ptrCode p ≠ 12 then some .spaceForeign
  else if !mbzOk p then some .spaceRange
  else if !s.named (fld p 32 8).toNat then some .spaceRange
  else none

/-- The engine of an object (R305): its die of this package, or 2 for another package. -/
def State.engineOf (s : State) (p : W64) : Nat :=
  if (fld p 32 8).toNat = s.pkgnum then (fld p 31 1).toNat else 2

/-- The key of an object. -/
def objKey (asid : Nat) (p : W64) : Nat := asid * 2 ^ 64 + p.toNat

/-- The offset that a global or pool pointer names in its space. -/
def farOff (p : W64) : Nat := if ptrCode p = 14 then (fld p 0 45).toNat else (fld p 0 56).toNat
/-- Whether a line overlaps a bound region by its address (R310). -/
def Binding.covers (b : Binding) (l : Line) : Bool :=
  decide (l.va < b.base.toNat + b.len.toNat) && decide (b.base.toNat < l.va + 64)
/-- Where an offset of the current step lies now in physical memory, for a read or else a write. -/
def State.liesAt (s : State) (pool : Bool) (off : Nat) : Option Nat :=
  let c := s.cx
  let at_ := fun (w : Bool) => ({ s with landing := none }.xlate s.cur c.asid c.gen pool off w).1
  match at_ false, at_ true with
  | .ok pa, _ => some pa
  | _, .ok pa => some pa
  | _, _ => none
/-- Whether a line holds bytes of a bound region, under whatever address it was filled: some page of the region maps them. -/
def State.boundLine (s : State) (b : Binding) (l : Line) : Bool :=
  let pool := ptrCode b.base == 14
  let lo := farOff b.base
  let hi := lo + b.len.toNat
  b.covers l || ((ptrCode b.base == 0 || pool) &&
    (List.range ((hi - 1) / 65536 + 1 - lo / 65536)).any (fun i =>
      let p := max lo ((lo / 65536 + i) * 65536)
      match s.liesAt pool p with
      | some pa => decide (l.pa < pa + (min hi ((lo / 65536 + i + 1) * 65536) - p)) && decide (pa < l.pa + 64)
      | none => false))

/-- Drop the current context's lines that hold bytes of a region bound to an object (R288, R295). -/
def dropBound (obj : W64) (s : State) : State :=
  let bs := s.cx.binds.filter (fun b => b.obj == obj)
  s.modCx (fun c =>
    { c with handles := c.handles.map (fun h => (h.1, { h.2 with lines := h.2.lines.filter (fun l => !bs.any (fun b => s.boundLine b l)) })) })

/-! ### Sending requests -/

/-- Send a request to the engine of its object, by a port if it is another package's (R444). -/
def State.resend (s : State) (r : SyncReq) : State :=
  let d := s.engineOf r.ptr
  let port := if d = 2 then s.portTo (fld r.ptr 32 8).toNat 1 (fld r.ptr 3 29).toNat else r.port
  s.modDie d (fun D => { D with queue := D.queue ++ [{ r with port := port }] })
/-- The same for a request that is issued now. -/
def State.sendSync (s : State) (r : SyncReq) : State := s.resend { r with at_ := s.tick }
/-- A request that an operation of the current context makes: it goes out when the accesses before its issue have been
performed, and after the requests before it (R293). -/
def State.askSync (s : State) (r : SyncReq) : State :=
  let r := { r with at_ := s.tick }
  if s.behind s.cur s.cx.iss || !s.cx.syq.isEmpty then s.modCx (fun c => { c with syq := c.syq ++ [(c.iss, r)] }) else s.resend r
/-- The requests of the current context that wait no more go out, in order. -/
def flushSync (s : State) : State :=
  let go := s.cx.syq.takeWhile (fun e => !s.behind s.cur e.1)
  go.foldl (fun s e => s.resend { e.2 with who := .ctx s.cur }) (s.modCx (fun c => { c with syq := c.syq.drop go.length }))

/-- The operand: vmB, the VB field, or the extension (R309). -/
def syncOperand (imm : BitVec 1) (vb : BitVec 4) (e : Option W32) (c : Ctx) : W64 :=
  if imm = 0 then c.rvm vb.toNat
  else match e with | some x => x.signExtend 64 | none => vb.setWidth 64

/-- The holder id of the running step (R319). -/
def Ctx.hid (c : Ctx) : W64 := c.cr 0x53

/-- The hold of a waiting form (R312, R314): the request is sent once, when its class has room (R110), and counts in it;
the bundle holds until it is answered. -/
def holdCond (guard : Bool) (p v : W64) (cond : Nat) (s : State) : Option State :=
  if !guard then none
  else
    match s.cx.hold with
    | .granted _ _ => none
    | .failed _ => none
    | .wait _ _ _ => some s
    | .retry _ _ => some s
    | _ =>
      if (s.checkObj p).isSome then none
      else if s.cx.sync = 4095 then some s
      else
        let s := s.askSync { who := .ctx s.cur, asid := s.cx.asid, ptr := p, op := .wait cond, v := v }
        some (s.modCx (fun c => { c with hold := .wait p cond v, sync := c.sync + 1 }))

/-- A waiting form whose hold has ended: the satisfying value is delivered, or the trap its answer brought is taken. -/
def opCond (guard : Bool) (p : W64) (vd : Option (BitVec 4)) (drop : Bool) (s : State) : Res :=
  if !guard then .ok s
  else
    match s.checkObj p with
    | some e => trapB e p
    | none =>
      match s.cx.hold with
      | .granted o _ =>
        let s := s.modCx (fun c =>
          let c := { c with hold := .none }
          match vd with | some d => c.deliver (.vm d.toNat) (o.setWidth 512) 1 3 | none => c)
        .ok (if drop then dropBound p s else s)
      | .failed e => trapB e p
      | _ => .ok s

/-! ### WAIT, ACQUIRE, RELEASE, atomics (R312 to R316) -/

/-- The condition code of ACQUIRE .GE and .EQ. -/
def acqCond (f : BSy) : Nat := if f.fn = 0 then 6 else 7

/-- The hold of WAIT. -/
def holdWait (f : BSy) (s : State) : Option State :=
  holdCond (s.cx.guardB f.gp f.gn) (s.cx.rvm f.va.toNat) (syncOperand f.imm f.vb f.ext s.cx) f.fn.toNat s
/-- WAIT (R314). -/
def opWait (f : BSy) (s : State) : Res :=
  opCond (s.cx.guardB f.gp f.gn) (s.cx.rvm f.va.toNat) (some f.vd) false s
/-- The hold of ACQUIRE .GE and .EQ. -/
def holdAcquire (f : BSy) (s : State) : Option State :=
  holdCond (s.cx.guardB f.gp f.gn) (s.cx.rvm f.va.toNat) (syncOperand f.imm f.vb f.ext s.cx) (acqCond f) s
/-- ACQUIRE .GE and .EQ (R312). -/
def opAcquire (f : BSy) (s : State) : Res :=
  opCond (s.cx.guardB f.gp f.gn) (s.cx.rvm f.va.toNat) (some f.vd) true s
/-- The hold of ACQUIRE.X. -/
def holdAcquireX (f : BPt) (s : State) : Option State :=
  if isGal s.cur then none
  else holdCond (s.cx.guardB f.gp f.gn) (s.cx.rvm f.va.toNat) s.cx.hid 5 s
/-- ACQUIRE.X (R312); not on a gallery core (R349). -/
def opAcquireX (f : BPt) (s : State) : Res :=
  if isGal s.cur then trapB .illegalOp
  else opCond (s.cx.guardB f.gp f.gn) (s.cx.rvm f.va.toNat) none true s

/-- The hold of a form that counts in the sync class: the class at 4,095 (R110). -/
def holdSync (guard : Bool) (s : State) : Option State := if guard && s.cx.sync == 4095 then some s else none
/-- The hold of RELEASE.X, which a gallery core does not have (R52, R349). -/
def holdReleaseX (f : BPt) (s : State) : Option State := holdSync (s.cx.guardB f.gp f.gn && !isGal s.cur) s

/-- A request that returns nothing (R313, R316). -/
def sendNr (guard : Bool) (p v : W64) (op : SyncOp) (s : State) : Res :=
  if !guard then .ok s
  else
    match s.checkObj p with
    | some e => trapB e p
    | none =>
      .ok ((s.askSync { who := .ctx s.cur, asid := s.cx.asid, ptr := p, op := op, v := v }).modCx
        (fun c => { c with sync := c.sync + 1 }))

/-- A request that returns the old value to vmD (R316): its pending result arrives when the engine has performed it. -/
def sendRet (guard : Bool) (p v : W64) (op : SyncOp) (vd : BitVec 4) (s : State) : Res :=
  if !guard then .ok s
  else
    match s.checkObj p with
    | some e => trapB e p
    | none =>
      let tag := s.cx.reqs + 1
      .ok ((s.askSync { who := .ctx s.cur, asid := s.cx.asid, ptr := p, op := op, v := v, tag := tag, ret := true }).modCx
        (fun c =>
          { c.push { dst := .vm vd.toNat, val := 0, mask := BitVec.allOnes 512, pos := c.now + 1, slot := 3,
                     arrived := false, tag := tag + 1,
                     ready := s.tick + (if s.engineOf p = dieOf s.cur then 48 else 88) } with
            sync := c.sync + 1, reqs := tag }))

/-- RELEASE .ADD and .SET (R313). -/
def opRelease (f : BSn) (s : State) : Res :=
  sendNr (s.cx.guardB f.gp f.gn) (s.cx.rvm f.va.toNat) (syncOperand f.imm f.vb f.ext s.cx)
    (if f.fn = 0 then .relAdd else .relSet) s
/-- RELEASE.X (R313); not on a gallery core (R349). -/
def opReleaseX (f : BPt) (s : State) : Res :=
  if isGal s.cur then trapB .illegalOp
  else sendNr (s.cx.guardB f.gp f.gn) (s.cx.rvm f.va.toNat) s.cx.hid .relX s
/-- ATOM (R316). -/
def opAtom (f : BSy) (s : State) : Res :=
  sendRet (s.cx.guardB f.gp f.gn) (s.cx.rvm f.va.toNat) (syncOperand f.imm f.vb f.ext s.cx) (.atom f.fn.toNat) f.vd s
/-- ATOMNR (R316). -/
def opAtomnr (f : BSn) (s : State) : Res :=
  sendNr (s.cx.guardB f.gp f.gn) (s.cx.rvm f.va.toNat) (syncOperand f.imm f.vb f.ext s.cx) (.atom f.fn.toNat) s
/-- ATOMCAS (R316): vmD is read as the expected value. -/
def opAtomcas (f : BCa) (s : State) : Res :=
  sendRet (s.cx.guardB f.gp f.gn) (s.cx.rvm f.va.toNat) (s.cx.rvm f.vb.toNat) (.cas (s.cx.rvm f.vd.toNat)) f.vd s

/-! ### BIND, UNBIND, FENCE (R310, R311, R315) -/

/-- The checks of BIND after the object pointer (R310). -/
def State.checkBind (s : State) (base len : W64) : Option Cause :=
  let c := s.cx
  let code := ptrCode base
  if !(code == 0 || code == 10 || code == 14) then some .spaceForeign
  else if !mbzOk base then some .spaceRange
  else if code = 10 ∧ (isGal s.cur ∨ ptrCluster base ≠ clusterOf (tileOf s.cur)) then some .spaceForeign
  else
    let range : Option Cause :=
      if code = 10 then
        let K := s.cluster (clusterOf (tileOf s.cur))
        reach (K.owns c.asid) K.floor 0x600000 c.csBase c.csSize (offA base) (max len.toNat 1)
      else none
    match range with
    | some e => some e
    | none =>
      if base.toNat % 64 ≠ 0 then some .misaligned
      else if len.toNat = 0 ∨ len.toNat % 64 ≠ 0 ∨ 2 ^ 40 < len.toNat then some .paramRange
      else if 16 ≤ c.binds.length then some .bindFull
      else none

/-- BIND (R310). -/
def opBind (f : BBi) (s : State) : Res :=
  if !s.cx.guardB f.gp f.gn then .ok s
  else
    let o := s.cx.rvm f.va.toNat
    let base := s.cx.rvm f.vb.toNat
    let len := s.cx.rvm f.vd.toNat
    match s.checkObj o with
    | some e => trapB e o
    | none =>
      match s.checkBind base len with
      | some e => trapB e (if e = .bindFull ∨ e = .paramRange then 0 else base)
      | none =>
        .ok (s.modCx (fun c =>
          { c with binds := c.binds ++ [{ obj := o, base := base, len := len, scope := f.scope.toNat }] }))

/-- UNBIND (R311). -/
def opUnbind (f : BPt) (s : State) : Res :=
  if !s.cx.guardB f.gp f.gn then .ok s
  else
    match s.checkObj (s.cx.rvm f.va.toNat) with
    | some e => trapB e (s.cx.rvm f.va.toNat)
    | none => .ok (s.modCx (fun c => { c with binds := c.binds.filter (fun b => b.obj != c.rvm f.va.toNat) }))
/-- UNBIND.ALL (R311). -/
def opUnbindAll (f : BG) (s : State) : Res :=
  .ok (if s.cx.guardB f.gp f.gn then s.modCx (fun c => { c with binds := [] }) else s)

/-- The hold of FENCE (R296, R315): an earlier read of the program or its handler still waits, or a store behind one. -/
def holdFence (f : BFe) (s : State) : Option State :=
  if s.cx.guardB f.gp f.gn && (s.cx.results.any (fun e => e.fe.isSome && !e.arrived) || !s.cx.stq.isEmpty) then some s else none
/-- FENCE (R315): drops lines at DIE, PACKAGE and SYSTEM scope. -/
def opFence (f : BFe) (s : State) : Res :=
  .ok (if s.cx.guardB f.gp f.gn && 3 ≤ f.scope.toNat then s.modCx (·.dropLines) else s)

/-! ### The engine (R299, R306, R308, R312 to R318) -/

/-- Whether a condition holds of a value (R312, R314). -/
def condHolds (cond : Nat) (o v : W64) : Bool :=
  match cond with
  | 0 => o == v
  | 7 => o == v
  | 1 => o != v
  | 2 => decide (v.toNat ≤ o.toNat)
  | 6 => decide (v.toNat ≤ o.toNat)
  | 3 => decide (o.toNat < v.toNat)
  | 4 => (o &&& v) != 0
  | _ => o == 0

/-- The new value of an atomic by FN (R316). -/
def atomVal (fn : Nat) (o v : W64) : W64 :=
  match fn with
  | 0 => o + v
  | 1 => o &&& v
  | 2 => o ||| v
  | 3 => o ^^^ v
  | 4 => if o.toNat ≤ v.toNat then o else v
  | 5 => if o.toNat ≤ v.toNat then v else o
  | 6 => if sgn o ≤ sgn v then o else v
  | 7 => if sgn o ≤ sgn v then v else o
  | _ => v

/-- The value an operation leaves, waits apart. -/
def syncNew (op : SyncOp) (o v : W64) : W64 :=
  match op with
  | .atom fn => atomVal fn o v
  | .cas e => if o = e then v else o
  | .relAdd => o + v
  | .relSet => v
  | .signal => v
  | .relX => if o = v then 0 else o
  | .wait _ => o
  | .read => o

/-- Tell a waiter that its wait has succeeded: it leaves its class. -/
def grantTo (w : SyncFrom) (o : W64) (s : State) : State :=
  match w with
  | .ctx n =>
    s.modCtx n (fun c =>
      let x := match c.hold with | .wait p 5 _ => some p | _ => none
      { c with hold := .granted o x, sync := c.sync - 1 })
  | _ => s

/-- Serve the waiters of an object that a value satisfies (R312): every waiter but .X, then the first .X if the value is
0, which sets the object; then once more at the new value. -/
def serveWaiters (obj : SyncObj) (s : State) : SyncObj × State :=
  let once := fun (obj : SyncObj) (s : State) =>
    let ok := obj.waiters.filter (fun w => w.cond != 5 && condHolds w.cond obj.val w.v)
    let s := ok.foldl (fun s w => grantTo w.who obj.val s) s
    ({ obj with waiters := obj.waiters.filter (fun w => w.cond == 5 || !condHolds w.cond obj.val w.v) }, s)
  let (obj, s) := once obj s
  if obj.val = 0 then
    match obj.waiters.find? (fun w => w.cond == 5) with
    | none => (obj, s)
    | some w =>
      let s := grantTo w.who 0 s
      once { val := w.v, waiters := obj.waiters.erase w } s
  else (obj, s)

/-- Entries of the overflow area (R307). -/
def State.overCap (s : State) (d : Nat) : Nat := (fld (s.win.read (wSYNCOVF + 8 * d)) 0 16).toNat * 2048

/-- Find a place for an object that needs an entry (R306), moving the least recently used entry without a waiter to the
overflow area when the SRAM is full; none when both are full (R308). -/
def placeObj (cap : Nat) (key : Nat) (d : Die) : Option Die :=
  if d.sram.elem key then some { d with sram := key :: d.sram.erase key }
  else if d.ovfl.elem key || d.virt.elem key then some d
  else if d.sram.length < 65536 then some { d with sram := key :: d.sram }
  else if d.ovfl.length < cap then
    match d.sram.reverse.find? (fun k => (mapGet {} d.objs k).waiters.isEmpty) with
    | some k => some { d with sram := key :: d.sram.erase k, ovfl := k :: d.ovfl }
    | none => none
  else none

/-- The waiters of other packages in a list (R318). -/
def peerWaiters (l : List Waiter) : Nat := (l.filter (fun w => match w.who with | .peer _ _ => true | _ => false)).length

/-- Store an object, giving up its entry when it holds 0 with no waiter (R305, R306). -/
def putObj (key : Nat) (o : SyncObj) (d : Die) : Die :=
  let d := { d with remote := d.remote - peerWaiters (mapGet {} d.objs key : SyncObj).waiters + peerWaiters o.waiters }
  if o.val = 0 ∧ o.waiters = [] then
    { d with objs := mapDel key d.objs, sram := d.sram.erase key, ovfl := d.ovfl.erase key, virt := d.virt.erase key }
  else { d with objs := mapPut key o d.objs }

/-- Take waiters from every object (R324, R446). -/
def Die.cutWaiters (gone : Nat → Waiter → Bool) (d : Die) : Die :=
  d.objs.foldl (fun D o =>
    if o.2.waiters.any (gone o.1) then putObj o.1 { o.2 with waiters := o.2.waiters.filter (fun w => !gone o.1 w) } D else D) d

/-- Answer the issuer of a performed request: the class count falls, and a returned value arrives (R309, R316). A
RELEASE.X that found another holder sets SYNCST.OWNER (R313). -/
def answer (r : SyncReq) (old : W64) (s : State) : State :=
  match r.who with
  | .ctx n =>
    s.modCtx n (fun c =>
      let c := if r.op = .relX ∧ old ≠ r.v then c.setCr 0x52 1 else c
      let here := fun (l : List Pend) => l.any (fun e => e.tag == r.tag + 1 && !e.arrived)
      if r.ret && (here c.pend || c.shadow.any (fun h => here h.pend)) then
        let upd := fun (l : List Pend) =>
          l.map (fun e => if e.tag = r.tag + 1 ∧ !e.arrived then { e with val := old.setWidth 512, tag := 1 } else e)
        { c with pend := upd c.pend, shadow := c.shadow.map (fun h => { h with pend := upd h.pend }) }
      else match r.op with
        | .wait _ => c
        | _ => { c with sync := c.sync - 1 })
  | .host => { s with win := (s.win.write (wSYNCHOST + 24) old).write (wSYNCHOST + 16)
                               (s.win.read (wSYNCHOST + 16) &&& 0x7FFFFFFFFFFFFFFF) }
  | _ => s

/-- Whether a request needs an entry that its object does not have: it gives a nonzero value or takes a waiter. -/
def needsEntry (r : SyncReq) (o : SyncObj) : Bool :=
  match r.op with
  | .wait cond => if condHolds cond o.val r.v then cond == 5 else true
  | op => syncNew op o.val r.v != 0

/-- Perform one request at engine d (R299). -/
def performSync (d : Nat) (r : SyncReq) (s : State) : State :=
  let key := objKey r.asid r.ptr
  let D := s.die d
  let o := mapGet {} D.objs key
  match r.op with
  | .wait cond =>
    if condHolds cond o.val r.v && (cond != 5 || !o.waiters.any (fun w => w.cond == 5)) then
      let o' := if cond = 5 then { o with val := r.v } else o
      let s := grantTo r.who o.val s
      let (o', s) := if cond = 5 then serveWaiters o' s else (o', s)
      s.modDie d (putObj key o')
    else s.modDie d (fun D => putObj key { o with waiters := o.waiters ++ [{ who := r.who, cond := cond, v := r.v, at_ := r.at_, port := r.port }] } D)
  | op =>
    let new := syncNew op o.val r.v
    let (o', s) := serveWaiters { o with val := new } s
    answer r o.val (s.modDie d (putObj key o'))

/-- The holder an object's value names (R319, R320): the step or saved step of that HID; else the step of the tile and
context in it. -/
def State.holderCtx (s : State) (v : W64) : Option Nat :=
  if !v.getLsbD 63 || (fld v 48 15).toNat != s.pkgnum then none
  else
    match s.ctxs.find? (fun p => !isGal p.1 && p.2.life != .free && p.2.hid == v) with
    | some p => some p.1
    | none => let x := (fld v 39 9).toNat; if (s.ctx x).life = .free then none else some x

/-- One round of lending (R320): each holder receives the EFF of the contexts that wait in WAIT or ACQUIRE.X on an
object naming it. -/
def lendRound (s : State) : State :=
  let waits : List (Nat × Nat) := s.dies.flatMap (fun d => d.2.objs.flatMap (fun o =>
    match s.holderCtx o.2.val with
    | none => []
    | some h => o.2.waiters.filterMap (fun w => match w.who with
      | .ctx n => if w.cond = 6 ∨ w.cond = 7 then none else some (n, h)
      | _ => none)))
  { s with ctxs := s.ctxs.map (fun p =>
      (p.1, { p.2 with loans := (waits.filter (fun w => w.2 == p.1)).map (fun w => (w.1, (s.ctx w.1).eff)) })) }

/-- Recompute every loan (R320): a chain passes on one holder a round, and no chain is longer than the contexts. -/
def State.relend (s : State) : State :=
  let s := { s with ctxs := s.ctxs.map (fun p => (p.1, { p.2 with loans := [] })) }
  (List.range s.ctxs.length).foldl (fun s _ => lendRound s) s

/-- Whether a request reads or writes the overflow area (R306): its object lies there, or an entry must move there. -/
def Die.usesArea (D : Die) (r : SyncReq) : Bool :=
  let key := objKey r.asid r.ptr
  D.ovfl.elem key ||
    (needsEntry r (mapGet {} D.objs key) && !D.sram.elem key && !D.virt.elem key && decide (65536 ≤ D.sram.length))

/-- Whether engine d can perform or park a request now: one for another package needs a port that is up (R446), and one that
needs the overflow area waits in a landing (R409). -/
def State.syncReady (s : State) (d : Nat) (r : SyncReq) : Bool :=
  if d = 2 then s.peerUp (fld r.ptr 32 8).toNat else s.landing.isNone || !(s.die d).usesArea r
/-- The place of the request that engine d takes next (R299, R409): the first that is ready and has no earlier one on its
object before it. -/
def State.syncNext (s : State) (d : Nat) : Option Nat :=
  let q := (s.die d).queue
  if s.tick < (s.die d).pause then none
  else (List.range q.length).find? (fun i => match q[i]? with
    | some r => s.syncReady d r && !(q.take i).any (fun e => objKey e.asid e.ptr == objKey r.asid r.ptr)
    | none => false)

/-- An operation meets a loss or a refusal on its way to another package (R445, R446): a wait leaves its class and ends in
its trap, and INTSTAT.LINK is set (R455). -/
def loseSync (r : SyncReq) (s : State) : State :=
  let s := s.raise 6
  match r.who with
  | .ctx n =>
    (match r.op with
     | .wait _ => s.modCtx n (fun c => { c with hold := .failed .dataLost, sync := c.sync - 1 })
     | _ =>
       if r.ret then
         s.modCtx n (fun c =>
           let upd := fun (l : List Pend) => l.map (fun e =>
             if e.tag = r.tag + 1 ∧ !e.arrived then { e with lost := some r.ptr, tag := 1 } else e)
           { c with pend := upd c.pend, shadow := c.shadow.map (fun h => { h with pend := upd h.pend }) })
       else s.modCtx n (fun c => { c with sync := c.sync - 1 }))
  | .host => { s with win := s.win.write (wSYNCHOST + 16) (s.win.read (wSYNCHOST + 16) &&& 0x7FFFFFFFFFFFFFFF) }
  | _ => s

/-- Whether the table of remote waiters has no record for a request that takes one (R318): at another package, a free
value. -/
def State.tableFull (s : State) (d : Nat) (r : SyncReq) (o : SyncObj) : Bool × State :=
  match r.op with
  | .wait c =>
    if condHolds c o.val r.v then (false, s)
    else if d = 2 then (let (n, s) := s.fresh; (Config.remoteFull n, s))
    else
      (match r.who with
       | .peer _ _ => (decide (4096 ≤ (s.die d).remote), s)
       | _ => (false, s))
  | _ => (false, s)

/-- The request that its engine takes: performed, or parked when it needs an entry and both stores are full, raising
`SYNC_EXHAUST` (R308); a later request on a parked one's object waits behind it. -/
def performOrPark (d : Nat) (r : SyncReq) (s : State) : State :=
  let key := objKey r.asid r.ptr
  let D := s.die d
  let needs := d != 2 && needsEntry r (mapGet {} D.objs key)
  if D.parked.any (fun q => objKey q.asid q.ptr == key) || (needs && (placeObj (s.overCap d) key D).isNone) then
    s.modDie d (fun D => { D with parked := D.parked ++ [r], events := D.events ++ [(0x30, r.asid, r.ptr)] })
  else
    let s := if needs then s.modDie d (fun D => (placeObj (s.overCap d) key D).getD D) else s
    (performSync d r s).relend

/-- The object of a key as engine d finds it: one of another package holds what its owner's operations have left, which is a
free value (R317). -/
def ownerValue (d key : Nat) (s : State) : State :=
  if d = 2 then
    let (n, s) := s.fresh
    s.modDie 2 (fun D => { D with objs := mapPut key { (mapGet {} D.objs key : SyncObj) with val := Config.peerObject n } D.objs })
  else s
/-- The owners of other packages' objects operate on those that have waiters here, and the links bring the answers (R317,
R318). -/
def ownerActs (s : State) : State :=
  let keys := ((s.die 2).objs.filter (fun o => !o.2.waiters.isEmpty && s.peerUp (o.1 / 2 ^ 32 % 256))).map (·.1)
  (keys.foldl (fun s key =>
    let s := ownerValue 2 key s
    let (o, s) := serveWaiters (mapGet {} (s.die 2).objs key) s
    s.modDie 2 (putObj key o)) s).relend

/-- Engine d takes request i of its queue. Another package may refuse it, which is a free value (R445). A remote waiter that
finds the table full is sent again 1,024 cycles later, by its own package (R318). -/
def syncOperationOn (d i : Nat) (s : State) : State :=
  match (s.die d).queue[i]? with
  | none => s
  | some r =>
    let s := s.modDie d (fun D => { D with queue := D.queue.eraseIdx i })
    let (n, s') := s.fresh
    if d = 2 ∧ Config.peerRefuses n then loseSync r s'
    else
      let s := ownerValue d (objKey r.asid r.ptr) (if d = 2 then s' else s)
      match s.tableFull d r (mapGet {} (s.die d).objs (objKey r.asid r.ptr)) with
      | (true, s) =>
        (match r.who with
         | .ctx n => s.modCtx n (fun c => { c with hold := .retry (s.tick + 1024) r })
         | _ => s)
      | (false, s) => performOrPark d r s

/-- SYNC_OPERATION (R299): engine `unit` takes the next request; with none, record 2 stands for the owners of other packages'
objects. -/
def execSyncOperation (s : State) : Host.Outcome State Fault Refusal :=
  .next (match s.syncNext s.unit with
    | some i => syncOperationOn s.unit i s
    | none => if s.unit = 2 then ownerActs s else s)

/-- PARKED_SYNC_COMPLETE (R308): the supervisor virtualises the object of the oldest parked operation and completes
it; a remote waiter that finds the table full is answered with a retry (R318). -/
def execParkedSyncComplete (s : State) : Host.Outcome State Fault Refusal :=
  match (s.die s.unit).parked with
  | [] => .next s
  | r :: rest =>
    let key := objKey r.asid r.ptr
    let s' := s.modDie s.unit (fun D => { D with parked := rest, virt := if D.virt.elem key then D.virt else key :: D.virt })
    .next (match s'.tableFull s.unit r (mapGet {} (s'.die s.unit).objs key) with
      | (true, s) => s
      | (false, s) => (performSync s.unit r s).relend)

/-- REMOTE_WAITER_RETRY (R318): the issuing tile sends the refused wait again; LINKTO still counts from its issue. -/
def execRemoteWaiterRetry (s : State) : Host.Outcome State Fault Refusal :=
  match s.cx.hold with
  | .retry t r =>
    let k := match r.op with | .wait k => k | _ => 0
    .next (if t ≤ s.tick then (s.resend r).modCx (fun c => { c with hold := .wait r.ptr k r.v }) else s)
  | _ => .next s

/-- Whether a request is a wait. -/
def SyncReq.isWait (r : SyncReq) : Bool := match r.op with | .wait _ => true | _ => false
/-- The waits of a party leave an engine (R324). -/
def dropWaits (who : SyncFrom) (d : Nat) (s : State) : State :=
  let keep := fun (r : SyncReq) => !(r.who == who && r.isWait)
  s.modDie d (fun D => { D with queue := D.queue.filter keep, parked := D.parked.filter keep }.cutWaiters (fun _ w => w.who == who))

/-- A grant of .X to the holder id `hid` is undone, and the next waiter served (R324). -/
def undoGrant (d key : Nat) (hid : W64) (s : State) : State :=
  let o : SyncObj := mapGet {} (s.die d).objs key
  if o.val = hid then
    let (o', s) := serveWaiters { o with val := 0 } s
    s.modDie d (putObj key o')
  else s

/-- Withdraw the waiting request of context n (R324): a waiter leaves its object; a grant of .X is undone in the same
operation, and the next waiter is served. -/
def withdraw (n : Nat) (grantedX : Option W64) (s : State) : State :=
  let s := (dropWaits (.ctx n) 2 (dropWaits (.ctx n) 1 (dropWaits (.ctx n) 0 s)))
  let s := match grantedX with
    | none => s
    | some p => undoGrant (s.engineOf p) (objKey (s.ctx n).asid p) (s.ctx n).hid s
  (s.modCtx n (fun c =>
    { c with hold := .none, syq := c.syq.filter (fun e => !e.2.isWait), sync := match c.hold with | .wait _ _ _ => c.sync - 1 | .retry _ _ => c.sync - 1 | _ => c.sync })).relend

/-- A bundle's requests when it does not issue (R324): a wait is withdrawn, a grant of .X undone; a supervisor request
stays sent (R384). -/
def abandon (n : Nat) (s : State) : State :=
  match (s.ctx n).hold with
  | .granted _ x => withdraw n x s
  | .wait _ _ _ => withdraw n none s
  | .retry _ _ => withdraw n none s
  | .failed _ => s.modCtx n (fun c => { c with hold := .none })
  | _ => s

/-! ### Outcomes -/

/-- WAIT alone (R314). -/
def execWait (f : BSy) (s : State) : Host.Outcome State Fault Refusal :=
  finishHold s (holdWait f s) (opWait f s)
/-- ACQUIRE alone (R312). -/
def execAcquire (f : BSy) (s : State) : Host.Outcome State Fault Refusal :=
  finishHold s (holdAcquire f s) (opAcquire f s)
/-- ACQUIRE.X alone (R312). -/
def execAcquireX (f : BPt) (s : State) : Host.Outcome State Fault Refusal :=
  finishHold s (holdAcquireX f s) (opAcquireX f s)
/-- RELEASE alone (R313). -/
def execRelease (f : BSn) (s : State) : Host.Outcome State Fault Refusal :=
  finishHold s (holdSync (s.cx.guardB f.gp f.gn) s) (opRelease f s)
/-- RELEASE.X alone (R313). -/
def execReleaseX (f : BPt) (s : State) : Host.Outcome State Fault Refusal :=
  finishHold s (holdReleaseX f s) (opReleaseX f s)
/-- ATOM alone (R316). -/
def execAtom (f : BSy) (s : State) : Host.Outcome State Fault Refusal :=
  finishHold s (holdSync (s.cx.guardB f.gp f.gn) s) (opAtom f s)
/-- ATOMNR alone (R316). -/
def execAtomnr (f : BSn) (s : State) : Host.Outcome State Fault Refusal :=
  finishHold s (holdSync (s.cx.guardB f.gp f.gn) s) (opAtomnr f s)
/-- ATOMCAS alone (R316). -/
def execAtomcas (f : BCa) (s : State) : Host.Outcome State Fault Refusal :=
  finishHold s (holdSync (s.cx.guardB f.gp f.gn) s) (opAtomcas f s)
/-- BIND alone (R310). -/
def execBind (f : BBi) (s : State) : Host.Outcome State Fault Refusal :=
  finishHold s none (opBind f s)
/-- UNBIND alone (R311). -/
def execUnbind (f : BPt) (s : State) : Host.Outcome State Fault Refusal :=
  finishHold s none (opUnbind f s)
/-- UNBIND.ALL alone (R311). -/
def execUnbindAll (f : BG) (s : State) : Host.Outcome State Fault Refusal :=
  finishHold s none (opUnbindAll f s)
/-- FENCE alone (R315). -/
def execFence (f : BFe) (s : State) : Host.Outcome State Fault Refusal :=
  finishHold s (holdFence f s) (opFence f s)

end Sys2Proof.Machine
end

