-- ==== Sys2Proof/Machine/VecMem.lean ====
section
/-! DEFINITION. Vector scratchpad accesses (R140 to R144) and bank formats (R265). -/

namespace Sys2Proof.Machine

/-- The address of a VL operation at its first issue (R141). -/
def vlAddr (f : VL) (c : Ctx) : W64 :=
  (c.rv f.va.toNat).extractLsb' 0 64 +
    (match f.ext with | some e => e.signExtend 64 | none => f.ofs.signExtend 64 * 64)

/-- The bank of an offset (R258), or none beyond every bank. -/
def bankOf : PadId → Nat → Option Nat
  | .tile _, o => if o < 0x40000 then some (o / 0x4000) else none
  | .cluster _, o => if o < 0x600000 then some (o / 0x20000) else none
  | .gal _, _ => none

/-- The format nibble of a bank: a TY code or 0xF for raw (R265). -/
def State.bankNib (s : State) (pad : PadId) (b : Nat) : Nat :=
  match pad with
  | .tile t => nib ((s.tile t).crs.read 0x30) b
  | .cluster k => nib ((s.cluster k).crs.read (0x31 + b / 16)) (b % 16)
  | .gal _ => 0xF

/-- The format nibble of the bank at an offset; raw beyond every bank. -/
def State.fmtAt (s : State) (l : PadLoc) : Nat :=
  match bankOf l.pad l.off with
  | some b => s.bankNib l.pad b
  | none => 0xF

/-- Where base lies: causes 1 and 2 of R100 on its space code and id, and `SPACE_RANGE` beyond every bank (R142 check
1). -/
def State.baseLoc (s : State) (p : W64) : Except Cause PadLoc :=
  let c := s.cx
  let t := tileOf s.cur
  let go := fun (l : PadLoc) => if (bankOf l.pad l.off).isNone then Except.error Cause.spaceRange else .ok l
  match ptrCode p with
  | 8 => if !mbzOk p then .error .spaceRange else go ⟨.tile t, c.pvBase + off8 p⟩
  | 9 => if !mbzOk p then .error .spaceRange else if ptrTile p ≠ t then .error .spaceForeign else go ⟨.tile t, off9 p⟩
  | 10 => if !mbzOk p then .error .spaceRange
          else if ptrCluster p ≠ clusterOf t then .error .spaceForeign
          else go ⟨.cluster (clusterOf t), offA p⟩
  | _ => .error .spaceForeign

/-- The shape of one vector access. -/
inductive VKind where
  | contig | indexed | single
  deriving DecidableEq, Repr

/-- The element pointers of the active lanes, ascending (R141). -/
def vlElems (k : VKind) (f : VL) (c : Ctx) (p : W64) (wm : Nat) : List (Nat × W64) :=
  let wd := tyWidth f.ty.toNat
  let ls := c.lanes f.vm (512 / wd)
  match k with
  | .contig => ls.map (fun i => (i, p + BitVec.ofNat 64 (i * (wm / 8))))
  | .indexed => ls.map (fun i => (i, p + BitVec.ofInt 64 (sext (lane wd i (c.rv f.vb.toNat)) wd * (wm / 8 : Nat))))
  | .single => match ls with | [] => [] | i :: _ => [(i, p)]

/-- Check the active elements in order (R142 check 4). -/
def State.checkElems (s : State) (k : VKind) (fmt wm : Nat) (la : Bool) : List (Nat × W64) → Except TrapInfo (List Cell)
  | [] => .ok []
  | (i, q) :: rest =>
    match s.localLoc q (wm / 8) with
    | .error e => .error { cause := e, slot := 1, addr := q }
    | .ok l =>
      if k ≠ .contig ∧ q.toNat % (wm / 8) ≠ 0 then .error { cause := .misaligned, slot := 1, addr := q }
      else if !la && (s.fmtAt l != fmt || s.fmtAt ⟨l.pad, l.off + wm / 8 - 1⟩ != fmt) then
        .error { cause := .bankFormat, slot := 1, addr := q }
      else
        match s.checkElems k fmt wm la rest with
        | .error e => .error e
        | .ok cs => .ok (⟨l.pad, l.off, wm / 8, i⟩ :: cs)

/-- The cells of a vector access at p and its memory format, or its first failing check (R142). `store` says the format
written must be E4M3 under SM = 1. An access with no active element checks nothing. -/
def State.vlCells (s : State) (k : VKind) (f : VL) (store : Bool) (p : W64) : Except TrapInfo (List Cell × Nat) :=
  let c := s.cx
  let ty := f.ty.toNat
  let wd := tyWidth ty
  if (c.lanes f.vm (512 / wd)).isEmpty then .ok ([], ty)
  else
    match s.baseLoc p with
    | .error e => .error { cause := e, slot := 1, addr := p }
    | .ok l =>
      let fmt := s.fmtAt l
      let mf := if fmt = 0xF ∨ ty = tyLA then ty else fmt
      let wm := tyWidth mf
      if k = .contig ∧ p.toNat % (512 / wd * wm / 8) ≠ 0 then .error { cause := .misaligned, slot := 1, addr := p }
      else if store ∧ f.sm = 1 ∧ mf ≠ tyE4 then .error { cause := .illegalOp, slot := 1 }
      else
        match s.checkElems k fmt wm (ty == tyLA) (vlElems k f c p wm) with
        | .error e => .error e
        | .ok cs => .ok (cs, mf)

/-- A vector load at p (R140, R141, R144). -/
def loadV (k : VKind) (f : VL) (p : W64) (s : State) : Res :=
  match s.vlCells k f false p with
  | .error t => .trap t
  | .ok ([], _) => .ok s
  | .ok (cs, mf) =>
    let c := s.cx
    let ty := f.ty.toNat
    let w := tyWidth ty
    .ok (issueLoad (.v f.vd.toNat) (BitVec.ofNat 512 (laneMask w (c.lanes f.vm (512 / w)))) 1 f.q.toNat
      { cells := if k = .single then cs.map (fun x => { x with lane := 0 }) else cs, clear := f.q == 2, addr := p,
        conv := some { mf := mf, ty := ty, rm := f.rm.toNat, sm := f.sm.toNat, key := c.cr 3,
                       src := if c.inh then 1 else 0, n := c.now, bcst := k == .single } } s)

/-- One lane as the memory element it is stored as (R141). -/
def storeElem (f : VL) (mf : Nat) (c : Ctx) (i : Nat) : Coded :=
  let ty := f.ty.toNat
  let x := lane (tyWidth ty) i (c.rv f.vd.toNat)
  if mf = ty then (x, 0) else convert (decodeVal ty x) mf (c.rnd f.rm.toNat f.sm.toNat i)

/-- A vector store at p (R140, R141, R144). Flags are set at t + 1 (R129). -/
def storeV (k : VKind) (f : VL) (p : W64) (s : State) : Res :=
  match s.vlCells k f true p with
  | .error t => .trap t
  | .ok ([], _) => .ok s
  | .ok (cs, mf) =>
    .ok (s.modCx (fun c =>
      let outs := cs.map (fun x => (x, storeElem f mf c x.lane))
      let flags := outs.foldl (fun a o => a ||| o.2.2) 0
      let ops := outs.map (fun o => ({ pad := o.1.pad, off := o.1.off, bytes := (natToBytes o.2.1 o.1.n).map some,
                                        setFull := f.q == 1, addr := p, slot := 1 } : StoreOp))
      let c := { c with buf := { c.buf with stores := c.buf.stores ++ ops }, st := c.st + 1 }
      if flags = 0 then c
      else c.push { dst := .none, val := 0, mask := 0, pos := c.now + 1, slot := 1, flags := flags }))

/-- The holds of a vector load (R110). -/
def holdVload (f : VL) (s : State) : Option State :=
  let c := s.cx
  if decide (4095 ≤ c.ld) && !(c.lanes f.vm (512 / tyWidth f.ty.toNat)).isEmpty then some s else none

/-- The holds of a vector store (R110, R143). -/
def holdVstore (k : VKind) (f : VL) (p : W64) (s : State) : Option State :=
  let c := s.cx
  if (c.lanes f.vm (512 / tyWidth f.ty.toNat)).isEmpty then none
  else if 4095 ≤ c.st then some s
  else if f.q = 1 then
    match s.vlCells k f true p with
    | .ok (cs, _) => holdEf 1 p cs s
    | .error _ => none
  else none

/-- VLD at p (R140). -/
def opVld (f : VL) (p : W64) (s : State) : Res := loadV .contig f p s
/-- VST at p (R140). -/
def opVst (f : VL) (p : W64) (s : State) : Res := storeV .contig f p s
/-- VLDX at p (R140). -/
def opVldx (f : VL) (p : W64) (s : State) : Res := loadV .indexed f p s
/-- VSTX at p (R140). -/
def opVstx (f : VL) (p : W64) (s : State) : Res := storeV .indexed f p s
/-- VLDB at p (R140). -/
def opVldb (f : VL) (p : W64) (s : State) : Res := loadV .single f p s

/-- VLD alone (R140). -/
def execVld (f : VL) (s : State) : Host.Outcome State Fault Refusal :=
  finishHold s (holdVload f s) (opVld f (vlAddr f s.cx) s)
/-- VST alone (R140). -/
def execVst (f : VL) (s : State) : Host.Outcome State Fault Refusal :=
  finishHold s (holdVstore .contig f (vlAddr f s.cx) s) (opVst f (vlAddr f s.cx) s)
/-- VLDX alone (R140). -/
def execVldx (f : VL) (s : State) : Host.Outcome State Fault Refusal :=
  finishHold s (holdVload f s) (opVldx f (vlAddr f s.cx) s)
/-- VSTX alone (R140). -/
def execVstx (f : VL) (s : State) : Host.Outcome State Fault Refusal :=
  finishHold s (holdVstore .indexed f (vlAddr f s.cx) s) (opVstx f (vlAddr f s.cx) s)
/-- VLDB alone (R140). -/
def execVldb (f : VL) (s : State) : Host.Outcome State Fault Refusal :=
  finishHold s (holdVload f s) (opVldb f (vlAddr f s.cx) s)

end Sys2Proof.Machine
end

