-- ==== Sys2Proof/Machine/Stream.lean ====
section
/-! DEFINITION. Stream commands as they issue (R215 to R235, R239 to R242): the shape word, patterns, the checks of
R219 and the place of a command on its handle. -/

namespace Sys2Proof.Machine

/-! ### Parameters (R220 to R223) -/

/-- The base of an MS operation at its first issue (R221). -/
def msAddr (f : MS) (c : Ctx) : W64 :=
  c.rm f.mb.toNat + (match f.ext with | some e => e.signExtend 64 | none => f.imm.signExtend 64)

/-- The parameter registers mP onwards. -/
def Ctx.params (c : Ctx) (f : MS) (n : Nat) : List W64 := (List.range n).map (fun i => c.rm (f.mp.toNat + i))
/-- One parameter word. -/
def pw (ps : List W64) (i : Nat) : Nat := ((ps[i]?).getD 0).toNat

/-- The shape word (R223). -/
def shMty (w : Nat) : Nat := bitsOf w 63 60
def shTty (w : Nat) : Nat := bitsOf w 59 56
def shLanes (w : Nat) : Nat := bitsOf w 55 50 + 1
def shRm (w : Nat) : Nat := bitsOf w 49 47
def shSm (w : Nat) : Nat := bitsOf w 46 46
def shScal (w : Nat) : Bool := bitOf w 45

/-- Bytes of a type. -/
def tyBytes (t : Nat) : Nat := tyWidth t / 8

/-! ### Checks in the order of R219 -/

/-- A failed check: its place in the order of R219, its cause and its address. Places: 1 parameters, 2 the code and 3 the
zero bits of a pointer (R257), 4 its ids and owner, 5 its range, 6 alignment, 7 circuits, 8 shapes, 9 handles. -/
structure Chk where
  rank  : Nat
  cause : Cause
  addr  : W64 := 0
  deriving DecidableEq, Repr

/-- A check that fails if `bad`. -/
def chk (bad : Bool) (rank : Nat) (cause : Cause) (addr : W64 := 0) : List Chk :=
  if bad then [{ rank := rank, cause := cause, addr := addr }] else []
/-- `PARAM_RANGE`. -/
def chkParam (bad : Bool) : List Chk := chk bad 1 .paramRange
/-- A failed space, range or alignment check, by its cause. -/
def chkOf (c : Cause) (p : W64) : List Chk :=
  [{ rank := match c with | .spaceForeign => 4 | .spaceRange => 5 | _ => 6, cause := c, addr := p }]
/-- The first failure in the order of R219. -/
def firstChk (l : List Chk) : Option Chk :=
  l.foldl (fun a x => match a with | none => some x | some b => if x.rank < b.rank then some x else a) none

/-! ### Operands (R224, R227, R262) -/

/-- Where a stream operand lies: a scratchpad, or an offset in global or pool memory. -/
inductive Place where
  | pad (l : PadLoc)
  | mem (pool : Bool) (off : Nat)
  deriving DecidableEq, Repr

/-- The space, id, owner and reach rules for n bytes at p of a stream of context x (R227, R257, R262). -/
def State.streamLoc (s : State) (x : Nat) (p : W64) (n : Nat) : Except Cause Place :=
  let c := s.ctx x
  let t := tileOf x
  let k := clusterOf t
  match ptrCode p with
  | 0 => if mbzOk p then .ok (.mem false (fld p 0 56).toNat) else .error .spaceRange
  | 14 => if mbzOk p then .ok (.mem true (fld p 0 45).toNat) else .error .spaceRange
  | 8 =>
    if !mbzOk p || c.pvSize < off8 p + n then .error .spaceRange else .ok (.pad ⟨.tile t, c.pvBase + off8 p⟩)
  | 9 =>
    let u := ptrTile p
    if !mbzOk p then .error .spaceRange
    else if clusterOf u ≠ k then .error .spaceForeign
    else
      let U := s.tile u
      match reach (U.owns c.asid) U.floor 0x40000 (if u = t then c.pvBase else 0) (if u = t then c.pvSize else 0) (off9 p) n with
      | some e => .error e
      | none => .ok (.pad ⟨.tile u, off9 p⟩)
  | 10 =>
    if !mbzOk p then .error .spaceRange
    else if ptrCluster p ≠ k then .error .spaceForeign
    else
      let K := s.cluster k
      match reach (K.owns c.asid) K.floor 0x600000 c.csBase c.csSize (offA p) n with
      | some e => .error e
      | none => .ok (.pad ⟨.cluster k, offA p⟩)
  | _ => .error .spaceForeign

/-- A scratchpad space code. -/
def isPadCode (c : Nat) : Bool := c == 8 || c == 9 || c == 10

/-- The memory format at p (R224). -/
def State.mfAt (s : State) (x : Nat) (p : W64) (mty : Nat) : Nat :=
  if mty = tyLA then tyLA
  else match s.streamLoc x p 1 with
  | .ok (.pad l) => if s.fmtAt l = 0xF then mty else s.fmtAt l
  | _ => mty

/-- The space and id rules on a pointer whose bytes are not checked at issue; `pads` admits scratchpads only. -/
def State.spaceChk (s : State) (p : W64) (pads : Bool := false) : List Chk :=
  let c := ptrCode p
  let k := clusterOf (tileOf s.cur)
  chk (!(isPadCode c || (!pads && (c == 0 || c == 14)))) 2 .spaceForeign p ++
  chk (spaceNamed c && !mbzOk p) 3 .spaceRange p ++
  chk ((c == 9 && clusterOf (ptrTile p) != k) || (c == 10 && ptrCluster p != k)) 4 .spaceForeign p
/-- The reach of n bytes at a scratchpad pointer. -/
def State.reachChk (s : State) (p : W64) (n : Nat) : List Chk :=
  match s.streamLoc s.cur p n with
  | .error e => chkOf e p
  | .ok _ => []
/-- The reach of n bytes at a distance from a scratchpad pointer: a sum that leaves the bits below the space code has carried
through must-be-zero bits (R257). -/
def State.reachAt (s : State) (p : W64) (d : Int) (n : Nat) : List Chk :=
  let v := (p.toNat % 2 ^ 60 : Nat) + d
  if v < 0 ∨ 2 ^ 60 ≤ v then chkOf .spaceRange (p + BitVec.ofInt 64 d) else s.reachChk (p + BitVec.ofInt 64 d) n
/-- The owner rule at a scratchpad pointer. -/
def State.ownerChk (s : State) (p : W64) : List Chk :=
  if isPadCode (ptrCode p) then (s.reachChk p 1).filter (fun x => x.cause == .spaceForeign) else []
/-- The rules on an operand whose lowest bytes begin lo from p and whose highest end n bytes after hi. -/
def State.boxChk (s : State) (p : W64) (lo hi : Int) (n : Nat) (pads : Bool := false) : List Chk :=
  s.spaceChk p pads ++
  (if isPadCode (ptrCode p) then s.reachAt p lo n ++ s.reachAt p hi n else [])
/-- A multiple of a width in bytes. -/
def chkAlign (p : W64) (n : Nat) (vals : List Int) : List Chk := chk (!(vals.all (fun v => v % (n : Int) == 0))) 6 .misaligned p

/-- The shape word's own checks (R223): `one` wants LANES 0, `scal` admits SCAL, `dst` is the format written, `q` wants
an integer TTY. -/
def shapeChk (w : Nat) (one scal : Bool) (dst : Option Nat) (q : Bool) : List Chk :=
  chkParam (shMty w == 15 || shTty w == 15 || ((shMty w == 14) != (shTty w == 14)) ||
    decide (512 < shLanes w * tyWidth (shTty w)) || bitsOf w 44 0 != 0 || decide (4 < shRm w) ||
    (shSm w == 1 && dst != some tyE4) || (shScal w && !scal) || (q && !isINT (shTty w)) || (one && shLanes w != 1))

/-! ### Patterns (R227, R228, R230) -/

/-- Count and stride of dimension i of the affine box in mP+1 to mP+3. -/
def affN (ps : List W64) (i : Nat) : Nat := bitsOf (pw ps 1) (16 * i + 15) (16 * i)
def affS (ps : List W64) (i : Nat) : Int := sext (bitsOf (pw ps (2 + i / 2)) (32 * (i % 2) + 31) (32 * (i % 2))) 32
/-- Elements of the box. -/
def affTotal (ps : List W64) : Nat := affN ps 0 * affN ps 1 * affN ps 2 * affN ps 3
/-- The four indices of element k. -/
def affIdx (ps : List W64) (k : Nat) : List Nat :=
  let n0 := affN ps 0
  let n1 := affN ps 1
  let n2 := affN ps 2
  [k % n0, k / n0 % n1, k / (n0 * n1) % n2, k / (n0 * n1 * n2)]
/-- Offset of element k from the base. -/
def affOff (ps : List W64) (k : Nat) : Int :=
  ((List.range 4).zip (affIdx ps k)).foldl (fun a x => a + (x.2 : Int) * affS ps x.1) 0
/-- Lowest and highest offsets of the box. -/
def affLo (ps : List W64) : Int := (List.range 4).foldl (fun a i => a + min 0 (((affN ps i : Int) - 1) * affS ps i)) 0
def affHi (ps : List W64) : Int := (List.range 4).foldl (fun a i => a + max 0 (((affN ps i : Int) - 1) * affS ps i)) 0
/-- The checks of R227 on a box of elements of w bytes at p. -/
def State.affChk (s : State) (p : W64) (ps : List W64) (w : Nat) : List Chk :=
  chkParam (decide (2 ^ 40 < affTotal ps)) ++
  (if affTotal ps = 0 then s.spaceChk p else s.boxChk p (affLo ps) (affHi ps) w) ++
  chkAlign p w ((p.toNat : Int) :: ((List.range 4).filter (fun i => affN ps i != 0)).map (affS ps))

/-- Fields of mP+1 and mP+2 of SIND (R228). -/
def ixN (ps : List W64) : Nat := bitsOf (pw ps 1) 31 0
def ixTy (ps : List W64) : Nat := bitsOf (pw ps 1) 35 32
def ixSrc (ps : List W64) : Nat := bitsOf (pw ps 1) 37 36
def ixNum (ps : List W64) : Nat := bitsOf (pw ps 1) 41 38
def ixRow (ps : List W64) : Nat := bitsOf (pw ps 1) 63 48
def ixRowb (ps : List W64) : Int := sext (bitsOf (pw ps 2) 31 0) 32
/-- The checks of R228 on an indirect command at p whose elements have w bytes. -/
def State.indChk (s : State) (p : W64) (ps : List W64) (w : Nat) : List Chk :=
  let a : W64 := (ps[3]?).getD 0
  let iw := tyBytes (ixTy ps)
  chkParam (!([tyI32, tyW32, tyI64, tyW64, tyW16].elem (ixTy ps)) || ixSrc ps == 3 || (ixSrc ps == 0 && ixNum ps != 0) ||
    bitsOf (pw ps 1) 47 42 != 0 || ixRow ps == 0 || bitsOf (pw ps 2) 63 32 != 0 || (ixSrc ps != 0 && a != 0)) ++
  s.spaceChk p ++
  s.ownerChk p ++
  chkAlign p w [(p.toNat : Int), ixRowb ps] ++
  (if ixSrc ps = 0 then
     (if ixN ps = 0 then s.spaceChk a true ++ s.ownerChk a else s.boxChk a 0 ((ixN ps - 1 : Nat) * iw : Nat) iw true) ++
     (if iw = 0 then [] else chkAlign a iw [(a.toNat : Int)])
   else [])

/-- Fields of SWIN (R230). -/
def swC (ps : List W64) : Nat := bitsOf (pw ps 1) 15 0
def swKW (ps : List W64) : Nat := bitsOf (pw ps 1) 23 16
def swKH (ps : List W64) : Nat := bitsOf (pw ps 1) 31 24
def swOW (ps : List W64) : Nat := bitsOf (pw ps 1) 47 32
def swOH (ps : List W64) : Nat := bitsOf (pw ps 1) 63 48
def swW (ps : List W64) : Nat := bitsOf (pw ps 2) 15 0
def swH (ps : List W64) : Nat := bitsOf (pw ps 2) 31 16
def swSX (ps : List W64) : Nat := bitsOf (pw ps 2) 35 32
def swSY (ps : List W64) : Nat := bitsOf (pw ps 2) 39 36
def swDX (ps : List W64) : Nat := bitsOf (pw ps 2) 43 40
def swDY (ps : List W64) : Nat := bitsOf (pw ps 2) 47 44
def swPX (ps : List W64) : Nat := bitsOf (pw ps 2) 55 48
def swPY (ps : List W64) : Nat := bitsOf (pw ps 2) 63 56
def swRow (ps : List W64) : Nat := bitsOf (pw ps 3) 31 0
def swCol (ps : List W64) : Nat := bitsOf (pw ps 3) 63 32
/-- Lowest and highest in-range coordinate of a window walk: O outputs of stride S, K taps of dilation D, pad P, extent
E. -/
def swRange (O S K D P E : Nat) : Option (Nat × Nat) :=
  (List.range K).foldl (fun a k =>
    let off : Int := (k * D : Nat) - (P : Int)
    let lo : Int := if off < 0 then (-off + S - 1) / S else 0
    let hi : Int := min ((O : Int) - 1) (((E : Int) - 1 - off) / S)
    if hi < lo then a
    else
      let x := (off + lo * S).toNat
      let y := (off + hi * S).toNat
      match a with | none => some (x, y) | some (u, v) => some (min u x, max v y)) none
/-- The indices c, kx, ky, ox, oy of element k. -/
def swIdx (ps : List W64) (k : Nat) : List Nat :=
  let c := swC ps
  let w := swKW ps
  let h := swKH ps
  [k % c, k / c % w, k / (c * w) % h, k / (c * w * h) % swOW ps, k / (c * w * h * swOW ps)]
/-- Elements of the walk. -/
def swTotal (ps : List W64) : Nat := swC ps * swKW ps * swKH ps * swOW ps * swOH ps
/-- Offset of element k of w bytes from the base, none in the padding. -/
def swOff (ps : List W64) (w k : Nat) : Option Nat :=
  match swIdx ps k with
  | [c, kx, ky, ox, oy] =>
    let y : Int := (oy * swSY ps + ky * swDY ps : Nat) - (swPY ps : Int)
    let x : Int := (ox * swSX ps + kx * swDX ps : Nat) - (swPX ps : Int)
    if 0 ≤ y ∧ y < swH ps ∧ 0 ≤ x ∧ x < swW ps then some (y.toNat * swRow ps + x.toNat * swCol ps + c * w) else none
  | _ => none
/-- The checks of R230. -/
def State.swinChk (s : State) (p : W64) (ps : List W64) (w : Nat) : List Chk :=
  chkParam (swTotal ps == 0 || swW ps == 0 || swH ps == 0 || swSX ps == 0 || swSY ps == 0 || swDX ps == 0 || swDY ps == 0) ++
  (match swRange (swOH ps) (max 1 (swSY ps)) (swKH ps) (swDY ps) (swPY ps) (swH ps),
         swRange (swOW ps) (max 1 (swSX ps)) (swKW ps) (swDX ps) (swPX ps) (swW ps) with
   | some (y0, y1), some (x0, x1) =>
     s.boxChk p (y0 * swRow ps + x0 * swCol ps : Nat) (y1 * swRow ps + x1 * swCol ps + (swC ps - 1) * w : Nat) w true
   | _, _ => s.spaceChk p true) ++
  chkAlign p w [(p.toNat : Int), (swRow ps : Int), (swCol ps : Int)]

/-! ### Ports (R219, R238, R239) -/

/-- Whether the active switch table binds a port: `out` says which side. -/
def State.bound (s : State) (t : Nat) (out : Bool) (k : Nat) : Bool :=
  match (s.tile t).table with
  | some m => bitOf (m.readLE ((if out then 0 else 0x80) + 8 * k) 8) 63
  | none => false
/-- The checks of an input port against the shape of a command. -/
def State.inPortChk (s : State) (k tty lanes : Nat) (scal : Bool) : List Chk :=
  let t := tileOf s.cur
  let d := (s.arr t).port k
  chk (s.bound t false k) 7 .portCircuit ++
  chk (poUsed d && (poTy d != tty || poLanes d != lanes || poScaled d != scal)) 8 .portShape
/-- The checks of an output port. -/
def State.outPortChk (s : State) (k : Nat) (bad : Nat → Bool) : List Chk :=
  let t := tileOf s.cur
  let d := (s.arr t).port (16 + k)
  chk (s.bound t true k) 7 .portCircuit ++ chk (poUsed d && bad d) 8 .portShape

/-- The group rule of AFIRE and of follow-ons (R247, R248). -/
def State.groupOk (s : State) (g : Nat) : Bool :=
  let a := s.arr (tileOf s.cur)
  match a.current with
  | some i => (a.img i).inv == 0 && decide (g < imgNgrp (a.img i).raw)
  | none => false
/-- The group of an attached follow-on command. -/
def followOf (f : MS) : Option Nat := if f.follow.toNat / 16 = 1 then some (f.follow.toNat % 16) else none
/-- Its check. -/
def State.followChk (s : State) (f : MS) : List Chk :=
  match followOf f with | some g => chkParam (!s.groupOk g) | none => []

/-- Fields of mP+4 of SMCAST (R231). -/
def mcMask (ps : List W64) : Nat := bitsOf (pw ps 4) 7 0
def mcPads (ps : List W64) : Bool := bitOf (pw ps 4) 8
def mcOfs (ps : List W64) : Nat := bitsOf (pw ps 4) 63 32

/-! ### A command takes its place -/

/-- Commands of a context in the order issued, with their handles. -/
def Ctx.commands (c : Ctx) : List (Nat × Cmd) := c.handles.flatMap (fun h => h.2.cmds.map (fun k => (h.1, k)))
/-- Whether a command that is not complete has finished all its memory reads (R240): it has no more. -/
def Cmd.readsDone (k : Cmd) : Bool :=
  k.fin || [0x06, 0x09, 0x0C, 0x0F, 0x1C, 0x24].elem k.op || (k.op == 0x08 && (ixSrc k.ps != 0 || decide (ixN k.ps ≤ k.j))) ||
    ([0x05, 0x07, 0x0A, 0x0B, 0x25].elem k.op && k.total == some k.k)
/-- Whether a command writes no memory (R240): reads into ports and queues, SREC, TEMIT, SPREF and MNFEED. -/
def Cmd.writeless (k : Cmd) : Bool :=
  [0x05, 0x07, 0x09, 0x0A, 0x0C, 0x1A, 0x23].elem k.op || (k.op == 0x0B && !mcPads k.ps)
/-- Whether a command satisfies a barrier (R240): its reads with R and its writes with W are done. -/
def Bar.metBy (b : Bar) (h : Nat) (k : Cmd) : Bool :=
  !(bitOf b.mask h && decide (k.seq < b.upto)) || ((!b.r || k.readsDone) && (!b.w || k.writeless))
/-- Whether a barrier holds of a context no more. -/
def Ctx.barMet (c : Ctx) (b : Bar) : Bool := c.commands.all (fun x => b.metBy x.1 x.2)

/-- The holds of R218. -/
def holdCmd (f : MS) (counted : Bool) (s : State) : Option State :=
  let c := s.cx
  if c.guard f.gp && (decide (4 ≤ (c.handle f.sh.toNat).cmds.length) || (counted && c.str == 4095) ||
      ((followOf f).isSome && c.arr == 4095)) then some s else none

/-- A command joins the queue of its handle (R215, R216). -/
def submit (f : MS) (counted : Bool) (k : Cmd) (s : State) : State :=
  let t := tileOf s.cur
  let n := (s.tile t).seq
  (s.modTile t (fun x => { x with seq := n + 1 })).modCx (fun c =>
    let h := c.handle f.sh.toNat
    let k := { k with seq := n, ctime := c.ctime, pc := c.pc, iat := s.tick, iss := c.iss, bars := c.sbars.filter (fun b => !c.barMet b)
                      follow := followOf f }
    let c := c.setHandle f.sh.toNat { h with cmds := h.cmds ++ [k], cancelled := false }
    { c with str := c.str + (if counted then 1 else 0), arr := c.arr + (if k.follow.isSome then 1 else 0) })

/-- The command a stream operation makes. -/
def mkCmd (op : Nat) (f : MS) (p : W64) (ps : List W64) : Cmd :=
  { op := op, fn := f.fn.toNat, port := f.port.toNat % 16, base := p, ps := ps, seq := 0, ctime := 0, pc := 0 }

/-- Issue a command whose checks are given. -/
def issueCmd (f : MS) (counted : Bool) (cs : List Chk) (k : Cmd) (s : State) : Res :=
  match firstChk cs with
  | some x => trapM x.cause x.addr
  | none => .ok (submit f counted k s)

/-- A run of parameter registers lengthened by SCAL must end by m31 (R36, R222). -/
def scalRun (f : MS) (n : Nat) (scal : Bool) : List Chk := chk (scal && decide (32 < f.mp.toNat + n + 1)) 0 .illegalOp
/-- The scale pointer's checks (R225): the same spaces and checks as the base, one byte for each 128 elements. -/
def State.scaleChk (s : State) (q : W64) (scal : Bool) (total : Nat) : List Chk :=
  if !scal then [] else if total = 0 then s.spaceChk q else s.boxChk q 0 ((total - 1) / 128 : Nat) 1

/-- The parameter registers of SAFF, SAFFW, SIND and SINDW (R222). -/
def movePs (f : MS) (c : Ctx) : List W64 := c.params f (if shScal (c.rm f.mp.toNat).toNat then 5 else 4)
/-- Their elements. -/
def moveTotal (ind : Bool) (ps : List W64) : Nat := if ind then ixN ps * ixRow ps else affTotal ps
/-- The checks of SAFF, SAFFW, SIND and SINDW at p (R219, R227, R228). -/
def State.moveChk (s : State) (out ind : Bool) (f : MS) (p : W64) : List Chk :=
  let w := (s.cx.rm f.mp.toNat).toNat
  let scal := shScal w
  let ps := movePs f s.cx
  let q := qmodeOf f != 0
  let mf := s.mfAt s.cur p (shMty w)
  let n := tyBytes mf
  scalRun f 4 scal ++ shapeChk w q true (some (if out then mf else shTty w)) q ++ s.followChk f ++
    (if n = 0 then [] else if ind then s.indChk p ps n else s.affChk p ps n) ++
    s.scaleChk ((ps[4]?).getD 0) scal (moveTotal ind ps) ++
    (if q then []
     else if out then s.outPortChk (f.port.toNat % 16) (fun d => poTy d != shTty w || poLanes d != shLanes w)
     else s.inPortChk (f.port.toNat % 16) (shTty w) (shLanes w) scal) ++
    (if ind then
       (if ixSrc ps = 2 then s.outPortChk (ixNum ps) (fun d => poTy d != ixTy ps) else []) ++
       chk (ixSrc ps == 1 &&
         !(s.cx.handle (ixNum ps)).cmds.any (fun k => (k.op == 0x05 || k.op == 0x07) && k.fn / 8 % 4 == 1)) 9 .streamHandle
     else [])
/-- The common form of SAFF, SAFFW, SIND, SINDW. -/
def moveCmd (op : Nat) (out ind : Bool) (f : MS) (p : W64) (s : State) : Res :=
  if !s.cx.guard f.gp then .ok s
  else
    let ps := movePs f s.cx
    issueCmd f true (s.moveChk out ind f p)
      { mkCmd op f p ps with total := if ind && ixSrc ps != 0 && ixN ps != 0 then none else some (moveTotal ind ps) } s

/-- SAFF at p (R227). -/
def opSaff (f : MS) (p : W64) (s : State) : Res := moveCmd 0x05 false false f p s
/-- SAFFW at p (R227). -/
def opSaffw (f : MS) (p : W64) (s : State) : Res := moveCmd 0x06 true false f p s
/-- SIND at p (R228). -/
def opSind (f : MS) (p : W64) (s : State) : Res := moveCmd 0x07 false true f p s
/-- SINDW at p (R228). -/
def opSindw (f : MS) (p : W64) (s : State) : Res := moveCmd 0x08 true true f p s

/-- The checks of SREC (R229). -/
def State.srecChk (s : State) (f : MS) : List Chk :=
  let t := tileOf s.cur
  let k := f.port.toNat
  let j := immU f.imm f.ext % 16
  let di := (s.arr t).port k
  let dj := (s.arr t).port (16 + j)
  chkParam (bitsOf (pw (s.cx.params f 1) 0) 63 32 != 0) ++ s.followChk f ++
    chk (s.bound t false k || s.bound t true j) 7 .portCircuit ++
    chk (!(poUsed di && poUsed dj && poTy di == poTy dj && poLanes di == poLanes dj)) 8 .portShape
/-- SREC (R229): outJ in `aux`. -/
def opSrec (f : MS) (s : State) : Res :=
  if !s.cx.guard f.gp then .ok s
  else
    let ps := s.cx.params f 1
    issueCmd f true (s.srecChk f)
      { mkCmd 0x09 f 0 ps with aux := immU f.imm f.ext % 16, total := some (bitsOf (pw ps 0) 31 0) } s

/-- All checks of SWIN at p (R219, R230). -/
def State.swinAllChk (s : State) (f : MS) (p : W64) : List Chk :=
  let ps := s.cx.params f 4
  let w := pw ps 0
  let mf := s.mfAt s.cur p (shMty w)
  shapeChk w false false (some (shTty w)) false ++ s.followChk f ++
    (if tyBytes mf = 0 then [] else s.swinChk p ps (tyBytes mf)) ++
    s.inPortChk f.port.toNat (shTty w) (shLanes w) (shScal w)
/-- SWIN at p (R230). -/
def opSwin (f : MS) (p : W64) (s : State) : Res :=
  if !s.cx.guard f.gp then .ok s
  else
    let ps := s.cx.params f 4
    issueCmd f true (s.swinAllChk f p) { mkCmd 0x0A f p ps with total := some (swTotal ps) } s

/-- The tiles a multicast of tile t reaches. -/
def mcTiles (t : Nat) (ps : List W64) : List Nat := ((List.range 8).filter (fun i => bitOf (mcMask ps) i)).map (t / 8 * 8 + ·)
/-- A generic pointer to an offset of a tile's scratchpad. -/
def tilePtr (t off : Nat) : W64 := BitVec.ofNat 64 (9 * 2 ^ 60 + t * 2 ^ 48 + off)
/-- The checks of SMCAST at p (R231). -/
def State.mcastChk (s : State) (f : MS) (p : W64) (ps : List W64) : List Chk :=
  let w := pw ps 0
  let t := tileOf s.cur
  let mf := s.mfAt s.cur p (shMty w)
  let total := affTotal ps
  let tgt := fun u => s.mfAt s.cur (tilePtr u (mcOfs ps)) (shMty w)
  chk (mcPads ps && (f.port != 0 || f.fn.toNat % 4 != 0)) 0 .illegalOp ++
  shapeChk w false false (if mcPads ps then (if (mcTiles t ps).all (fun u => tgt u == tyE4) then some tyE4 else none)
                          else some (shTty w)) false ++
  chkParam (mcMask ps == 0 || bitsOf (pw ps 4) 31 9 != 0) ++
  (if tyBytes mf = 0 then [] else s.affChk p ps (tyBytes mf)) ++
  (if mcPads ps then
     (mcTiles t ps).flatMap (fun u =>
       let n := tyBytes (tgt u)
       if total = 0 ∨ n = 0 then []
       else if 0x40000 < mcOfs ps + total * n then chkOf .spaceRange (tilePtr u (mcOfs ps % 0x40000))
       else s.reachChk (tilePtr u (mcOfs ps)) n ++ s.reachChk (tilePtr u (mcOfs ps + (total - 1) * n)) n ++
         chkAlign (tilePtr u (mcOfs ps)) n [(mcOfs ps : Int)])
   else if (mcTiles t ps).elem t then s.inPortChk f.port.toNat (shTty w) (shLanes w) (shScal w)
   else [])
/-- Whether an SMCAST at p needs a power grant (R231, R414): the bytes of its box pass 256 KiB. -/
def State.mcastHeavy (s : State) (f : MS) (p : W64) : Bool :=
  let ps := s.cx.params f 4
  decide (0x40000 < affTotal ps * tyBytes (s.mfAt s.cur p (shMty (pw ps 0))))

/-- SMCAST at p (R231). -/
def opSmcast (f : MS) (p : W64) (s : State) : Res :=
  if !s.cx.guard f.gp then .ok s
  else
    let ps := s.cx.params f 5
    match firstChk (s.mcastChk f p ps) with
    | some x => trapM x.cause x.addr
    | none =>
      match s.cx.pwr with
      | .failed e => trapM e
      | _ =>
        let heavy := s.mcastHeavy f p
        let s := if heavy then takeGrant 2 s else s
        .ok (submit f true { mkCmd 0x0B f p ps with total := some (affTotal ps), cost := if heavy then powerCost 2 else 0 } s)
/-- The holds of SMCAST (R218, R415). -/
def holdSmcast (f : MS) (p : W64) (s : State) : Option State :=
  match holdCmd f true s with
  | some x => some x
  | none =>
    if s.cx.guard f.gp && (firstChk (s.mcastChk f p (s.cx.params f 5))).isNone then holdPower (s.mcastHeavy f p) 2 s else none

/-- The checks of SCOPY at p (R219, R232). -/
def State.scopyChk (s : State) (f : MS) (p : W64) : List Chk :=
  let ps := s.cx.params f 5
  let w := pw ps 0
  let d : W64 := (ps[4]?).getD 0
  let mf := s.mfAt s.cur p (shMty w)
  let df := s.mfAt s.cur d (shMty w)
  let total := affTotal ps
  shapeChk w true false (some df) false ++
    (if tyBytes mf = 0 then [] else s.affChk p ps (tyBytes mf)) ++
    (if tyBytes df = 0 then []
     else (if total = 0 then s.spaceChk d else s.boxChk d 0 ((total - 1) * tyBytes df : Nat) (tyBytes df)) ++
       chkAlign d (tyBytes df) [(d.toNat : Int)])
/-- SCOPY at p (R232). -/
def opScopy (f : MS) (p : W64) (s : State) : Res :=
  if !s.cx.guard f.gp then .ok s
  else
    let ps := s.cx.params f 5
    issueCmd f true (s.scopyChk f p) { mkCmd 0x0E f p ps with total := some (affTotal ps) } s

/-- The checks of SFILL (`fill`) and SPREF at p (R219, R227, R232). -/
def State.boxCmdChk (s : State) (fill : Bool) (f : MS) (p : W64) : List Chk :=
  let ps := s.cx.params f 4
  let w := pw ps 0
  let mf := s.mfAt s.cur p (shMty w)
  shapeChk w fill false (if fill then some mf else none) false ++
    (if tyBytes mf = 0 then [] else s.affChk p ps (tyBytes mf))
/-- SFILL at p (R232). -/
def opSfill (f : MS) (p : W64) (s : State) : Res :=
  if !s.cx.guard f.gp then .ok s
  else
    let ps := s.cx.params f 5
    issueCmd f true (s.boxCmdChk true f p) { mkCmd 0x0F f p ps with total := some (affTotal ps) } s

/-- SPREF at p (R227). -/
def opSpref (f : MS) (p : W64) (s : State) : Res :=
  if !s.cx.guard f.gp then .ok s
  else
    let ps := s.cx.params f 4
    issueCmd f true (s.boxCmdChk false f p) { mkCmd 0x23 f p ps with total := some (affTotal ps) } s

/-! ### SDUAL (R281) -/

/-- ROWS, COLS, SPITCH, LDP and LDT. -/
def sdRows (ps : List W64) : Nat := bitsOf (pw ps 1) 15 0
def sdCols (ps : List W64) : Nat := bitsOf (pw ps 1) 31 16
def sdPitch (ps : List W64) : Nat := bitsOf (pw ps 1) 63 32
def sdLdp (ps : List W64) : Int := sext (bitsOf (pw ps 4) 31 0) 32
def sdLdt (ps : List W64) : Int := sext (bitsOf (pw ps 4) 63 32) 32
/-- The checks of SDUAL at p (R219, R281). -/
def State.sdualChk (s : State) (f : MS) (p : W64) : List Chk :=
  let ps := s.cx.params f 5
  let w := pw ps 0
  let P : W64 := (ps[2]?).getD 0
  let T : W64 := (ps[3]?).getD 0
  let rows := sdRows ps
  let cols := sdCols ps
  let mf := s.mfAt s.cur p (shMty w)
  let ws := tyBytes mf
  let wm := tyBytes (shMty w)
  let far := fun (q : W64) => chk (!(ptrCode q == 0 || ptrCode q == 14)) 2 .spaceForeign q ++
    chk (spaceNamed (ptrCode q) && !mbzOk q) 3 .spaceRange q
  shapeChk w true false (some (shMty w)) false ++
    chkParam (shTty w != shMty w || rows == 0 || cols == 0 || decide (16384 < rows * cols * wm) || ptrCode P != ptrCode T) ++
    far P ++ far T ++
    (if ws = 0 ∨ rows = 0 ∨ cols = 0 then s.spaceChk p true
     else s.boxChk p 0 ((rows - 1) * sdPitch ps + (cols - 1) * ws : Nat) ws true) ++
    (if ws = 0 then [] else chkAlign p ws [(p.toNat : Int), (sdPitch ps : Int)]) ++
    (if wm = 0 then [] else chkAlign P wm [(P.toNat : Int), sdLdp ps] ++ chkAlign T wm [(T.toNat : Int), sdLdt ps])
/-- SDUAL at p (R281). -/
def opSdual (f : MS) (p : W64) (s : State) : Res :=
  if !s.cx.guard f.gp then .ok s
  else
    let ps := s.cx.params f 5
    issueCmd f true (s.sdualChk f p) { mkCmd 0x25 f p ps with total := some (sdRows ps * sdCols ps) } s

/-! ### Tokens, barriers, cancellation (R234, R235, R240, R242) -/

/-- TEMIT (R234): the destination in `aux`, channel above it; the token is mB. -/
def opTemit (f : MS) (s : State) : Res :=
  if !s.cx.guard f.gp then .ok s
  else .ok (submit f true { mkCmd 0x0C f 0 [] with aux := immU f.imm f.ext, val := s.cx.rm f.mb.toNat } s)

/-- The channel of TCONS. -/
def tconsCh (f : MS) : Nat := immU f.imm f.ext % 16
/-- A channel of a tile. -/
def Tile.chan (t : Tile) (k : Nat) : List W64 := mapGet [] t.chans k
/-- TCONS holds while its channel is empty (R235), and until the accesses before it have been performed (R293). -/
def holdTcons (f : MS) (s : State) : Option State :=
  if s.cx.guard f.gp && (s.behind s.cur s.cx.iss || ((s.tile (tileOf s.cur)).chan (tconsCh f)).isEmpty) then some s else none
/-- TCONS (R235): the oldest token, and every line of the step dropped (R288). -/
def opTcons (f : MS) (s : State) : Res :=
  if !s.cx.guard f.gp then .ok s
  else
    let t := tileOf s.cur
    match (s.tile t).chan (tconsCh f) with
    | [] => .ok s
    | v :: rest =>
      .ok ((s.modTile t (fun x => { x with chans := mapPut (tconsCh f) rest x.chans })).modCx
        (fun c => (c.deliverM f.mp v 1).dropLines))

/-- The barrier an SBAR makes of a context on a tile whose next command is `n`. -/
def sbarOf (f : MR) (n : Nat) : Bar :=
  { upto := n, mask := immU f.imm f.ext, r := f.fn.toNat % 2 == 1, w := bitOf f.fn.toNat 1 }
/-- SBAR.H holds until its condition holds (R240). -/
def holdSbar (f : MR) (s : State) : Option State :=
  if s.cx.guard f.gp && bitOf f.fn.toNat 2 && !s.cx.barMet (sbarOf f (s.tile (tileOf s.cur)).seq) then some s else none
/-- SBAR (R240). -/
def opSbar (f : MR) (s : State) : Res :=
  if !s.cx.guard f.gp then .ok s
  else
    let b := sbarOf f (s.tile (tileOf s.cur)).seq
    .ok (s.modCx (fun c =>
      let c := if bitOf f.fn.toNat 2 then c.observe (fun h => bitOf b.mask h) else c
      { c with sbars := (c.sbars.filter (fun x => !c.barMet x)) ++ [b] }))

/-- A command leaves its handle: its counts fall and its power units return. -/
def uncount (n : Nat) (k : Cmd) (s : State) : State :=
  let counted := !(k.op == 0x1A || k.op == 0x1C)
  (s.undraw k.cost).modCtx n (fun c =>
    { c with str := c.str - (if counted then 1 else 0), arr := c.arr - (if k.follow.isSome then 1 else 0) })

/-! ### Places in the merge network (R336) -/

/-- The network of cluster k. -/
def State.mn (s : State) (k : Nat) : Merge := (s.cluster k).mn
/-- Change it. -/
def State.modMn (s : State) (k : Nat) (f : Merge → Merge) : State := s.modCluster k (fun c => { c with mn := f c.mn })

/-- The cluster of context x. -/
def clOf (x : Nat) : Nat := clusterOf (tileOf x)

/-- A lane frees: the feed that waited longest for it takes it. -/
def freeLane (k lane : Nat) (s : State) : State :=
  s.modMn k (fun m =>
    let m := { m with lanes := mapDel lane m.lanes }
    match m.waits.find? (fun w => w.1 == lane) with
    | some w => { m with lanes := mapPut lane w.2 m.lanes, waits := m.waits.erase w }
    | none => m)
/-- A feed leaves the network: its lane frees, or its wait ends. -/
def leaveNet (k id : Nat) (s : State) : State :=
  let m := s.mn k
  let s := s.modMn k (fun m => { m with waits := m.waits.filter (fun w => w.2 != id), drains := m.drains.filter (· != id) })
  match m.lanes.find? (fun l => l.2 == id) with
  | some l => freeLane k l.1 s
  | none => s
/-- A command that a SCANCEL, MNCLOSE.A or retirement cuts ends at its block boundary (R242, R343, R345). -/
def endCut (x h : Nat) (k : Cmd) (s : State) : State :=
  (leaveNet (clOf x) (x * 16 + h) (uncount x k s)).modCtx x (fun c =>
    let H := c.handle h
    c.setHandle h { H with cmds := H.cmds.drop 1, cancelled := true })
/-- Cancel handle h of context n (R242): queued commands go, a faulted one ends at once, an unstarted one too, and a
running one ends at its next element-block boundary. -/
def cancelHandle (n h : Nat) (s : State) : State :=
  let H := (s.ctx n).handle h
  match H.cmds with
  | [] => s
  | k :: rest =>
    let s := rest.foldl (fun s k => uncount n k s) s
    let dead := k.faulted || !k.started || k.idle
    let s := if dead then leaveNet (clOf n) (n * 16 + h) (uncount n k s) else s
    s.modCtx n (fun c => c.setHandle h
      { H with cmds := if dead then [] else [{ k with cancel := true }], queue := [], cancelled := dead || H.cancelled })

/-- SCANCEL (R242). -/
def opScancel (f : MS) (s : State) : Res :=
  .ok (if s.cx.guard f.gp then cancelHandle s.cur f.sh.toNat s else s)

/-! ### Outcomes -/

/-- SAFF alone (R227). -/
def execSaff (f : MS) (s : State) : Host.Outcome State Fault Refusal := finishHold s (holdCmd f true s) (opSaff f (msAddr f s.cx) s)
/-- SAFFW alone (R227). -/
def execSaffw (f : MS) (s : State) : Host.Outcome State Fault Refusal := finishHold s (holdCmd f true s) (opSaffw f (msAddr f s.cx) s)
/-- SIND alone (R228). -/
def execSind (f : MS) (s : State) : Host.Outcome State Fault Refusal := finishHold s (holdCmd f true s) (opSind f (msAddr f s.cx) s)
/-- SINDW alone (R228). -/
def execSindw (f : MS) (s : State) : Host.Outcome State Fault Refusal := finishHold s (holdCmd f true s) (opSindw f (msAddr f s.cx) s)
/-- SREC alone (R229). -/
def execSrec (f : MS) (s : State) : Host.Outcome State Fault Refusal := finishHold s (holdCmd f true s) (opSrec f s)
/-- SWIN alone (R230). -/
def execSwin (f : MS) (s : State) : Host.Outcome State Fault Refusal := finishHold s (holdCmd f true s) (opSwin f (msAddr f s.cx) s)
/-- SMCAST alone (R231). -/
def execSmcast (f : MS) (s : State) : Host.Outcome State Fault Refusal :=
  finishHold s (holdSmcast f (msAddr f s.cx) s) (opSmcast f (msAddr f s.cx) s)
/-- SCOPY alone (R232). -/
def execScopy (f : MS) (s : State) : Host.Outcome State Fault Refusal := finishHold s (holdCmd f true s) (opScopy f (msAddr f s.cx) s)
/-- SFILL alone (R232). -/
def execSfill (f : MS) (s : State) : Host.Outcome State Fault Refusal := finishHold s (holdCmd f true s) (opSfill f (msAddr f s.cx) s)
/-- SPREF alone (R227). -/
def execSpref (f : MS) (s : State) : Host.Outcome State Fault Refusal := finishHold s (holdCmd f true s) (opSpref f (msAddr f s.cx) s)
/-- SDUAL alone (R281). -/
def execSdual (f : MS) (s : State) : Host.Outcome State Fault Refusal := finishHold s (holdCmd f true s) (opSdual f (msAddr f s.cx) s)
/-- TEMIT alone (R234). -/
def execTemit (f : MS) (s : State) : Host.Outcome State Fault Refusal := finishHold s (holdCmd f true s) (opTemit f s)
/-- TCONS alone (R235). -/
def execTcons (f : MS) (s : State) : Host.Outcome State Fault Refusal := finishHold s (holdTcons f s) (opTcons f s)
/-- SBAR alone (R240). -/
def execSbar (f : MR) (s : State) : Host.Outcome State Fault Refusal := finishHold s (holdSbar f s) (opSbar f s)
/-- SCANCEL alone (R242). -/
def execScancel (f : MS) (s : State) : Host.Outcome State Fault Refusal := finish s (opScancel f s)

end Sys2Proof.Machine
end

