-- ==== Sys2Proof/Machine/StreamMem.lean ====
section
/-! DEFINITION. The memory side of element blocks (R224 to R228, R262, R265 to R268, R275, R286 to R288, R397): where an
element lies, what a block waits for, its reads with lines, its writes, and fault records (R387 to R389). -/

namespace Sys2Proof.Machine

/-! ### Attempts -/

/-- The outcome of an attempt: wait, fault, or a result. -/
inductive Att (α : Type) where
  | wait
  | fault (f : Flt)
  | ok (a : α)
/-- Whether an attempt waits. -/
def Att.isWait {α : Type} : Att α → Bool
  | .wait => true
  | .fault _ => false
  | .ok _ => false

/-! ### Sites -/

/-- Where n bytes of an access lie: a scratchpad, or physical memory reached through a pointer. -/
inductive Site where
  | pad (l : PadLoc) (p : W64) (n : Nat)
  | mem (pa : Nat) (p : W64) (n : Nat)
  deriving DecidableEq, Repr

/-- Whether a request to a physical address can reach its memory (R443, R446, R450). -/
def State.linked (s : State) (pa : Nat) : Bool :=
  if inPeer pa then s.peerUp (peerPkg pa)
  else if inPool pa then s.poolUp
  else true

/-- The site of n bytes at p for a stream of context x, or the fault of its access; a walk waits in a landing (R409). -/
def State.site (s : State) (x : Nat) (p : W64) (n : Nat) (write : Bool) : Att Site × State :=
  match s.streamLoc x p n with
  | .error _ => (.fault { cause := .spaceRange, addr := p }, s)
  | .ok (.pad l) => (.ok (.pad l p n), s)
  | .ok (.mem pool off) =>
    let c := s.ctx x
    match s.xlate x c.asid c.gen pool off write with
    | (.ok pa, t) => (.ok (.mem pa p n), t)
    | (.fail sub, t) => (.fault { cause := .streamXlate, sub := sub, addr := p }, t)
    | (.lost, t) => (.fault { cause := .dataLost, addr := p, va := some (s.accessVa x c.asid c.gen pool off) }, t)
    | (.wait, t) => (.wait, t)

/-- The sites of several accesses, the first fault first. -/
def State.sites (s : State) (x : Nat) (write : Bool) : List (W64 × Nat) → Att (List Site) × State
  | [] => (.ok [], s)
  | (p, n) :: rest =>
    match s.site x p n write with
    | (.wait, s) => (.wait, s)
    | (.fault f, s) => (.fault f, s)
    | (.ok a, s) =>
      match s.sites x write rest with
      | (.wait, s) => (.wait, s)
      | (.fault f, s) => (.fault f, s)
      | (.ok l, s) => (.ok (a :: l), s)

/-- The command at the head of a handle. -/
def State.head (s : State) (x h : Nat) : Option Cmd := ((s.ctx x).handle h).cmds.head?
/-- Replace the head command of a handle. -/
def setHead (x h : Nat) (k : Cmd) (s : State) : State :=
  s.modCtx x (fun c =>
    let H := c.handle h
    c.setHandle h { H with cmds := match H.cmds with | _ :: t => k :: t | [] => [] })
/-- Change it. -/
def modHead (x h : Nat) (f : Cmd → Cmd) (s : State) : State := match s.head x h with | some k => setHead x h (f k) s | none => s

/-! ### Requests that leave the package (R443 to R446, R450, R451) -/

/-- What becomes of a request to a package no port to which is up (R446): it is lost LINKTO ticks after its issue. -/
def linkWait (x h : Nat) (p : W64) (s : State) : Att Unit × State :=
  let sent := match s.head x h with | some k => (k.sent.getD (s.tick, [])).1 | none => s.tick
  if sent + (s.win.read wLINKTO).toNat ≤ s.tick then
    (.fault { cause := .dataLost, addr := p }, (modHead x h (fun k => { k with sent := none }) s).raise 6)
  else (.wait, modHead x h (fun k => { k with sent := some (sent, []) }) s)

/-- Whether a write to the pool fails, and whether its bytes are written, which are free values (R451). -/
def poolFails (s : State) : Option Bool × State :=
  let (n, s) := s.fresh
  if !s.poolUp then (some (Config.poolWrite n == 1), s)
  else match Config.poolWrite n with
    | 0 => (none, s)
    | v => (some (v == 1), s)

/-- The sites of a list that lie in memory of a kind, with their pointers. -/
def memAt (kind : Nat → Bool) (l : List Site) : List (Nat × W64) :=
  l.filterMap (fun a => match a with | .mem pa p _ => if kind pa then some (pa, p) else none | _ => none)

/-- What stands for the port of a request that went down with it (R446). -/
def portLost : Nat := 13
/-- The port of a memory request to another package (R444). -/
def State.memPort (s : State) (pa : Nat) : Nat := s.portTo (peerPkg pa) 0 (pa / 256)

/-- Whether the requests of a block reach their memory. One to another package takes a port, finds none (R446), is under way
until a later cycle, and may be refused, which is a free value (R445); a read of the pool needs its link (R450). -/
def reachOut (x h : Nat) (l : List Site) (s : State) : Att Unit × State :=
  let far := memAt inPeer l
  let flying := match s.head x h with | some k => k.sent | none => none
  let out := match flying with | some e => e.2 | none => []
  let new := far.filter (fun a => !out.any (fun e => e.1 == a.1 / 256))
  let gone := far.find? (fun a => out.any (fun e => e.1 == a.1 / 256 && e.2 == portLost))
  match far, new.find? (fun a => s.memPort a.1 == 12) with
  | _ :: _, some a => linkWait x h a.2 s
  | a :: _, none =>
    if let some b := gone then (.fault { cause := .dataLost, addr := b.2 }, modHead x h (fun k => { k with sent := none }) s)
    else if !new.isEmpty then
      (.wait, modHead x h (fun k => { k with sent := some (s.tick, out ++ (new.map (fun b => (b.1 / 256, s.memPort b.1))).eraseDups) }) s)
    else if (match flying with | some e => decide (s.tick ≤ e.1) | none => false) then (.wait, s)
    else
      let (n, s) := s.fresh
      if Config.peerRefuses n then (.fault { cause := .spaceRange, addr := a.2 }, s) else (.ok (), s)
  | [], _ =>
    match (memAt inPool l).find? (fun a => !s.linked a.1) with
    | some a => (.fault { cause := .dataLost, addr := a.2 }, s)
    | none => (.ok (), s)

/-- A landing holds HBM accesses (R402). -/
def State.heldBack (s : State) (l : List Site) : Bool :=
  s.landing.isSome && l.any (fun a => match a with | .mem pa _ _ => inHbm pa | _ => false)

/-- The cells of the scratchpad sites. -/
def padCells (l : List Site) : List Cell :=
  l.filterMap (fun a => match a with | .pad q _ n => some { pad := q.pad, off := q.off, n := n, lane := 0 } | _ => none)

/-- Whether the full/empty access of a block waits (R226, R267); one that does is known to the banks. -/
def feWaits (x h : Nat) (fills : Bool) (cs : List Cell) (s : State) : Bool × State :=
  let at_ := match s.head x h with | some k => k.iat | none => s.tick
  if (if fills then s.cellsSomeFull cs else !s.cellsFull cs) ||
      s.beaten { tile := tileOf x, at_ := at_, ctx := x, seq := 0, take := true, fill := fills, cells := cs } then
    (true, modHead x h (fun k => { k with few := cs, fills := fills }) s)
  else (false, s)

/-! ### Lines (R287, R288) -/

/-- Drop the lines of a tile's handles that hold a byte of [pa, pa + n). -/
def dropTileLines (t pa n : Nat) (s : State) : State :=
  [2 * t, 2 * t + 1].foldl (fun s x =>
    if (s.ctx x).handles.any (fun h => !h.2.lines.isEmpty) then
      s.modCtx x (fun c => { c with handles := c.handles.map (fun h =>
        (h.1, { h.2 with lines := h.2.lines.filter (fun l => !(decide (l.pa < pa + n) && decide (pa < l.pa + 64))) })) })
    else s) s

/-- Fill a line: it replaces the handle's lines of that pointer and of those bytes. -/
def fillLine (x h : Nat) (l : Line) (s : State) : State :=
  s.modCtx x (fun c =>
    let H := c.handle h
    c.setHandle h { H with lines := l :: H.lines.filter (fun k => k.va != l.va && k.pa != l.pa) })

/-- Read n bytes of memory for a handle (R287): a line that differs from memory serves the read or not, as a free value
says; a read from memory fills a line, unless some byte of it is uncorrectable (R397). -/
def readMem (x h : Nat) (pa : Nat) (p : W64) (n : Nat) (s : State) : Except Flt (List Byte) × State :=
  let va := p.toNat / 64 * 64
  let base := pa / 64 * 64
  let old := ((s.ctx x).handle h).lines.find? (fun l => l.va == va && l.pa == base)
  let slice := fun (l : Line) => (l.bytes.drop (pa - base)).take n
  let fromMem := fun (s : State) =>
    if s.lostPa pa n then (.error { cause := .dataLost, addr := p }, s)
    else (.ok (s.mem.readBytes pa n),
      if inPeer pa || s.lostPa base 64 then s else fillLine x h { va := va, pa := base, bytes := s.mem.readBytes base 64 } s)
  match old with
  | none => fromMem s
  | some l =>
    if !s.lostPa pa n && slice l == s.mem.readBytes pa n then (.ok (slice l), s)
    else
      let (i, s) := s.fresh
      if Config.lineServed i then (.ok (slice l), s) else fromMem s

/-- Read one site. `skip` reads a zero block from no bank (R226). -/
def readSite (x h : Nat) (skip : Bool) (a : Site) (s : State) : Except Flt (List Byte) × State :=
  match a with
  | .pad l p n =>
    if !skip && (s.pad l.pad).hitsBad (span l.off n) then
      (.error { cause := .dataLost, addr := p }, s)
    else (.ok ((s.pad l.pad).mem.readBytes l.off n), s)
  | .mem pa p n => readMem x h pa p n s

/-- Read sites in order. -/
def readSites (x h : Nat) (skip : Bool) : List Site → State → Except Flt (List (List Byte)) × State
  | [], s => (.ok [], s)
  | a :: rest, s =>
    match readSite x h skip a s with
    | (.error f, s) => (.error f, s)
    | (.ok b, s) =>
      match readSites x h skip rest s with
      | (.error f, s) => (.error f, s)
      | (.ok l, s) => (.ok (b :: l), s)

/-- Whether every byte of some sites lies in 1 KiB blocks whose zero-summary bit is set (R226). -/
def State.allZero (s : State) (l : List Site) : Bool :=
  l.all (fun a => match a with
    | .pad q _ n => (span q.off n).all (fun o => !(s.pad q.pad).dirty.has (o / 1024))
    | _ => false)

/-- One read of a block (R226, R275): every access translated, then the waits, then the bytes. -/
def readBlock (x h : Nat) (fe zskip : Bool) (acc : List (W64 × Nat)) (s : State) : Att (List (List Byte)) × State :=
  match s.sites x false acc with
  | (.wait, s) => (.wait, s)
  | (.fault f, s) => (.fault f, s)
  | (.ok l, s) =>
    if s.heldBack l then (.wait, s)
    else
      match reachOut x h l s with
      | (.wait, s) => (.wait, s)
      | (.fault f, s) => (.fault f, s)
      | (.ok _, s) =>
        match (if fe then feWaits x h false (padCells l) s else (false, s)) with
        | (true, s) => (.wait, s)
        | (false, s) =>
          match readSites x h (zskip && s.allZero l) l s with
          | (.error f, s) => (.fault f, s)
          | (.ok b, s) => (.ok b, if fe then (s.granted (tileOf x) (padCells l)).cellsEmpty (padCells l) else s)

/-! ### Writes -/

/-- One write of a block: a pointer and its bytes. -/
abbrev Wr := W64 × List Byte

/-- Offsets that the scratchpad sites of one pad cover. -/
def padOffs (p : PadId) (l : List Site) : List Nat :=
  l.flatMap (fun a => match a with | .pad q _ n => if q.pad = p then span q.off n else [] | _ => [])
/-- Physical addresses that the memory sites cover. -/
def memOffs (l : List Site) : List Nat := l.flatMap (fun a => match a with | .mem pa _ n => span pa n | _ => [])

/-- The first write of a block that meets an uncorrectable word or granule which the block covers in part (R365, R397). -/
def State.writesBad (s : State) (l : List Site) : Option Nat :=
  l.findIdx? (fun a => match a with
    | .pad q _ n => !(s.pad q.pad).bad.isEmpty &&
        ((s.pad q.pad).partialBad (padOffs q.pad l)).any (fun w => (span q.off n).any (fun o => o / 8 == w))
    | .mem pa _ n => s.lostPa pa n &&
        (let offs := memOffs l
         s.badPa.any (fun g => decide (g * 32 < pa + n) && decide (pa < g * 32 + 32) &&
           !((List.range 32).all (fun i => offs.elem (32 * g + i))))))

/-- Perform one write; a covered bad granule or word becomes good. -/
def writeSite (t : Nat) (fe : Bool) (a : Site) (b : List Byte) (s : State) : State :=
  match a with
  | .pad l _ n =>
    let (p, _) := (s.pad l.pad).write l.off (b.map some)
    s.setPad l.pad (if fe then p.setFull (span l.off n) else p)
  | .mem pa _ n => dropTileLines t pa n { s with mem := s.mem.writeBytes pa b }

/-- Perform writes in order. -/
def writeSites (t : Nat) (fe : Bool) (l : List Site) (ws : List Wr) (s : State) : State :=
  let s := (l.zip ws).foldl (fun s x => writeSite t fe x.1 x.2.2 s) s
  if s.badPa.isEmpty then s
  else
    let offs := memOffs l
    { s with badPa := s.badPa.filter (fun g => !((List.range 32).all (fun i => offs.elem (32 * g + i)))) }

/-- The writes of a block that a link lost, at other packages: each may or may not have been performed there, which is a free
value (R446). -/
def writeLost (t : Nat) (f : Flt) (l : List Site) (ws : List Wr) (s : State) : State :=
  if f.cause ≠ .dataLost then s
  else
    (l.zip ws).foldl (fun s e => match e.1 with
      | .mem pa _ _ => if inPeer pa then (let (n, s) := s.fresh; if Config.lostPerformed n then writeSite t false e.1 e.2.2 s else s) else s
      | _ => s) s

/-- What a block of writes waits for, or the sites it will write. -/
def writable (x h : Nat) (fe : Bool) (ws : List Wr) (s : State) : Att (List Site) × State :=
  match s.sites x true (ws.map (fun w => (w.1, w.2.length))) with
  | (.wait, s) => (.wait, s)
  | (.fault f, s) => (.fault f, s)
  | (.ok l, s) =>
    if s.heldBack l then (.wait, s)
    else
      match reachOut x h (l.filter (fun a => match a with | .mem pa _ _ => !inPool pa | _ => true)) s with
      | (.wait, s) => (.wait, s)
      | (.fault f, s) => (.fault f, writeLost (tileOf x) f l ws s)
      | (.ok _, s) =>
        match (if fe then feWaits x h true (padCells l) s else (false, s)) with
        | (true, s) => (.wait, s)
        | (false, s) =>
          match s.writesBad l with
          | some i => (.fault { cause := .dataLost, addr := ((ws[i]?).map (·.1)).getD 0 }, s)
          | none => (.ok l, s)

/-- Write the sites of a block that may be written, granted by their banks (R267); a write to the pool may fail (R451). -/
def writeOver (t : Nat) (fe : Bool) (l : List Site) (ws : List Wr) (s : State) : Att Unit × State :=
  let s := if fe then s.granted t (padCells l) else s
  match memAt inPool l with
  | [] => (.ok (), writeSites t fe l ws s)
  | a :: _ =>
    match poolFails s with
    | (none, s) => (.ok (), writeSites t fe l ws s)
    | (some done, s) =>
      (.fault { cause := .dataLost, addr := a.2 }, (if done then writeSites t fe l ws s else s).raise 6)

/-- Write a block (R226, R286). -/
def writeBlock (x h : Nat) (fe : Bool) (ws : List Wr) (s : State) : Att Unit × State :=
  match writable x h fe ws s with
  | (.wait, s) => (.wait, s)
  | (.fault f, s) => (.fault f, s)
  | (.ok l, s) => writeOver (tileOf x) fe l ws s

/-! ### Elements (R223, R224) -/

/-- The rounding of element e of a command (R74, R224). -/
def Cmd.rnd (k : Cmd) (key : W64) (e : Nat) : Rnd :=
  let w := pw k.ps 0
  { rm := shRm w, sm := shSm w, u := if shRm w = 4 then stochU key 3 k.ctime e else 0 }

/-- Convert an element between formats: equal formats pass the bits (R224). -/
def recode (src dst : Nat) (r : Rnd) (x : Nat) : Coded := if src = dst then (x, 0) else convert (decodeVal src x) dst r

/-- The rounding of a write into format `mf`: SM counts for E4M3 alone (R223). -/
def smFor (mf : Nat) (r : Rnd) : Rnd := if mf = tyE4 then r else { r with sm := 0 }

/-- The bytes of a zero element of a token (R224). -/
def padCode (ty : Nat) : Nat := if ty = tyLA then laEmpty.toNat else if ty = tyT8 then 0x08 else 0

/-- OR flags into a handle's status (R224). -/
def orHandleFlags (x h f : Nat) (s : State) : State :=
  if f = 0 then s
  else s.modCtx x (fun c =>
    let H := c.handle h
    c.setHandle h { H with flags := H.flags ||| f })
/-- Set DONE of a handle (R244). -/
def setDone (x h n : Nat) (s : State) : State :=
  s.modCtx x (fun c =>
    let H := c.handle h
    c.setHandle h { H with done := n })

/-- The loop indices of SFREC3 and SFREC4 (R388); NSDOT keeps its block of 128 in `j`. -/
def Cmd.loopIdx (k : Cmd) (e : Nat) : Nat × Nat :=
  let pack := fun (l : List Nat) => ((l.foldl (fun (a : Nat × Nat) i => (a.1 + (i % 65536) * 2 ^ (16 * a.2), a.2 + 1)) (0, 0)).1)
  let op := k.op
  if op = 0x05 ∨ op = 0x06 ∨ op = 0x0B ∨ op = 0x0E ∨ op = 0x0F then (pack (affIdx k.ps e), 0)
  else if op = 0x07 ∨ op = 0x08 then
    let j := e / ixRow k.ps
    (pack [e % ixRow k.ps, j, j / 65536], 0)
  else if op = 0x0A then
    match swIdx k.ps e with
    | [c, kx, ky, ox, oy] => (pack [c, kx, ky, ox], oy)
    | _ => (0, 0)
  else if op = 0x25 then (pack [e % sdCols k.ps, e / sdCols k.ps], 0)
  else if op = 0x1E then (pack [k.j, e, e / 65536 % 256], 0)
  else if op = 0x1A then (pack [e, e / 65536], 0)
  else (0, 0)
/-- The shape word of a command that has one. -/
def Cmd.shape (k : Cmd) : Nat :=
  if k.op = 0x09 ∨ k.op = 0x0C ∨ k.op = 0x1A ∨ k.op = 0x1C ∨ k.op = 0x24 then 0 else pw k.ps 0
/-- The running command of a handle faults at element e (R387, R389). -/
def faultCmd (x h : Nat) (k : Cmd) (f : Flt) (e : Nat) (s : State) : State :=
  let (i, oy) := k.loopIdx e
  (setHead x h { k with faulted := true, few := [], sent := none } s).modCtx x (fun c =>
    c.record h (sfWords f k.op h e i oy k.shape k.ctime k.pc))

end Sys2Proof.Machine
end

