-- ==== Sys2Proof/Machine/Merge.lean ====
section
/-! DEFINITION. The merge network of a cluster (R328 to R346): sessions, entries, spills, sealing, the output sequence
and the issue of its commands. -/

namespace Sys2Proof.Machine

/-- The states of MNSTAT (R333). -/
def mnIDLE : Nat := 0
def mnOPEN : Nat := 1
def mnSEALED : Nat := 2
def mnREADY : Nat := 3
def mnEMPTY : Nat := 4
def mnFAULT : Nat := 5

/-- Whether entries stay separate (R329): ordered mode with a value type that is not an integer. -/
def Merge.separate (m : Merge) : Bool := m.ord && !isINT m.vty
/-! ### Opening (R334) -/

/-- Fields of mA of MNOPEN. -/
def moVty (w : Nat) : Nat := bitsOf w 63 60
def moOty (w : Nat) : Nat := bitsOf w 59 56
def moRm (w : Nat) : Nat := bitsOf w 55 53
def moSm (w : Nat) : Nat := bitsOf w 52 52

/-- MNOPEN holds while the network has a session (R334). -/
def holdMnopen (f : MR) (s : State) : Option State :=
  if s.cx.guard f.gp && (s.mn (clOf s.cur)).state != mnIDLE then some s else none

/-- The checks of MNOPEN (R334). -/
def State.mnopenChk (s : State) (f : MR) : List Chk :=
  let c := s.cx
  let w := (c.rm f.ma.toNat).toNat
  let base := c.rm (f.ma.toNat + 1)
  let size := c.rm (f.ma.toNat + 2)
  let vty := moVty w
  let oty := moOty w
  let int := vty == tyI32 || vty == tyI64
  let bad := !(isFloat vty || int || (vty == tyLA && f.fn.toNat % 2 == 0)) ||
    !(if int then oty == tyI32 || oty == tyI64 else isFloat oty) || decide (4 < moRm w) ||
    (moSm w == 1 && oty != tyE4) || bitsOf w 51 0 != 0
  chkParam bad ++ chk (!(s.cluster (clOf s.cur)).owns c.asid || ptrCode base != 0) 2 .spaceForeign base ++
    chk (ptrCode base == 0 && !mbzOk base) 3 .spaceRange base ++
    chk (base.toNat % 64 != 0 || size.toNat % 32 != 0) 6 .misaligned base
/-- MNOPEN (R334). -/
def opMnopen (f : MR) (s : State) : Res :=
  let c := s.cx
  if !c.guard f.gp then .ok s
  else
    let k := clOf s.cur
    let w := (c.rm f.ma.toNat).toNat
    let base := c.rm (f.ma.toNat + 1)
    let size := c.rm (f.ma.toNat + 2)
    let ord := f.fn.toNat % 2 == 1
    let vty := moVty w
    let oty := moOty w
    match firstChk (s.mnopenChk f) with
    | some x => trapM x.cause x.addr
    | none =>
      let cap := (s.cluster k).crs.read 0x60
      .ok (s.modMn k (fun m =>
        { m with state := mnOPEN, ord := ord, dz := bitOf f.fn.toNat 1, vty := vty, oty := oty, rm := moRm w, sm := moSm w
                 base := base, size := size.toNat, asid := c.asid, gen := c.gen, launch := c.task.launch, team := c.task.team
                 ctx := s.cur, step := c.task.sid, key := c.cr 3, ctime := c.ctime, pc := c.pc
                 cap := (fld cap 0 15).toNat, maxRuns := (fld cap 16 7).toNat, late := 0, fcause := 0, drained := 0
                 buf := [], runs := [], lanes := [], waits := [], ords := [], seq := [], drains := [] }))

/-! ### Feeding: issue (R335) -/

/-- Fields of mP of MNFEED. -/
def mfN (ps : List W64) : Nat := bitsOf (pw ps 0) 31 0
def mfCty (ps : List W64) : Nat := bitsOf (pw ps 0) 35 32

/-- The checks on a run of n elements of w bytes from q, `pitch` bytes apart (R335, R340). -/
def State.runChk (s : State) (q : W64) (pitch w n : Nat) : List Chk :=
  (if n = 0 ∨ w = 0 then s.spaceChk q else s.boxChk q 0 ((n - 1) * pitch : Nat) w) ++
  (if w = 0 then [] else chkAlign q w [(q.toNat : Int)])
/-- The checks of MNFEED at p (R335); the value type is the session's as it stands at issue. -/
def State.mnfeedChk (s : State) (f : MS) (p : W64) : List Chk :=
  let ps := s.cx.params f 3
  let v : W64 := (ps[1]?).getD 0
  let n := mfN ps
  let cw := if mfCty ps = tyW64 then 8 else 4
  let vw := tyBytes (s.mfAt s.cur v (s.mn (clOf s.cur)).vty)
  chkParam (!(mfCty ps == tyW32 || mfCty ps == tyW64) || bitsOf (pw ps 0) 63 36 != 0 ||
    bitsOf (pw ps 2) 63 32 != 0 || (mfCty ps == tyW64 && pw ps 2 != 0)) ++
    s.runChk p cw cw n ++ s.runChk v vw vw n
/-- MNFEED at p (R335). -/
def opMnfeed (f : MS) (p : W64) (s : State) : Res :=
  if !s.cx.guard f.gp then .ok s
  else
    let ps := s.cx.params f 3
    issueCmd f false (s.mnfeedChk f p) { mkCmd 0x1A f p ps with port := f.fn.toNat % 8, total := some (mfN ps) } s

/-! ### State checks (R341) -/

/-- The trap of MNFLUSH, MNDRAIN and MNCLOSE in a state that does not allow them. -/
def State.mnCheck (s : State) (allowed : List Nat) : Option Cause :=
  let m := s.mn (clOf s.cur)
  if m.state = mnIDLE ∨ m.asid ≠ s.cx.asid then some .mnState
  else if allowed.elem m.state then none
  else if m.state = mnFAULT ∧ (m.fcause = 1 ∨ m.fcause = 2) then some .mnRunlimit
  else some .mnState

/-- MNFLUSH (R338). -/
def opMnflush (f : MR) (s : State) : Res :=
  if !s.cx.guard f.gp then .ok s
  else
    match s.mnCheck [mnOPEN] with
    | some e => trapM e
    | none => .ok (s.modMn (clOf s.cur) (fun m => { m with state := mnSEALED }))

/-! ### Draining: issue (R340) -/

/-- Fields of MNDRAIN. -/
def mdMax (ps : List W64) : Nat := bitsOf (pw ps 0) 31 0
def mdRows (ps : List W64) : Nat := bitsOf (pw ps 0) 63 32
def mdRow0 (ps : List W64) : Nat := bitsOf (pw ps 3) 31 0

/-- The parameter registers of MNDRAIN. -/
def mndrainPs (f : MS) (c : Ctx) : List W64 := c.params f (if f.fn.toNat % 2 == 1 then 4 else 2)
/-- The checks of MNDRAIN at p (R340). The values stand width(OTY) apart, each in the format of its memory (R342). -/
def State.mndrainChk (s : State) (f : MS) (p : W64) : List Chk :=
  let csr := f.fn.toNat % 2 == 1
  let ps := mndrainPs f s.cx
  let v : W64 := (ps[1]?).getD 0
  let r : W64 := (ps[2]?).getD 0
  let n := mdMax ps
  let oty := (s.mn (clOf s.cur)).oty
  let vw := tyBytes (s.mfAt s.cur v oty)
  let w := if csr then 4 else 8
  chkParam (if csr then mdRows ps == 0 || decide (2 ^ 24 < mdRows ps) || bitsOf (pw ps 3) 63 32 != 0
            else mdRows ps != 0) ++
    s.runChk p w w n ++ s.runChk v (tyBytes oty) vw n ++ (if csr then s.runChk r 4 4 (mdRows ps + 1) else [])
/-- MNDRAIN at p (R340, R341); `aux` is 1 for the CSR form. -/
def opMndrain (f : MS) (p : W64) (s : State) : Res :=
  if !s.cx.guard f.gp then .ok s
  else
    let csr := f.fn.toNat % 2 == 1
    let ps := mndrainPs f s.cx
    match firstChk (s.mndrainChk f p) with
    | some x => trapM x.cause x.addr
    | none =>
      match s.mnCheck [mnSEALED, mnREADY, mnEMPTY] with
      | some e => trapM e
      | none => .ok (submit f false { mkCmd 0x1C f p ps with aux := if csr then 1 else 0 } s)

/-! ### Feeds that end (R343, R344) -/

/-- A command by its number in the network. -/
def State.mnCmd (s : State) (id : Nat) : Option Cmd := ((s.ctx (id / 16)).handle (id % 16)).cmds.head?
/-- Change it. -/
def modMnCmd (id : Nat) (f : Cmd → Cmd) (s : State) : State :=
  match s.mnCmd id with
  | some k => setHead (id / 16) (id % 16) (f k) s
  | none => s
/-- A refused feed completes at once, and counts in LATE. -/
def refuseFeed (k id : Nat) (s : State) : State :=
  (modMnCmd id (fun c => { c with refused := true, fin := true, faulted := false }) s).modMn k
    (fun m => { m with late := min 15 (m.late + 1) })
/-- Every feed that has reached the network and not ended is refused. -/
def refuseAll (k : Nat) (s : State) : State :=
  let m := s.mn k
  let s := (m.lanes.map (·.2) ++ m.waits.map (·.2)).foldl (fun s id => refuseFeed k id s) s
  s.modMn k (fun m => { m with lanes := [], waits := [] })

/-- The session enters FAULT (R344): its record for the opening step, and its feeds refused. -/
def mnFault (k code : Nat) (f : Flt) (s : State) : State :=
  let m := s.mn k
  let s := s.modStep m.step (fun c => c.record 18 (sfWords f 0x19 18 0 0 0 0 m.ctime m.pc))
  refuseAll k (s.modMn k (fun m => { m with state := mnFAULT, fcause := code }))

/-! ### Entries and spills (R329, R331, R332) -/

/-- Order of run entries: coordinate, then lane and ordinal. -/
def MnEntry.before (sep : Bool) (a b : MnEntry) : Bool :=
  decide (a.coord.toNat < b.coord.toNat) ||
  (a.coord == b.coord && (!sep || decide (a.lane < b.lane) || (a.lane == b.lane && decide (a.ord ≤ b.ord))))
/-- Insert an entry in that order. -/
def insertMn (sep : Bool) (e : MnEntry) : List MnEntry → List MnEntry
  | [] => [e]
  | x :: t => if x.before sep e then x :: insertMn sep e t else e :: x :: t

/-- The 32 bytes of a run entry (R331). -/
def MnEntry.bytes (sep : Bool) (e : MnEntry) : List Byte :=
  natToBytes e.coord.toNat 8 ++ natToBytes (if sep then e.lane * 2 ^ 56 + e.ord % 2 ^ 40 else 0) 8 ++ natToBytes e.val.toNat 16
/-- A run entry read back. -/
def mnParse (b : List Byte) : MnEntry :=
  let v := bytesToNat b
  { coord := BitVec.ofNat 64 v, lane := bitsOf v 122 120, ord := bitsOf v 103 64, val := BitVec.ofNat 128 (v / 2 ^ 128) }

/-- Translate entry i of the spill area (R275). -/
def State.mnXlate (s : State) (m : Merge) (i : Nat) (write : Bool) : Xl :=
  s.xlateQ m.asid m.gen false ((m.base.toNat + 32 * i) % 2 ^ 56) write
/-- The fault of a failed translation; none while it waits for a landing to end. -/
def xlFlt (x : Xl) (p : W64) : Option (Nat × Flt) :=
  match x with
  | .fail sub => some (3, { cause := .streamXlate, sub := sub, addr := p })
  | .wait => none
  | _ => some (4, { cause := .dataLost, addr := p })

/-- Physical addresses of entries i to i + n − 1 of the spill area, or the first failure, or the wait of a landing. -/
def State.mnPlaces (s : State) (m : Merge) (write : Bool) (i : Nat) : Nat → Except (Option (Nat × Flt)) (List Nat)
  | 0 => .ok []
  | n + 1 =>
    match s.mnXlate m i write with
    | .ok pa =>
      match s.mnPlaces m write (i + 1) n with
      | .ok l => .ok (pa :: l)
      | .error e => .error e
    | x => .error (xlFlt x (m.base + BitVec.ofNat 64 (32 * i)))

/-- A spill (R331, R332): the buffer becomes a run and empties, or the session enters FAULT; none while it waits (R409). -/
def spill (k : Nat) (s : State) : Option (Bool × State) :=
  let m := s.mn k
  let used := m.runs.foldl (· + ·) 0
  let n := m.buf.length
  if m.maxRuns ≤ m.runs.length then some (false, mnFault k 1 { cause := .mnRunlimit } s)
  else if m.size < 32 * (used + n) then some (false, mnFault k 2 { cause := .mnRunlimit } s)
  else
    match s.mnPlaces m true used n with
    | .error none => none
    | .error (some (code, f)) => some (false, mnFault k code f s)
    | .ok pas =>
      let s := (pas.zip m.buf).foldl (fun s x => s.writePa x.1 ((x.2.bytes m.separate).map some)) s
      some (true, s.modMn k (fun m => { m with runs := m.runs ++ [n], buf := [] }))

/-- The value an entry starts with, from a lane code of VTY: an LA128, a 64-bit sum, or an FP32 code; with flags. -/
def Merge.first (m : Merge) (code : Nat) : BitVec 128 × Nat :=
  if isINT m.vty then (BitVec.ofNat 128 (wrapInt (intVal m.vty code) 64), 0)
  else if m.ord then
    let r := convert (decodeVal m.vty code) tyF32 { rm := 0, sm := 0, u := 0 }
    (BitVec.ofNat 128 r.1, r.2)
  else if m.vty = tyLA then (BitVec.ofNat 128 code, 0)
  else
    let r := LA.empty.addVal (decodeVal m.vty code)
    (r.1.encode, r.2)

/-- Combine two exact values (R329): the second is added into the first. -/
def Merge.combine (m : Merge) (a b : BitVec 128) : BitVec 128 × Nat :=
  if isINT m.vty then (BitVec.ofNat 128 ((a.toNat + b.toNat) % 2 ^ 64), 0)
  else
    let r := (LA.decode a).addLA (LA.decode b)
    (r.1.encode, r.2)
/-- Add a lane code into an exact value. -/
def Merge.addCode (m : Merge) (a : BitVec 128) (code : Nat) : BitVec 128 × Nat :=
  if isINT m.vty ∨ m.vty = tyLA then m.combine a (m.first code).1
  else
    let r := (LA.decode a).addVal (decodeVal m.vty code)
    (r.1.encode, r.2)

/-- One entry enters lane `lane` (R331): whether the session still stands, the flags met, and the state; none while its
spill waits. -/
def enterEntry (k lane : Nat) (e : W64 × Nat) (s : State) : Option (Bool × Nat × State) :=
  let m := s.mn k
  let ord : Nat := mapGet 0 m.ords lane
  let s := s.modMn k (fun m => { m with ords := mapPut lane (ord + 1) m.ords })
  match (if m.separate then none else m.buf.find? (fun x => x.coord == e.1)) with
  | some old =>
    let (v, f) := m.addCode old.val e.2
    some (true, f, s.modMn k (fun m => { m with buf := m.buf.map (fun x => if x.coord == e.1 then { x with val := v } else x) }))
  | none =>
    match (if m.cap ≤ m.buf.length then spill k s else some (true, s)) with
    | none => none
    | some (false, s) => some (false, 0, s)
    | some (true, s) =>
      let (v, f) := m.first e.2
      let x : MnEntry := { coord := e.1, lane := if m.separate then lane else 0, ord := if m.separate then ord else 0, val := v }
      some (true, f, s.modMn k (fun m => { m with buf := insertMn m.separate x m.buf }))

/-- A block of entries enters (R337); none while a spill of it waits, which stops its acceptance. -/
def enterAll (k lane : Nat) : List (W64 × Nat) → Nat → State → Option (Bool × Nat × State)
  | [], f, s => some (true, f, s)
  | e :: rest, f, s =>
    match enterEntry k lane e s with
    | none => none
    | some (true, g, s) => enterAll k lane rest (f ||| g) s
    | some (false, g, s) => some (false, f ||| g, s)

/-! ### Lanes (R336) -/

/-- A feed reaches the network (R336, R344): it takes its lane, waits for it, or is refused. -/
def feedArrives (x h : Nat) (kc : Cmd) (s : State) : State :=
  let k := clOf x
  let id := x * 16 + h
  let m := s.mn k
  let s := setHead x h { kc with arrived := true } s
  if m.state ≠ mnOPEN ∨ m.asid ≠ (s.ctx x).asid then refuseFeed k id s
  else if (mapGet? kc.port m.lanes).isNone ∧ !m.waits.any (fun w => w.1 == kc.port) then
    s.modMn k (fun m => { m with lanes := mapPut kc.port id m.lanes })
  else s.modMn k (fun m => { m with waits := m.waits ++ [(kc.port, id)] })

/-! ### The output sequence (R338, R339) -/

/-- The entries of every run, in run order, or the failure of a read-back, or its wait in a landing. -/
def readRuns (s : State) (m : Merge) : List MnEntry ⊕ Option (Nat × Flt) :=
  let n := m.runs.foldl (· + ·) 0
  match s.mnPlaces m false 0 n with
  | .error e => .inr e
  | .ok pas =>
    match pas.findIdx? (fun pa => s.lostPa pa 32) with
    | some i => .inr (some (4, { cause := .dataLost, addr := m.base + BitVec.ofNat 64 (32 * i) }))
    | none => .inl (pas.map (fun pa => mnParse (s.mem.readBytes pa 32)))

/-- Gather the sorted contributions of each coordinate: exact values combine, ordered ones stay in order. -/
def gather (m : Merge) : List MnEntry → List (W64 × List Nat × Nat)
  | [] => []
  | e :: rest =>
    match gather m rest with
    | [] => [(e.coord, [e.val.toNat], 0)]
    | (c, vs, f) :: t =>
      if c = e.coord then (c, e.val.toNat :: vs, f) :: t else (e.coord, [e.val.toNat], 0) :: (c, vs, f) :: t

/-- Combine the exact contributions of a coordinate, in the order run 0 to the buffer. -/
def foldExact (m : Merge) (x : W64 × List Nat × Nat) : W64 × List Nat × Nat :=
  match x.2.1 with
  | [] => x
  | v :: rest =>
    let r := rest.foldl (fun (a : BitVec 128 × Nat) u =>
      let c := m.combine a.1 (BitVec.ofNat 128 u)
      (c.1, a.2 ||| c.2)) (BitVec.ofNat 128 v, 0)
    (x.1, [r.1.toNat], r.2)

/-- The output sequence of a sealed session. Exact contributions keep the order run by run, the buffer last. -/
def mergeAll (m : Merge) (runs : List MnEntry) : List (W64 × List Nat × Nat) :=
  let all := (runs ++ m.buf).foldl (fun l e => insertMn m.separate e l) []
  let g := gather m all
  if m.separate then g else g.map (foldExact m)

/-- MN_READY (R338): a sealed session whose lanes are all free becomes READY. -/
def execMnReady (s : State) : Host.Outcome State Fault Refusal :=
  let k := s.unit
  let m := s.mn k
  if m.state ≠ mnSEALED ∨ !m.lanes.isEmpty ∨ !m.waits.isEmpty ∨ s.tick < m.pause then .next s
  else
    match readRuns s m with
    | .inr none => .next s
    | .inr (some (code, f)) => .next (mnFault k code f s)
    | .inl l => .next (s.modMn k (fun m => { m with state := mnREADY, seq := mergeAll m l }))

/-- The rounding of the session's outputs (R334): e is the output entry index. -/
def Merge.rnd (m : Merge) : Rnd :=
  { rm := m.rm, sm := m.sm, u := if m.rm = 4 then stochU m.key 4 m.ctime m.drained else 0 }

/-- The result of one coordinate (R329): its code in OTY and flags. -/
def Merge.result (m : Merge) (vs : List Nat) : Coded :=
  match vs with
  | [] => (0, 0)
  | v :: rest =>
    if isINT m.vty then (if m.oty = tyI64 then v % 2 ^ 64 else satCode tyI32 (sext v 64), 0)
    else if m.separate then
      let r := rest.foldl (fun (a : Coded) u =>
        let c := fAdd tyF32 { m.rnd with sm := 0 } (decodeFloat tyF32 a.1) (decodeFloat tyF32 u)
        (c.1, a.2 ||| c.2)) (v, 0)
      let c := recode tyF32 m.oty m.rnd r.1
      (c.1, r.2 ||| c.2)
    else (LA.decode (BitVec.ofNat 128 v)).read m.oty m.rnd

/-- The result of an entry of the output sequence: its code and every flag that merging and conversion set. -/
def Merge.entry (m : Merge) (x : W64 × List Nat × Nat) : Coded :=
  let r := m.result x.2.1
  (r.1, r.2 ||| x.2.2)
/-- Pass over the entries that `.DZ` leaves out (R339): the flags they set, and the sequence from the next entry kept. -/
def Merge.skim (m : Merge) : List (W64 × List Nat × Nat) → Nat × List (W64 × List Nat × Nat)
  | [] => (0, [])
  | x :: rest =>
    let r := m.entry x
    let zero := if isINT m.oty then r.1 == 0 else (decodeVal m.oty r.1).isZero
    if m.dz && zero then (r.2 ||| (m.skim rest).1, (m.skim rest).2) else (0, x :: rest)

/-! ### Closing (R343, R345) -/

/-- The network becomes IDLE; what MNSTAT keeps stays. -/
def closeSession (k : Nat) (s : State) : State :=
  s.modMn k (fun m => { m with state := mnIDLE, buf := [], seq := [], lanes := [], waits := [], drains := [] })

/-- A command of the network ends as if cancelled (R242, R343): a faulted one at once. -/
def cutMnCmd (id : Nat) (s : State) : State :=
  match s.mnCmd id with
  | some k => if k.faulted then endCut (id / 16) (id % 16) k s else setHead (id / 16) (id % 16) { k with cancel := true } s
  | none => s
/-- Whether a context, or a saved step, belongs to a tile of cluster k. -/
def State.inCluster (s : State) (k x : Nat) : Bool :=
  if x < 2 ^ 32 then !isGal x && clOf x == k
  else (span (8 * k) 8).any (fun t => (s.tile t).resume.any (fun r => r.slot + 2 ^ 32 == x))
/-- Change every MNDRAIN issued in cluster k by a step of an address space. -/
def modDrains (k asid : Nat) (f : Cmd → Cmd) (s : State) : State :=
  { s with ctxs := s.ctxs.map (fun c =>
      if c.2.asid = asid ∧ s.inCluster k c.1 then
        (c.1, { c.2 with handles := c.2.handles.map (fun h =>
          (h.1, { h.2 with cmds := h.2.cmds.map (fun q => if q.op = 0x1C then f q else q) })) })
      else c) }
/-- MNCLOSE.A (R343): waiting feeds are refused, feeds on a lane and drains end as if cancelled. -/
def abortSession (k : Nat) (s : State) : State :=
  let m := s.mn k
  let s := (m.waits.map (·.2)).foldl (fun s id => refuseFeed k id s) s
  let s := (m.lanes.map (·.2) ++ m.drains).foldl (fun s id => cutMnCmd id s) s
  closeSession k (modDrains k m.asid (fun q => { q with cancel := true }) s)

/-- MNCLOSE (R343). A drain issued and not finished meets no later session. -/
def opMnclose (f : MR) (s : State) : Res :=
  if !s.cx.guard f.gp then .ok s
  else
    match s.mnCheck [mnEMPTY] with
    | some e => trapM e
    | none =>
      let k := clOf s.cur
      .ok (closeSession k (modDrains k s.cx.asid (fun q => { q with ended := true }) s))

/-- MNCLOSE.A (R343). -/
def opMncloseA (f : MR) (s : State) : Res :=
  if !s.cx.guard f.gp then .ok s
  else
    match s.mnCheck [mnOPEN, mnSEALED, mnREADY, mnEMPTY, mnFAULT] with
    | some e => trapM e
    | none => .ok (abortSession (clOf s.cur) s)

/-- MN_AUTOCLOSE (R345): the opening step's team has no step or child left. -/
def execMnAutoclose (s : State) : Host.Outcome State Fault Refusal :=
  let m := s.mn s.unit
  let L : Option Launch := mapGet? m.launch s.launches
  let live := match L with
    | some l => (match mapGet? m.team l.teams with | some t => t.live != 0 || t.left != 0 | none => false)
    | none => false
  .next (if m.state ≠ mnIDLE ∧ !live then abortSession s.unit s else s)

/-! ### Outcomes -/

/-- MNOPEN alone (R334). -/
def execMnopen (f : MR) (s : State) : Host.Outcome State Fault Refusal := finishHold s (holdMnopen f s) (opMnopen f s)
/-- MNFEED alone (R335). -/
def execMnfeed (f : MS) (s : State) : Host.Outcome State Fault Refusal := finishHold s (holdCmd f false s) (opMnfeed f (msAddr f s.cx) s)
/-- MNFLUSH alone (R338). -/
def execMnflush (f : MR) (s : State) : Host.Outcome State Fault Refusal := finish s (opMnflush f s)
/-- MNDRAIN alone (R340). -/
def execMndrain (f : MS) (s : State) : Host.Outcome State Fault Refusal :=
  finishHold s (holdCmd f false s) (opMndrain f (msAddr f s.cx) s)
/-- MNCLOSE alone (R343). -/
def execMnclose (f : MR) (s : State) : Host.Outcome State Fault Refusal := finish s (opMnclose f s)
/-- MNCLOSE.A alone (R343). -/
def execMncloseA (f : MR) (s : State) : Host.Outcome State Fault Refusal := finish s (opMncloseA f s)

end Sys2Proof.Machine
end

