-- ==== Sys2Proof/Machine/Gallery.lean ====
section
/-! DEFINITION. The gallery cores (R347 to R369): tags and packets, the gallery extensions, hand-offs; and the issue of
GRECV (R364) and NSDOT (R370). A gallery core's read-buffer lines stand in handle 0 of its context. -/

namespace Sys2Proof.Machine

/-- The gallery core of the current context. -/
def State.galNo (s : State) : Nat := s.cur - 512
/-- It. -/
def State.myGal (s : State) : Gal := s.gal s.galNo
/-- Change it. -/
def State.modMyGal (s : State) (f : Gal → Gal) : State := s.modGal s.galNo f

/-- A trap of the A slot. -/
def trapA (c : Cause) (addr : W64 := 0) : Res := .trap { cause := c, slot := 0, addr := addr }
/-- The pointer of a store offset. -/
def storePtr (off : Nat) : W64 := BitVec.ofNat 64 (8 * 2 ^ 60 + off)

/-! ### Tags (R353) -/

/-- A tag by its id. -/
def Gal.tag (g : Gal) (i : Nat) : Tag := mapGet {} g.tags i
/-- Set a tag. -/
def Gal.setTag (g : Gal) (i : Nat) (t : Tag) : Gal := { g with tags := mapPut i t g.tags }
/-- The ids of a channel. -/
def chanTags (ch : Nat) : List Nat := (List.range 8).map (ch * 8 + ·)
/-- The lowest FREE tag of a channel. -/
def Gal.freeTag (g : Gal) (ch : Nat) : Option Nat := (chanTags ch).find? (fun i => (g.tag i).state == 0)
/-- A tag is DONE with a status. -/
def Gal.done (g : Gal) (i status : Nat) (va : W64 := 0) (sub : Nat := 0) : Gal :=
  { g.setTag i { state := 2, status := status, order := g.count, va := va, sub := sub } with count := g.count + 1 }
/-- Take a tag for a packet. -/
def Gal.send (g : Gal) (i : Nat) (p : Packet) : Gal :=
  { g.setTag i { state := 1, pkt := some { p with seq := g.count } } with count := g.count + 1 }

/-- An operation that needs a tag holds while its channel has none (R353). -/
def holdTag (gp : BitVec 4) (ch : Nat) (s : State) : Option State :=
  if s.cx.guard gp && (s.myGal.freeTag ch).isNone then some s else none

/-- Take a tag on a channel and deliver its id (R356). -/
def takeTag (f : ARn) (p : Option Packet) (s : State) : Res :=
  match s.myGal.freeTag f.fn.toNat with
  | none => .ok s
  | some i =>
    let s := s.modMyGal (fun g => match p with | some q => g.send i { q with at_ := s.tick } | none => g.done i 0)
    .ok (s.setCx (s.cx.deliverA f.rd (BitVec.ofNat 64 i) 1))

/-- R257 on a global or pool pointer. -/
def checkFar (p : W64) : Option Cause :=
  if !(ptrCode p == 0 || ptrCode p == 14) then some .spaceForeign else if !mbzOk p then some .spaceRange else none

/-- The checks of R356. -/
def greqCheck (a b : W64) (m : Bool) : Option (Cause × W64) :=
  let off := (fld b 0 17).toNat
  let ng := if m then 1 else (fld b 32 4).toNat + 1
  match checkFar a with
  | some e => some (e, a)
  | none =>
    if (if m then fld b 17 15 != 0 else fld b 17 15 != 0 || fld b 36 28 != 0) then some (.paramRange, 0)
    else if 512 < a.toNat % 512 + 32 * ng then some (.paramRange, 0)
    else if 131072 < off + 32 * ng then some (.spaceRange, storePtr off)
    else if a.toNat % 32 ≠ 0 then some (.misaligned, a)
    else if off % 32 ≠ 0 then some (.misaligned, storePtr off)
    else none

/-- GREQ (R356). -/
def opGreq (f : ARn) (s : State) : Res :=
  if !s.cx.guard f.gp then .ok s
  else
    let a := s.cx.ra f.ra
    let b := s.cx.ra f.rb
    match greqCheck a b false with
    | some (e, p) => trapA e p
    | none => takeTag f (some { kind := 0, addr := a, off := (fld b 0 17).toNat, len := 32 * ((fld b 32 4).toNat + 1) }) s

/-- Whether a freeze stops core g (R393, R399). -/
def State.galStopped (s : State) (g : Nat) : Bool := s.frozen || decide (s.tick < (s.gal g).freeze)

/-- The source bytes of a write packet, read at issue; an uncorrectable word traps (R393). -/
def State.srcBytes (s : State) (off n : Nat) : Option (List Byte) :=
  let st := s.myGal.store
  if st.hitsBad (span off n) then none else some (st.mem.readBytes off n)

/-- GWR (R356). -/
def opGwr (f : ARn) (s : State) : Res :=
  if !s.cx.guard f.gp then .ok s
  else
    let a := s.cx.ra f.ra
    let b := s.cx.ra f.rb
    let off := (fld b 0 17).toNat
    let n := 32 * ((fld b 32 4).toNat + 1)
    match greqCheck a b false with
    | some (e, p) => trapA e p
    | none =>
      match s.srcBytes off n with
      | none => trapA .dataLost (storePtr off)
      | some d => takeTag f (some { kind := 1, addr := a, off := off, len := n, data := d.map some }) s

/-- GWRM (R356): a mask of zero sends nothing. -/
def opGwrm (f : ARn) (s : State) : Res :=
  if !s.cx.guard f.gp then .ok s
  else
    let a := s.cx.ra f.ra
    let b := s.cx.ra f.rb
    let off := (fld b 0 17).toNat
    let mask := fld b 32 32
    match greqCheck a b true with
    | some (e, p) => trapA e p
    | none =>
      if mask = 0 then takeTag f none s
      else
        match s.srcBytes off 32 with
        | none => trapA .dataLost (storePtr off)
        | some d =>
          let data := ((List.range 32).zip d).map (fun x => if mask.getLsbD x.1 then some x.2 else none)
          takeTag f (some { kind := 1, addr := a, off := off, len := 32, data := data }) s

/-! ### GTAGW, GTAGQ, GFENCE (R357, R358) -/

/-- The DONE tag of a channel whose packet completed earliest. -/
def Gal.firstDone (g : Gal) (ch : Nat) : Option Nat :=
  ((chanTags ch).filter (fun i => (g.tag i).state == 2)).foldl (fun a i =>
    match a with | none => some i | some j => if (g.tag i).order < (g.tag j).order then some i else some j) none

/-- The tag GTAGW names, its checks passed: none while it must hold. -/
def gtagwPick (byCh : Bool) (a : W64) (g : Gal) : Except Unit (Option Nat) :=
  if byCh then
    let ch := (fld a 0 4).toNat
    if fld a 4 60 != 0 || (chanTags ch).all (fun i => (g.tag i).state == 0) then .error () else .ok (g.firstDone ch)
  else
    let i := (fld a 0 7).toNat
    if fld a 7 57 != 0 || (g.tag i).state == 0 then .error () else .ok (if (g.tag i).state = 2 then some i else none)

/-- GTAGW holds until its tag is DONE. -/
def holdGtagw (byCh : Bool) (f : AR1) (s : State) : Option State :=
  if s.cx.guard f.gp then
    match gtagwPick byCh (s.cx.ra f.ra) s.myGal with
    | .ok none => some s
    | _ => none
  else none

/-- GTAGW (R357): its traps free the tag; a packet that another package refused traps `SPACE_RANGE` (R445). -/
def gtagw (byCh : Bool) (f : AR1) (s : State) : Res :=
  if !s.cx.guard f.gp then .ok s
  else
    match gtagwPick byCh (s.cx.ra f.ra) s.myGal with
    | .error _ => trapA .paramRange
    | .ok none => .ok s
    | .ok (some i) =>
      let t := s.myGal.tag i
      let s := s.modMyGal (fun g => g.setTag i {})
      if t.status = 1 then .trapIn { cause := .streamXlate, sub := t.sub, slot := 0, addr := t.va } s
      else if t.status = 2 then .trapIn { cause := .dataLost, slot := 0, addr := t.va } s
      else if t.status = 4 then .trapIn { cause := .spaceRange, slot := 0, addr := t.va } s
      else .ok (s.setCx (s.cx.deliverA f.rd (BitVec.ofNat 64 (t.status * 2 ^ 56 + i)) 1))

/-- GTAGW.T (R357). -/
def opGtagwT (f : AR1) (s : State) : Res := gtagw false f s
/-- GTAGW.C (R357). -/
def opGtagwC (f : AR1) (s : State) : Res := gtagw true f s

/-- GTAGQ (R357): bits [63:4] of a must be zero. -/
def opGtagq (f : AR1) (s : State) : Res :=
  if !s.cx.guard f.gp then .ok s
  else
    let a := s.cx.ra f.ra
    if fld a 4 60 != 0 then trapA .paramRange
    else
      let g := s.myGal
      let v := (List.range 8).foldl (fun v i =>
        let t := g.tag ((fld a 0 4).toNat * 8 + i)
        v + (if t.state = 2 then 2 ^ i else if t.state = 1 then 2 ^ (8 + i) else 0)) 0
      .ok (s.setCx (s.cx.deliverA f.rd (BitVec.ofNat 64 v) 1))

/-- GFENCE holds while a tag of its channels is BUSY (R358). -/
def holdGfence (f : AS1) (s : State) : Option State :=
  let a := s.cx.ra f.ra
  if s.cx.guard f.gp && fld a 16 48 == 0 &&
      (List.range 16).any (fun ch => a.getLsbD ch && (chanTags ch).any (fun i => (s.myGal.tag i).state == 1)) then some s
  else none
/-- GFENCE (R358). -/
def opGfence (f : AS1) (s : State) : Res :=
  if s.cx.guard f.gp && fld (s.cx.ra f.ra) 16 48 != 0 then trapA .paramRange else .ok s

/-! ### Bins and dedup (R359, R360) -/

/-- The key of an address (R359): the stack, then bank and page as the controller interleaves them; the greatest for an
address that does not translate. -/
def binKey (x : Xl) : Nat :=
  match x with
  | .ok pa => pa / 2 ^ 36 * 2 ^ 64 + Config.dramKey pa % 2 ^ 64
  | _ => 2 ^ 80

/-- GBIN holds while its translation waits for a landing to end (R409). -/
def holdGbin (f : AR) (s : State) : Option State :=
  let a := s.cx.ra f.ra
  if s.cx.guard f.gp && (checkFar a).isNone && fld (s.cx.ra f.rb) 32 32 == 0 && decide (s.myGal.bins.length < 64) then
    match (s.xlate s.cur s.cx.asid s.cx.gen (ptrCode a == 14) (farOff a) false).1 with
    | .wait => some s
    | _ => none
  else none
/-- GBIN (R359). -/
def opGbin (f : AR) (s : State) : Res :=
  if !s.cx.guard f.gp then .ok s
  else
    let a := s.cx.ra f.ra
    let b := s.cx.ra f.rb
    match checkFar a with
    | some e => trapA e a
    | none =>
      if fld b 32 32 != 0 then trapA .paramRange
      else if 64 ≤ s.myGal.bins.length then .ok (s.setCx (s.cx.deliverA f.rd 1 1))
      else
        let (x, s) := s.xlate s.cur s.cx.asid s.cx.gen (ptrCode a == 14) (farOff a) false
        let s := s.modMyGal (fun g => { g with bins := g.bins ++ [(binKey x, (fld b 0 32).toNat)] })
        .ok (s.setCx (s.cx.deliverA f.rd 0 1))

/-- The entry of least key, the earliest of equal ones. -/
def leastBin : List (Nat × Nat) → Option (Nat × Nat)
  | [] => none
  | e :: t => match leastBin t with | some x => if x.1 < e.1 then some x else some e | none => some e

/-- GBDRAIN (R359). -/
def opGbdrain (f : AD) (s : State) : Res :=
  if !s.cx.guard f.gp then .ok s
  else
    match leastBin s.myGal.bins with
    | none => .ok (s.setCx (s.cx.deliverA f.rd (BitVec.ofNat 64 (2 ^ 63)) 2))
    | some e =>
      let s := s.modMyGal (fun g => { g with bins := g.bins.erase e })
      .ok (s.setCx (s.cx.deliverA f.rd (BitVec.ofNat 64 e.2) 2))
/-- GBDRAIN.CLR (R359). -/
def opGbdrainClr (f : AD) (s : State) : Res :=
  if !s.cx.guard f.gp then .ok s
  else
    let n := s.myGal.bins.length
    let s := s.modMyGal (fun g => { g with bins := [] })
    .ok (s.setCx (s.cx.deliverA f.rd (BitVec.ofNat 64 n) 2))

/-- The place of a key in the table. -/
def slotOf (k : W64) (l : List W64) : Option Nat := l.findIdx? (· == k)

/-- GDEDUP (R360). -/
def opGdedup (f : AR1) (s : State) : Res :=
  if !s.cx.guard f.gp then .ok s
  else
    let a := s.cx.ra f.ra
    let d := s.myGal.dedup
    let (v, d') := match slotOf a d with
      | some i => (2 ^ 63 + i, d)
      | none => if 256 ≤ d.length then (2 ^ 62, d) else (d.length, d ++ [a])
    let s := s.modMyGal (fun g => { g with dedup := d' })
    .ok (s.setCx (s.cx.deliverA f.rd (BitVec.ofNat 64 v) 2))
/-- GDEDUP.CLR (R360). -/
def opGdedupClr (f : AD) (s : State) : Res :=
  if !s.cx.guard f.gp then .ok s
  else
    let n := s.myGal.dedup.length
    let s := s.modMyGal (fun g => { g with dedup := [] })
    .ok (s.setCx (s.cx.deliverA f.rd (BitVec.ofNat 64 n) 2))

/-! ### The pool file (R361, R362) -/

/-- An accumulator of the pool file. -/
def Gal.acc (g : Gal) (i : Nat) : LA := LA.decode (mapGet laEmpty g.pool i)
/-- Set an accumulator. -/
def Gal.setAcc (g : Gal) (i : Nat) (x : LA) : Gal := { g with pool := mapSet laEmpty i x.encode g.pool }

/-- Add the exact value x × w (R361). -/
def poolAdd (la : LA) (x w : FV) : LA × Nat :=
  let nv := sigFlag [x, w]
  if x.isNan || w.isNan then (.nan, nv)
  else
    match prodVal x w with
    | none => (.nan, fNV)
    | some v => la.addVal v

/-- GPOOL (R361). -/
def opGpool (f : ASn) (s : State) : Res :=
  if !s.cx.guard f.gp then .ok s
  else
    let ty := f.fn.toNat
    let n := tyBytes ty
    let a := s.cx.ra f.ra
    let b := s.cx.ra f.rb
    let first := (fld b 0 9).toNat
    let count := (fld b 9 9).toNat + 1
    let off := a.toNat
    if fld b 18 14 != 0 || fld b 48 16 != 0 || decide (512 < first + count) then trapA .paramRange
    else if 131072 < off + count * n then trapA .spaceRange a
    else if off % n ≠ 0 then trapA .misaligned a
    else if s.myGal.store.hitsBad (span off (count * n)) || (span first count).any (fun i => s.myGal.poolBad.has i) then
      trapA .dataLost a
    else
      let w := decodeFloat tyB16 (fld b 32 16).toNat
      let mem := s.myGal.store.mem
      let (g, fl) := (List.range count).foldl (fun (x : Gal × Nat) j =>
        let r := poolAdd (x.1.acc (first + j)) (decodeFloat ty (mem.readLE (off + j * n) n)) w
        (x.1.setAcc (first + j) r.1, x.2 ||| r.2)) (s.myGal, 0)
      let s := s.modMyGal (fun _ => g)
      .ok (if fl = 0 then s
        else s.modCx (fun c => c.push { dst := .none, val := 0, mask := 0, pos := c.now + 1, slot := 0, flags := fl }))

/-- GPRND (R362). -/
def opGprnd (f : ASn) (s : State) : Res :=
  if !s.cx.guard f.gp then .ok s
  else
    let ty := f.fn.toNat
    let n := tyBytes ty
    let a := s.cx.ra f.ra
    let b := s.cx.ra f.rb
    let first := (fld b 0 9).toNat
    let count := (fld b 9 9).toNat + 1
    let rm := (fld b 18 3).toNat
    let sm := (fld b 21 1).toNat
    let off := a.toNat
    if fld b 23 41 != 0 || decide (512 < first + count) || decide (3 < rm) || (sm == 1 && ty != tyE4) then trapA .paramRange
    else if 131072 < off + count * n then trapA .spaceRange a
    else if off % n ≠ 0 then trapA .misaligned a
    else if (span first count).any (fun i => s.myGal.poolBad.has i) then trapA .dataLost a
    else
      let g := s.myGal
      let bytes := (List.range count).flatMap (fun j =>
        natToBytes ((g.acc (first + j)).read ty { rm := rm, sm := sm, u := 0 }).1 n)
      let s := if b.getLsbD 22 then s.modMyGal (fun g => (span first count).foldl (fun g i => g.setAcc i .empty) g) else s
      .ok (s.modCx (fun c =>
        { c with buf := { c.buf with stores := c.buf.stores ++
            [{ pad := .gal s.galNo, off := off, bytes := bytes.map some, setFull := false, addr := storePtr off }] } }))

/-! ### Hand-off and packets (R354, R363 to R366) -/

/-- GHAND (R363). -/
def opGhand (f : ARn) (s : State) : Res :=
  if !s.cx.guard f.gp then .ok s
  else
    let a := s.cx.ra f.ra
    let b := s.cx.ra f.rb
    let off := (fld a 0 17).toNat
    let n := (fld a 32 16).toNat
    if fld a 17 15 != 0 || fld a 48 16 != 0 || fld b 10 54 != 0 || n == 0 || decide (1024 < n) then trapA .paramRange
    else if 131072 < off + 64 * n then trapA .spaceRange (storePtr off)
    else if off % 64 ≠ 0 then trapA .misaligned (storePtr off)
    else takeTag f (some { kind := 2, off := off, len := 64 * n, tile := (fld b 0 8).toNat, chan := (fld b 8 2).toNat }) s

/-- The translation of a packet of core g. -/
def State.pktXlate (s : State) (g : Nat) (p : Packet) : Xl × State :=
  let c := s.ctx (512 + g)
  s.xlate (512 + g) c.asid c.gen (ptrCode p.addr == 14) (farOff p.addr) (p.kind == 1)
/-- The virtual address of a packet (R354). -/
def State.pktVa (s : State) (g : Nat) (p : Packet) : W64 :=
  let c := s.ctx (512 + g)
  s.accessVa (512 + g) c.asid c.gen (ptrCode p.addr == 14) (farOff p.addr)

/-- Whether an earlier packet of the core to a granule of [pa, pa + len) is still under way (R366); one whose walk waits may
lie there. -/
def State.pktBlocked (s : State) (g : Nat) (p : Packet) (pa : Nat) : Bool :=
  (s.gal g).tags.any (fun t => t.2.state == 1 && (match t.2.pkt with
    | some q => q.kind != 2 && decide (q.seq < p.seq) && (match (s.pktXlate g q).1 with
        | .ok qa => decide (qa < pa + p.len) && decide (pa < qa + q.len)
        | .wait => true
        | _ => false)
    | none => false))

/-- Perform a read packet: granules in order, each from memory or a line (R287). -/
def readGranules (x : Nat) (pa : Nat) (p : W64) : Nat → State → Except Flt (List Byte) × State
  | 0, s => (.ok [], s)
  | n + 1, s =>
    match readMem x 0 pa p 32 s with
    | (.error f, s) => (.error f, s)
    | (.ok b, s) =>
      match readGranules x (pa + 32) (p + 32) n s with
      | (.error f, s) => (.error f, s)
      | (.ok l, s) => (.ok (b ++ l), s)

/-- Drop the lines of one context's handles that hold a byte of [pa, pa + n). -/
def Ctx.dropPa (c : Ctx) (pa n : Nat) : Ctx :=
  { c with handles := c.handles.map (fun h =>
      (h.1, { h.2 with lines := h.2.lines.filter (fun l => !(decide (l.pa < pa + n) && decide (pa < l.pa + 64))) })) }

/-- Whether a masked write meets a bad granule that it does not cover (R365). -/
def State.rmwBad (s : State) (pa : Nat) (data : List (Option Byte)) : Bool :=
  s.lostPa pa data.length &&
    (let offs := presentOffs pa data
     s.badPa.any (fun g => offs.any (fun o => o / 32 == g) && !((List.range 32).all (fun i => offs.elem (32 * g + i)))))

/-- A packet is performed at its memory, or lost there (R354, R365, R451). -/
def performPkt (g i : Nat) (p : Packet) (pa : Nat) (s : State) : State :=
  let lost := fun (s : State) => s.modGal g (·.done i 2 p.addr)
  if p.kind = 0 then
    if !s.linked pa then lost s
    else
      match readGranules (512 + g) pa p.addr (p.len / 32) s with
      | (.error _, s) => lost s
      | (.ok b, s) =>
        s.modGal g (fun x =>
          let (q, _) := x.store.write p.off (b.map some)
          { x with store := q }.done i 0)
  else if s.rmwBad pa p.data then lost s
  else
    let put := fun (s : State) => (s.writePa pa p.data).modCtx (512 + g) (·.dropPa pa p.len)
    match (if inPool pa then poolFails s else (none, s)) with
    | (none, s) => (put s).modGal g (·.done i 0)
    | (some done, s) => (lost (if done then put s else s)).raise 6

/-- A packet is lost on its way to another package (R446): a write there may or may not have been performed, which is a free
value. -/
def losePkt (g i : Nat) (p : Packet) (pa : Nat) (s : State) : State :=
  let (n, s) := s.fresh
  ((if p.kind = 1 && Config.lostPerformed n then s.writePa pa p.data else s).modGal g (·.done i 2 p.addr)).raise 6
/-- The address blocks of a packet at pa, each with its port (R444). -/
def State.pktPorts (s : State) (p : Packet) (pa : Nat) : List (Nat × Nat) :=
  ([pa, pa + p.len - 1].map (fun a => (a / 256, s.memPort a))).eraseDups
/-- A packet to another package (R444 to R446): it takes its ports, is under way until a later cycle, and is performed or
refused; one that finds a port down waits, and is lost LINKTO ticks after its issue. -/
def peerPkt (g i : Nat) (p : Packet) (pa : Nat) (s : State) : State :=
  match p.sent with
  | none =>
    let l := s.pktPorts p pa
    if l.any (fun e => e.2 == 12) then
      if p.at_ + (s.win.read wLINKTO).toNat ≤ s.tick then losePkt g i p pa s else s
    else s.modGal g (fun G => G.setTag i { G.tag i with pkt := some { p with sent := some (s.tick, l) } })
  | some (t, _) =>
    if s.tick ≤ t then s
    else
      let (n, s) := s.fresh
      if Config.peerRefuses n then s.modGal g (·.done i 4 p.addr) else performPkt g i p pa s

/-- PACKET_COMPLETE (R354): the packet of tag `sub` of core `unit` is performed. None goes to HBM in a riser or a landing
(R367). -/
def execPacketComplete (s : State) : Host.Outcome State Fault Refusal :=
  let g := s.unit
  let i := s.sub
  let t := (s.gal g).tag i
  match t.pkt with
  | none => .next s
  | some p =>
    if t.state ≠ 1 ∨ p.kind = 2 ∨ s.galStopped g then .next s
    else
      let va := s.pktVa g p
      match s.pktXlate g p with
      | (.wait, s) => .next s
      | (.fail sub, s) => .next (s.modGal g (·.done i 1 va sub))
      | (.lost, s) => .next (s.modGal g (·.done i 2 va))
      | (.ok pa, s) =>
        if ((s.landing.isSome || s.inRiser) && inHbm pa) || s.pktBlocked g p pa then .next s
        else .next (if inPeer pa then peerPkt g i p pa s else performPkt g i p pa s)

/-- Whether a context is being saved (R423). -/
def State.saving (s : State) (x : Nat) : Bool := (s.tile (tileOf x)).saves.any (fun v => v.ctx == x)

/-- The contexts of a tile that hold a step whose operations go on. -/
def State.liveCtxs (s : State) (t : Nat) : List Nat :=
  [2 * t, 2 * t + 1].filter (fun x => !s.saving x && (match (s.ctx x).life with | .live => true | .ended _ _ _ => true | _ => false))

/-- The oldest untaken posting of a channel of a tile by a step of an address space (R363, R423): context, handle,
command. -/
def State.posting (s : State) (t ch asid : Nat) : Option (Nat × Nat × Cmd) :=
  let all := (s.liveCtxs t).flatMap (fun x => if (s.ctx x).asid ≠ asid then []
    else (s.ctx x).handles.flatMap (fun h => match h.2.cmds with
      | k :: _ => if k.op = 0x24 ∧ k.posted.isSome ∧ k.taker.isNone ∧ !k.cancel ∧ k.fn % 4 = ch then [(x, h.1, k)] else []
      | [] => []))
  all.foldl (fun a e => match a with
    | none => some e
    | some b => if e.2.2.posted.getD 0 < b.2.2.posted.getD 0 then some e else some b) none

/-- MAXB of a posting. -/
def grMax (ps : List W64) : Nat := bitsOf (pw ps 0) 31 0

/-- Whether some posting, of a step on a tile or saved, still has a hand-off: the core × 128 + tag. -/
def State.taker (s : State) (i : Nat) : Bool :=
  let has := fun (c : Ctx) => c.handles.any (fun h => h.2.cmds.any (fun k => k.taker == some i))
  s.ctxs.any (fun c => has c.2)

/-- HANDOFF_TAKE (R363): the hand-off of tag `sub` of core `unit` takes the oldest posting, or is refused; one whose
posting was cut afterwards ends as refused too (R242). -/
def execHandoffTake (s : State) : Host.Outcome State Fault Refusal :=
  let g := s.unit
  let i := s.sub
  let t := (s.gal g).tag i
  match t.pkt with
  | none => .next s
  | some p =>
    if t.state ≠ 1 ∨ p.kind ≠ 2 ∨ s.galStopped g then .next s
    else if p.taken.isSome then
      .next (if s.taker (g * 128 + i) then s else s.modGal g (·.done i 3))
    else
      match s.posting p.tile p.chan (s.ctx (512 + g)).asid with
      | none => .next s
      | some (x, h, k) =>
        if grMax k.ps < p.len then .next (s.modGal g (·.done i 3))
        else
          .next ((s.modGal g (fun y => y.setTag i { t with pkt := some { p with taken := some (x * 16 + h) } })).modCtx x
            (fun c =>
              let H := c.handle h
              c.setHandle h { H with cmds := { k with taker := some (g * 128 + i) } :: H.cmds.drop 1 }))

/-! ### GRECV and NSDOT: issue (R364, R370) -/

/-- The checks of GRECV at p (R219, R364). -/
def State.grecvChk (s : State) (f : MS) (p : W64) : List Chk :=
  let ps := s.cx.params f 1
  let n := grMax ps
  let ok := ptrCode p == 8 || ptrCode p == 9
  chkParam (n % 64 != 0 || n == 0 || decide (65536 < n) || bitsOf (pw ps 0) 63 32 != 0) ++
    chk (!ok) 2 .spaceForeign p ++ chk (ok && !mbzOk p) 3 .spaceRange p ++
    chk (ptrCode p == 9 && ptrTile p != tileOf s.cur) 4 .spaceForeign p ++ (if ok then s.reachChk p n else []) ++ chkAlign p 64 [(p.toNat : Int)]
/-- GRECV at p (R364). -/
def opGrecv (f : MS) (p : W64) (s : State) : Res :=
  if !s.cx.guard f.gp then .ok s
  else issueCmd f true (s.grecvChk f p) (mkCmd 0x24 f p (s.cx.params f 1)) s

/-- Fields of NSDOT. -/
def ndRows (ps : List W64) : Nat := bitsOf (pw ps 1) 23 0
def ndCols (ps : List W64) : Nat := bitsOf (pw ps 1) 47 24
def ndAty (ps : List W64) : Nat := bitsOf (pw ps 1) 51 48
def ndPitch (ps : List W64) : Nat := bitsOf (pw ps 3) 31 0
/-- Blocks of 128 elements in a row. -/
def ndBlocks (ps : List W64) : Nat := (ndCols ps + 127) / 128

/-- The checks of NSDOT at p (R370). -/
def State.nsdotChk (s : State) (f : MS) (p : W64) (ps : List W64) : List Chk :=
  let w := pw ps 0
  let B : W64 := (ps[2]?).getD 0
  let R : W64 := (ps[4]?).getD 0
  let rows := ndRows ps
  let cols := ndCols ps
  let wa := tyBytes (ndAty ps)
  let wb := tyBytes (shMty w)
  let wt := tyBytes (shTty w)
  let lost := wa == 0 || wb == 0 || wt == 0
  scalRun f 6 (shScal w) ++
  chkParam (!isFP (shTty w) || decide (3 < shRm w) || shSm w != 0 || shLanes w != 1 || bitsOf w 44 0 != 0 || rows == 0 ||
    cols == 0 || decide (2 ^ 20 < cols) || bitsOf (pw ps 1) 63 52 != 0 || bitsOf (pw ps 3) 63 32 != 0 ||
    (bdShape (ndAty ps) (shMty w)).isNone) ++
  chk (ptrCode B != 0) 2 .spaceForeign B ++ chk (ptrCode B == 0 && !mbzOk B) 3 .spaceRange B ++
  (if lost ∨ rows = 0 ∨ cols = 0 then []
   else s.boxChk p 0 ((cols - 1) * wa : Nat) wa true ++ s.boxChk R 0 ((rows - 1) * wt : Nat) wt true ++
     chkAlign p wa [(p.toNat : Int)] ++ chkAlign B wb [(B.toNat : Int), (ndPitch ps : Int)] ++ chkAlign R wt [(R.toNat : Int)] ++
     (if shScal w then
        s.boxChk ((ps[5]?).getD 0) 0 (rows * ndBlocks ps - 1 : Nat) 1 ++ s.boxChk ((ps[6]?).getD 0) 0 (ndBlocks ps - 1 : Nat) 1
      else []))
/-- The parameter registers of NSDOT. -/
def nsdotPs (f : MS) (c : Ctx) : List W64 := c.params f (if shScal (c.rm f.mp.toNat).toNat then 7 else 5)

/-- NSDOT at p (R370). -/
def opNsdot (f : MS) (p : W64) (s : State) : Res :=
  if !s.cx.guard f.gp then .ok s
  else
    let ps := nsdotPs f s.cx
    match firstChk (s.nsdotChk f p ps) with
    | some x => trapM x.cause x.addr
    | none =>
      match s.cx.pwr with
      | .failed e => trapM e
      | _ => .ok (submit f true { mkCmd 0x1E f p ps with total := some (ndRows ps), cost := powerCost 1 } (takeGrant 1 s))
/-- The holds of NSDOT (R218, R371). -/
def holdNsdot (f : MS) (p : W64) (s : State) : Option State :=
  match holdCmd f true s with
  | some x => some x
  | none =>
    if s.cx.guard f.gp && (firstChk (s.nsdotChk f p (nsdotPs f s.cx))).isNone then holdPower true 1 s else none

/-! ### Outcomes -/

/-- A gallery extension on a tile traps `ILLEGAL_OP` (R54, R355). -/
def galOnly (s : State) (r : Host.Outcome State Fault Refusal) : Host.Outcome State Fault Refusal :=
  if isGal s.cur then r else finish s (trapA .illegalOp)

/-- GREQ alone (R356). -/
def execGreq (f : ARn) (s : State) : Host.Outcome State Fault Refusal :=
  galOnly s (finishHold s (holdTag f.gp f.fn.toNat s) (opGreq f s))
/-- GWR alone (R356). -/
def execGwr (f : ARn) (s : State) : Host.Outcome State Fault Refusal :=
  galOnly s (finishHold s (holdTag f.gp f.fn.toNat s) (opGwr f s))
/-- GWRM alone (R356). -/
def execGwrm (f : ARn) (s : State) : Host.Outcome State Fault Refusal :=
  galOnly s (finishHold s (holdTag f.gp f.fn.toNat s) (opGwrm f s))
/-- GTAGW.T alone (R357). -/
def execGtagwT (f : AR1) (s : State) : Host.Outcome State Fault Refusal :=
  galOnly s (finishHold s (holdGtagw false f s) (opGtagwT f s))
/-- GTAGW.C alone (R357). -/
def execGtagwC (f : AR1) (s : State) : Host.Outcome State Fault Refusal :=
  galOnly s (finishHold s (holdGtagw true f s) (opGtagwC f s))
/-- GTAGQ alone (R357). -/
def execGtagq (f : AR1) (s : State) : Host.Outcome State Fault Refusal :=
  galOnly s (finish s (opGtagq f s))
/-- GBIN alone (R359). -/
def execGbin (f : AR) (s : State) : Host.Outcome State Fault Refusal :=
  galOnly s (finishHold s (holdGbin f s) (opGbin f s))
/-- GBDRAIN alone (R359). -/
def execGbdrain (f : AD) (s : State) : Host.Outcome State Fault Refusal :=
  galOnly s (finish s (opGbdrain f s))
/-- GBDRAIN.CLR alone (R359). -/
def execGbdrainClr (f : AD) (s : State) : Host.Outcome State Fault Refusal :=
  galOnly s (finish s (opGbdrainClr f s))
/-- GDEDUP alone (R360). -/
def execGdedup (f : AR1) (s : State) : Host.Outcome State Fault Refusal :=
  galOnly s (finish s (opGdedup f s))
/-- GDEDUP.CLR alone (R360). -/
def execGdedupClr (f : AD) (s : State) : Host.Outcome State Fault Refusal :=
  galOnly s (finish s (opGdedupClr f s))
/-- GPOOL alone (R361). -/
def execGpool (f : ASn) (s : State) : Host.Outcome State Fault Refusal :=
  galOnly s (finish s (opGpool f s))
/-- GPRND alone (R362). -/
def execGprnd (f : ASn) (s : State) : Host.Outcome State Fault Refusal :=
  galOnly s (finishHold s none (opGprnd f s))
/-- GHAND alone (R363). -/
def execGhand (f : ARn) (s : State) : Host.Outcome State Fault Refusal :=
  galOnly s (finishHold s (holdTag f.gp f.fn.toNat s) (opGhand f s))
/-- GFENCE alone (R358). -/
def execGfence (f : AS1) (s : State) : Host.Outcome State Fault Refusal :=
  galOnly s (finishHold s (holdGfence f s) (opGfence f s))
/-- GRECV alone (R364). -/
def execGrecv (f : MS) (s : State) : Host.Outcome State Fault Refusal := finishHold s (holdCmd f true s) (opGrecv f (msAddr f s.cx) s)
/-- NSDOT alone (R370). -/
def execNsdot (f : MS) (s : State) : Host.Outcome State Fault Refusal :=
  finishHold s (holdNsdot f (msAddr f s.cx) s) (opNsdot f (msAddr f s.cx) s)

end Sys2Proof.Machine
end

