-- ==== Sys2Proof/Machine/StreamRun.lean ====
section
/-! DEFINITION. The stream engine at work: commands start (R215), move element blocks (R222 to R233, R281, R337, R342,
R364, R370), take their turn at ports (R239), end, and complete (R217). Events name the context in `cur` and the handle
in `sub`. -/

namespace Sys2Proof.Machine

/-! ### Who runs -/

/-- Whether the stream engine works for context x: its step is there, its tile is not frozen (R394), and the package
runs. -/
def State.engineOn (s : State) (x : Nat) : Bool :=
  !s.tileStopped (tileOf x) && decide (x < 512) &&
  (s.ctx x).life != .free && !s.saving x
/-- Whether an SDUAL commits its images (R282). -/
def Cmd.commits (k : Cmd) : Bool := k.op == 0x25 && k.started && k.total == some k.k && !k.fin
/-- Whether a command completes although its step is being saved (R423): it has finished, commits both images (R282), or
a hand-off has taken it. -/
def Cmd.completes (k : Cmd) : Bool := k.fin || k.commits || k.taker.isSome
/-- The same while the step is saved (R423): such commands go on, and those that drain an output port while the array
drains. -/
def State.drainOn (s : State) (x : Nat) (k : Cmd) : Bool :=
  !s.tileStopped (tileOf x) && decide (x < 512) && (s.ctx x).life != .free &&
  (s.tile (tileOf x)).saves.any (fun v =>
    v.ctx == x && (k.completes || (v.stage == 0 && (k.op == 0x06 || k.op == 0x08 || k.op == 0x09))))

/-- The heads of a tile's handles: context, handle and command. -/
def State.heads (s : State) (t : Nat) : List (Nat × Nat × Cmd) :=
  [2 * t, 2 * t + 1].flatMap (fun x =>
    (s.ctx x).handles.filterMap (fun h => h.2.cmds.head?.map (fun k => (x, h.1, k))))

/-- Whether a head holds a stream context. -/
def Cmd.running (k : Cmd) : Bool := k.started && !k.idle
/-- Whether a head of context x waits for a stream context and may start: the accesses before it have been performed (R293). -/
def State.startable (s : State) (x : Nat) (k : Cmd) : Bool :=
  !k.running && !k.faulted && !k.fin && s.engineOn x && !s.behind x k.iss

/-- STREAM_START (R215): the oldest waiting head starts when one of the 16 stream contexts is free; one that has come back from
a save goes on. -/
def execStreamStart (s : State) : Host.Outcome State Fault Refusal :=
  let x := s.cur
  let h := s.sub
  let t := tileOf x
  match s.head x h with
  | none => .next s
  | some k =>
    let hs := s.heads t
    if !s.startable x k || decide (16 ≤ (hs.filter (fun e => e.2.2.running)).length) ||
        hs.any (fun e => s.startable e.1 e.2.2 && decide (e.2.2.seq < k.seq)) then .next s
    else if k.started then .next (setHead x h { k with idle := false } s)
    else
      let n := (s.tile t).seq
      let k' := { k with started := true, posted := if k.op = 0x24 then some n else none }
      let s := if k.op = 0x24 then s.modTile t (fun T => { T with seq := n + 1 }) else s
      .next ((setHead x h k' s).modCtx x (fun c => c.setHandle h { c.handle h with op := k.op, done := 0, cancelled := false }))

/-- The progress of a command, its block performed: the command itself, DONE and flags. -/
def progress (x h : Nat) (k : Cmd) (done flags : Nat) (s : State) : State :=
  orHandleFlags x h flags (setDone x h done (setHead x h { k with few := [], sent := none } s))

/-! ### Turns at ports (R239) -/

/-- Whether an unfinished command issued on tile t feeds input port p of tile u. -/
def Cmd.feedsPort (k : Cmd) (t u p : Nat) : Bool :=
  !k.fin && k.port == p &&
  (((k.op == 0x05 || k.op == 0x07) && k.fn / 8 % 4 == 0 && t == u) || ((k.op == 0x09 || k.op == 0x0A) && t == u) ||
   (k.op == 0x0B && !mcPads k.ps && (mcTiles t k.ps).elem u && !k.dead.has u))
/-- Whether an unfinished command drains output port p of its tile. -/
def Cmd.drainsPort (k : Cmd) (p : Nat) : Bool :=
  !k.fin && (((k.op == 0x06 || k.op == 0x08) && k.port == p) || (k.op == 0x09 && k.aux == p) ||
    ((k.op == 0x07 || k.op == 0x08) && ixSrc k.ps == 2 && ixNum k.ps == p))
/-- Its place in the order of an input port of tile u: a multicast from another tile has one once its first token has
arrived. -/
def Cmd.place (k : Cmd) (t u : Nat) : Option Nat := if t = u then some k.seq else mapGet? u k.rseq

/-- Every command of a tile with its context and handle. -/
def State.tileCmds (s : State) (t : Nat) : List (Nat × Nat × Cmd) :=
  [2 * t, 2 * t + 1].flatMap (fun x => (s.ctx x).commands.map (fun e => (x, e.1, e.2)))
/-- The places of the unfinished commands at input port p of tile u. -/
def State.feeders (s : State) (u p : Nat) : List Nat :=
  (List.range 8).flatMap (fun i =>
    let t := clusterOf u * 8 + i
    (s.tileCmds t).filterMap (fun e => if e.2.2.feedsPort t u p then e.2.2.place t u else none))
/-- Whether a command of tile t has its turn at input port p of tile u. -/
def State.inTurn (s : State) (k : Cmd) (t u p : Nat) : Bool :=
  match k.place t u with
  | some n => (s.feeders u p).all (fun m => decide (n ≤ m))
  | none => false
/-- Whether a command has its turn at output port p of its tile. -/
def State.outTurn (s : State) (k : Cmd) (t p : Nat) : Bool :=
  (s.tileCmds t).all (fun e => !e.2.2.drainsPort p || decide (k.seq ≤ e.2.2.seq))

/-- The tiles whose input port a command feeds now. -/
def Cmd.targets (k : Cmd) (t : Nat) : List Nat :=
  if k.op = 0x0B then (mcTiles t k.ps).filter (fun u => !k.dead.has u) else [t]
/-- Turn and room at every destination. -/
def State.canPut (s : State) (k : Cmd) (t : Nat) (band : Bool) : Bool :=
  (k.targets t).all (fun u => s.inTurn k t u k.port && !s.arrFrozen u && (s.arr u).inRoom k.port band)
/-- A token enters the port of every destination. -/
def putTok (k : Cmd) (t : Nat) (tok : Tok) (scale : Option Nat) (s : State) : State :=
  (k.targets t).foldl (fun s u => s.modArr u (fun a => a.inPut s.tick k.port tok scale)) s

/-! ### Reading elements (R223 to R226) -/

/-- Match the bytes read with the elements that have a pointer: format and code. -/
def pick : List (Option W64 × Nat) → List (List Byte) → List (Option (Nat × Nat))
  | [], _ => []
  | (none, _) :: t, bs => none :: pick t bs
  | (some _, f) :: t, b :: bs => some (f, bytesToNat b) :: pick t bs
  | (some _, f) :: t, [] => some (f, 0) :: pick t []

/-- The element whose access failed. -/
def failIdx (f : Flt) (els : List (Option W64)) : Nat := (els.findIdx? (fun e => e == some f.addr)).getD 0

/-- Read a block of elements of memory type `mty`, and single bytes after them. -/
def readElems (x h : Nat) (fe zskip : Bool) (mty : Nat) (els : List (Option W64)) (extra : List W64) (s : State) :
    Att (List (Option (Nat × Nat)) × List Nat) × State :=
  let fs := els.map (fun e => (e, match e with | some p => s.mfAt x p mty | none => mty))
  let acc := fs.filterMap (fun e => e.1.map (fun p => (p, tyBytes e.2)))
  match readBlock x h fe zskip (acc ++ extra.map (fun p => (p, 1))) s with
  | (.wait, s) => (.wait, s)
  | (.fault f, s) => (.fault f, s)
  | (.ok bs, s) => (.ok (pick fs bs, (bs.drop acc.length).map bytesToNat), s)

/-- SRKEY of context x (R74). -/
def State.srkey (s : State) (x : Nat) : W64 := (s.ctx x).cr 3

/-- Convert the elements read to a type, from element e0 on; an absent one is a zero element. -/
def toCodes (k : Cmd) (key : W64) (tty e0 : Nat) (l : List (Option (Nat × Nat))) : List Coded :=
  (enum l).map (fun e => match e.2 with
    | some (mf, c) => recode mf tty (smFor tty (k.rnd key (e0 + e.1))) c
    | none => (padCode tty, 0))

/-! ### Indices (R228) -/

/-- Byte offset of element e of an indirect command whose indices so far are `idx`, the last of them number j − 1. -/
def Cmd.indPtr (k : Cmd) (w e : Nat) : Option W64 :=
  let row := e / ixRow k.ps
  let first := k.j - k.idx.length
  match k.idx[row - first]? with
  | some c => some (k.base + BitVec.ofInt 64 (intVal (ixTy k.ps) c * ixRowb k.ps + (e % ixRow k.ps * w : Nat)))
  | none => none

/-- The element count becomes known. -/
def Cmd.settleTotal (k : Cmd) : Cmd :=
  if k.total.isSome then k
  else if k.idxEnd ∨ ixN k.ps ≤ k.j then { k with total := some (min k.j (ixN k.ps) * ixRow k.ps) } else k

/-- Take the next index, or the indices of one token. -/
def fetchOne (x h : Nat) (k : Cmd) (s : State) : Att Cmd × State :=
  let ps := k.ps
  let t := tileOf x
  match ixSrc ps with
  | 0 =>
    let w := tyBytes (ixTy ps)
    let p : W64 := (ps[3]?).getD 0 + BitVec.ofNat 64 (k.j * w)
    match readBlock x h false false [(p, w)] s with
    | (.wait, s) => (.wait, s)
    | (.fault f, s) => (.fault f, s)
    | (.ok bs, s) => (.ok { k with j := k.j + 1, idx := k.idx ++ bs.map bytesToNat }, s)
  | 1 =>
    let H := (s.ctx x).handle (ixNum ps)
    let ask := s.modCtx x (·.ask (ixNum ps) (k.seq + 1))
    match H.queue with
    | v :: rest =>
      if (s.ctx x).mayTake (ixNum ps) (k.seq + 1) then
        (.ok { k with j := k.j + 1, idx := k.idx ++ [v.toNat % 2 ^ tyWidth (ixTy ps)] },
          s.modCtx x (fun c => c.setHandle (ixNum ps)
            { c.handle (ixNum ps) with queue := rest, asks := (c.handle (ixNum ps)).asks.filter (· != k.seq + 1) }))
      else (.wait, ask)
    | [] =>
      if H.cmds.any (·.queueing) then (.wait, ask) else (.ok { k with idxEnd := true }, s.modCtx x (·.unask (ixNum ps) (k.seq + 1)))
  | _ =>
    if !s.outTurn k t (ixNum ps) || s.arrFrozen t then (.wait, s)
    else
      match (s.arr t).outHead (ixNum ps) with
      | none => (.wait, s)
      | some tok =>
        let l := if tok.nul then [] else tok.codes.take (ixN ps - k.j)
        (.ok { k with j := k.j + l.length, idx := k.idx ++ l, idxEnd := tok.last },
          s.modArr t (fun a => a.outTake (ixNum ps)))

/-- Take indices until row `need` − 1 has one, or there are no more; `fuel` bounds the tokens taken. -/
def fetchIdx (x h need : Nat) : Nat → Cmd → State → Att Cmd × State
  | 0, k, s => (.ok k.settleTotal, s)
  | fuel + 1, k, s =>
    if need ≤ k.j ∨ k.idxEnd ∨ ixN k.ps ≤ k.j then (.ok k.settleTotal, s)
    else
      match fetchOne x h k s with
      | (.wait, s) => (.wait, setHead x h k s)
      | (.fault f, s) => (.fault f, setHead x h k s)
      | (.ok k', s) => fetchIdx x h need fuel k' (setHead x h k' s)

/-- Drop the indices of rows done with. -/
def Cmd.trim (k : Cmd) : Cmd :=
  if k.op = 0x07 ∨ k.op = 0x08 then { k with idx := k.idx.drop (k.idx.length - (k.j - k.k / ixRow k.ps)) } else k

/-- The indices an indirect command needs for its next n elements; `look` wants to know of one element more (END 1). -/
def withIdx (x h n : Nat) (look : Bool) (k : Cmd) (s : State) : Att Cmd × State :=
  if k.op = 0x07 ∨ k.op = 0x08 then
    let last := if look then k.k + n else k.k + n - 1
    let need := min (ixN k.ps) (last / ixRow k.ps + 1)
    match fetchIdx x h need (need - k.j + 1) k s with
    | (.ok k', s) => if need ≤ k'.j ∨ k'.total.isSome then (.ok k', setHead x h k' s) else (.wait, setHead x h k' s)
    | r => r
  else (.ok k, s)

/-- A command faults at the read of its next index: at the first element of that index (R388). -/
def faultIdx (x h : Nat) (k : Cmd) (f : Flt) (s : State) : State :=
  let k := (s.head x h).getD k
  faultCmd x h k f (k.j * ixRow k.ps) s

/-- The pointer of element e of a command that reads or writes elements, of w bytes at the base. -/
def Cmd.ptr (k : Cmd) (w e : Nat) : Option W64 :=
  if k.op = 0x07 ∨ k.op = 0x08 then k.indPtr w e
  else if k.op = 0x0A then (swOff k.ps w e).map (fun o => k.base + BitVec.ofNat 64 o)
  else some (k.base + BitVec.ofInt 64 (affOff k.ps e))
/-- Width in bytes of the format at the base. -/
def State.baseWidth (s : State) (x : Nat) (k : Cmd) : Nat := tyBytes (s.mfAt x k.base (shMty (pw k.ps 0)))

/-! ### Reads into ports (R224, R225, R227 to R231) -/

/-- END (R222). -/
def Cmd.endMode (k : Cmd) : Nat := k.fn % 4
/-- `.FE` and `.Z`. -/
def Cmd.fe (k : Cmd) : Bool := bitOf k.fn 5
def Cmd.zskip (k : Cmd) : Bool := bitOf k.fn 2

/-- The scale pointer of a block that holds a first element of 128 (R225). -/
def Cmd.scalePtr (k : Cmd) (n : Nat) : List W64 :=
  if shScal (pw k.ps 0) ∧ k.op ≠ 0x0A ∧ k.op ≠ 0x0B then
    ((List.range n).filter (fun i => (k.k + i) % 128 == 0)).map (fun i =>
      (k.ps[4]?).getD 0 + BitVec.ofNat 64 ((k.k + i) / 128))
  else []

/-- Places of a multicast at the ports of other tiles, taken when its first token is ready (R239); a port of another
shape writes a record and receives nothing (R231). -/
def mcArrive (x h : Nat) (k : Cmd) (ready : Bool) (s : State) : Cmd × State :=
  let t := tileOf x
  let w := pw k.ps 0
  if k.op ≠ 0x0B ∨ k.arrived ∨ !ready then (k, s)
  else
    (mcTiles t k.ps).foldl (fun (a : Cmd × State) u =>
      if u = t then a
      else
        let n := (a.2.tile u).seq
        let d := (a.2.arr u).port k.port
        let s := a.2.modTile u (fun T => { T with seq := n + 1 })
        if poUsed d ∧ (poTy d ≠ shTty w ∨ poLanes d ≠ shLanes w ∨ poScaled d) then
          ({ a.1 with dead := NatSet.add u a.1.dead },
            s.modCtx x (fun c => c.record h (sfWords { cause := .portShape } k.op h 0 0 0 k.shape k.ctime k.pc)))
        else ({ a.1 with rseq := mapPut u n a.1.rseq }, s)) ({ k with arrived := true }, s)

/-- The end of a read into a port: a NUL with LAST where END asks for one. -/
def readTail (x h : Nat) (k : Cmd) (s : State) : State :=
  let t := tileOf x
  let w := pw k.ps 0
  if k.endMode = 2 ∨ (k.endMode = 1 ∧ k.total = some 0) then
    if s.canPut k t false then
      setHead x h { k with fin := true, at_ := s.tick + 2 } (putTok k t (nulTok (shTty w) (shLanes w) true) none s)
    else setHead x h k s
  else setHead x h { k with fin := true, at_ := max k.at_ s.tick } s

/-- One token of a read into a port. -/
def readToPort (x h : Nat) (k : Cmd) (s : State) : State :=
  let t := tileOf x
  let w := pw k.ps 0
  let L := shLanes w
  match withIdx x h L (k.endMode == 1) k s with
  | (.wait, s) => s
  | (.fault f, s) => faultIdx x h k f s
  | (.ok k, s) =>
    let n := match k.total with | some T => min L (T - k.k) | none => L
    if n = 0 then
      let (k, s) := mcArrive x h k true s
      readTail x h k s
    else
      let bw := s.baseWidth x k
      let els := (span k.k n).map (k.ptr bw)
      let sp := k.scalePtr n
      let go := readElems x h k.fe k.zskip (shMty w) els sp
      let idle := fun (s : State) => if s.canPut k t (!sp.isEmpty) then s else modHead x h (fun k => { k with few := [] }) s
      if k.op = 0x0B && !k.arrived && (go s).1.isWait then idle (go s).2 else
      let (k, s) := mcArrive x h k true s
      let s := setHead x h k s
      if !s.canPut k t (!sp.isEmpty) then modHead x h (fun k => { k with few := [] }) s
      else
        match go s with
        | (.wait, s) => s
        | (.fault f, s) => faultCmd x h k f (k.k + failIdx f els) s
        | (.ok (l, sc), s) =>
          let cs := toCodes k (s.srkey x) (shTty w) k.k l
          let done := k.total == some (k.k + n)
          let codes := cs.map (·.1) ++ List.replicate (L - n) (padCode (shTty w))
          let s := putTok k t (mkTok (shTty w) codes (done && k.endMode == 1)) sc.head? s
          let k' := { k with k := k.k + n, fin := done && k.endMode != 2, at_ := s.tick + 2 }
          progress x h k'.trim k'.k (flagsOf cs) s

/-- One entry of a read into an element queue (R233). -/
def readToQueue (x h : Nat) (k : Cmd) (s : State) : State :=
  let w := pw k.ps 0
  let diff := k.fn / 8 % 4 == 2
  match withIdx x h 1 false k s with
  | (.wait, s) => s
  | (.fault f, s) => faultIdx x h k f s
  | (.ok k, s) =>
    if k.total = some k.k then setHead x h { k with fin := true, at_ := s.tick } s
    else if 64 ≤ ((s.ctx x).handle h).queue.length ∧ !(diff && k.k == 0) then s
    else
      let els := [k.ptr (s.baseWidth x k) k.k]
      match readElems x h k.fe k.zskip (shMty w) els [] s with
      | (.wait, s) => s
      | (.fault f, s) => faultCmd x h k f k.k s
      | (.ok (l, _), s) =>
        let cs := toCodes k (s.srkey x) (shTty w) k.k l
        let v := match cs with | c :: _ => intVal (shTty w) c.1 | [] => 0
        let entry : List W64 :=
          if diff then
            match k.prev with
            | some u => [BitVec.ofNat 64 (wrapInt (v - (BitVec.ofNat 64 u).toInt) 32)]
            | none => []
          else [BitVec.ofInt 64 v]
        let s := s.modCtx x (fun c => c.setHandle h { c.handle h with queue := (c.handle h).queue ++ entry })
        let k' := { k with k := k.k + 1, prev := some (wrapInt v 64) }
        progress x h k'.trim k'.k (flagsOf cs) s

/-! ### SREC (R229) -/

/-- One token of SREC. -/
def recTok (x h : Nat) (k : Cmd) (s : State) : State :=
  let t := tileOf x
  let d := (s.arr t).port k.port
  let n := k.total.getD 0
  let bare := n == 0 && k.endMode == 0
  if bare && (k.primed || !k.zskip) then setHead x h { k with fin := true, at_ := max k.at_ s.tick } s
  else if !s.canPut k t false then s
  else if k.zskip ∧ !k.primed then
    setHead x h { k with primed := true, fin := bare, at_ := s.tick + 2 } (putTok k t (zeroTok (poTy d) (poLanes d)) none s)
  else if k.j < n then
    if !s.outTurn k t k.aux then s
    else
      match (s.arr t).outHead k.aux with
      | none => s
      | some tok =>
        let last := k.j + 1 == n
        let s := putTok k t { tok with last := tok.last || (last && k.endMode == 1) } none (s.modArr t (fun a => a.outTake k.aux))
        let k' := { k with j := k.j + 1, k := k.k + tok.n, fin := last && k.endMode != 2, at_ := s.tick + 2 }
        progress x h k' k'.k 0 s
  else if k.endMode = 2 ∨ (k.endMode = 1 ∧ n = 0) then
    setHead x h { k with fin := true, at_ := s.tick + 2 } (putTok k t (nulTok (poTy d) (poLanes d) true) none s)
  else setHead x h { k with fin := true, at_ := max k.at_ s.tick } s

/-! ### Writes from ports (R224, R225, R228) -/

/-- One element as it is written: pointer and bytes, with flags. -/
def writeElem (s : State) (x : Nat) (mty src : Nat) (p : W64) (r : Rnd) (code : Nat) : Wr × Nat :=
  let mf := s.mfAt x p mty
  let c := recode src mf (smFor mf r) code
  ((p, natToBytes c.1 (tyBytes mf)), c.2)

/-- Whether the indices of a SINDW may have ended although it needs one more (R228): the producer of its queue has ended, or
a NUL token stands at its index port. -/
def State.idxDry (s : State) (x : Nat) (k : Cmd) : Bool :=
  let n := ixNum k.ps
  let H := (s.ctx x).handle n
  let t := tileOf x
  k.op == 0x08 && !k.idxEnd && decide (k.j * ixRow k.ps ≤ k.k) &&
  (match ixSrc k.ps with
   | 1 => H.queue.isEmpty && !H.cmds.any (·.queueing)
   | 2 => s.outTurn k t n && !s.arrFrozen t && (match (s.arr t).outHead n with | some tok => tok.nul | none => false)
   | _ => false)

/-- One token of SAFFW or SINDW. The scale of a block of 128 comes with its first token from a SCALED port (R193, R225). -/
def writeFromPort (x h : Nat) (k : Cmd) (s : State) : State :=
  let t := tileOf x
  let w := pw k.ps 0
  let L := shLanes w
  if k.total = some k.k then setHead x h { k with fin := true, at_ := s.tick } s
  else if s.idxDry x k then (withIdx x h 1 false k s).2
  else if !s.outTurn k t k.port || s.arrFrozen t then s
  else
    match (s.arr t).outHead k.port with
    | none => s
    | some tok =>
      if tok.nul then
        setHead x h { k with fin := tok.last, at_ := s.tick } (touchSaves t (s.modArr t (fun a => a.outTake k.port)))
      else
        match withIdx x h L false k s with
        | (.wait, s) => s
        | (.fault f, s) => faultIdx x h k f s
        | (.ok k, s) =>
          let n := match k.total with | some T => min L (T - k.k) | none => L
          if n = 0 then setHead x h { k with fin := true, at_ := s.tick } s else
          let bw := s.baseWidth x k
          let key := s.srkey x
          let ws := (List.range n).map (fun i =>
            writeElem s x (shMty w) (shTty w) ((k.ptr bw (k.k + i)).getD k.base) (k.rnd key (k.k + i))
              (lane (tyWidth (shTty w)) i tok.data))
          let sc := if poScaled ((s.arr t).port (16 + k.port)) then (k.scalePtr n).map (fun p => (p, [BitVec.ofNat 8 tok.sc])) else []
          match writeBlock x h k.fe (ws.map (·.1) ++ sc) s with
          | (.wait, s) => s
          | (.fault f, s) => faultCmd x h k f (k.k + failIdx f (ws.map (fun e => some e.1.1))) s
          | (.ok _, s) =>
            let k' := { k with k := k.k + n, fin := tok.last || k.total == some (k.k + n), at_ := s.tick }
            progress x h k'.trim k'.k (ws.foldl (fun a e => a ||| e.2) 0) (touchSaves t (s.modArr t (fun a => a.outTake k.port)))

/-! ### Copies, fills and multicasts to scratchpads (R231, R232) -/

/-- Read n elements and write each at the pointers `dst` gives it. -/
def copyBlock (x h : Nat) (k : Cmd) (n : Nat) (dst : Nat → List W64) (s : State) : State :=
  let w := pw k.ps 0
  let els := (span k.k n).map (k.ptr (s.baseWidth x k))
  let dsts := (span k.k n).flatMap (fun e => (dst e).map (fun p => (e, p)))
  let dummy := dsts.map (fun d => (d.2, natToBytes 0 (tyBytes (s.mfAt x d.2 (shMty w)))))
  match writable x h k.fe dummy s with
  | (.wait, s) => s
  | (.fault f, s) =>
    let e := match dsts.find? (fun d => d.2 == f.addr) with | some d => d.1 | none => k.k
    faultCmd x h k f e s
  | (.ok sites, s) =>
    match readElems x h k.fe k.zskip (shMty w) els [] s with
    | (.wait, s) => s
    | (.fault f, s) => faultCmd x h k f (k.k + failIdx f els) s
    | (.ok (l, _), s) =>
      let key := s.srkey x
      let out := dsts.map (fun d =>
        match (l[d.1 - k.k]?).join with
        | some (mf, c) => writeElem s x (shMty w) mf d.2 (k.rnd key d.1) c
        | none => ((d.2, []), 0))
      match writeOver (tileOf x) k.fe sites (out.map (·.1)) s with
      | (.wait, s) => s
      | (.fault f, s) => faultCmd x h k f k.k s
      | (.ok _, s) =>
        let k' := { k with k := k.k + n, fin := k.total == some (k.k + n), at_ := s.tick }
        progress x h k' k'.k (out.foldl (fun a e => a ||| e.2) 0) s

/-- One block of SCOPY. -/
def scopyBlock (x h : Nat) (k : Cmd) (s : State) : State :=
  let d : W64 := (k.ps[4]?).getD 0
  let dw := tyBytes (s.mfAt x d (shMty (pw k.ps 0)))
  copyBlock x h k (min 64 (k.total.getD 0 - k.k)) (fun e => [d + BitVec.ofNat 64 (e * dw)]) s

/-- One block of SMCAST to scratchpads. -/
def mcastBlock (x h : Nat) (k : Cmd) (s : State) : State :=
  let t := tileOf x
  let w := pw k.ps 0
  copyBlock x h k (min (shLanes w) (k.total.getD 0 - k.k)) (fun e =>
    (mcTiles t k.ps).map (fun u => tilePtr u (mcOfs k.ps + e * tyBytes (s.mfAt x (tilePtr u (mcOfs k.ps)) (shMty w))))) s

/-- Whether the affine box of w-byte elements covers the byte at offset d from its base. -/
def affCovers (ps : List W64) (w : Nat) (d : Int) : Bool :=
  let n0 := affN ps 0
  let s0 := affS ps 0
  (List.range (affN ps 3)).any (fun i3 => (List.range (affN ps 2)).any (fun i2 => (List.range (affN ps 1)).any (fun i1 =>
    let r := d - ((i1 : Int) * affS ps 1 + (i2 : Int) * affS ps 2 + (i3 : Int) * affS ps 3)
    if s0 = 0 then n0 != 0 && decide (0 ≤ r) && decide (r < w)
    else
      let i0 := if 0 < s0 then r / s0 else -(r / (-s0))
      decide (0 ≤ i0) && decide (i0 < n0) && decide (r - i0 * s0 < w))))

/-- The value an SFILL writes in a format. -/
def fillCode (k : Cmd) (mf : Nat) (r : Rnd) : Coded :=
  let tty := shTty (pw k.ps 0)
  recode tty mf (smFor mf r) (pw k.ps 4 % 2 ^ tyWidth tty)

/-- A finished SFILL of zeros sets the zero-summary bits of the 1 KiB blocks it covered wholly and that still hold
zeros (R232). -/
def fillSummary (x : Nat) (k : Cmd) (s : State) : State :=
  match s.streamLoc x k.base 1 with
  | .ok (.pad l) =>
    let w := s.baseWidth x k
    let mty := shMty (pw k.ps 0)
    let P := s.pad l.pad
    let clean := P.dirty.filter (fun b =>
      (fillCode k (if s.fmtAt ⟨l.pad, 1024 * b⟩ = 0xF then mty else s.fmtAt ⟨l.pad, 1024 * b⟩) (k.rnd 0 0)).1 == 0 &&
      !P.mem.any (fun c => c.1 / 1024 == b) &&
      (List.range 1024).all (fun i => affCovers k.ps w ((1024 * b + i : Nat) - (l.off : Int))))
    s.setPad l.pad { P with dirty := P.dirty.filter (fun b => !clean.elem b) }
  | _ => s

/-- One block of SFILL. -/
def sfillBlock (x h : Nat) (k : Cmd) (s : State) : State :=
  let w := pw k.ps 0
  let n := min 64 (k.total.getD 0 - k.k)
  let key := s.srkey x
  let bw := s.baseWidth x k
  let ws := (span k.k n).map (fun e =>
    let p := (k.ptr bw e).getD 0
    let mf := s.mfAt x p (shMty w)
    let c := fillCode k mf (k.rnd key e)
    ((p, natToBytes c.1 (tyBytes mf)), c.2))
  match writeBlock x h k.fe (ws.map (·.1)) s with
  | (.wait, s) => s
  | (.fault f, s) => faultCmd x h k f (k.k + failIdx f (ws.map (fun e => some e.1.1))) s
  | (.ok _, s) =>
    let done := k.total == some (k.k + n)
    let k' := { k with k := k.k + n, fin := done, at_ := s.tick }
    let s := progress x h k' k'.k (ws.foldl (fun a e => a ||| e.2) 0) s
    if done then fillSummary x k s else s

/-! ### SPREF (R227) and SDUAL (R282) -/

/-- One block of SPREF: a failing translation ends it. -/
def sprefBlock (x h : Nat) (k : Cmd) (s : State) : State :=
  let n := min 64 (k.total.getD 0 - k.k)
  let mty := shMty (pw k.ps 0)
  let bw := s.baseWidth x k
  let acc := (span k.k n).map (fun e =>
    let p := (k.ptr bw e).getD 0
    (p, tyBytes (s.mfAt x p mty)))
  match s.sites x false acc with
  | (.wait, s) => s
  | (.fault _, s) => setHead x h { k with fin := true, at_ := s.tick } s
  | (.ok l, s) =>
    if s.heldBack l then s
    else
      let s := l.foldl (fun s a => match a with
        | .mem pa p _ =>
          if inPeer pa || !s.linked pa || s.lostPa (pa / 64 * 64) 64 then s
          else fillLine x h { va := p.toNat / 64 * 64, pa := pa / 64 * 64, bytes := s.mem.readBytes (pa / 64 * 64) 64 } s
        | _ => s) s
      let k' := { k with k := k.k + n, fin := k.total == some (k.k + n), at_ := s.tick }
      progress x h k' k'.k 0 s

/-- The two writes of element e of SDUAL, once its code is known. -/
def sdWrites (k : Cmd) (e code : Nat) : List Wr :=
  let ps := k.ps
  let wm := tyBytes (shMty (pw ps 0))
  let r := e / sdCols ps
  let c := e % sdCols ps
  let b := natToBytes code wm
  [((ps[2]?).getD 0 + BitVec.ofInt 64 ((r : Int) * sdLdp ps + (c * wm : Nat)), b),
   ((ps[3]?).getD 0 + BitVec.ofInt 64 ((c : Int) * sdLdt ps + (r * wm : Nat)), b)]

/-- SDUAL: a block of its gather, or its commit. The plain image is written first, then the transposed one. -/
def sdualBlock (x h : Nat) (k : Cmd) (s : State) : State :=
  let w := pw k.ps 0
  let T := k.total.getD 0
  let restart := { k with k := 0, buf := [] }
  if k.k < T then
    let n := min 64 (T - k.k)
    let ws := s.baseWidth x k
    let els := (span k.k n).map (fun e =>
      some (k.base + BitVec.ofNat 64 (e / sdCols k.ps * sdPitch k.ps + e % sdCols k.ps * ws)))
    match readElems x h k.fe k.zskip (shMty w) els [] s with
    | (.wait, s) => s
    | (.fault f, s) => faultCmd x h restart f (k.k + failIdx f els) s
    | (.ok (l, _), s) =>
      let cs := toCodes k (s.srkey x) (shMty w) k.k l
      let k' := { k with k := k.k + n, buf := k.buf ++ cs.map (·.1) }
      progress x h k' k'.k (flagsOf cs) s
  else
    let both := (enum k.buf).map (fun e => sdWrites k e.1 e.2)
    let ws := both.filterMap (·.head?) ++ both.filterMap (fun l => (l.drop 1).head?)
    let fail := fun (f : Flt) => faultCmd x h restart f ((failIdx f (ws.map (fun e => some e.1))) % max T 1)
    match writable x h false ws s with
    | (.wait, s) => s
    | (.fault f, s) => fail f s
    | (.ok l, s) =>
      match writeOver (tileOf x) false l ws s with
      | (.wait, s) => s
      | (.fault f, s) => fail f s
      | (.ok _, s) => setHead x h { k with fin := true, at_ := s.tick, buf := [], sent := none } s

/-! ### NSDOT (R370, R371) -/

/-- The read-out of one row from the codes of a and B and their scales. -/
def ndRow (k : Cmd) (as bs : List Nat) (sa sb : List Nat) : Coded :=
  let ps := k.ps
  let w := pw ps 0
  let acc := (List.range (ndBlocks ps)).foldl (fun (acc : BitVec 128 × Nat) b =>
    let va := ((as.drop (128 * b)).take 128).map (decodeVal (ndAty ps))
    let vb := ((bs.drop (128 * b)).take 128).map (decodeVal (shMty w))
    let p := Ex.dot ({}, 0) (va.zip vb)
    let r := laAddP acc.1 (p.1.scaled ((sa[b]?).getD 127) ((sb[b]?).getD 127))
    (r.1, acc.2 ||| p.2 ||| r.2)) (laEmpty, 0)
  let c := (LA.decode acc.1).read (shTty w) { rm := shRm w, sm := 0, u := 0 }
  (c.1, acc.2 ||| c.2)

/-- One row of NSDOT. B is read at memory, never from lines. -/
def nsdotRow (x h : Nat) (k : Cmd) (s : State) : State :=
  let ps := k.ps
  let w := pw ps 0
  let r := k.k
  let cols := ndCols ps
  let wa := tyBytes (ndAty ps)
  let wb := tyBytes (shMty w)
  let wt := tyBytes (shTty w)
  let row : W64 := (ps[2]?).getD 0 + BitVec.ofNat 64 (r * ndPitch ps)
  let nb := ndBlocks ps
  let bAcc := (List.range cols).map (fun c => (row + BitVec.ofNat 64 (c * wb), wb))
  let scal := shScal w
  let aAcc := (List.range cols).map (fun c => (k.base + BitVec.ofNat 64 (c * wa), wa)) ++
    (if scal then (List.range nb).map (fun i => ((ps[5]?).getD 0 + BitVec.ofNat 64 (r * nb + i), 1)) ++
      (List.range nb).map (fun i => ((ps[6]?).getD 0 + BitVec.ofNat 64 i, 1)) else [])
  let fault := fun (b : Nat) (f : Flt) => faultCmd x h { k with j := b } f r
  let bAt := fun (p : W64) => ((bAcc.findIdx? (fun e => e.1 == p)).getD 0) / 128
  let aAt := fun (p : W64) =>
    let i := (aAcc.findIdx? (fun e => e.1 == p)).getD 0
    if i < cols then i / 128 else (i - cols) % nb
  match s.sites x false bAcc with
  | (.wait, s) => s
  | (.fault f, s) => fault (bAt f.addr) f s
  | (.ok l, s) =>
    let pas := l.filterMap (fun a => match a with | .mem pa _ n => some (pa, n) | _ => none)
    let stack := match pas with | (pa, _) :: _ => pa / 2 ^ 36 | [] => 0
    if !pas.all (fun e => inHbm e.1 && e.1 / 2 ^ 36 == stack && (e.1 + e.2 - 1) / 2 ^ 36 == stack) then
      fault 0 { cause := .paramRange, addr := row } s
    else if s.heldBack l then s
    else
      match pas.findIdx? (fun e => s.lostPa e.1 e.2) with
      | some i => fault (i / 128) { cause := .dataLost, addr := row + BitVec.ofNat 64 (i * wb) } s
      | none =>
      let bs := pas.map (fun e => s.mem.readLE e.1 e.2)
      match readBlock x h false false aAcc s with
      | (.wait, s) => s
      | (.fault f, s) => fault (aAt f.addr) f s
      | (.ok ab, s) =>
        let v := ab.map bytesToNat
        let c := ndRow k (v.take cols) bs ((v.drop cols).drop nb) ((v.drop cols).take nb)
        match writeBlock x h false [((ps[4]?).getD 0 + BitVec.ofNat 64 (r * wt), natToBytes c.1 wt)] s with
        | (.wait, s) => s
        | (.fault f, s) => fault (nb - 1) f s
        | (.ok _, s) =>
          let k' := { k with k := r + 1, fin := r + 1 == ndRows ps, at_ := s.tick }
          progress x h k' k'.k c.2 s

/-! ### MNFEED and MNDRAIN (R335 to R342) -/

/-- The accesses of entries e0 onwards of a feed: coordinates, then values. -/
def feedAcc (s : State) (x : Nat) (k : Cmd) (e0 n : Nat) : List (W64 × Nat) × List (Nat × W64) :=
  let cw := if mfCty k.ps = tyW64 then 8 else 4
  let v : W64 := (k.ps[1]?).getD 0
  let vty := (s.mn (clOf x)).vty
  let vw := tyBytes (s.mfAt x v vty)
  ((span e0 n).map (fun e => (k.base + BitVec.ofNat 64 (e * cw), cw)),
   (span e0 n).map (fun e =>
     let p := v + BitVec.ofNat 64 (e * vw)
     (s.mfAt x p vty, p)))

/-- One block of a feed that holds its lane (R337). -/
def feedBlock (x h : Nat) (k : Cmd) (s : State) : State :=
  let c := clOf x
  let m := s.mn c
  let id := x * 16 + h
  if !(m.lanes.any (fun l => l.2 == id)) && !(m.waits.any (fun w => w.2 == id)) then refuseFeed c id s
  else if mapGet? k.port m.lanes ≠ some id ∨ s.tick < m.pause then s
  else
    let n := min 64 (k.total.getD 0 - k.k)
    let (ca, va) := feedAcc s x k k.k n
    match readBlock x h false false (ca ++ va.map (fun e => (e.2, tyBytes e.1))) s with
    | (.wait, s) => s
    | (.fault f, s) =>
      faultCmd x h k f (k.k + (((ca.map (·.1)).findIdx? (· == f.addr)).getD (((va.map (·.2)).findIdx? (· == f.addr)).getD 0))) s
    | (.ok bs, s) =>
      let key := s.srkey x
      let row := if mfCty k.ps = tyW64 then 0 else pw k.ps 2 % 2 ^ 32 * 2 ^ 32
      let vals := (enum (va.zip (bs.drop n))).map (fun e =>
        let r : Rnd := { rm := m.rm, sm := m.sm, u := if m.rm = 4 then stochU key 3 k.ctime (k.k + e.1) else 0 }
        recode e.2.1.1 m.vty (smFor m.vty r) (bytesToNat e.2.2))
      let es := ((bs.take n).zip vals).map (fun e => (BitVec.ofNat 64 (row + bytesToNat e.1), e.2.1))
      let k' := { k with k := k.k + n, fin := k.total == some (k.k + n), at_ := s.tick }
      let start := s
      let s := progress x h k' k'.k (flagsOf vals) s
      match enterAll c k.port es 0 s with
      | none => start
      | some (ok, fl, s) =>
        let s := orHandleFlags x h fl s
        if ok && k'.fin then leaveNet c id s else s

/-- Act for command k of handle h, walking again after a resumption of R390 until the block is done or fails. -/
def resuming (x h : Nat) (k : Cmd) (act : State → State) (s : State) : State :=
  let (_, t) := walkingAgain k.retry (tileOf x) (fun s => ((), act s)) s
  if k.retry then
    match t.head x h with
    | some k' => if { k' with few := k.few, fills := k.fills, sent := k.sent } = k then t else setHead x h { k' with retry := false } t
    | none => t
  else t

/-- MN_FEED_ARRIVE (R336): the first block of the feed is ready, and every earlier feed of its tile has arrived. -/
def execMnFeedArrive (s : State) : Host.Outcome State Fault Refusal :=
  let x := s.cur
  let h := s.sub
  match s.head x h with
  | none => .next s
  | some k =>
    if k.op ≠ 0x1A ∨ !k.running ∨ k.arrived ∨ k.faulted ∨ k.cancel ∨ !s.engineOn x ∨ !(k.bars.all (fun b => (s.ctx x).barMet b)) ∨
        (s.tileCmds (tileOf x)).any (fun e => e.2.2.op == 0x1A && !e.2.2.arrived &&
          decide (e.2.2.seq < k.seq)) then .next s
    else if k.total = some 0 then
      if (s.mn (clOf x)).state = mnOPEN ∧ (s.mn (clOf x)).asid = (s.ctx x).asid then
        .next (setHead x h { k with arrived := true, fin := true, at_ := s.tick } s)
      else .next (feedArrives x h k s)
    else
      let n := min 64 (k.total.getD 0)
      let (ca, va) := feedAcc s x k 0 n
      .next (resuming x h k (fun s =>
        match readBlock x h false false (ca ++ va.map (fun e => (e.2, tyBytes e.1))) s with
        | (.wait, s) => s
        | (.fault f, s) =>
          faultCmd x h k f (((ca.map (·.1)).findIdx? (· == f.addr)).getD (((va.map (·.2)).findIdx? (· == f.addr)).getD 0)) s
        | (.ok _, s) => feedArrives x h ((s.head x h).getD k) s) s)

/-- One action of a drain (R342): the command and its writes after it, none when it has ended; the network; and flags.
`k` counts entries written and `j` the next row pointer. The sequence has been passed to an entry that it keeps (R339). -/
def drainStep (s : State) (x : Nat) (k : Cmd) (m : Merge) : Option (Cmd × List Wr) × Merge × Nat :=
  let csr := k.aux == 1
  let ps := k.ps
  let v : W64 := (ps[1]?).getD 0
  let r := { m.rnd with u := if m.rm = 4 then stochU (s.srkey x) 3 k.ctime k.k else 0 }
  let took := fun (rest : List (W64 × List Nat × Nat)) => { m with seq := rest, drained := m.drained + 1 }
  let put := fun (b : List Byte) (bw : Nat) (e : Coded) (rest : List (W64 × List Nat × Nat)) =>
    let p := v + BitVec.ofNat 64 (k.k * tyBytes m.oty)
    let mf := s.mfAt x p m.oty
    let c := recode m.oty mf (smFor mf r) e.1
    (some ({ k with k := k.k + 1 }, [(k.base + BitVec.ofNat 64 (k.k * bw), b), (p, natToBytes c.1 (tyBytes mf))]),
      took rest, e.2 ||| c.2)
  let ptr := (some ({ k with j := k.j + 1 }, [((ps[2]?).getD 0 + BitVec.ofNat 64 (4 * k.j), natToBytes (k.k % 2 ^ 32) 4)]), m, 0)
  if !csr then
    match (if mdMax ps ≤ k.k then [] else m.seq) with
    | [] => (none, m, 0)
    | a :: rest => put (natToBytes a.1.toNat 8) 8 (m.entry a) rest
  else if mdRows ps < k.j then (none, m, 0)
  else if k.j = 0 then ptr
  else
    match (if mdMax ps ≤ k.k then [] else m.seq) with
    | a :: rest =>
      let row := a.1.toNat / 2 ^ 32
      if mdRow0 ps + k.j ≤ row then ptr
      else if row < mdRow0 ps then (some (k, []), took rest, (m.entry a).2)
      else put (natToBytes (a.1.toNat % 2 ^ 32) 4) 4 (m.entry a) rest
    | [] => ptr

/-- Up to n actions of a drain: whether it has ended too, and each write with the entry it belongs to. -/
def drainSteps (s : State) (x : Nat) : Nat → Cmd → Merge → List (Nat × Wr) → Nat → Bool × Cmd × Merge × List (Nat × Wr) × Nat
  | 0, k, m, ws, f => (false, k, m, ws, f)
  | n + 1, k, m, ws, f =>
    let q := m.skim m.seq
    match drainStep s x k { m with seq := q.2 } with
    | (none, m, g) => (true, k, m, ws, f ||| q.1 ||| g)
    | (some (k', w), m, g) => drainSteps s x n k' m (ws ++ w.map (fun e => (k.k, e))) (f ||| q.1 ||| g)

/-- The writes of some actions of a drain (R342): with them done, `after` says what becomes of the network. -/
def drainWrites (x h : Nat) (k : Cmd) (done : Bool) (k' : Cmd) (ws : List (Nat × Wr)) (fl : Nat) (after : State → State) (s : State) :
    State :=
  resuming x h k (fun s =>
    match writeBlock x h false (ws.map (·.2)) s with
    | (.wait, s) => s
    | (.fault f, s) => faultCmd x h k f (match ws.find? (fun e => e.2.1 == f.addr) with | some e => e.1 | none => k.k) s
    | (.ok _, s) => progress x h { k' with fin := done, at_ := s.tick } k'.k fl (after s)) s

/-- MN_DRAIN_RUN (R340 to R342): a drain reaches the network, and runs in the order of arrival once the session is
READY. One whose session an MNCLOSE has ended in EMPTY runs on as there: no entry is left (log entry 93, DEDUCED). -/
def execMnDrainRun (s : State) : Host.Outcome State Fault Refusal :=
  let x := s.cur
  let h := s.sub
  let c := clOf x
  let id := x * 16 + h
  match s.head x h with
  | none => .next s
  | some k =>
    if k.op ≠ 0x1C ∨ !k.running ∨ k.faulted ∨ k.fin ∨ !s.engineOn x then .next s
    else if k.cancel then .next (endCut x h k s)
    else if !(k.bars.all (fun b => (s.ctx x).barMet b)) then .next s
    else if k.ended then
      match drainSteps s x 64 k { s.mn c with seq := [] } [] 0 with
      | (done, k', _, ws, fl) => .next (drainWrites x h k done k' ws fl (fun s => s) s)
    else
      let k := { k with arrived := true }
      let s := setHead x h k (s.modMn c (fun m => if m.drains.elem id then m else { m with drains := m.drains ++ [id] }))
      let m := s.mn c
      if !(m.state == mnREADY || m.state == mnEMPTY) || m.drains.head? != some id || decide (s.tick < m.pause) then .next s
      else
        match drainSteps s x 64 k m [] 0 with
        | (done, k', m', ws, fl) =>
          let m' := { m' with state := if done && (m'.skim m'.seq).2.isEmpty then mnEMPTY else m'.state
                              drains := if done then m'.drains.filter (· != id) else m'.drains }
          .next (drainWrites x h k done k' ws fl (fun s => s.modMn c (fun _ => m')) s)

/-! ### GRECV (R363, R364) -/

/-- One 64-byte block of a hand-off: the gallery core's store to the buffer. -/
def recvBlock (x h : Nat) (k : Cmd) (s : State) : State :=
  match k.taker with
  | none => s
  | some i =>
    let g := i / 128
    let G := s.gal g
    match (G.tag (i % 128)).pkt with
    | none => s
    | some p =>
      if s.galStopped g then s
      else if G.store.hitsBad (span (p.off + k.k) 64) then
        faultCmd x h k { cause := .dataLost, addr := storePtr (p.off + k.k) } k.k s
      else
        match writeBlock x h k.fe [(k.base + BitVec.ofNat 64 k.k, G.store.mem.readBytes (p.off + k.k) 64)] s with
        | (.wait, s) => s
        | (.fault f, s) => faultCmd x h k f k.k s
        | (.ok _, s) =>
          let done := decide (p.len ≤ k.k + 64)
          let k' := { k with k := k.k + 64, fin := done, at_ := s.tick }
          let s := progress x h k' k'.k 0 s
          if done then
            (s.modGal g (·.done (i % 128) 0)).modCtx x (fun c => { c with grecvd := NatSet.add h c.grecvd })
          else s

/-! ### One block -/

/-- A command of a handle ends where it has nothing to move. -/
def endAtOnce (x h : Nat) (k : Cmd) (s : State) : State := setHead x h { k with fin := true, at_ := s.tick } s

/-- ELEMENT_BLOCK_TRANSFER (R224 to R232): the running command of handle `sub` of context `cur` moves one block, waits,
faults, or ends because it was cancelled (R242). -/
def execElementBlockTransfer (s : State) : Host.Outcome State Fault Refusal :=
  let x := s.cur
  let h := s.sub
  match s.head x h with
  | none => .next s
  | some k =>
    if !k.running || k.faulted || k.fin || !(s.engineOn x || s.drainOn x k) || k.op == 0x1C then .next s
    else if k.cancel then .next (endCut x h k s)
    else if k.op != 0x09 && !(k.bars.all (fun b => (s.ctx x).barMet b)) then .next s
    else .next (resuming x h k (fun s =>
      match k.op with
      | 0x05 => if k.fn / 8 % 4 = 0 then readToPort x h k s else readToQueue x h k s
      | 0x07 => if k.fn / 8 % 4 = 0 then readToPort x h k s else readToQueue x h k s
      | 0x0A => readToPort x h k s
      | 0x0B =>
        if !mcPads k.ps then readToPort x h k s
        else if k.total = some k.k then endAtOnce x h k s else mcastBlock x h k s
      | 0x06 => writeFromPort x h k s
      | 0x08 => writeFromPort x h k s
      | 0x09 => recTok x h k s
      | 0x0E => if k.total = some k.k then endAtOnce x h k s else scopyBlock x h k s
      | 0x0F => if k.total = some k.k then endAtOnce x h k s else sfillBlock x h k s
      | 0x23 => if k.total = some k.k then endAtOnce x h k s else sprefBlock x h k s
      | 0x25 => sdualBlock x h k s
      | 0x1E => nsdotRow x h k s
      | 0x1A => if k.arrived then feedBlock x h k s else s
      | 0x24 => recvBlock x h k s
      | _ => s) s)

/-! ### Tokens between tiles (R234, R447) -/

/-- Destination tile and channel of a TEMIT. -/
def teTile (k : Cmd) : Nat := k.aux % 256
def teChan (k : Cmd) : Nat := k.aux / 256 % 16
/-- PEERMAP of tile t for channel c (R447). -/
def wPEERMAP (t c : Nat) : Nat := 0x10000 + 256 * t + 0x18 + 8 * (c - 8)
/-- The package a TEMIT of tile t on channel c goes to, when it leaves this one. -/
def State.peerOf (s : State) (t c : Nat) : Option Nat :=
  let e := s.win.read (wPEERMAP t c)
  if 8 ≤ c ∧ e.getLsbD 8 ∧ (fld e 0 8).toNat ≠ s.pkgnum then some (fld e 0 8).toNat else none
/-- Whether an earlier TEMIT of the tile to the same channel has not been sent (R234). -/
def State.temitBehind (s : State) (t : Nat) (k : Cmd) : Bool :=
  (s.tileCmds t).any (fun e => e.2.2.op == 0x0C && e.2.2.aux % 4096 == k.aux % 4096 && !e.2.2.fin && decide (e.2.2.seq < k.seq))

/-- A token for another package (R446, R447): it stands outstanding while the channel there is full, which is a free value,
and is lost when no port has been up for LINKTO ticks. -/
def temitFar (x h pkg : Nat) (k : Cmd) (s : State) : State :=
  match s.portTo pkg 2 (tileOf x) with
  | 12 =>
    (match linkWait x h 0 s with
     | (.fault f, s) => faultCmd x h k f 0 s
     | (_, s) => s)
  | p =>
    let (n, s) := s.fresh
    if Config.remoteChanFull n then
      setHead x h { k with sent := some (match k.sent with | some (t, []) => (t, [(0, p)]) | some e => e | none => (s.tick, [(0, p)])) } s
    else endAtOnce x h { k with sent := none } s

/-- TEMIT_SEND (R234, R447): the token enters its channel when there is room, behind the earlier ones of its tile; one for
another package leaves. -/
def execTemitSend (s : State) : Host.Outcome State Fault Refusal :=
  let x := s.cur
  let h := s.sub
  let t := tileOf x
  match s.head x h with
  | none => .next s
  | some k =>
    if k.op ≠ 0x0C ∨ !k.running ∨ k.faulted ∨ k.fin ∨ !s.engineOn x then .next s
    else if k.cancel then .next (endCut x h k s)
    else if s.temitBehind t k then .next s
    else
      match s.peerOf t (teChan k) with
      | some pkg => .next (temitFar x h pkg k s)
      | none =>
        let q := (s.tile (teTile k)).chan (teChan k)
        if 8 ≤ q.length ∨ (dieOf x ≠ teTile k / 128 ∧ !s.bridge) then .next s
        else
          .next (endAtOnce x h k
            (s.modTile (teTile k) (fun T => { T with chans := mapPut (teChan k) (q ++ [k.val]) T.chans })))

/-! ### Circuits (R238) -/

/-- The entry of output port k in a switch table: destinations as (tile, input port). -/
def swOutEntry (m : Mem) (k : Nat) : Option (List (Nat × Nat)) :=
  let e := m.readLE (8 * k) 8
  if bitOf e 63 then
    some ((List.range (bitsOf e 62 61 + 1)).map (fun j => (bitsOf e (12 * j + 11) (12 * j + 4), bitsOf e (12 * j + 3) (12 * j))))
  else none
/-- The source that an active input entry names: tile and output port. -/
def swInEntry (m : Mem) (k : Nat) : Option (Nat × Nat) :=
  let e := m.readLE (0x80 + 8 * k) 8
  if bitOf e 63 then some (bitsOf e 11 4, bitsOf e 3 0) else none
/-- Mesh hops between the clusters of two tiles: a die's 16 clusters stand 4 by 4 in row order (PRESUMED, log entry 13;
timing only). -/
def clusterHops (t u : Nat) : Nat :=
  let a := clusterOf t % 16
  let b := clusterOf u % 16
  ((a / 4 : Nat) - (b / 4 : Nat) : Int).natAbs + ((a % 4 : Nat) - (b % 4 : Nat) : Int).natAbs
/-- Cycles of transit of a circuit. -/
def circuitCycles (t u : Nat) : Nat := 2 + 2 * clusterHops t u + (if t / 128 = u / 128 then 0 else 40)

/-- Whether a token that leaves output port k by its circuit begins a block of 128 elements, so that its scale leaves with it
from a SCALED port (R193); and the elements of the block in progress after it. -/
def Arr.blockOf (a : Arr) (k : Nat) (tok : Tok) : Bool × Nat :=
  let n := mapGet 0 a.blocks k
  if tok.nul then (false, if tok.last then 0 else n)
  else (poScaled (a.port (16 + k)) && (n == 0 || decide (128 < n + tok.n)), if tok.last then 0 else (n + tok.n) % 128)
/-- Whether an input port keeps scales: one that is USED without SCALED does not. -/
def Arr.keepsScale (a : Arr) (k : Nat) : Bool := !poUsed (a.port k) || poScaled (a.port k)

/-- CIRCUIT_TRANSFER (R238): the head token of output port `sub` of tile `unit` goes to every destination of its circuit,
when each accepts this source and has space, with the scale that a SCALED port emits (R193). -/
def execCircuitTransfer (s : State) : Host.Outcome State Fault Refusal :=
  let t := s.unit
  let k := s.sub
  match (match (s.tile t).table with | some m => swOutEntry m k | none => none), (s.arr t).outHead k with
  | some dsts, some tok =>
    let (scaled, n) := (s.arr t).blockOf k tok
    let ok := dsts.all (fun d =>
      (match (s.tile d.1).table with | some m => swInEntry m d.2 == some (t, k) | none => false) &&
      (s.arr d.1).inRoom d.2 (scaled && (s.arr d.1).keepsScale d.2) && !s.arrFrozen d.1 && (t / 128 == d.1 / 128 || s.bridge))
    if !ok || s.arrFrozen t then .next s
    else
      let s := s.modArr t (fun a => { a.outTake k with blocks := mapPut k n a.blocks })
      .next (dsts.foldl (fun s d => s.modArr d.1 (fun a =>
        let item := fun (x : Tok) => ({ ready := s.tick + circuitCycles t d.1, tok := some x, img := a.tag } : EItem)
        { a with inp := mapPut d.2 (a.inq d.2 ++ [item tok]) a.inp
                 band := if scaled && a.keepsScale d.2 then mapPut d.2 (a.bandq d.2 ++ [item (mkTok tyW8 [tok.sc] false)]) a.band
                         else a.band })) s)
  | _, _ => .next s

/-! ### Completion (R217, R248) -/

/-- FOLLOW_ON_ARM (R248): a finished port read arms its group, at the cycle in which its last token is in the FIFO. -/
def execFollowOnArm (s : State) : Host.Outcome State Fault Refusal :=
  let x := s.cur
  let h := s.sub
  let t := tileOf x
  match s.head x h with
  | none => .next s
  | some k =>
    match k.follow with
    | none => .next s
    | some g =>
      let a := s.arr t
      let n := match a.current with | some i => (a.runq i g).length | none => 0
      if !k.fin || k.refused || k.cancel || decide (s.tick < k.at_) || decide (15 ≤ n) || !(s.engineOn x || s.drainOn x k) then .next s
      else .next (armGroup t g x k.op k.ctime 0 k.pc (setHead x h { k with follow := none } s))

/-- STREAM_COMPLETE (R217): a finished command leaves its handle. -/
def execStreamComplete (s : State) : Host.Outcome State Fault Refusal :=
  let x := s.cur
  let h := s.sub
  match s.head x h with
  | none => .next s
  | some k =>
    if !k.fin || (k.follow.isSome && !k.cancel) || decide (s.tick < k.at_) || !(s.engineOn x || s.drainOn x k) then .next s
    else
      .next ((uncount x k s).modCtx x (fun c =>
        let H := c.handle h
        let c := c.setHandle h { H with cmds := H.cmds.drop 1, cancelled := k.refused || k.cancel }
        let c := if k.op = 0x24 then c.setEv 4 else c
        if k.op = 0x1C then c.setEv 3 else c))

end Sys2Proof.Machine
end

