-- ==== Sys2Proof/Machine/ArrayCmd.lean ====
section
/-! DEFINITION. Switch tables (R236, R237), configuration loads and switches (R245, R246), armed groups (R247, R249),
edge depths (R250), port waits (R120) and status (R244, R196). -/

namespace Sys2Proof.Machine

/-- The checks of a pointer to n bytes, a multiple of `al` (R219). -/
def State.blobChk (s : State) (p : W64) (n al : Nat) (pads : Bool) : List Chk :=
  s.boxChk p 0 0 n pads ++ chkAlign p al [(p.toNat : Int)]

/-- A command that the stream class counts holds at 4,095 (R218). -/
def holdStr (gp : BitVec 4) (s : State) : Option State := if s.cx.guard gp && s.cx.str == 4095 then some s else none

/-- Whether a request of tick `at_` to memory at `pa` reaches it: no port to another package may be up, or that package may
refuse it, which is a free value (R444 to R446); the link of the pool may be down (R450). The request goes and is answered in
one cycle, so that a port that goes down meets none under way (log entry 66). -/
def reachFar (at_ pa : Nat) (p : W64) (s : State) : Att Unit × State :=
  if inPeer pa then
    if s.memPort pa != 12 then
      let (n, s) := s.fresh
      (if Config.peerRefuses n then .fault { cause := .spaceRange, addr := p } else .ok (), s)
    else if at_ + (s.win.read wLINKTO).toNat ≤ s.tick then (.fault { cause := .dataLost, addr := p }, s.raise 6)
    else (.wait, s)
  else (if s.linked pa then .ok () else .fault { cause := .dataLost, addr := p }, s)

/-- Bytes that a load issued at tick `at_` reads, from memory and never from a line. -/
def readDirect (x at_ : Nat) (acc : List (W64 × Nat)) (s : State) : Att (List Byte) × State :=
  match s.sites x false acc with
  | (.wait, s) => (.wait, s)
  | (.fault f, s) => (.fault f, s)
  | (.ok l, s) =>
    if s.heldBack l then (.wait, s)
    else
      match (match (memAt (fun pa => inPeer pa || inPool pa) l).head? with
        | some a => reachFar at_ a.1 a.2 s
        | none => (.ok (), s)) with
      | (.wait, s) => (.wait, s)
      | (.fault f, s) => (.fault f, s)
      | (.ok _, s) =>
      match (l.zip acc).find? (fun a => match a.1 with
        | .pad q _ n => (s.pad q.pad).hitsBad (span q.off n)
        | .mem pa _ n => s.lostPa pa n) with
      | some a => (.fault { cause := .dataLost, addr := a.2.1 }, s)
      | none =>
        (.ok (l.flatMap (fun a => match a with
          | .pad q _ n => (s.pad q.pad).mem.readBytes q.off n
          | .mem pa _ n => s.mem.readBytes pa n)), s)
/-- n blocks of 64 bytes from p. -/
def blocks64 (p : W64) (n : Nat) : List (W64 × Nat) := (List.range n).map (fun i => (p + BitVec.ofNat 64 (64 * i), 64))

/-! ### Switch tables (R236, R237) -/

/-- SWLOAD (R237). -/
def opSwload (f : MR) (s : State) : Res :=
  if !s.cx.guard f.gp then .ok s
  else
    let p := s.cx.rm f.ma.toNat
    match firstChk (s.blobChk p 256 64 true) with
    | some x => trapM x.cause x.addr
    | none =>
      let c := s.cx
      .ok ((s.modTile (tileOf s.cur) (fun t => { t with tloads := t.tloads ++
        [{ slot := 2, ctx := s.cur, ptr := p, op := 0x12, ctime := c.ctime, pc := c.pc, at_ := s.tick, iss := c.iss }] })).modCx
        (fun c => { c with str := c.str + 1 }))

/-- Whether some unfinished command, of this tile or a multicast of its cluster, uses input port p of tile t. -/
def State.inBusy (s : State) (t p : Nat) : Bool :=
  (List.range 8).any (fun i =>
    let u := clusterOf t * 8 + i
    (s.tileCmds u).any (fun e => e.2.2.feedsPort u t p))
/-- Whether an output port is in use. -/
def State.outBusy (s : State) (t p : Nat) : Bool := (s.tileCmds t).any (fun e => e.2.2.drainsPort p)

/-- The 8-byte entry of a switch table: k below 16 an output port, else an input port. -/
def swEntry (m : Mem) (k : Nat) : Nat := m.readLE (8 * k) 8
/-- The active table, of zeros while none is active. -/
def Tile.active (t : Tile) : Mem := t.table.getD []

/-- SWACT holds while a load is pending, or while a port whose entry changes is not idle (R237). -/
def holdSwact (f : MR) (s : State) : Option State :=
  let t := tileOf s.cur
  let T := s.tile t
  let a := s.arr t
  let busy := fun (k : Nat) => swEntry T.active k != swEntry T.pending k &&
    (if k < 16 then !(a.outq k).isEmpty || s.outBusy t k
     else !(a.inq (k - 16)).isEmpty || !(a.bandq (k - 16)).isEmpty || (mapGet? (k - 16) a.nuls).isSome || s.inBusy t (k - 16))
  if s.cx.guard f.gp && (!T.tloads.isEmpty || (List.range 32).any busy) then some s else none

/-- A switch table's must-be-zero bits are zero and no entry names a destination twice (R236, R237). -/
def swTableOk (m : Mem) : Bool :=
  (List.range 16).all (fun k =>
    let e := swEntry m k
    let n := bitsOf e 62 61 + 1
    let ds := (List.range n).map (fun j => bitsOf e (12 * j + 11) (12 * j))
    if bitOf e 63 then bitsOf e 60 48 == 0 && e % 2 ^ 48 / 2 ^ (12 * n) == 0 && ds.eraseDups.length == n else e == 0) &&
  (List.range 16).all (fun k =>
    let e := swEntry m (16 + k)
    if bitOf e 63 then bitsOf e 62 12 == 0 else e == 0)

/-- SWACT (R237). -/
def opSwact (f : MR) (s : State) : Res :=
  if !s.cx.guard f.gp then .ok s
  else
    let t := tileOf s.cur
    if !swTableOk (s.tile t).pending then trapM .paramRange
    else .ok (s.modTile t (fun x => { x with table := some x.pending }))

/-! ### Configuration images (R245, R246) -/

/-- Queue a load of an image into a slot. -/
def queueLoad (slot op : Nat) (p : W64) (s : State) : State :=
  let c := s.cx
  let l : CfgLoad := { slot := slot, ctx := s.cur, ptr := p, op := op, ctime := c.ctime, pc := c.pc, at_ := s.tick, iss := c.iss }
  (s.modArr (tileOf s.cur) (fun a =>
    { a with loads := a.loads ++ [l],
             imgs := mapPut slot { a.img slot with inv := 0xFF } a.imgs })).modCx (fun c => { c with str := c.str + 1 })

/-- CFGLOAD (R245). -/
def opCfgload (f : MR) (s : State) : Res :=
  if !s.cx.guard f.gp then .ok s
  else
    let p := s.cx.rm f.ma.toNat
    let a := s.arr (tileOf s.cur)
    let slot := f.fn.toNat % 2
    match firstChk (s.blobChk p 2048 64 false) with
    | some x => trapM x.cause x.addr
    | none => if a.act = some slot ∨ a.target = some slot then trapM .cfgBusy else .ok (queueLoad slot 0x14 p s)

/-- CFGPREF holds while a switch is in progress (R245). -/
def holdCfgpref (f : MR) (s : State) : Option State :=
  if s.cx.guard f.gp && ((s.arr (tileOf s.cur)).target.isSome || s.cx.str == 4095) then some s else none

/-- CFGPREF (R245): the slot that is not active, slot 0 with none (DEDUCED, log entry 20). -/
def opCfgpref (f : MR) (s : State) : Res :=
  if !s.cx.guard f.gp then .ok s
  else
    let p := s.cx.rm f.ma.toNat
    let a := s.arr (tileOf s.cur)
    let slot := if a.act = some 0 then 1 else 0
    match firstChk (s.blobChk p 2048 64 false) with
    | some x => trapM x.cause x.addr
    | none => .ok (if (a.img slot).src = some p ∧ (a.img slot).inv = 0 then s else queueLoad slot 0x29 p s)

/-- A load of an image lands: it is checked, and leaves the stream class (R195, R217). -/
def landImage (t : Nat) (l : CfgLoad) (raw : Mem) (s : State) : State :=
  (s.modArr t (fun a =>
    let loads := a.loads.erase l
    let inv := if loads.any (fun k => k.slot == l.slot) then 0xFF else checkImage raw
    { a with loads := loads, imgs := mapPut l.slot { raw := raw, inv := inv, heavy := heavyImage raw, src := some l.ptr } a.imgs })).modCtx
    l.ctx (fun c => { c with str := c.str - 1 })

/-- The record of a load (R245, R387). -/
def loadRecord (l : CfgLoad) (f : Flt) (s : State) : State :=
  s.modCtx l.ctx (fun c => c.record 16 (sfWords f l.op 16 0 0 0 0 l.ctime l.pc))

/-- CFG_IMAGE_LANDED (R195, R237): the oldest load into slot `sub` of tile `unit` lands, or faults; slot 2 is the
pending switch table. The accesses before its issue go first (R293). -/
def execCfgImageLanded (s : State) : Host.Outcome State Fault Refusal :=
  let t := s.unit
  if s.frozen ∨ s.arrFrozen t then .next s
  else if s.sub = 2 then
    match (s.tile t).tloads with
    | [] => .next s
    | l :: rest =>
      if l.faulted || s.behind l.ctx l.iss then .next s
      else
        match walkingAgain l.retry t (readDirect l.ctx l.at_ (blocks64 l.ptr 4)) s with
        | (.wait, s) => .next s
        | (.fault f, s) =>
          .next (loadRecord l f (s.modTile t (fun T => { T with tloads := { l with faulted := true, retry := false } :: rest })))
        | (.ok b, s) =>
          .next ((s.modTile t (fun T => { T with tloads := rest, pending := Mem.writeBytes [] 0 b })).modCtx l.ctx
            (fun c => { c with str := c.str - 1 }))
  else
    match (s.arr t).loads.find? (fun l => l.slot == s.sub) with
    | none => .next s
    | some l =>
      if l.faulted || s.behind l.ctx l.iss then .next s
      else
        match walkingAgain l.retry t (readDirect l.ctx l.at_ (blocks64 l.ptr 32)) s with
        | (.wait, s) => .next s
        | (.fault f, s) =>
          .next (loadRecord l f (s.modArr t (fun a =>
            { a with loads := a.loads.map (fun k => if k = l then { k with faulted := true, retry := false } else k) })))
        | (.ok b, s) => .next (landImage t l (Mem.writeBytes [] 0 b) s)

/-- The slot of CFGACT. -/
def actSlot (f : MR) : Nat := f.fn.toNat % 2
/-- Whether CFGACT of a slot needs the ARR grant (R414): a valid heavy image that would become active. -/
def State.actNeeds (s : State) (slot : Nat) : Bool :=
  let t := tileOf s.cur
  let a := s.arr t
  a.act != some slot && (a.img slot).inv == 0 && (a.img slot).heavy && !(s.tile t).pgrant.getLsbD 2

/-- The holds of CFGACT (R246, R415). -/
def holdCfgact (f : MR) (s : State) : Option State :=
  let a := s.arr (tileOf s.cur)
  if !s.cx.guard f.gp then none
  else if a.target.isSome || a.loads.any (fun l => l.slot == actSlot f) then some s
  else holdPower (s.actNeeds (actSlot f)) 0 s

/-- A switch to image n begins (R198): a marker enters each port and side band that feeds an edge of the old image, when a
run of it is armed; tokens in ports the old image does not use, and those to come, belong to n; those of a used port that
feeds no edge are discarded. -/
def beginSwitch (n tick : Nat) (key : W64) (a : Arr) : Arr :=
  let used := fun (k : Nat) => match a.act with | some o => poUsed (imgPort (a.img o).raw k) | none => false
  let old := a.tag
  let retag := fun (m : Map (List EItem)) => m.map (fun q =>
    (q.1, q.2.map (fun e => if e.img = old ∧ !used q.1 then { e with img := n } else e)))
  let run := match a.act with | some o => a.anyRuns o | none => false
  let feeds := fun (kind k : Nat) => match a.act with | some o => (imgFed (a.img o).raw kind k).isSome | none => false
  let mark := fun (kind : Nat) (m : Map (List EItem)) =>
    (List.range 16).foldl (fun m k =>
      if !used k then m
      else if feeds kind k then
        (if run then mapPut k (mapGet [] m k ++ [{ ready := tick + 2, tok := none, img := old }]) m else m)
      else mapPut k ((mapGet [] m k).filter (fun e => e.img != old)) m) m
  { a with target := some n, swAt := tick, since := if run then none else some tick, key := key
           inp := mark 2 (retag a.inp), band := mark 3 (retag a.band) }

/-- A switch for a step of another address space empties the pinned files and zeroes LAPINS (R429). -/
def dropPins (t asid : Nat) (s : State) : State :=
  let l := (s.tile t).crs.read 0xC2
  if l.getLsbD 48 && (fld l 32 16).toNat != asid then
    s.modTile t (fun T => { T with
      crs := T.crs.write 0xC2 0
      arr := { T.arr with pes := T.arr.pes.map (fun x =>
        if T.pinned x.1 then (x.1, { x.2 with acc := [], nsets := 0, dirty := false, accBad := [] }) else x) } })
  else s

/-- CFGACT (R246): with the ARR grant of a heavy image held from here on. An invalid image traps only where the guard holds (log
entry 95, DESIGN CHOICE). -/
def opCfgact (f : MR) (s : State) : Res :=
  if !s.cx.guard f.gp then .ok s
  else
    let t := tileOf s.cur
    let a := s.arr t
    let n := actSlot f
    if (a.img n).inv ≠ 0 then trapM .illegalOp
    else if a.act = some n then .ok s
    else
      match s.cx.pwr with
      | .failed e => trapM e
      | _ =>
        let s := if s.actNeeds n then (takeGrant 0 s).modTile t (fun x => x.setPgrant (x.pgrant ||| 4)) else s
        let s := dropPins t s.cx.asid s
        .ok (s.modArr t (fun a => { beginSwitch n s.tick (s.cx.cr 3) a with owner := some s.cur }))

/-! ### Groups (R247, R249) -/

/-- The group of AFIRE and AFLUSH. -/
def fireGrp (f : MR) : Nat := f.fn.toNat % 16
/-- AFIRE holds while its group holds 15 armed runs, or its class is full (R218, R247). -/
def holdAfire (f : MR) (s : State) : Option State :=
  let a := s.arr (tileOf s.cur)
  let n := match a.current with | some i => (a.runq i (fireGrp f)).length | none => 0
  if s.cx.guard f.gp && (decide (15 ≤ n) || s.cx.arr == 4095) then some s else none
/-- AFIRE (R247). -/
def opAfire (f : MR) (s : State) : Res :=
  if !s.cx.guard f.gp then .ok s
  else if !s.groupOk (fireGrp f) then trapM .paramRange
  else .ok (armGroup (tileOf s.cur) (fireGrp f) s.cur 0x16 s.cx.ctime s.cx.iss s.cx.pc (s.modCx (fun c => { c with arr := c.arr + 1 })))

/-- A NUL with LAST for input port k, which waits when the FIFO is full (R249). -/
def flushPort (tick i k : Nat) (a : Arr) : Arr :=
  let d := imgPort (a.img i).raw k
  let e : EItem := { ready := tick + 2, tok := some (nulTok (poTy d) (poLanes d) true), img := i }
  let waiting := mapGet [] a.nuls k
  if !waiting.isEmpty ∨ portDepth ≤ tokCount (a.inq k) then { a with nuls := mapPut k (waiting ++ [e]) a.nuls }
  else { a with inp := mapPut k (a.inq k ++ [e]) a.inp }

/-- AFLUSH (R249): runs not begun go; the run in progress, one that met `DATA_LOST` too, ends on NULs. The latter fires on
with what its words hold (log entry 75, DESIGN CHOICE). -/
def opAflush (f : MR) (s : State) : Res :=
  if !s.cx.guard f.gp then .ok s
  else if !s.groupOk (fireGrp f) then trapM .paramRange
  else
    let t := tileOf s.cur
    let g := fireGrp f
    match (s.arr t).current with
    | none => .ok s
    | some i =>
      let q := (s.arr t).runq i g
      let s := (q.filter (fun r => r.begun.isNone)).foldl (fun s r => uncountArr r.ctx s) s
      let run := q.filter (fun r => r.begun.isSome)
      .ok (s.modArr t (fun a =>
        let a := a.setRuns i g (run.map (fun r => { r with lost := false, flushed := r.lost }))
        if run.isEmpty then a.noteLast s.tick else (groupIns (a.img i).raw g).foldl (fun a k => flushPort s.tick i k a) a))

/-! ### ADEPTH (R250) -/

/-- ADEPTH holds while a switch is in progress. -/
def holdAdepth (f : MR) (s : State) : Option State :=
  if s.cx.guard f.gp && (s.arr (tileOf s.cur)).target.isSome then some s else none

/-- The depth an edge has or is about to have. -/
def Edge.newest (e : Edge) : Nat := e.q.foldl (fun d x => if x.tok.isNone && x.depth != 0 then x.depth else d) e.depth

/-- ADEPTH (R250, R200). -/
def opAdepth (f : MR) (s : State) : Res :=
  if !s.cx.guard f.gp then .ok s
  else
    let w := immU f.imm f.ext
    let p := bitsOf w 5 0
    let k := bitsOf w 7 6
    let d := bitsOf w 14 8
    let t := tileOf s.cur
    let a := s.arr t
    match a.act with
    | none => trapM .paramRange
    | some i =>
      let m := (a.img i).raw
      let pool := (List.range 4).foldl (fun n j => n + (if j = k then d else (a.edge i p j).newest)) 0 +
        (if opOP (imgOp m p) = oDELAY then opCNT (imgOp m p) else 0)
      if edKind (imgEdge m p k) = 0 ∨ d = 0 ∨ 64 < d ∨ 64 < pool then trapM .paramRange
      else
        .ok (s.modArr t (fun a =>
          let e := a.edge i p k
          a.setEdge i p k { e with q := e.q ++ [{ ready := s.tick, tok := none, img := i, depth := d }] }))

/-! ### PWAIT (R120) -/

/-- Whether PWAIT's port has what it waits for. -/
def State.portReady (s : State) (f : BPo) : Bool :=
  let a := s.arr (tileOf s.cur)
  if f.dir = 0 then a.inRoom f.port.toNat false else (a.outHead f.port.toNat).isSome
/-- Whether the current image binds PWAIT's port. -/
def State.portBound (s : State) (f : BPo) : Bool :=
  poUsed ((s.arr (tileOf s.cur)).port (f.port.toNat + (if f.dir = 0 then 0 else 16)))
/-- The hold of PWAIT. -/
def holdPwait (f : BPo) (s : State) : Option State :=
  if !isGal s.cur && s.cx.guardB f.gp f.gn && s.portBound f && !s.portReady f then some s else none
/-- PWAIT (R120). -/
def opPwait (f : BPo) (s : State) : Res :=
  if isGal s.cur then trapB .illegalOp
  else if s.cx.guardB f.gp f.gn && !s.portBound f then trapB .portUnbound else .ok s

/-! ### SSTAT (R244, R196) -/

/-- Whether the command at the head of a handle waits for a port, a queue, a channel or a full/empty bit (R244), or is a drain in
the network of a session that is SEALED (R341). One that
waits for anything else, a stream context, a landing, an `SBAR`, the merge network, a hand-off or a link, counts as running
(log entry 83, DEDUCED). -/
def State.blocked (s : State) (x h : Nat) (k : Cmd) : Bool :=
  if k.fin || !k.running then false
  else if k.op = 0x0C then
    match s.peerOf (tileOf x) (teChan k) with
    | some _ => (match k.sent with | some (_, l) => !l.isEmpty | none => false)
    | none => decide (8 ≤ ((s.tile (teTile k)).chan (teChan k)).length)
  else if k.op = 0x1C then k.arrived && !k.ended && (s.mn (clOf x)).state == mnSEALED
  else if k.op = 0x1A ∨ k.op = 0x24 then !k.few.isEmpty
  else if (k.op != 0x09 && !(k.bars.all (fun b => (s.ctx x).barMet b))) || k.sent.isSome then false
  else
    match execElementBlockTransfer { s with cur := x, sub := h, landing := none } with
    | .next s' => s'.head x h == some k
    | _ => false

/-- The status of a handle (R244). -/
def State.handleStatus (s : State) (x h : Nat) : Nat :=
  let H := (s.ctx x).handle h
  let st := match H.cmds with
    | [] => if H.cancelled then 4 else 0
    | k :: _ => if k.faulted then 3 else if s.blocked x h k then 2 else 1
  st * 2 ^ 61 + H.op % 256 * 2 ^ 53 + H.queue.length % 128 * 2 ^ 46 + H.flags % 64 * 2 ^ 40 + H.done % 2 ^ 40

/-- ARSTAT (R196). -/
def Arr.stat (a : Arr) : Nat :=
  (a.img 1).inv % 256 * 2 ^ 40 + (a.img 0).inv % 256 * 2 ^ 32 + (if (a.img 1).heavy then 2 ^ 19 else 0) +
  (if (a.img 0).heavy then 2 ^ 18 else 0) + (if a.target.isSome then 2 ^ 17 else 0) + a.act.getD 0 * 2 ^ 16 + a.flags % 64

/-- SSTAT (R244): the flags it reads are cleared. -/
def opSstat (f : MR) (s : State) : Res :=
  if !s.cx.guard f.gp then .ok s
  else
    let h := f.fn.toNat
    let t := tileOf s.cur
    if h = 16 then
      .ok ((s.setCx (s.cx.deliverM f.md (BitVec.ofNat 64 (s.arr t).stat) 2)).modArr t (fun a => { a with flags := 0 }))
    else
      .ok ((s.setCx (s.cx.deliverM f.md (BitVec.ofNat 64 (s.handleStatus s.cur h)) 2)).modCx (fun c =>
        c.setHandle h { c.handle h with flags := 0 }))

/-! ### Outcomes -/

/-- SWLOAD alone (R237). -/
def execSwload (f : MR) (s : State) : Host.Outcome State Fault Refusal := finishHold s (holdStr f.gp s) (opSwload f s)
/-- SWACT alone (R237). -/
def execSwact (f : MR) (s : State) : Host.Outcome State Fault Refusal := finishHold s (holdSwact f s) (opSwact f s)
/-- CFGLOAD alone (R245). -/
def execCfgload (f : MR) (s : State) : Host.Outcome State Fault Refusal := finishHold s (holdStr f.gp s) (opCfgload f s)
/-- CFGPREF alone (R245). -/
def execCfgpref (f : MR) (s : State) : Host.Outcome State Fault Refusal := finishHold s (holdCfgpref f s) (opCfgpref f s)
/-- CFGACT alone (R246). -/
def execCfgact (f : MR) (s : State) : Host.Outcome State Fault Refusal := finishHold s (holdCfgact f s) (opCfgact f s)
/-- AFIRE alone (R247). -/
def execAfire (f : MR) (s : State) : Host.Outcome State Fault Refusal := finishHold s (holdAfire f s) (opAfire f s)
/-- AFLUSH alone (R249). -/
def execAflush (f : MR) (s : State) : Host.Outcome State Fault Refusal := finish s (opAflush f s)
/-- ADEPTH alone (R250). -/
def execAdepth (f : MR) (s : State) : Host.Outcome State Fault Refusal := finishHold s (holdAdepth f s) (opAdepth f s)
/-- PWAIT alone (R120). -/
def execPwait (f : BPo) (s : State) : Host.Outcome State Fault Refusal := finishHold s (holdPwait f s) (opPwait f s)
/-- SSTAT alone (R244). -/
def execSstat (f : MR) (s : State) : Host.Outcome State Fault Refusal := finish s (opSstat f s)

end Sys2Proof.Machine
end

