-- ==== Sys2Proof/Machine/Launch.lean ====
section
/-! DEFINITION. Launches (R150 to R156, R166 to R176) and LAUNCH (R251): queue descriptors, the reader, the record check,
the stride scheduler, placement, cancellation and completion. Queue events name the queue in `unit`, launch events the
launch; `sub` is a team or the place of a request. -/

namespace Sys2Proof.Machine

/-! ### Queue descriptors (R170) -/

/-- Physical address of a field of the descriptor of queue q. -/
def State.qAddr (s : State) (q off : Nat) : Nat := (fld (s.win.read wQTBASE) 12 40).toNat * 4096 + 64 * q + off
/-- A field of it. -/
def State.qGet (s : State) (q off : Nat) : Nat := s.mem.readLE (s.qAddr q off) 8
/-- Write a field of it. -/
def State.qSet (s : State) (q off v : Nat) : State := { s with mem := s.mem.writeLE (s.qAddr q off) (v % 2 ^ 64) 8 }
/-- The fields of CFG. -/
def State.qLog2n (s : State) (q : Nat) : Nat := bitsOf (s.qGet q 8) 4 0
def State.qTickets (s : State) (q : Nat) : Nat := bitsOf (s.qGet q 8) 18 8
def State.qPricap (s : State) (q : Nat) : Nat := bitsOf (s.qGet q 8) 21 19
def State.qAsid (s : State) (q : Nat) : Nat := bitsOf (s.qGet q 8) 39 24
def State.qGen (s : State) (q : Nat) : Nat := bitsOf (s.qGet q 8) 47 40
/-- RDIDX, and STATE: 0 DISABLED, 1 ACTIVE, 2 HALTED, 3 DESTROYING, 4 DESTROYED. -/
def State.qRd (s : State) (q : Nat) : Nat := s.qGet q 0x10
def State.qState (s : State) (q : Nat) : Nat := bitsOf (s.qGet q 0x20) 2 0
/-- Change STATE, keeping the halt cause. -/
def State.qSetState (s : State) (q st : Nat) : State := s.qSet q 0x20 (s.qGet q 0x20 / 8 * 8 + st)
/-- Set the halt cause. -/
def State.qSetCause (s : State) (q cause : Nat) : State := s.qSet q 0x20 (cause * 256 + s.qGet q 0x20 % 256)
/-- PASS (R171, R174). -/
def State.qPass (s : State) (q : Nat) : Nat := bitsOf (s.qGet q 0x30) 47 0

/-- What the reader keeps of a queue. -/
def State.queue (s : State) (q : Nat) : Queue := mapGet {} s.queues q
/-- Change it. -/
def State.modQueue (s : State) (q : Nat) (f : Queue → Queue) : State := { s with queues := mapPut q (f (s.queue q)) s.queues }

/-- A queue halts: QHALTMAP names it (R455). -/
def haltReader (q : Nat) (s : State) : State :=
  let s := (s.qSetState q 2).raise 1
  let w := wQHALTMAP + 8 * (q / 64)
  { s with win := s.win.write w (s.win.read w ||| BitVec.ofNat 64 (2 ^ (q % 64))) }
/-- A queue halts with a cause (R170, R172). -/
def haltQueue (q cause : Nat) (s : State) : State := haltReader q (s.qSetCause q cause)

/-- A halt of R172: QUEUE_FAULT with its address. -/
def faultQueue (q va : Nat) (s : State) : State := haltQueue q Cause.queueFault.code (s.qSet q 0x28 va)
/-- The halt causes OVERRUN and CONFIG. -/
def hcOVERRUN : Nat := 0x40
def hcCONFIG : Nat := 0x41

/-! ### Records (R150, R151) -/

/-- A field of the record. -/
def Launch.f (l : Launch) (off n : Nat) : Nat := l.record.readLE off n
/-- Its fields by name. -/
def Launch.code (l : Launch) : W64 := BitVec.ofNat 64 (l.f 0 8)
def Launch.entry (l : Launch) : Nat := l.f 8 4
def Launch.nlev (l : Launch) : Nat := l.f 0xC 1 % 16
def Launch.pri (l : Launch) : Nat := l.f 0xD 1 % 8
def Launch.dieMask (l : Launch) : Nat := l.f 0xE 1 % 4
def Launch.serial (l : Launch) : Bool := bitOf (l.f 0xE 1) 2
def Launch.clMask (l : Launch) : Nat := l.f 0x10 2
/-- Steps per quantum: 0 means 4,096. -/
def Launch.qsize (l : Launch) : Nat := if l.f 0x12 2 = 0 then 4096 else l.f 0x12 2
def Launch.cspad (l : Launch) : Nat := l.f 0x14 4
def Launch.tspad (l : Launch) : Nat := l.f 0x18 4
def Launch.seed (l : Launch) : W64 := BitVec.ofNat 64 (l.f 0x20 8)
def Launch.arg (l : Launch) (i : Nat) : W64 := BitVec.ofNat 64 (l.f (0x80 + 8 * i) 8)
/-- LEVELk: its word, DOMAIN and EXTENT. -/
def Launch.lev (l : Launch) (k : Nat) : Nat := l.f (0x40 + 8 * k) 8
def Launch.dom (l : Launch) (k : Nat) : Nat := bitsOf (l.lev k) 34 32
def Launch.ext (l : Launch) (k : Nat) : Nat := bitsOf (l.lev k) 31 0
/-- The product of the extents. -/
def Launch.product (l : Launch) : Nat := (List.range l.nlev).foldl (fun a k => a * l.ext k) 1
/-- The set bits of a mask, rising. -/
def setBits (m n : Nat) : List Nat := (List.range n).filter (fun i => bitOf m i)

/-- Free space between a floor and the top of a pool. -/
def State.pvRoom (s : State) (t : Nat) : Nat := 0x40000 - (s.tile t).floor
def State.tmRoom (s : State) (k : Nat) : Nat := 0x600000 - (s.cluster k).floor

/-- The clusters that a launch selects (R154). -/
def Launch.clusters (l : Launch) : List Nat :=
  (setBits l.dieMask 2).flatMap (fun d => (setBits l.clMask 16).map (fun c => 16 * d + c))

/-- Check 1 of R152 and R259. -/
def State.formatBad (s : State) (l : Launch) : Bool :=
  let ks := List.range l.nlev
  l.f 0xF 1 != 1 || decide (8 < l.nlev) || decide (16 ≤ l.f 0xC 1) || decide (8 ≤ l.f 0xD 1) || decide (8 ≤ l.f 0xE 1) ||
  l.f 0x1C 4 != 0 || l.f 0x38 8 != 0 || l.f 0xF8 8 != 0 ||
  ks.any (fun k => decide (2 ^ 35 ≤ l.lev k) || decide (5 < l.dom k)) ||
  (List.range 8).any (fun k => decide (l.nlev ≤ k) && l.lev k != 0) ||
  ks.any (fun k => decide (k + 1 < l.nlev) && decide (l.dom (k + 1) < l.dom k)) ||
  l.dieMask == 0 || l.clMask == 0 || decide (4096 < l.f 0x12 2) ||
  l.cspad % 1024 != 0 || decide (0x600000 < l.cspad) || l.tspad % 1024 != 0 || decide (0x20000 < l.tspad) ||
  l.entry % 4 != 0 || decide (2 ^ 56 ≤ l.f 0 8) || l.f 0 8 % 64 != 0 || (s.checkObj l.compl).isSome ||
  decide (s.qPricap l.q < l.pri) ||
  l.clusters.any (fun k => (l.cspad != 0 && decide (s.tmRoom k < l.cspad)) ||
    (l.tspad != 0 && (List.range 8).any (fun i => decide (s.pvRoom (8 * k + i) < l.tspad))))

/-- Check 2 of R152. -/
def Launch.extentBad (l : Launch) : Bool :=
  (List.range l.nlev).any (fun k => decide (2 ^ 24 < l.ext k)) || decide (2 ^ 40 < l.product)

/-! ### The reader (R150, R172) -/

/-- A record in HBM waits for the end of a landing (R402). -/
def State.waits? (s : State) (pa : Nat) : Bool := s.landing.isSome && inHbm pa

/-- Whether a landing keeps the descriptors of queues (R407 to R409). -/
def State.qHeld (s : State) (q : Nat) : Bool := s.waits? (s.qAddr q 0)

/-- What reading the record at RDIDX and translating CREC finds (R172). -/
inductive RecRead where
  | ok (r : Mem)
  | fault (va : Nat)
  | wait
  deriving DecidableEq, Repr

/-- Read the record at RDIDX and translate CREC: the record, the faulting address, or a wait in a landing. -/
def State.readRecord (s : State) (q : Nat) : RecRead :=
  let ring := s.qGet q 0
  let p := (ring + 256 * (s.qRd q % 2 ^ s.qLog2n q)) % 2 ^ 64
  if 2 ^ 56 ≤ p then .fault p
  else
    match s.xlateQ (s.qAsid q) (s.qGen q) false p false with
    | .wait => .wait
    | .ok pa =>
      if s.waits? pa then .wait
      else if s.lostPa pa 256 ∨ !s.linked pa ∨ ring % 256 ≠ 0 then .fault p
      else
        let rec_ : Mem := Mem.writeBytes [] 0 (s.mem.readBytes pa 256)
        let crec := rec_.readLE 0x30 8
        if 2 ^ 56 ≤ crec ∨ crec % 64 ≠ 0 then .fault crec
        else
          match s.xlateQ (s.qAsid q) (s.qGen q) false crec true with
          | .wait => .wait
          | .ok _ => .ok rec_
          | _ => .fault crec
    | _ => .fault p

/-- Whether a record may start behind the launches of its queue (R150). -/
def State.mayStart (s : State) (q : Nat) (serial : Bool) : Bool :=
  let ls := (s.queue q).launches.filterMap s.launch?
  if serial then ls.isEmpty else ls.all (fun l => l.checked && l.undispatched == 0)

/-- QUEUE_READER_COPY (R172): an ACTIVE queue reads its next record, which starts when R150 lets it; a fault stands until the
end of the cycle, when it halts the queue unless a DESTROY of the cycle wins (R173). WRIDX and RDIDX are compared as numbers: a
WRIDX below RDIDX is no OVERRUN, and the next record is read (log entry 81, DESIGN CHOICE). -/
def execQueueReaderCopy (s : State) : Host.Outcome State Fault Refusal :=
  let q := s.unit
  let Q := s.queue q
  let rd := s.qRd q
  if s.frozen || s.qHeld q || s.qState q != 1 || Q.wr == rd || Q.fault.isSome then .next s
  else if rd + 2 ^ s.qLog2n q < Q.wr then .next (haltQueue q hcOVERRUN s)
  else if !s.mayStart q false then .next s
  else
    match s.readRecord q with
    | .wait => .next s
    | .fault va => .next (s.modQueue q (fun Q => { Q with fault := some va }))
    | .ok r =>
      let l : Launch := { q := q, asid := s.qAsid q, gen := s.qGen q, record := r, crec := BitVec.ofNat 64 (r.readLE 0x30 8),
                          compl := BitVec.ofNat 64 (r.readLE 0x28 8),
                          byStep := (Q.notes.find? (fun n => n.1 == rd)).map (·.2) }
      if !s.mayStart q l.serial then .next s
      else
        let i := s.launchNo
        let s := { s with launchNo := i + 1, launches := mapPut i l s.launches }
        .next ((s.qSet q 0x10 (rd + 1)).modQueue q (fun Q =>
          { Q with launches := Q.launches ++ [i], notes := Q.notes.filter (fun n => n.1 != rd) }))

/-- The faults of a cycle halt their queues at its end (R172, R173). -/
def settleFaults (s : State) : State :=
  s.queues.foldl (fun s e =>
    match e.2.fault with
    | some va => faultQueue e.1 va (s.modQueue e.1 (fun Q => { Q with fault := none }))
    | none => s) s

/-- The walker's check of a record (R152). -/
def State.checkRecord (s : State) (l : Launch) : Launch :=
  let bad : Option Cause :=
    if s.formatBad l then some .launchFormat else if l.extentBad then some .launchExtent else none
  { l with checked := true, reject := bad, total := if bad.isSome then 0 else l.product }

/-- LAUNCH_RECORD_CHECK (R152): the launch `unit` is rejected, has no steps, or runs. -/
def execLaunchRecordCheck (s : State) : Host.Outcome State Fault Refusal :=
  match s.launch? s.unit with
  | none => .next s
  | some l =>
    .next (if l.checked ∨ s.frozen ∨ s.qHeld l.q then s else s.modLaunch s.unit s.checkRecord)

/-! ### Stride scheduling (R174) -/

/-- A launch that still has steps to place, or is not checked yet: the oldest of the queue. -/
def State.current (s : State) (q : Nat) : Option Nat :=
  (s.queue q).launches.find? (fun i => match s.launch? i with | some l => !l.checked || l.undispatched != 0 | none => false)

/-- Backlogged: with steps of a started launch to place, or ACTIVE with a record that may start. A HALT does not stop what
was started (R171, R172; log entry 84, DEDUCED). In a landing a record that cannot be read leaves it as it was. -/
def State.backlogged (s : State) (q : Nat) : Bool :=
  (s.current q).isSome || (s.qState q == 1 && (s.queue q).wr != s.qRd q && s.mayStart q false &&
    (match s.readRecord q with
     | .ok r => s.mayStart q (bitOf (r.readLE 0xE 1) 2)
     | .fault _ => true
     | .wait => (s.queue q).active))

/-- Whether pass a stands before pass b. Passes count modulo 2^48 and differ by far less (R170, R175), so the shorter way
round decides (log entry 84, DEDUCED). -/
def passBefore (a b : Nat) : Bool := a != b && decide ((b + 2 ^ 48 - a % 2 ^ 48) % 2 ^ 48 < 2 ^ 47)

/-- The queue of smallest pass among some, the first of equals. -/
def State.leastPass (s : State) (qs : List Nat) : Option Nat :=
  qs.foldl (fun a q =>
    match a with
    | none => some q
    | some b => if passBefore (s.qPass q) (s.qPass b) then some q else some b) none
/-- The global pass follows the backlogged queues, and is held while there are none (R174). -/
def State.followPass (s : State) (qs : List Nat) : State :=
  match s.leastPass qs with
  | some q => { s with passG := s.qPass q }
  | none => s
/-- The queues that were backlogged when last seen, rising. -/
def State.activeQueues (s : State) : List Nat := (s.queues.filter (·.2.active)).map (·.1)

/-- Whether a pass is at least the global pass: a queue's never leads it by more than a quantum of 4,096 steps at TICKETS 1
(R175), so that any other distance modulo 2^48 is a lag (log entry 84, DEDUCED). -/
def passAhead (p g : Nat) : Bool := decide ((p + 2 ^ 48 - g % 2 ^ 48) % 2 ^ 48 ≤ 2 ^ 32)
/-- Queues that become backlogged take at least the global pass of those that are, and the global pass follows. -/
def rebacklog (s : State) : State :=
  let now := (s.queues.map (·.1)).filter s.backlogged
  let s := s.followPass (now.filter (fun q => (s.queue q).active))
  let s := now.foldl (fun (s : State) q =>
    if !(s.queue q).active && !passAhead (s.qPass q) s.passG then s.qSet q 0x30 s.passG else s) s
  let s : State := { s with queues := s.queues.map (fun e => (e.1, { e.2 with active := now.elem e.1 })) }
  s.followPass now

/-- The queue of smallest pass, the lower number first. -/
def State.nextQueue (s : State) : Option Nat := s.leastPass s.activeQueues

/-- QUANTUM_GRANT (R174). -/
def execQuantumGrant (s : State) : Host.Outcome State Fault Refusal :=
  if s.frozen || s.pctl == 3 || s.qHeld 0 then .next s
  else
    let s := rebacklog s
    match s.quantum, s.nextQueue with
    | none, some q =>
      match s.current q with
      | none => .next s
      | some i =>
        match s.launch? i with
        | none => .next s
        | some l =>
          if !l.checked then .next s
          else
            let k := min l.qsize l.undispatched
            let s := s.qSet q 0x30 ((s.qPass q + 2 ^ 20 / max 1 (s.qTickets q) * k) % 2 ^ 48)
            let s := { s with quantum := some (i, k) }
            .next (s.followPass s.activeQueues)
    | _, _ => .next s

/-! ### Placement (R153 to R156, R259) -/

/-- The indices of LIN, level 0 first. -/
def Launch.idx (l : Launch) (lin : Nat) : List Nat :=
  ((List.range l.nlev).foldl (fun (a : List Nat × Nat) k => (a.1 ++ [a.2 % l.ext k], a.2 / l.ext k)) ([], lin)).1
/-- The linear index from the levels of some domains. -/
def Launch.linOf (l : Launch) (ds : List Nat) (lin : Nat) : Nat :=
  (((List.range l.nlev).zip (l.idx lin)).foldl (fun (a : Nat × Nat) e =>
    if ds.elem (l.dom e.1) then (a.1 + e.2 * a.2, a.2 * l.ext e.1) else a) (0, 1)).1
/-- The product of the extents of some domains. -/
def Launch.extOf (l : Launch) (ds : List Nat) : Nat :=
  (List.range l.nlev).foldl (fun a k => if ds.elem (l.dom k) then a * l.ext k else a) 1
/-- The tile of a step (R154). -/
def Launch.tileOf (l : Launch) (lin : Nat) : Nat :=
  let ds := setBits l.dieMask 2
  let cs := setBits l.clMask 16
  let d := (ds[l.linOf [4] lin % ds.length]?).getD 0
  let c := (cs[l.linOf [3] lin % cs.length]?).getD 0
  128 * d + 8 * c + l.linOf [2] lin % 8
/-- The team of a step, and the steps of a team (R155). -/
def Launch.teamOf (l : Launch) (lin : Nat) : Nat := l.linOf [3, 4, 5] lin
def Launch.teamSize (l : Launch) : Nat := l.extOf [0, 1, 2]

/-- First fit from the highest free offset downwards (R259): the base of `size` bytes in [floor, top). -/
def fitTop (as : List Alloc) (floor top size : Nat) : Option Nat :=
  ((top :: as.map (·.base)).filterMap (fun c =>
    if floor + size ≤ c ∧ as.all (fun a => a.base + a.size ≤ c - size || c ≤ a.base) then some (c - size) else none)).foldl
    (fun a b => match a with | none => some b | some x => some (max x b)) none

/-- Carve a step-private allocation of a tile and zero-fill it; none while it is not free. -/
def allocTile (t sid size : Nat) (s : State) : Option State :=
  if size = 0 then some s
  else
    let T := s.tile t
    match fitTop T.allocs T.floor 0x40000 size with
    | none => none
    | some b => some (s.modTile t (fun T => { T with allocs := ⟨sid, b, size⟩ :: T.allocs, pad := T.pad.zeroFill b size }))
/-- The number of a team as the owner of an allocation. -/
def teamOwner (launch team : Nat) : Nat := launch * 2 ^ 40 + team
/-- Carve a team allocation. -/
def allocTeam (k owner size : Nat) (s : State) : Option State :=
  if size = 0 then some s
  else
    let K := s.cluster k
    match fitTop K.allocs K.floor 0x600000 size with
    | none => none
    | some b => some (s.modCluster k (fun K => { K with allocs := ⟨owner, b, size⟩ :: K.allocs, pad := K.pad.zeroFill b size }))

/-- Whether a dispatched step of a launch is in a lane, in a context, or saved. -/
def State.stepLive (s : State) (i : Nat) (lin : W64) : Bool :=
  let is := fun (t : Task) => t.launch == i && t.lin == lin && !t.child
  s.tiles.any (fun t => t.2.disp.any is) || s.ctxs.any (fun c => !isGal c.1 && c.2.life != .free && is c.2.task)

/-- CSWIN for an allocation of a cluster (R261). -/
def cswin (K : Cluster) (owner : Nat) : W64 :=
  match K.allocs.find? (fun a => a.owner == owner) with
  | some a => BitVec.ofNat 64 (a.size / 1024 * 2 ^ 32 + a.base)
  | none => 0

/-- STEP_PLACE (R154 to R156): the next step of the quantum. -/
def execStepPlace (s : State) : Host.Outcome State Fault Refusal :=
  match s.quantum with
  | none => .next s
  | some (i, n) =>
    match s.launch? i with
    | none => .next { s with quantum := none }
    | some l =>
      if n = 0 ∨ l.undispatched = 0 then .next { s with quantum := none }
      else
        let lin := l.next
        let t := l.tileOf lin
        let k := clusterOf t
        let m := l.teamOf lin
        let sid := s.stepNo + 1
        let first := (mapGet? m l.teams).isNone
        if s.frozen || s.pctl == 3 || 48 ≤ (s.tile t).disp.length || (lin % l.extOf [0] != 0 && s.stepLive i (BitVec.ofNat 64 (lin - 1))) then
          .next s
        else
          match (if first then allocTeam k (teamOwner i m) l.cspad s else some s) with
          | none => .next s
          | some s1 =>
            let team : Team := { cluster := k, live := 0, left := l.teamSize }
            let s1 := if first then s1.modLaunch i (fun l => { l with teams := mapPut m team l.teams }) else s1
            match allocTile t sid l.tspad s1 with
            | none => .next s1
            | some s2 =>
              let task : Task :=
                { launch := i, sid := sid, lin := BitVec.ofNat 64 lin, team := m, entry := BitVec.ofNat 64 l.entry
                  args := (List.range 15).map l.arg, pri := l.pri, cap := l.pri
                  coords := ((List.range l.nlev).zip (l.idx lin)).map (fun e =>
                    BitVec.ofNat 64 (l.ext e.1 * 2 ^ 32 + l.dom e.1 * 2 ^ 24 + e.2))
                  cswin := cswin (s2.cluster k) (teamOwner i m) }
              let s3 := s2.modTile t (fun T => { T with disp := T.disp ++ [task] })
              let s4 := s3.modLaunch i (fun l =>
                let ts := match mapGet? m l.teams with
                  | some x => mapPut m { x with live := x.live + 1, left := x.left - 1 } l.teams
                  | none => l.teams
                { l with next := lin + 1, live := l.live + 1, teams := ts })
              .next { s4 with stepNo := sid, quantum := if n = 1 then none else some (i, n - 1) }

/-! ### Completion (R166 to R168) -/

/-- TEAM_RELEASE (R166): team `sub` of launch `unit`. A step retires only when its operations have completed, so
nothing targets the allocation any more. -/
def execTeamRelease (s : State) : Host.Outcome State Fault Refusal :=
  match s.launch? s.unit with
  | none => .next s
  | some l =>
    match mapGet? s.sub l.teams with
    | none => .next s
    | some m =>
      let mn := (s.cluster m.cluster).mn
      if m.live ≠ 0 ∨ m.left ≠ 0 ∨ (mn.state ≠ 0 ∧ mn.launch = s.unit ∧ mn.team = s.sub) then .next s
      else
        let owner := teamOwner s.unit s.sub
        .next ((s.modCluster m.cluster (fun K => { K with allocs := K.allocs.filter (fun a => a.owner != owner) })).modLaunch
          s.unit (fun l => { l with teams := mapDel s.sub l.teams }))

/-- The completion record's doublewords (R168). -/
def Launch.summary (l : Launch) : List Nat :=
  match l.reject with
  | some c => [5 * 2 ^ 61, 0, c.code * 2 ^ 56, 0, 0, 0, 0, 0]
  | none =>
    let b := fun (x : Bool) (n : Nat) => if x then 2 ^ n else 0
    let f := match l.fault with
      | some (lin, cause, tile, pc) => [lin.toNat, cause * 2 ^ 56 + tile * 2 ^ 48, pc.toNat]
      | none => [0, 0, 0]
    [2 ^ 63 + b l.fault.isSome 62 + b (l.ncancel != 0) 60 + b l.exitst.isSome 59 + l.retired % 2 ^ 41] ++ f ++
    [match l.exitst with | some x => x.2 | none => 0, l.nfault, l.ncancel, 0]

/-- LAUNCH_COMPLETE (R167, R168). -/
def execLaunchComplete (s : State) : Host.Outcome State Fault Refusal :=
  match s.launch? s.unit with
  | none => .next s
  | some l =>
    if s.frozen || !l.checked || l.undispatched != 0 || l.live != 0 || !l.teams.isEmpty then .next s
    else
      let w := l.summary
      let x := s.xlateQ l.asid l.gen false l.crec.toNat true
      if (match x with | .ok pa => s.waits? pa | .wait => true | _ => false) then .next s
      else
        let (norec, s) := match x with
          | .ok pa =>
            (match reachFar 0 pa 0 s with
             | (.ok _, s) => (false, s.writePa pa ((w.flatMap (fun v => natToBytes v 8)).map some))
             | (_, s) => (true, s))
          | _ => (true, s)
        let sum := (w[0]?).getD 0 + (if norec then 2 ^ 58 else 0)
        let s :=
          if (s.checkObj l.compl).isSome then s
          else
            let s := s.sendSync { who := .engine, asid := l.asid, ptr := l.compl, op := .signal, v := BitVec.ofNat 64 sum }
            match l.byStep with | some sid => s.modStep sid (·.setEv 5) | none => s
        .next ({ s with launches := mapDel s.unit s.launches }.modQueue l.q (fun Q =>
          { Q with launches := Q.launches.filter (fun i => i != s.unit) }))

/-! ### QCMD (R171, R173) -/

/-- A refused window write (R454): ERR, ECODE and EADDR. -/
def State.mwErr (s : State) (off code : Nat) : State :=
  let w := s.win.read wMWSTAT
  { s with win := s.win.write wMWSTAT ((w &&& 0xE000000000000000) ||| BitVec.ofNat 64 (off % 2 ^ 32 * 2 ^ 16 + code * 2 ^ 8 + 1)) }
/-- Whether the window accepts writes (R458). -/
def State.ready (s : State) : Bool := (fld (s.win.read wMWSTAT) 61 3).toNat == 3
/-- What the `cur` of a host write counts from whose turn in the order of R301 has come. -/
def hostTurn : Nat := 2 ^ 40
/-- Whether a host write waits (R301): behind those to memory that a controller holds, or behind earlier ones that wait. -/
def State.hostBehind (s : State) : Bool :=
  decide (s.cur < hostTurn) && (!s.held.isEmpty || !s.hostq.isEmpty || s.agenda.any (fun d => decide (hostTurn ≤ d.cur)))
/-- A host write waits for its turn. -/
def waitTurn (op : Instr) (s : State) : State :=
  { s with hostq := s.hostq ++ [{ op := op, cur := hostTurn + s.cur, unit := s.unit, sub := s.sub }] }
/-- Host writes take effect in order (R301). -/
def inOrder (op : Instr) (act : State → State) (s : State) : State :=
  if hostTurn ≤ s.cur then act { s with cur := s.cur - hostTurn }
  else if s.hostBehind then waitTurn op s
  else act s
/-- A write `op` of a window register, in its order: refused before READY, or while a BUSY bit stands (R454, R458). -/
def window (op : Instr) (off : Nat) (busy : State → Bool) (act : State → State) (s : State) : Host.Outcome State Fault Refusal :=
  .next (inOrder op (fun s => if !s.ready then s.mwErr off 3 else if busy s then s.mwErr off 1 else act s) s)
/-- No BUSY bit stands over a register. -/
def notBusy (_ : State) : Bool := false

/-- QCMD.BUSY. -/
def State.qcmdBusy (s : State) : Bool := (s.win.read wQCMD).getLsbD 63
/-- QCMD holds the queue number, and BUSY. -/
def State.setQcmd (s : State) (q : Nat) (busy : Bool) : State :=
  { s with win := s.win.write wQCMD (BitVec.ofNat 64 (q % 1024 * 2 ^ 32 + if busy then 2 ^ 63 else 0)) }

/-- ENABLE (R171). -/
def qEnable (q : Nat) (s : State) : State :=
  if s.qState q ≠ 0 ∧ s.qState q ≠ 4 then s
  else if s.qTickets q = 0 ∨ 1024 < s.qTickets q ∨ 16 < s.qLog2n q then s.qSetCause q hcCONFIG
  else (s.qSetState q 1).modQueue q (fun Q => { Q with wr := s.qGet q 0x18, active := false, notes := [] })
/-- HALT (R171). -/
def qHalt (q : Nat) (s : State) : State := if s.qState q = 1 then s.qSetState q 2 else s
/-- RESUME (R171). -/
def qResume (q : Nat) (s : State) : State := if s.qState q = 2 then s.qSetState q 1 else s
/-- DOORBELL (R171). -/
def qDoorbell (q : Nat) (s : State) : State := s.modQueue q (fun Q => { Q with wr := s.qGet q 0x18 })
/-- DESTROY (R173): what was started and not placed never is, and a fault of the same cycle halts nothing; BUSY stays until
QUEUE_DESTROYED. -/
def qDestroy (q : Nat) (s : State) : State :=
  let s := (s.qSetState q 3).setQcmd q true
  let s := if (s.queue q).fault.isSome then s.modQueue q (fun Q => { Q with fault := none }) else s
  (s.queue q).launches.foldl (fun s i =>
    match s.launch? i with
    | some l => cancelUnplaced i (if l.checked then s else s.modLaunch i s.checkRecord)
    | none => s) s
/-- The effect of a QCMD command by its code. -/
def qcmdEffect (cmd q : Nat) (s : State) : State :=
  match cmd with
  | 1 => qEnable q s
  | 2 => qHalt q s
  | 3 => qResume q s
  | 4 => qDestroy q s
  | _ => qDoorbell q s

/-- A QCMD command on queue `unit`: BUSY while a landing keeps the descriptor (R171, R409). -/
def qcmd (op : Instr) (cmd : Nat) (s : State) : Host.Outcome State Fault Refusal :=
  let q := s.unit % 1024
  window op wQCMD State.qcmdBusy (fun s =>
    if s.qHeld q then { s.setQcmd q true with qpend := some cmd } else qcmdEffect cmd q (s.setQcmd q false)) s
/-- The command that waited in a landing has its effect after it. -/
def qcmdGo (s : State) : State :=
  let q := (fld (s.win.read wQCMD) 32 10).toNat
  match s.qpend with
  | some cmd => if s.qHeld q then s else qcmdEffect cmd q ({ s with qpend := none }.setQcmd q false)
  | none => s

/-- QCMD_ENABLE (R171). -/
def execQcmdEnable (s : State) : Host.Outcome State Fault Refusal := qcmd .qcmdEnable 1 s
/-- QCMD_HALT (R171). -/
def execQcmdHalt (s : State) : Host.Outcome State Fault Refusal := qcmd .qcmdHalt 2 s
/-- QCMD_RESUME (R171). -/
def execQcmdResume (s : State) : Host.Outcome State Fault Refusal := qcmd .qcmdResume 3 s
/-- QCMD_DOORBELL (R171). -/
def execQcmdDoorbell (s : State) : Host.Outcome State Fault Refusal := qcmd .qcmdDoorbell 5 s
/-- QCMD_DESTROY (R173). -/
def execQcmdDestroy (s : State) : Host.Outcome State Fault Refusal := qcmd .qcmdDestroy 4 s
/-- QCMD_INVALID_COMMAND (R171). -/
def execQcmdInvalidCommand (cmd : Nat) (s : State) : Host.Outcome State Fault Refusal :=
  window (.qcmdInvalidCommand cmd) wQCMD State.qcmdBusy (fun s => s.mwErr wQCMD 4) s
/-- QUEUE_DESTROYED (R173). -/
def execQueueDestroyed (s : State) : Host.Outcome State Fault Refusal :=
  let q := s.unit
  if s.qHeld q ∨ s.qState q ≠ 3 ∨ !(s.queue q).launches.isEmpty then .next s
  else
    let s := s.qSetState q 4
    .next (if (fld (s.win.read wQCMD) 32 10).toNat = q then s.setQcmd q false else s)

/-! ### LAUNCH (R251) -/

/-- LAUNCH (R251). -/
def opLaunch (f : MR) (s : State) : Res :=
  if !s.cx.guard f.gp then .ok s
  else
    let p := s.cx.rm f.ma.toNat
    let q := immU f.imm f.ext % 1024
    match firstChk (s.blobChk p 256 256 false) with
    | some x => trapM x.cause x.addr
    | none =>
      if s.qState q ≠ 1 ∨ s.qAsid q ≠ s.cx.asid then trapM .queueFault
      else
        let c := s.cx
        let r : OutReq := { ctx := s.cur, ptr := p, q := q, ctime := c.ctime, pc := c.pc, step := c.task.sid, at_ := s.tick, iss := c.iss }
        .ok ({ s with reqs := s.reqs ++ [r] }.modCx (fun c => { c with str := c.str + 1 }))
/-- LAUNCH alone (R251). -/
def execLaunch (f : MR) (s : State) : Host.Outcome State Fault Refusal := finishHold s (holdStr f.gp s) (opLaunch f s)

/-- A request of a context at source 19 ends: its record, if it faulted, and its count (R217, R251). -/
def endReq (r : OutReq) (op : Nat) (f : Option Flt) (s : State) : State :=
  s.modCtx r.ctx (fun c =>
    let c := match f with | some f => c.record 19 (sfWords f op 19 0 0 0 0 r.ctime r.pc) | none => c
    { c with str := c.str - 1 })

/-- LAUNCH_ENQUEUE (R251): request `sub`, the first to its queue, when the accesses before its issue have been performed
(R293). -/
def execLaunchEnqueue (s : State) : Host.Outcome State Fault Refusal :=
  match s.reqs[s.sub]? with
  | none => .next s
  | some r =>
    if s.frozen || s.qHeld r.q || s.behind r.ctx r.iss || (s.reqs.take s.sub).any (fun e => e.q == r.q) then .next s
    else
      let q := r.q
      let drop := fun (s : State) => { s with reqs := s.reqs.eraseIdx s.sub }
      let got : Att (List Byte) × State := match r.buf with
        | some b => (.ok b, s)
        | none => readDirect r.ctx r.at_ [(r.ptr, 256)] s
      match got with
      | (.wait, s) => .next s
      | (.fault f, s) => .next (endReq r 0x1F (some f) (drop s))
      | (.ok b, s) =>
        let wr := s.qGet q 0x18
        let s := { s with reqs := s.reqs.set s.sub { r with buf := some b } }
        if s.qRd q + 2 ^ s.qLog2n q ≤ wr then .next s
        else
          let va := (s.qGet q 0 + 256 * (wr % 2 ^ s.qLog2n q)) % 2 ^ 64
          let fail := fun (f : Flt) => Host.Outcome.next (endReq r 0x1F (some f) (drop s))
          if 2 ^ 56 ≤ va then fail { cause := .streamXlate, sub := 0, addr := BitVec.ofNat 64 va }
          else
            match s.xlateQ (s.qAsid q) (s.qGen q) false va true with
            | .fail sub => fail { cause := .streamXlate, sub := sub, addr := BitVec.ofNat 64 va }
            | .lost => fail { cause := .dataLost, addr := BitVec.ofNat 64 va }
            | .wait => .next s
            | .ok pa =>
              if s.waits? pa then .next s
              else
                match reachFar r.at_ pa (BitVec.ofNat 64 va) s with
                | (.wait, s) => .next s
                | (.fault f, s) => .next (endReq r 0x1F (some f) (drop s))
                | (.ok _, s) =>
                  let s := (s.writePa pa (b.map some)).qSet q 0x18 (wr + 1)
                  .next (endReq r 0x1F none (drop (s.modQueue q (fun Q =>
                    { Q with wr := wr + 1, notes := Q.notes ++ [(wr, r.step)] }))))

end Sys2Proof.Machine
end

