-- ==== Sys2Proof/Machine/Steps.lean ====
section
/-! DEFINITION. Steps: SPAWN (R163, R252), step entry (R24, R42, R156, R157, R432) and retirement (R164, R166, R169, R345,
R392). Events name the context in `cur`. -/

namespace Sys2Proof.Machine

/-! ### SPAWN (R163, R252) -/

/-- Steps that a child lane holds. -/
def childLane : Nat := 16

/-- SPAWN holds while the child lane is full or JCNT stands at 65,535 (R163). -/
def holdSpawn (f : MR) (s : State) : Option State :=
  if s.cx.guard f.gp && (childLane ≤ (s.tile (tileOf s.cur)).child.length || 65535 ≤ s.cx.jcnt) then some s else none

/-- STEPLIN of the next child of a step (R163). -/
def Ctx.childLin (c : Ctx) : W64 :=
  (1 : W64) <<< 63 ||| BitVec.ofNat 64 (((c.cr 0x11).toNat * 2 ^ 16 + c.spawnOrd + 1) % 2 ^ 63)

/-- The child that a step spawns. -/
def State.childTask (s : State) (f : MR) : Task :=
  let c := s.cx
  let rest : List W64 := match s.launch? c.task.launch with
    | some l => (List.range 13).map (fun i => l.arg (i + 2))
    | none => []
  { c.task with
    sid := s.stepNo + 1, lin := c.childLin, child := true, parent := c.task.sid, parked := none
    entry := c.rm f.ma.toNat, args := [c.rm f.mb.toNat, mrImm f] ++ rest
    pri := (fld (c.cr 0x10) 0 3).toNat, cap := (fld (c.cr 0x10) 8 3).toNat, cswin := c.cr 0x35, iss := c.iss }

/-- SPAWN (R252). A child of a cancelled launch is cancelled at once (R169). -/
def opSpawn (f : MR) (s : State) : Res :=
  if !s.cx.guard f.gp then .ok s
  else
    let a := s.cx.rm f.ma.toNat
    if fld a 32 32 != 0 then trapM .paramRange
    else if a.toNat % 4 ≠ 0 then trapM .misaligned
    else
      let t := s.childTask f
      let gone := match s.launch? t.launch with | some l => l.cancel | none => false
      let d := if f.fn.toNat % 2 = 1 then 0 else 1
      let s := s.modCx (fun c => { c with spawnOrd := c.spawnOrd + 1, jcnt := c.jcnt + d })
      let s := s.modLaunch t.launch (fun l =>
        let ts := match mapGet? t.team l.teams with
          | some x => mapPut t.team { x with live := x.live + 1 } l.teams
          | none => l.teams
        { l with live := l.live + 1, teams := ts, ncancel := if gone then l.ncancel + 1 else l.ncancel })
      let s := { s with stepNo := s.stepNo + 1 }
      .ok (if gone then
          let s' := stepGone t s
          if s.cx.jcnt = 1 then s'.modCx (·.setEvIn 6) else s'
        else s.modTile (tileOf s.cur) (fun T => { T with child := T.child ++ [t] }))
/-- SPAWN alone (R252). -/
def execSpawn (f : MR) (s : State) : Host.Outcome State Fault Refusal := finishHold s (holdSpawn f s) (opSpawn f s)

/-! ### Step entry (R24, R42) -/

/-- What the tile finds in a code object's header (R42): its profile, text offset and length, or the trap of the entry
bundle; none while a landing keeps it (R409). A TEXTOFF of 0 and a TEXTLEN above 2^31 are taken as they are (log entry 97, DESIGN
CHOICE). -/
def State.readHeader (s : State) (x asid gen : Nat) (code entry : W64) : Option (Except TrapInfo (Nat × Nat × Nat)) × State :=
  let va := (fld code 0 56).toNat
  match s.xlate x asid gen false va false with
  | (.wait, s) => (none, s)
  | (.fail sub, s) => (some (.error { cause := .streamXlate, sub := sub, whole := true, addr := BitVec.ofNat 64 va }), s)
  | (.lost, s) => (some (.error { cause := .dataLost, whole := true, addr := BitVec.ofNat 64 va }), s)
  | (.ok pa, s) =>
    if s.waits? pa then (none, s)
    else if s.lostPa pa 64 then (some (.error { cause := .dataLost, whole := true, addr := BitVec.ofNat 64 va }), s)
    else
      let g := fun (off n : Nat) => s.mem.readLE (pa + off) n
      let bad := g 0 4 != 0x4F435A59 || g 4 1 != 1 || decide (2 ≤ g 5 1) || g 6 2 != 0 || g 0x14 4 != 0 || g 0x34 12 != 0 ||
        g 8 8 % 64 != 0 || g 0x10 4 == 0 || g 0x10 4 % 4 != 0 || decide (g 0x10 4 ≤ entry.toNat)
      (some (if bad then .error { cause := .illegalBundle, whole := true } else .ok (g 5 1, g 8 8, g 0x10 4)), s)

/-- The holder id of a step of context x (R319). -/
def State.hidOf (s : State) (x : Nat) (lin : W64) : W64 :=
  BitVec.ofNat 64 (2 ^ 63 + s.pkgnum * 2 ^ 48 + tileOf x * 2 ^ 40 + x % 2 * 2 ^ 39 + lin.toNat % 2 ^ 39)

/-- Write control registers. -/
def RegFile.writes (f : RegFile 64) (l : List (Nat × W64)) : RegFile 64 := l.foldl (fun f e => f.write e.1 e.2) f
/-- A file whose registers from `a` on take some values. -/
def RegFile.fill (a : Nat) (l : List W64) : RegFile 64 :=
  RegFile.writes [] (((List.range l.length).map (a + ·)).zip l)

/-- PVWIN of a step (R261). -/
def Tile.pvwin (t : Tile) (sid : Nat) : W64 :=
  match t.allocs.find? (fun a => a.owner == sid) with
  | some a => BitVec.ofNat 64 (a.size / 1024 * 2 ^ 32 + a.base)
  | none => 0

/-- Step registers, windows and sync registers at entry (R157, R159, R261, R323). -/
def State.entryCrs (s : State) (x : Nat) (k : Task) (l : Launch) (prof : Nat) : RegFile 64 :=
  RegFile.writes []
    ([(0x001, BitVec.ofNat 64 prof), (0x003, kstep l.seed k.lin), (0x010, BitVec.ofNat 64 (k.pri + k.cap * 256)), (0x011, k.lin)] ++
     ((List.range k.coords.length).map (0x12 + ·)).zip k.coords ++
     [(0x01B, BitVec.ofNat 64 (l.q * 2 ^ 46 + (if k.child then 2 ^ 45 else 0) + l.nlev * 2 ^ 41 + k.team)), (0x01C, l.code),
      (0x034, (s.tile (tileOf x)).pvwin k.sid), (0x035, k.cswin), (0x050, 0x100000), (0x053, s.hidOf x k.lin)])

/-- A step enters context x (R24): its state, and what the read of its header brings to the entry bundle. -/
def enterStep (x : Nat) (k : Task) (l : Launch) (h : Except TrapInfo (Nat × Nat × Nat)) (s : State) : State :=
  let (prof, off, len, err) : Nat × Nat × Nat × Option TrapInfo := match h with
    | .ok (p, o, n) => (p, o, n, none)
    | .error t => (0, 0, 0, some t)
  s.setCtx x
    { life := .live, pc := k.entry, a := RegFile.fill 1 k.args, crs := s.entryCrs x k l prof, entryErr := err
      task := k, asid := l.asid, gen := l.gen, code := l.code, textOff := off, textLen := len, stall := s.tick + 1, born := s.tick }

/-- Whether a context holds no step and none is being restored into it (R156, R433). -/
def State.ctxFree (s : State) (x : Nat) : Bool :=
  (s.ctx x).life == .free && !(s.tile (tileOf x)).resume.any (fun r => r.restoring == some x)

/-- EFF of a saved step (R430). -/
def State.resumeEff (s : State) (r : Resume) : Nat := (s.ctx (2 ^ 32 + r.slot)).eff

/-- Whether a child waits for the accesses that its parent made before the SPAWN (R293). -/
def State.childWaits (s : State) (k : Task) : Bool :=
  k.child && s.ctxs.any (fun c => !isGal c.1 && c.2.life != .free && c.2.task.sid == k.parent && s.behind c.1 k.iss)

/-- The step R156 chooses: of the child lane, or of the dispatch lane. -/
def Tile.laneHead (t : Tile) : Option (Bool × Task) :=
  match t.child, t.disp with
  | k :: _, _ => some (true, k)
  | [], k :: _ => some (false, k)
  | [], [] => none

/-- The resume entry that goes first (R432), and whether at once: one named for this context or the mate of one that is
being restored (R424), else the highest EFF, the oldest of equals. -/
def State.firstResume (s : State) (x : Nat) : Option (Bool × Resume) :=
  let all := (s.tile (tileOf x)).resume
  let l := all.filter (fun r => r.restoring.isNone && (r.named == some x || (r.named.isNone && !r.parked)))
  match l.find? (fun r => r.named == some x || all.any (fun q => q.restoring.isSome && q.mate == some r.slot)) with
  | some r => some (true, r)
  | none => l.foldl (fun a r => match a with
      | none => some (false, r)
      | some (_, b) =>
        if s.resumeEff b < s.resumeEff r ∨ (s.resumeEff b = s.resumeEff r ∧ r.seq < b.seq) then some (false, r) else some (false, b)) none

/-- A resume entry takes context x, to be refilled by STEP_RESTORE. -/
def takeResume (x slot : Nat) (s : State) : State :=
  s.modTile (tileOf x) (fun T =>
    { T with resume := T.resume.map (fun r => if r.slot = slot then { r with restoring := some x } else r) })

/-- The launch PRI of a task (R432). -/
def State.launchPri (s : State) (k : Task) : Nat := match s.launch? k.launch with | some l => l.pri | none => k.pri

/-- STEP_ENTRY (R24, R156, R432): a free context takes its next step. -/
def execStepEntry (s : State) : Host.Outcome State Fault Refusal :=
  let x := s.cur
  let t := tileOf x
  let T := s.tile t
  if 512 ≤ x || s.tileStopped t || s.pctl == 3 || !s.ctxFree x then .next s
  else
    let lane := T.laneHead
    match s.firstResume x with
    | some (now, r) =>
      if now || (match lane with | some k => decide (s.launchPri k.2 ≤ s.resumeEff r) | none => true) then
        .next (takeResume x r.slot s)
      else .next (enterLane x lane s)
    | none => .next (enterLane x lane s)
where
  /-- The head of a lane enters, if its private space is free; a parked step resumes (R163, R165). -/
  enterLane (x : Nat) (lane : Option (Bool × Task)) (s : State) : State :=
    let t := tileOf x
    match lane with
    | none => s
    | some (child, k) =>
      let pop := fun (T : Tile) => if child then { T with child := T.child.drop 1 } else { T with disp := T.disp.drop 1 }
      match k.parked with
      | some slot => takeResume x slot (s.modTile t pop)
      | none =>
        match s.launch? k.launch with
        | none => s.modTile t pop
        | some l =>
          if s.childWaits k then s else
          match s.readHeader x l.asid l.gen l.code k.entry with
          | (none, s) => s
          | (some h, s) =>
            match (if child then allocTile t k.sid l.tspad s else some s) with
            | none => s
            | some s => enterStep x k l h (s.modTile t pop)

/-! ### Retirement (R166, R169, R392) -/

/-- Every cause. -/
def Cause.all : List Cause :=
  [.illegalBundle, .illegalOp, .spaceForeign, .spaceRange, .misaligned, .bankFormat, .paramRange, .streamHandle, .streamXlate,
   .portUnbound, .portCircuit, .portShape, .cfgBusy, .feTimeout, .bindFull, .mnState, .mnRunlimit, .dataLost, .queueFault,
   .pgrantDeny, .software, .breakpoint, .streamPending, .launchFormat, .launchExtent, .syncExhaust, .maintOverrun, .fatal]
/-- The cause of a code. -/
def Cause.ofCode (n : Nat) : Option Cause := Cause.all.find? (fun c => c.code == n)

/-- Whether a command, a load or a PUBLISH of a context is faulted. -/
def State.anyFaulted (s : State) (x : Nat) : Bool :=
  let T := s.tile (tileOf x)
  s.pubs.any (fun r => r.ctx == x && r.faulted) || (s.ctx x).commands.any (·.2.faulted) || (T.arr.loads ++ T.tloads).any (fun l => l.ctx == x && l.faulted)

/-- The faulted commands and loads of an ended step are cancelled, and its status is that of its lowest record (R392). -/
def cancelFaulted (x : Nat) (s : State) : State :=
  let hs := ((s.ctx x).commands.filter (·.2.faulted)).map (·.1)
  let s := hs.foldl (fun s h => cancelHandle x h s) (dropPubs x s)
  let T := s.tile (tileOf x)
  let gone := (T.arr.loads ++ T.tloads).filter (fun l => l.ctx == x && l.faulted)
  let keep := fun (l : CfgLoad) => !(l.ctx == x && l.faulted)
  let s := s.modTile (tileOf x) (fun T =>
    { T with tloads := T.tloads.filter keep, arr := { T.arr with loads := T.arr.loads.filter keep } })
  cancelFault x (s.modCtx x (fun c =>
    let c := { c with str := c.str - gone.length }
    match c.life, c.sfrec with
    | .ended st none _, (_, r) :: _ =>
      { c with life := .ended st (Cause.ofCode (((r.words[0]?).getD 0).toNat / 2 ^ 56)) ((r.words[7]?).getD 0) }
    | _, _ => c))

/-- Whether every class of OCNT and JCNT is zero (R166). -/
def Ctx.quiet (c : Ctx) : Bool :=
  c.ld == 0 && c.st == 0 && c.str == 0 && c.arr == 0 && c.sync == 0 && c.jcnt == 0

/-- Keep the summary entry of lower STEPLIN. -/
def lower (lin : W64) (old : Option W64) : Bool := match old with | some x => decide (lin.toNat < x.toNat) | none => true

/-- A launch counts a retired step with its status (R168, R169). -/
def Launch.count (l : Launch) (lin : W64) (t st : Nat) (cause : Option Cause) (pc : W64) : Launch :=
  let l := { l with retired := l.retired + 1 }
  match cause with
  | some c =>
    { l with nfault := l.nfault + 1,
             fault := if lower lin (l.fault.map (·.1)) then some (lin, c.code, t, pc) else l.fault }
  | none =>
    if st = 0 then l
    else { l with exitst := if lower lin (l.exitst.map (·.1)) then some (lin, st) else l.exitst }

/-- The context of an ended step is freed (R166, R345, R416): merge commands that remain are cancelled. The array stays
with it until another context takes a CFGACT (R424). -/
def freeCtx (x : Nat) (s : State) : State :=
  let t := tileOf x
  let hs := (s.ctx x).commands.map (·.1)
  let s := hs.foldl (fun s h => leaveNet (clOf x) (x * 16 + h) s) s
  let s := releaseReserves x (dropPower x s)
  let s := freeAlloc t (s.ctx x).task.sid s
  s.setCtx x {}

/-- STEP_RETIRE (R166). -/
def execStepRetire (s : State) : Host.Outcome State Fault Refusal :=
  let x := s.cur
  if 512 ≤ x ∨ s.saving x ∨ s.frozen then .next s
  else
    match (s.ctx x).life with
    | .ended _ _ _ =>
      if s.anyFaulted x then .next (cancelFaulted x s)
      else if !(s.ctx x).quiet then .next s
      else
        match (s.ctx x).life with
        | .ended st cause pc =>
          let k := (s.ctx x).task
          let s := (freeCtx x s).modLaunch k.launch (fun l => l.count k.lin (tileOf x) st cause pc)
          .next (stepGone k s).relend
        | _ => .next s
    | _ => .next s

end Sys2Proof.Machine
end

