-- ==== Sys2Proof/Machine/Image.lean ====
section
/-! DEFINITION. The bytes of context records, tiles and the package, as saves, images and dumps hold them (R399, R400, R427,
R434). Where the spec gives an area's content without its layout, the layout here is the model's (log entry 85, DESIGN
CHOICE), and what it does not place is a free value. -/

namespace Sys2Proof.Machine

/-- Bytes at an offset. -/
def bytesAt (off : Nat) (bs : List Byte) : Mem := (span off bs.length).zip bs
/-- Doublewords at an offset. -/
def dwordsAt (off : Nat) (l : List Nat) : Mem := bytesAt off (l.flatMap (fun v => natToBytes v 8))
/-- Bytes whose layout the spec does not give. -/
def openBytes (key off n : Nat) : Mem := (span off n).map (fun i => (i, Config.saveByte key i))
/-- Move cells up. -/
def shift (a : Nat) (m : Mem) : Mem := m.map (fun c => (a + c.1, c.2))

/-! ### Context records (R400) -/

/-- A register, or zero where it cannot be read (R399). -/
def Ctx.legible (c : Ctx) (file n v : Nat) : Nat := if c.badRegs.elem (file, n) then 0 else v
/-- The bytes of a V register, word by word. -/
def Ctx.legibleV (c : Ctx) (n : Nat) : List Byte :=
  (List.range 8).flatMap (fun w => natToBytes (c.legible 1 (8 * n + w) ((c.rv n).toNat / 2 ^ (64 * w) % 2 ^ 64)) 8)

/-- A sticky record: word, extension with bit 32 set where there is one, and steppable address. -/
def StickyRec.dwords (r : StickyRec) : List Nat :=
  match encode r.op with
  | some (_, w, e) => [w.toNat, (match e with | some x => 2 ^ 32 + x.toNat | none => 0), r.addr.toNat, 0]
  | none => [0, 0, 0, 0]
/-- Sticky records and issue index. -/
def recordBytes (off : Nat) (a v m : StickyRec) (k : Nat) : Mem := dwordsAt off (a.dwords ++ v.dwords ++ m.dwords ++ [k])
/-- Snapshot registers, 128 bytes each: the value first. -/
def snapshotBytes (key off : Nat) (l : List Pend) : Mem :=
  (enum (l.take 24)).flatMap (fun e =>
    bytesAt (off + 128 * e.1) (natToBytes e.2.val.toNat 64) ++ openBytes key (off + 128 * e.1 + 64) 64)
/-- The shadow set of a running handler. -/
def shadowBytes (key off : Nat) (h : Shadow) : Mem :=
  recordBytes off h.recA h.recV h.recM h.k ++ dwordsAt (off + 0x68) [h.pc.toNat, h.ctime] ++ snapshotBytes key (off + 0x100) h.pend
/-- The binding table, 32 bytes for each entry. -/
def bindBytes (off : Nat) (l : List Binding) : Mem :=
  dwordsAt off (l.flatMap (fun b => [b.obj.toNat, b.base.toNat, b.len.toNat, b.scope]))

/-- The context record of R400, from its +0x0000 to its +0xBFFF. -/
def State.ctxRecord (s : State) (x key : Nat) : Mem :=
  let c := s.ctx x
  let ps := (List.range 16).foldl (fun a i => a + if c.rp i && !c.badRegs.elem (3, i) then 2 ^ i else 0) 0
  bytesAt 0 ((List.range 512).flatMap c.legibleV) ++
  dwordsAt 0x8000 ((List.range 64).map (fun i => c.legible 0 i (c.ra (BitVec.ofNat 6 i)).toNat)) ++
  dwordsAt 0x8200 ((List.range 32).map (fun i => c.legible 2 i (c.rm i).toNat)) ++
  dwordsAt 0x8300 [ps] ++
  bytesAt 0x8308 ((List.range 4).flatMap (fun i => natToBytes (c.legible 3 (256 + i) (c.rlc i).toNat) 4)) ++
  dwordsAt 0x8320 ((List.range 16).map (fun i => c.legible 3 (128 + i) (c.rvm i).toNat)) ++
  dwordsAt 0x8400 ((List.range 256).map (fun n => if (crInfo n).isSome then (s.crRead x n).toNat else 0)) ++
  recordBytes 0x8C00 c.recA c.recV c.recM c.k ++
  snapshotBytes key 0x8D00 c.pend ++
  (match c.shadow with | some h => shadowBytes key 0xA000 h | none => []) ++
  bindBytes 0xB000 c.binds

/-! ### Arrays -/

/-- The data of tokens, 64 bytes each; zero where they cannot be read (R399). -/
def tokBytes (l : List Tok) : List Byte := l.flatMap (fun t => natToBytes (if t.bad then 0 else t.data.toNat) 64)
/-- The block-dot PEs. -/
def dotPes : List Nat := span 16 32
/-- The weight stores of the block-dot PEs, 2 KiB each: the tokens of both banks in order. -/
def Arr.weightBytes (a : Arr) (off : Nat) : Mem :=
  (List.range 32).flatMap (fun i => bytesAt (off + 0x800 * i) ((tokBytes ((a.pe (16 + i)).sets.flatten ++ (a.pe (16 + i)).fill)).take 0x800))
/-- The accumulator files of the block-dot PEs, 64 LA128 each; a half that cannot be read is zero. -/
def Arr.accBytes (a : Arr) : List Byte :=
  dotPes.flatMap (fun p => (List.range 64).flatMap (fun j =>
    let v := (mapGet laEmpty (a.pe p).acc j).toNat
    let half := fun (i : Nat) => if (a.pe p).accBad.has (2 * j + i) then 0 else v / 2 ^ (64 * i) % 2 ^ 64
    natToBytes (half 0) 8 ++ natToBytes (half 1) 8))
/-- Both resident images and ARSTAT. -/
def Arr.imageBytes (a : Arr) (off : Nat) : Mem :=
  bytesAt off ((a.img 0).raw.readBytes 0 0x800 ++ (a.img 1).raw.readBytes 0 0x800) ++ dwordsAt (off + 0x1000) [a.stat]
/-- The edge token pools, 4 KiB for each PE: the tokens of its inputs in slot order, then those of a DELAY. -/
def Arr.poolBytes (a : Arr) (off : Nat) : Mem :=
  (List.range 64).flatMap (fun p =>
    let edges := a.edges.filter (fun e => e.1 % 256 / 4 == p)
    let toks := edges.flatMap (fun e => e.2.q.filterMap (·.tok)) ++ (if opOP (a.pe p).op = oDELAY then (a.pe p).held else [])
    bytesAt (off + 0x1000 * p) ((tokBytes toks).take 0x1000))

/-! ### The package (R400) -/

/-- The bytes of a scratchpad; a word that cannot be read is zero (R399). -/
def Pad.legible (p : Pad) : Mem := if p.bad.isEmpty then p.mem else p.mem.filter (fun c => !p.bad.has (c.1 / 8))

/-- A tile's MiB. -/
def State.tileBytes (s : State) (key t : Nat) : Mem :=
  let T := s.tile t
  let ctx := fun (x : Nat) => if (s.ctx x).life = .free then [] else s.ctxRecord x (key + x)
  T.pad.legible ++ shift 0x40000 (ctx (2 * t)) ++ shift 0x50000 (ctx (2 * t + 1)) ++ T.arr.weightBytes 0x60000 ++
  bytesAt 0x70000 T.arr.accBytes ++ T.arr.imageBytes 0x78000 ++ T.arr.poolBytes 0x80000 ++ openBytes (key + t) 0xC0000 0x4000

/-- The sort buffer of the merge network of cluster k, 32 bytes for each entry, and at +0x7F0000 MNCAP and MNSTAT
(R333). -/
def State.mergeBytes (s : State) (key k : Nat) : Mem :=
  openBytes key 0x600000 0x200000 ++
  (enum (s.cluster k).mn.buf).flatMap (fun e =>
    dwordsAt (0x600000 + 32 * e.1) [e.2.coord.toNat, e.2.val.toNat % 2 ^ 64, e.2.val.toNat / 2 ^ 64, e.2.ord * 8 + e.2.lane]) ++
  dwordsAt 0x7F0000 ([0x060, 0x061].map (fun n => (s.crRead (16 * k) n).toNat))

/-- The sync SRAM of a die, 32 bytes for each entry, and supervisor state. -/
def dieBytes (key : Nat) (D : Die) : Mem :=
  openBytes key 0 0x400000 ++
  (enum D.sram).flatMap (fun e =>
    dwordsAt (32 * e.1) [e.2 % 2 ^ 64, e.2 / 2 ^ 64, (mapGet {} D.objs e.2 : SyncObj).val.toNat])

/-- Gallery core g's 256 KiB: store, pool file, context record at +0x22000 and tags, 16 bytes each, at +0x2E000. -/
def State.galBytes (s : State) (key g : Nat) : Mem :=
  let G := s.gal g
  G.store.legible ++ openBytes key 0x20000 0x20000 ++
  bytesAt 0x20000 ((List.range 512).flatMap (fun i =>
    natToBytes (if G.poolBad.has i then 0 else (mapGet laEmpty G.pool i).toNat) 16)) ++
  (if (s.ctx (512 + g)).life = .free then dwordsAt 0x22000 (List.replicate 0x1800 0) else shift 0x22000 (s.ctxRecord (512 + g) key)) ++
  dwordsAt 0x2E000 ((List.range 128).flatMap (fun i => let t := G.tag i; [t.state + t.status * 2 ^ 8 + t.sub * 2 ^ 16, t.va.toNat]))

/-- The bytes of R400 that R434 and R399 share, from 0x1000 up to the resume area. -/
def State.dumpBytes (s : State) (key : Nat) : Mem :=
  let log := bytesAt 0x1000 ((s.log.take 1920).flatMap (fun e =>
    natToBytes e.tick 8 ++ natToBytes (e.tile % 256 + e.part % 256 * 2 ^ 8 + e.cls % 256 * 2 ^ 16 + e.idx % 2 ^ 24 * 2 ^ 24) 8 ++
    natToBytes e.addr 8 ++ natToBytes 0 8))
  log ++ (List.range 256).flatMap (fun t => shift (0x100000 + t * 0x100000) (s.tileBytes key t)) ++
  (List.range 32).flatMap (fun k => shift (0x10100000 + k * 0x800000) ((s.cluster k).pad.legible ++ s.mergeBytes (key + k) k)) ++
  (List.range 2).flatMap (fun d => shift (0x20100000 + d * 0x400000) (dieBytes (key + d) (s.die d))) ++
  (List.range 64).flatMap (fun g => shift (0x20900000 + g * 0x40000) (s.galBytes (key + g) g))

/-- The PEs whose words an array cannot read, one for each: accumulators, operator state, weight stores, DELAY and edge tokens. -/
def Arr.illegible (a : Arr) : List Nat :=
  let bad := fun (l : List Tok) => (l.filter (·.bad)).length
  a.pes.flatMap (fun p => List.replicate (p.2.accBad.length + (if p.2.bad then 1 else 0) + bad p.2.sets.flatten + bad p.2.fill + bad p.2.held) p.1) ++
  a.edges.flatMap (fun e => List.replicate (bad (e.2.q.filterMap (·.tok))) (e.1 % 256 / 4))
/-- What the dump cannot read (R399): uncorrectable words of scratchpads, registers, arrays, gallery stores and pool files. -/
def State.illegible (s : State) : List ErrSite :=
  s.tiles.flatMap (fun t => t.2.pad.bad.map (fun w => ErrSite.tileWord t.1 (8 * w)) ++ t.2.arr.illegible.map (ErrSite.array t.1)) ++
  s.ctxs.flatMap (fun c => if c.1 < 512 then c.2.badRegs.map (fun r => ErrSite.ctxReg c.1 r.1 r.2) else []) ++
  s.clusters.flatMap (fun k => k.2.pad.bad.map (fun w => ErrSite.clusterWord k.1 (8 * w))) ++
  s.gals.flatMap (fun g => g.2.store.bad.map (fun w => ErrSite.galleryWord g.1 (8 * w)) ++
    g.2.poolBad.map (fun i => ErrSite.galleryPool g.1 i))

/-! ### Save slots (R426, R427) -/

/-- The private bytes of a step, from its window. -/
def State.privBytes (s : State) (x : Nat) : Mem :=
  let c := s.ctx x
  ((s.tile (tileOf x)).pad.legible.filter (fun b => decide (c.pvBase ≤ b.1) && decide (b.1 < c.pvBase + c.pvSize))).map
    (fun b => (b.1 - c.pvBase, b.2))

/-- The bytes of a save slot (R427). -/
def State.slotBytes (s : State) (v : Save) (pstat : W64) (key : Nat) : Mem :=
  let x := v.ctx
  let c := s.ctx x
  let a := s.arr (tileOf x)
  let mate := if v.array then 0xFFFF else v.mate.getD 0xFFFF
  dwordsAt 0 [0x4556535A + 2 ^ 32, tileOf x + x % 2 * 2 ^ 8 + (if v.array then 2 ^ 9 else 0) + mate * 2 ^ 16, (c.cr 0x11).toNat,
    v.start, s.tick, (c.cr 0x34).toNat, (c.cr 0x35).toNat, pstat.toNat] ++
  shift 0x1000 (s.ctxRecord x key) ++
  openBytes key 0xD000 0x4000 ++
  bytesAt 0x11000 ((List.range 16).flatMap (fun h =>
    (List.range 64).flatMap (fun i => natToBytes (((c.handle h).queue[i]?).getD 0).toNat 8))) ++
  shift 0x20000 (s.privBytes x) ++
  (if v.array then
    a.weightBytes 0x40000 ++ bytesAt 0x50000 a.accBytes ++ openBytes key 0x58000 0x8000 ++ a.poolBytes 0x60000 ++
      openBytes key 0xA0000 0x5000
   else [])

/-- Physical address of a save slot (R426). -/
def State.slotPa (s : State) (slot : Nat) : Nat := (fld (s.win.read wSAVEPOOL) 16 36).toNat * 65536 + 0xC0000 * slot

/-- Replace `size` bytes of memory. -/
def putImage (base size : Nat) (m : Mem) (s : State) : State :=
  { s with mem := Mem.writeCells (s.mem.clear base size) base m,
           badPa := s.badPa.filter (fun g => decide (g * 32 < base) || decide (base + size ≤ g * 32)) }

end Sys2Proof.Machine
end

