-- ==== Sys2Proof/Machine/Preempt.lean ====
section
/-! DEFINITION. Pre-emption (R165, R421 to R435): requests, the save sequence, slots, restores, LAPIN and PCTL. Events name
the context in `cur`. A saved step keeps its registers as context 2^32 + slot (log entry 21). -/

namespace Sys2Proof.Machine

/-! ### LAPIN (R429) -/

/-- LAPIN (R429). -/
def opLapin (f : MR) (s : State) : Res :=
  if !s.cx.guard f.gp then .ok s
  else
    let m := s.cx.rm f.ma.toNat
    let l := (s.tile (tileOf s.cur)).crs.read 0xC2
    if fld m 32 32 != 0 then trapM .paramRange
    else if l.getLsbD 48 && (fld l 32 16).toNat != s.cx.asid then trapM .spaceForeign
    else
      let v := BitVec.ofNat 64 (2 ^ 48 + s.cx.asid % 2 ^ 16 * 2 ^ 32 + m.toNat % 2 ^ 32)
      .ok (s.modTile (tileOf s.cur) (fun T => { T with crs := T.crs.write 0xC2 v }))
/-- LAPIN.REL (R429). -/
def opLapinRel (f : MR) (s : State) : Res :=
  .ok (if s.cx.guard f.gp then s.modTile (tileOf s.cur) (fun T => { T with crs := T.crs.write 0xC2 0 }) else s)
/-- LAPIN alone (R429). -/
def execLapin (f : MR) (s : State) : Host.Outcome State Fault Refusal := finish s (opLapin f s)
/-- LAPIN.REL alone (R429). -/
def execLapinRel (f : MR) (s : State) : Host.Outcome State Fault Refusal := finish s (opLapinRel f s)

/-! ### Numbers of contexts -/

/-- The number of the step saved in a slot. -/
def savedNo (slot : Nat) : Nat := 2 ^ 32 + slot

/-- Give the step of context `old` the number `new`, wherever a unit of tile t names it. -/
def moveCtx (t old new : Nat) (s : State) : State :=
  let r := fun (n : Nat) => if n = old then new else n
  let rid := fun (i : Nat) => if i / 16 = old then new * 16 + i % 16 else i
  let rl := fun (l : CfgLoad) => { l with ctx := r l.ctx }
  let ro := fun (q : OutReq) => { q with ctx := r q.ctx }
  let rq := fun (q : SyncReq) =>
    match q.who with
    | .ctx n => { q with who := SyncFrom.ctx (r n) }
    | _ => q
  let rd := fun (e : Nat × Die) => (e.1, { e.2 with queue := e.2.queue.map rq, parked := e.2.parked.map rq })
  let rr := fun (e : Nat × List ArmedRun) => (e.1, e.2.map (fun x => { x with ctx := r x.ctx }))
  let c := s.ctx old
  let s := s.setCtx new c
  let cs := if old < 576 then mapPut old {} s.ctxs else mapDel old s.ctxs
  let ws := s.waits.map (fun w => { w with ctx := r w.ctx })
  let s : State := { s with ctxs := cs, reqs := s.reqs.map ro, pubs := s.pubs.map ro, waits := ws, dies := s.dies.map rd }
  let s := s.modTile t (fun T =>
    { T with resOf := T.resOf.map (fun e => (e.1, r e.2)), tloads := T.tloads.map rl
             arr := { T.arr with owner := T.arr.owner.map r, loads := T.arr.loads.map rl, runs := T.arr.runs.map rr } })
  s.modMn (clusterOf t) (fun m =>
    { m with lanes := m.lanes.map (fun e => (e.1, rid e.2)), waits := m.waits.map (fun e => (e.1, rid e.2))
             drains := m.drains.map rid })

/-! ### Requests (R421, R422, R424) -/

/-- Whether the array is used by a context (R424). -/
def State.usesArray (s : State) (x : Nat) : Bool :=
  let t := tileOf x
  (s.ctx x).life != .free &&
  ((s.arr t).owner == some x || (s.ctx x).arr != 0 ||
    (s.ctx x).commands.any (fun e => (List.range 16).any (fun p => e.2.feedsPort t t p || e.2.drainsPort p)))

/-- The B operation of the next issue of a context, when that is a bundle's last issue. -/
def State.nextB (s : State) (x : Nat) : Option Instr :=
  let s := { s with cur := x }
  if s.cx.life ≠ .live ∨ s.cx.entryErr.isSome then none
  else match s.fetch.1 with
    | .bundle _ b => if b.rep ≤ s.cx.k then b.b else none
    | _ => none
/-- Whether the next issue ends the step (R422). -/
def State.exitNext (s : State) (x : Nat) : Bool :=
  match s.nextB x with
  | some (.exit f) => (s.ctx x).settle.guardB f.gp f.gn && !(s.ctx x).inh
  | _ => false
/-- The other context of its tile. -/
def mateOf (x : Nat) : Nat := if x % 2 = 0 then x + 1 else x - 1
/-- Whether the array is used by both contexts of the tile (R424). -/
def State.bothUse (s : State) (x : Nat) : Bool := s.usesArray x && s.usesArray (mateOf x)
/-- Whether a request must wait: the next issue of a context that it would save ends that step instead (R422, R424). -/
def State.saveLater (s : State) (x : Nat) : Bool := s.exitNext x || (s.bothUse x && s.exitNext (mateOf x))
/-- Whether the context holds in JOIN (R165). -/
def State.joining (s : State) (x : Nat) : Bool :=
  match s.nextB x with
  | some (.join f) => (s.ctx x).settle.guardB f.gp f.gn && (s.ctx x).jcnt != 0
  | _ => false

/-- The lowest free save slots (R426). -/
def State.freeSlot (s : State) (but : List Nat) : Option Nat :=
  (List.range (fld (s.win.read wSAVEPOOL) 0 16).toNat).find? (fun i => !s.slots.elem i && !but.elem i)

/-- Whether a request for a context is refused (R421): it holds no step, or is being saved or restored. -/
def State.unsavable (s : State) (x : Nat) : Bool := (s.ctx x).life == .free || s.saving x

/-- A request takes effect (R422, R424): the context's holds are withdrawn and its save begins; with the array in use by
both contexts, both are saved. None when it is refused. -/
def beginSave (x : Nat) (park named cmd : Bool) (s : State) : Option State :=
  let t := tileOf x
  let y := mateOf x
  let both := s.bothUse x
  let xs := if both then [x, y] else [x]
  if xs.any s.unsavable then none
  else
    match s.freeSlot [] with
    | none => none
    | some a =>
      match (if both then s.freeSlot [a] else some a) with
      | none => none
      | some b =>
        let ownerX := (s.arr t).owner != some y
        let add := fun (n slot mate : Nat) (arr : Bool) (s : State) =>
          let v : Save :=
            { ctx := n, slot := slot, start := s.tick, quiet := s.tick, park := park && n == x, array := arr
              mate := if both then some mate else none, named := named && n == x, cmd := cmd }
          (dropPower n (abandon n { s with slots := NatSet.add slot s.slots })).modTile t
            (fun T => { T with saves := T.saves ++ [v] })
        let s := add x a b (s.usesArray x && (!both || ownerX)) s
        some (if both then add y b a (!ownerX) s else s)

/-- The context that automatic pre-emption takes (R421): of lower EFF, or of equal EFF the one that entered later. -/
def State.autoVictim (s : State) (t : Nat) : Option Nat :=
  let x := 2 * t
  let y := 2 * t + 1
  match (s.ctx x).life == .free, (s.ctx y).life == .free with
  | true, true => none
  | true, false => some y
  | false, true => some x
  | false, false =>
    let ex := (s.ctx x).eff
    let ey := (s.ctx y).eff
    if ex < ey then some x else if ey < ex then some y else if (s.ctx x).born < (s.ctx y).born then some y else some x

/-- The automatic request of a context (R421). -/
def State.autoRequest (s : State) (x : Nat) : Bool :=
  let t := tileOf x
  let T := s.tile t
  (T.crs.read 0xC1).getLsbD 32 && s.autoVictim t == some x &&
  (match T.disp with | k :: _ => decide ((s.ctx x).eff < s.launchPri k) | [] => false)

/-- The saved step of the same tile that holds the object a context waits on (R421): its slot. -/
def State.savedHolder (s : State) (x : Nat) : Option Nat :=
  match (s.ctx x).hold with
  | .wait p k _ =>
    if k = 6 ∨ k = 7 then none
    else
      let o : SyncObj := mapGet {} (s.die (s.engineOf p)).objs (objKey (s.ctx x).asid p)
      match s.holderCtx o.val with
      | some n => ((s.tile (tileOf x)).resume.find? (fun r => savedNo r.slot == n && r.restoring.isNone)).map (·.slot)
      | none => none
  | _ => none

/-- PREEMPT_SAVE (R421 to R423): an automatic request or a holder's return takes effect for context `cur`. -/
def execPreemptSave (s : State) : Host.Outcome State Fault Refusal :=
  let x := s.cur
  let t := tileOf x
  if 512 ≤ x || s.frozen || s.pctl == 3 || s.unsavable x || s.saveLater x then .next s
  else
    match s.savedHolder x with
    | some slot =>
      if s.ctxFree (2 * t) || s.ctxFree (2 * t + 1) then .next s
      else
        match beginSave x false true false s with
        | some s' =>
          .next (s'.modTile t (fun T =>
            { T with resume := T.resume.map (fun r => if r.slot = slot then { r with named := some x, parked := false } else r)
                     child := T.child.filter (fun k => k.parked != some slot) }))
        | none => .next s
    | none => .next (if s.autoRequest x then (beginSave x false false false s).getD s else s)

/-- STEP_PARK (R165). -/
def execStepPark (s : State) : Host.Outcome State Fault Refusal :=
  let x := s.cur
  if 512 ≤ x || s.frozen || s.pctl == 3 || s.unsavable x || s.saveLater x || (s.ctx (mateOf x)).life == .free || (s.tile (tileOf x)).child.isEmpty ||
      !s.joining x then .next s
  else .next ((beginSave x true false false s).getD s)

/-! ### The save sequence (R423) -/

/-- The save of a context. -/
def State.saveOf (s : State) (x : Nat) : Option Save := (s.tile (tileOf x)).saves.find? (fun v => v.ctx == x)
/-- Change it. -/
def modSave (x : Nat) (f : Save → Save) (s : State) : State :=
  s.modTile (tileOf x) (fun T => { T with saves := T.saves.map (fun v => if v.ctx = x then f v else v) })

/-- SAVE_DRAIN_QUIET (R423): 16 cycles without a firing or a drained token end the drain; a save without the array has
nothing to drain. -/
def execSaveDrainQuiet (s : State) : Host.Outcome State Fault Refusal :=
  match s.saveOf s.cur with
  | none => .next s
  | some v =>
    if v.stage ≠ 0 ∨ s.tileStopped (tileOf s.cur) then .next s
    else if (v.array ∨ v.mate.isSome) ∧ s.tick < v.quiet + 16 then .next s
    else .next (modSave s.cur (fun v => { v with stage := 1 }) s)

/-- SAVE_DEADLINE_EXPIRE (R430). -/
def execSaveDeadlineExpire (s : State) : Host.Outcome State Fault Refusal :=
  match s.saveOf s.cur with
  | none => .next s
  | some v =>
    let limit := (fld ((s.tile (tileOf s.cur)).crs.read 0xC1) 0 32).toNat + 65536 * v.ext
    .next (if s.tick ≤ v.start + limit ∨ v.late then s else modSave s.cur (fun v => { v with late := true }) s)

/-- Local completion (R423): every load has arrived or waits for full, every store is performed or waits behind such a load,
every sync return that was asked for has arrived, and what had begun of loads, LAUNCHes and commits of SDUAL has ended. A
hand-off that a posting has taken waits at the tile (R435). -/
def State.settled (s : State) (x : Nat) : Bool :=
  let c := s.ctx x
  let T := s.tile (tileOf x)
  let pend := c.pend ++ (match c.shadow with | some h => h.pend | none => [])
  pend.all (fun e => e.arrived || e.fe.isSome || c.syq.any (fun r => r.2.tag + 1 == e.tag)) && (c.st == 0 || !c.stq.isEmpty) &&
  !(T.arr.loads ++ T.tloads).any (fun l => l.ctx == x && !l.faulted && !s.behind x l.iss) &&
  !s.reqs.any (fun r => r.ctx == x && !s.behind x r.iss) &&
  c.commands.all (fun e => e.2.faulted || !(e.2.commits && e.2.bars.all c.barMet))

/-- PSTAT of a save that ends now (R431). -/
def State.pstat (s : State) (v : Save) : W64 :=
  let n := (fld ((s.ctx v.ctx).cr 0xC0) 48 16).toNat
  BitVec.ofNat 64 (min 65535 (n + 1) * 2 ^ 48 + (if v.ext = 0 then 0 else 2 ^ 47) + (if v.late then 2 ^ 46 else 0) +
    (s.tick - v.start) % 2 ^ 32)

/-- The context that a save keeps: a supervisor reply stays (R384), other holds are withdrawn (R322, R324), the counts of
full/empty waits stay (R11, R321), an SDUAL in its gather phase gathers again (R282), and requests to other packages are sent
again, their loss still counted from their issue (R446). -/
def Ctx.setAside (c : Ctx) (pstat : W64) : Ctx :=
  let restart := fun (k : Cmd) =>
    { (if k.op = 0x25 ∧ !k.faulted ∧ !k.completes then { k with k := 0, buf := [] } else k) with
      sent := k.sent.map (fun e => (e.1, [])) }
  let c := c.unaskAll
  { c.setCr 0xC0 pstat with
    hold := match c.hold with | .reply r => .reply r | _ => .none
    feh := c.feh.map (fun h => { h with hit := false, sole := false })
    handles := c.handles.map (fun h => (h.1, { h.2 with cmds := h.2.cmds.map restart })) }

/-- Write one save out: the slot, the resume entry, the freed context and allocation. A parked step joins the child lane
also when that holds 16 entries (log entry 80, DESIGN CHOICE). -/
def writeOut (v : Save) (s : State) : State :=
  let x := v.ctx
  let t := tileOf x
  let (key, s) := s.fresh
  let pstat := s.pstat v
  let s := putImage (s.slotPa v.slot) 0xC0000 (s.slotBytes v pstat key) s
  let c := s.ctx x
  let T := s.tile t
  let inPv := fun (g : Nat) => decide (c.pvBase ≤ 16 * g) && decide (16 * g < c.pvBase + c.pvSize)
  let s := s.modCtx x (·.setAside pstat)
  let s := moveCtx t x (savedNo v.slot) s
  let keep : SlotKeep :=
    { arr := if v.array then some (s.arr t) else none, lapins := T.crs.read 0xC2, full := T.pad.full.filter inPv }
  let s := { s with slotKeep := mapPut v.slot keep s.slotKeep }
  let s := if v.array then releaseArr t (s.modTile t (fun T => { T with arr := {}, crs := T.crs.write 0xC2 0 })) else s
  let s := freeAlloc t c.task.sid s
  let (n, s) := s.fresh
  let e : Resume := { slot := v.slot, seq := n, parked := v.park, mate := v.mate }
  let s := s.modTile t (fun T =>
    { T with saves := T.saves.filter (fun w => w.ctx != x), resume := T.resume ++ [e]
             child := if v.park then T.child ++ [{ c.task with parked := some v.slot }] else T.child })
  if v.late then s.raise 2 else s

/-- Order the saves of a pair: the one without the array first, so that the array's runs carry saved numbers. -/
def State.group (s : State) (v : Save) : List Save :=
  match v.mate with
  | none => [v]
  | some m =>
    let w := (s.tile (tileOf v.ctx)).saves.filter (fun w => w.slot == m)
    if v.array then w ++ [v] else v :: w

/-! ### PCTL (R434) -/

/-- PCTL with BUSY and ERR. -/
def State.setPctl (s : State) (busy err : Bool) : State :=
  { s with win := s.win.write wPCTL (BitVec.ofNat 64 ((if busy then 2 ^ 63 else 0) + if err then 2 ^ 62 else 0)) }
/-- PCTL.BUSY and ERR. -/
def State.pctlBusy (s : State) : Bool := (s.win.read wPCTL).getLsbD 63
def State.pctlErr (s : State) : Bool := (s.win.read wPCTL).getLsbD 62

/-- The resume area of a package image (R434). -/
def State.resumeArea (s : State) : Mem :=
  s.tiles.flatMap (fun t => t.2.resume.flatMap (fun r =>
    let c := s.ctx (savedNo r.slot)
    let other := match mapGet? r.slot s.slotKeep, r.mate with
      | some k, some m => if k.arr.isSome then 0xFFFF else m
      | _, _ => 0xFFFF
    dwordsAt (32 * r.slot) [(c.cr 0x11).toNat, 2 ^ 63 + t.1 * 2 ^ 48 + c.eff % 8 * 2 ^ 40 + c.jcnt % 2 ^ 16, other, 0]))

/-- Physical address of the package image (R434). -/
def State.pkgImg (s : State) : Nat := (fld (s.win.read wPKGIMG) 21 31).toNat * 2 ^ 21

/-- The cells of memory in [a, a + n), moved to offset b. -/
def State.cut (s : State) (a n b : Nat) : Mem :=
  (s.mem.filter (fun c => decide (a ≤ c.1) && decide (c.1 < a + n))).map (fun c => (c.1 - a + b, c.2))

/-- Write the package image (R434), and keep what its open parts hold beside its bytes. -/
def writePackage (s : State) : State :=
  let (key, s) := s.fresh
  let m := dwordsAt 0 [0x4556535A + 2 ^ 32, 0x21900000, 0x3F * 2 ^ 56, s.tick, s.tick, min 1920 s.log.length, 0] ++
    s.dumpBytes key ++ shift 0x21900000 s.resumeArea
  let s := putImage s.pkgImg 0x21B00000 m s
  let keep : PkgKeep :=
    { pkgnum := s.pkgnum, svn := s.trust.svn, launches := s.launches, queues := s.queues
      rds := (s.queues.filter (fun q => s.qState q.1 == 2)).map (fun q => (q.1, s.qRd q.1))
      launchNo := s.launchNo, stepNo := s.stepNo, passG := s.passG, slots := s.slots
      tiles := s.tiles, clusters := s.clusters, img := s.cut s.pkgImg 0x21900000 0 }
  { s with pkg := mapPut key keep s.pkg }

/-- Contexts of the package that hold a step. -/
def State.residents (s : State) : List Nat :=
  (s.ctxs.filter (fun c => decide (c.1 < 512) && c.2.life != .free)).map (·.1)

/-- Requests of PCTL for several contexts: refused ones set ERR (R421); one whose step ends instead is over, and one that
must wait for its tile's other step to end is asked again (R422). -/
def saveMany (xs : List Nat) (s : State) : State :=
  xs.foldl (fun s x =>
    if (s.saveOf x).any (·.cmd) || s.exitNext x then s
    else if s.saveLater x then { s with pctlAsk := s.pctlAsk ++ [x] }
    else match beginSave x false false true s with
      | some s' => s'
      | none => s.setPctl true true) s

/-- Every queue reader halts (R434). -/
def haltReaders (s : State) : State := (s.queues.map (·.1)).foldl (fun s q => if s.qState q = 1 then s.qSetState q 2 else s) s
/-- A PCTL command ends when every save it asked for is complete; a package save halts the readers once no landing keeps their
descriptors (R408), asks again for steps that remain, and then writes its image, outside a landing. -/
def pctlProgress (s : State) : State :=
  let s := if s.pctl = 4 ∧ s.landing.isNone then haltReaders { s with pctl := 3 } else s
  if s.pctl = 0 ∨ s.pctl = 4 then s
  else if s.pctl = 3 ∧ !s.residents.isEmpty then
    s.residents.foldl (fun s x =>
      if s.unsavable x || s.saveLater x then s
      else match beginSave x false false true s with
        | some s' => s'
        | none => { s.setPctl true true with pctl := 1 }) s
  else if !s.pctlAsk.isEmpty then saveMany s.pctlAsk { s with pctlAsk := [] }
  else if s.tiles.any (fun t => t.2.saves.any (·.cmd)) || (s.pctl == 3 && s.waits? s.pkgImg) then s
  else
    let s := if s.pctl = 3 then writePackage s else s
    { s.setPctl false s.pctlErr with pctl := 0 }

/-- SAVE_COMPLETE (R423): the save of context `cur`, or of both contexts, is written out. -/
def execSaveComplete (s : State) : Host.Outcome State Fault Refusal :=
  match s.saveOf s.cur with
  | none => .next s
  | some v =>
    let g := s.group v
    if s.landing.isSome || s.tileStopped (tileOf s.cur) ||
        g.any (fun w => w.stage != 1 || !s.settled w.ctx) then .next s
    else .next (pctlProgress (g.foldl (fun s w => writeOut w s) s).relend)

/-- PCTL_CONTEXT (R434): context `cur`. -/
def execPctlContext (s : State) : Host.Outcome State Fault Refusal :=
  let x := s.cur % 512
  window .pctlContext wPCTL State.pctlBusy (fun s => pctlProgress (saveMany [x] { s.setPctl true false with pctl := 1 })) s
/-- PCTL_QUEUE (R434): every running step of queue `unit`. -/
def execPctlQueue (s : State) : Host.Outcome State Fault Refusal :=
  let q := s.unit % 1024
  window .pctlQueue wPCTL State.pctlBusy (fun s =>
    let xs := s.residents.filter (fun x => match s.launch? (s.ctx x).task.launch with | some l => l.q == q | none => false)
    pctlProgress (saveMany xs { s.setPctl true false with pctl := 2 })) s
/-- PCTL_PACKAGE_SAVE (R434): the readers halt, and every context is saved. -/
def execPctlPackageSave (s : State) : Host.Outcome State Fault Refusal :=
  window .pctlPackageSave wPCTL State.pctlBusy (fun s => pctlProgress { s.setPctl true false with pctl := 4 }) s
/-- PCTL_INVALID_COMMAND (R434). -/
def execPctlInvalidCommand (cmd : Nat) (s : State) : Host.Outcome State Fault Refusal :=
  window (.pctlInvalidCommand cmd) wPCTL State.pctlBusy (fun s => s.mwErr wPCTL 4) s

/-! ### Restore (R433) -/

/-- Reallocate and refill the private space of a saved step at its offsets; none while they are not free. -/
def refillPrivate (x slot : Nat) (s : State) : Option State :=
  let t := tileOf x
  let c := s.ctx (savedNo slot)
  let T := s.tile t
  let b := c.pvBase
  let n := c.pvSize
  if n = 0 then some s
  else if T.allocs.any (fun a => decide (a.base < b + n) && decide (b < a.base + a.size)) ∨ b < T.floor then none
  else
    let keep : SlotKeep := mapGet {} s.slotKeep slot
    let bytes := s.mem.readBytes (s.slotPa slot + 0x20000) n
    some (s.modTile t (fun T =>
      let p := (T.pad.zeroFill b n).write b (bytes.map some)
      { T with allocs := ⟨c.task.sid, b, n⟩ :: T.allocs, pad := p.1.setFull (keep.full.map (16 * ·)) }))

/-- The grant that a saved heavy array needs again (R433): whether it is held, and the request after asking. -/
def askArr (x : Nat) (need : Bool) (s : State) : Bool × State :=
  if !need then (true, s)
  else
    match (s.ctx x).pwr with
    | .power 0 true => (true, s)
    | .power _ _ => (false, s)
    | _ =>
      if s.grantable 0 then (true, (s.draw 0).modCtx x (fun c => { c with pwr := .power 0 true }))
      else (false, (s.enqueue { tile := tileOf x, cls := 0, ctx := x, implicit := true }).modCtx x
        (fun c => { c with pwr := .power 0 false }))

/-- The array of a save comes back (R428). Tokens that reached ports of no image meanwhile stand behind its own (R180). -/
def Arr.comeBack (now a : Arr) : Arr :=
  let behind := fun (old new : Map (List EItem)) => new.foldl (fun (m : Map (List EItem)) q =>
    if poUsed (now.port q.1) then m else mapPut q.1 (mapGet [] m q.1 ++ q.2.map (fun e => { e with img := a.tag })) m) old
  { a with inp := behind a.inp now.inp, band := behind a.band now.band }

/-- Registers of a file as a record holds them from an address on, w bytes each (R400). -/
def fileAt {b : Nat} (m : Mem) (a w : Nat) (l : List Nat) : RegFile b :=
  l.foldl (fun f i => f.write i (BitVec.ofNat b (m.readLE (a + w * i) w))) []
/-- The control registers of a context that hold a value of their own (R108), but for STEPLIN, which its resume entry keeps
(R430); TRCTL and CTXPRI in part. -/
def ownCrs : List Nat :=
  span 1 5 ++ span 7 10 ++ span 0x12 8 ++ [0x1B, 0x1C, 0x34, 0x35, 0x50, 0x52, 0x53] ++ span 0x80 9 ++ [0x90, 0x91]
/-- The register files, control registers and element queues come back from the slot at `a`, PSTAT from its save status
(R400, R427, R431, R433); event, fault and status bits set while the step was saved stay (R111, R251, R313, R387). -/
def Ctx.refill (c : Ctx) (m : Mem) (a : Nat) : Ctx :=
  let queue := fun (h : Nat) (q : List W64) => (List.range q.length).map (fun i => BitVec.ofNat 64 (m.readLE (a + 0x11000 + 512 * h + 8 * i) 8))
  let cr := fun (n : Nat) => (BitVec.ofNat 64 (m.readLE (a + 0x9400 + 8 * n) 8) &&&
    (if n = 0x10 then 0x707 else if n = 0x81 then 6 else BitVec.allOnes 64)) |||
    (if n = 7 ∨ n = 0x52 ∨ n = 0x90 then c.crs.read n else 0)
  { c with
    crs := (ownCrs.foldl (fun f n => f.write n (cr n)) c.crs).write 0xC0 (BitVec.ofNat 64 (m.readLE (a + 0x38) 8))
    v := fileAt m (a + 0x1000) 64 (List.range 512), a := fileAt m (a + 0x9000) 8 (List.range 64)
    m := fileAt m (a + 0x9200) 8 (List.range 32), lc := fileAt m (a + 0x9308) 4 (List.range 4)
    vm := fileAt m (a + 0x9320) 8 (span 1 15)
    p := (span 1 15).foldl (fun f i => f.write i (BitVec.ofNat 1 (m.readLE (a + 0x9300) 2 / 2 ^ i))) []
    handles := c.handles.map (fun h => (h.1, { h.2 with queue := queue h.1 h.2.queue })) }

/-- Heads that had a stream context wait for one again where the tile's 16 are taken (R215). -/
def idleHeads (x : Nat) (s : State) : State :=
  ((s.ctx x).handles.map (·.1)).foldl (fun s h =>
    match s.head x h with
    | some k =>
      if k.running && decide (16 < ((s.heads (tileOf x)).filter (fun e => e.2.2.running)).length) then setHead x h { k with idle := true } s else s
    | none => s) s

/-- STEP_RESTORE (R433): the resume entry that took context `cur` is refilled: its private space first, then the array with
its grant, which it asks for unless the tile holds it, then the rest. -/
def execStepRestore (s : State) : Host.Outcome State Fault Refusal :=
  let x := s.cur
  let t := tileOf x
  match (s.tile t).resume.find? (fun r => r.restoring == some x) with
  | none => .next s
  | some r =>
    let keep : SlotKeep := mapGet {} s.slotKeep r.slot
    let mateReady := match r.mate with
      | some m =>
        (match (s.tile t).resume.find? (fun q => q.slot == m) with
         | some q => q.restoring.isSome && (keep.arr.isSome || (mapGet {} s.slotKeep m : SlotKeep).arr.isNone)
         | none => true)
      | none => true
    if s.tileStopped t || s.landing.isSome || !mateReady then .next s
    else
      let heavy := match keep.arr with
        | some a => (match a.current with | some i => (a.img i).heavy | none => false)
        | none => false
      let held := heavy && (s.tile t).pgrant.getLsbD 2
      let sid := (s.ctx (savedNo r.slot)).task.sid
      match (if (s.tile t).allocs.any (fun a => a.owner == sid) then some s else refillPrivate x r.slot s) with
      | none => .next s
      | some s =>
        let (ok, s) := askArr x (heavy && !held) (if held then dropPower x s else s)
        if !ok || (keep.arr.isSome && s.usesArray (mateOf x)) then .next s
        else
          let s := match keep.arr with
            | some a => s.modTile t (fun T =>
                { T with arr := T.arr.comeBack a, crs := (if heavy then T.crs.write 0x44 (T.crs.read 0x44 ||| 4) else T.crs).write 0xC2 keep.lapins })
            | none => s
          let s := moveCtx t (savedNo r.slot) x (s.setCtx x {})
          let s := s.modCtx x (fun c => { (c.refill s.mem (s.slotPa r.slot)).dropLines with stall := s.tick + 1, born := s.tick, pwr := .none })
          let s := s.modTile t (fun T => { T with resume := T.resume.filter (fun q => q.slot != r.slot) })
          .next (idleHeads x { s with slots := s.slots.del r.slot, slotKeep := mapDel r.slot s.slotKeep }).relend

end Sys2Proof.Machine
end

