-- ==== Sys2Proof/Machine/Maint.lean ====
section
/-! DEFINITION. Storage errors, freezes and the dump (R393 to R400), risers, landings and overruns (R402 to R412), and the
admission of DRAM requests (R408). An error names what it strikes; `unit` is the tile whose access met an error of a
cluster scratchpad, and `sub` the entry of a TLB or, counted on behind it, of its walk cache, or the 64-bit word of a PE
(`hitPe`). FREEZE_END names a tile, or 256 + a gallery core, in `unit`;
ENGINE_PAUSE_END a sync engine, or 2 + a cluster. -/

namespace Sys2Proof.Machine

/-! ### Sites of errors (R393) -/

/-- The row of R393's table. -/
def siteRow : ErrSite → Nat
  | .ctxReg _ _ _ => 0 | .ctxState _ => 0 | .fetch _ => 0
  | .tileWord _ _ => 1 | .clusterWord _ _ => 1
  | .array _ _ => 2
  | .streamBuf _ _ => 3
  | .tlb _ => 4
  | .galleryWord _ _ => 5 | .galleryPool _ _ => 5
  | .mergeBuf _ => 6
  | .syncSram _ => 7 | .queueUnit _ => 7 | .supervisor _ => 7
  | .hbm _ => 8 | .pool _ => 8
  | .lane _ _ => 9

/-- The unit an error counter belongs to: a bank (R258), a PE, a lane, a stack, or the unit itself. -/
def sitePart : ErrSite → Nat
  | .ctxReg c f _ => c * 4 + f
  | .ctxState c => c * 4
  | .fetch c => c * 4
  | .tileWord t off => t * 64 + off / 0x4000
  | .clusterWord k off => 2 ^ 20 + k * 64 + off / 0x20000
  | .array t p => t * 64 + p
  | .streamBuf c h => c * 16 + h
  | .tlb t => t
  | .galleryWord g _ => g
  | .galleryPool g _ => 64 + g
  | .mergeBuf k => k
  | .syncSram d => d
  | .queueUnit d => 2 + d
  | .supervisor d => 4 + d
  | .hbm pa => pa / 2 ^ 36
  | .pool _ => 8
  | .lane u i => u * 2 ^ 16 + i
/-- The key of its counter. -/
def siteKey (u : ErrSite) : Nat := siteRow u * 2 ^ 40 + sitePart u

/-- The tile that an error counts at and freezes; `acc` is the accessing tile. -/
def siteTile (acc : Nat) : ErrSite → Option Nat
  | .ctxReg c _ _ => if isGal c then none else some (tileOf c)
  | .ctxState c => if isGal c then none else some (tileOf c)
  | .fetch c => if isGal c then none else some (tileOf c)
  | .tileWord t _ => some t
  | .clusterWord _ _ => some acc
  | .array t _ => some t
  | .streamBuf c _ => some (tileOf c)
  | .tlb t => if t < 256 then some t else none
  | _ => none
/-- The gallery core that it freezes. -/
def siteCore : ErrSite → Option Nat
  | .ctxReg c _ _ => if isGal c then some (c - 512) else none
  | .ctxState c => if isGal c then some (c - 512) else none
  | .fetch c => if isGal c then some (c - 512) else none
  | .galleryWord g _ => some g
  | .galleryPool g _ => some g
  | _ => none
/-- Index and address of an entry of the error log. -/
def siteIdx : ErrSite → Nat × Nat
  | .ctxReg c f n => (c, f * 4096 + n)
  | .tileWord t off => (t, off)
  | .clusterWord k off => (k, off)
  | .galleryWord g off => (g, off)
  | .galleryPool g i => (g, i)
  | .hbm pa => (pa / 2 ^ 36, pa)
  | .pool pa => (0, pa)
  | u => (sitePart u, 0)

/-- Add an entry to the error log (R400). -/
def logErr (u : ErrSite) (cls : Nat) (s : State) : State :=
  let e : ErrEntry := { tick := s.tick, tile := (siteTile s.unit u).getD 0, part := siteRow u, cls := cls, idx := (siteIdx u).1, addr := (siteIdx u).2 }
  { s with log := s.log ++ [e] }

/-! ### Correctable errors (R393 to R396) -/

/-- TERRSTAT.CORR counts an error, saturating (R420). -/
def Tile.countCorr (T : Tile) : Tile :=
  let v := T.crs.read 0x46
  if (fld v 32 32).toNat = 2 ^ 32 - 1 then T else { T with crs := T.crs.write 0x46 (v + BitVec.ofNat 64 (2 ^ 32)) }

/-- Where a freeze of 32 cycles from the cycle after this one ends, and no earlier than before (R394). -/
def State.freezeTo (s : State) (old : Nat) : Nat := max old (s.tick + 33)

/-- A lasting error (R396): a bank goes to a spare while there is one, which counts its own errors; a bank without one, a
PE and a lane are reported. No address and no value changes. -/
def lasting (u : ErrSite) (s : State) : State :=
  let anew : State := { s with errs := mapDel (siteKey u) s.errs, tests := s.tests.filter (fun v => siteKey v != siteKey u) }
  match u with
  | .tileWord t _ =>
    if (s.tile t).retired.length < 1 then anew.modTile t (fun T => { T with retired := T.retired ++ [sitePart u % 64] }) else s.raise 4
  | .clusterWord k _ =>
    if (s.cluster k).retired.length < 2 then anew.modCluster k (fun K => { K with retired := K.retired ++ [sitePart u % 64] })
    else s.raise 4
  | .array _ _ => s.raise 4
  | .lane _ _ => s.raise 4
  | _ => s

/-- Whether a unit has self-tests (R395). -/
def siteTestable : ErrSite → Bool
  | .tileWord _ _ => true
  | .clusterWord _ _ => true
  | .array _ _ => true
  | .lane _ _ => true
  | _ => false

/-- Count a correctable error (R395): a second one within 2^27 ticks is lasting, and one self-test of the unit is scheduled. -/
def countErr (u : ErrSite) (s : State) : State :=
  let old : Option (Nat × Nat) := mapGet? (siteKey u) s.errs
  let n := match old with | some x => x.1 + 1 | none => 1
  let again := match old with | some x => decide (s.tick ≤ x.2 + 2 ^ 27) | none => false
  let s := { s with errs := mapPut (siteKey u) (n, s.tick) s.errs, tests := if siteTestable u && s.tests.all (fun v => siteKey v != siteKey u) then s.tests ++ [u] else s.tests }
  if again then lasting u s else s

/-- What a correctable error stops or drops (R393). -/
def corrEffect (u : ErrSite) (s : State) : State :=
  match u with
  | .tlb t =>
    if t < 256 then
      s.modTile t (fun T => { T with tlb := T.tlb.eraseIdx s.sub,
                                     walks := if s.sub < T.tlb.length then T.walks else T.walks.eraseIdx (s.sub - T.tlb.length) })
    else
      s.modGal (t - 256) (fun G => { G with tlb := G.tlb.eraseIdx s.sub,
                                            walks := if s.sub < G.tlb.length then G.walks else G.walks.eraseIdx (s.sub - G.tlb.length) })
  | .mergeBuf k => s.modMn k (fun m => { m with pause := s.freezeTo m.pause })
  | .syncSram d => s.modDie d (fun D => { D with pause := s.freezeTo D.pause })
  | _ =>
    match siteCore u, siteTile s.unit u with
    | some g, _ => s.modGal g (fun G => { G with freeze := s.freezeTo G.freeze })
    | none, some t =>
      s.modTile t (fun T => { T with freeze := s.freezeTo T.freeze, frz := if T.frozenAt s.tick then T.frz else s.tick + 1 })
    | none, none => s

/-- An error is counted and has the effect of a correctable one. -/
def countedErr (u : ErrSite) (s : State) : State :=
  let s := countErr u s
  let s := match siteTile s.unit u with | some t => s.modTile t (·.countCorr) | none => s
  corrEffect u s
/-- CORRECTABLE_ERROR (R394, R395). -/
def execCorrectableError (u : ErrSite) (s : State) : Host.Outcome State Fault Refusal := .next (countedErr u (logErr u 1 s))

/-- FREEZE_END (R394): a freeze of tile `unit`, or of core `unit` − 256, has run out. -/
def execFreezeEnd (s : State) : Host.Outcome State Fault Refusal :=
  let u := s.unit
  .next (if u < 256 then
      (if (s.tile u).freeze ≤ s.tick ∧ (s.tile u).freeze ≠ 0 then s.modTile u (fun T => { T with freeze := 0 }) else s)
    else if (s.gal (u - 256)).freeze ≤ s.tick ∧ (s.gal (u - 256)).freeze ≠ 0 then s.modGal (u - 256) (fun G => { G with freeze := 0 })
    else s)

/-- ENGINE_PAUSE_END (R393): the pause of sync engine `unit`, or of the network of cluster `unit` − 2, has run out. -/
def execEnginePauseEnd (s : State) : Host.Outcome State Fault Refusal :=
  let u := s.unit
  .next (if u < 2 then
      (if (s.die u).pause ≤ s.tick ∧ (s.die u).pause ≠ 0 then s.modDie u (fun D => { D with pause := 0 }) else s)
    else if (s.mn (u - 2)).pause ≤ s.tick ∧ (s.mn (u - 2)).pause ≠ 0 then s.modMn (u - 2) (fun m => { m with pause := 0 })
    else s)

/-! ### Fatal errors and the dump (R398 to R400) -/

/-- Physical address of the dump area, and DUMPBASE.V (R398). -/
def State.dumpBase (s : State) : Nat := (fld (s.win.read wDUMPBASE) 21 31).toNat * 2 ^ 21
def State.dumpOn (s : State) : Bool := (s.win.read wDUMPBASE).getLsbD 0

/-- Write the dump (R400), logging what cannot be read (R399). -/
def writeDump (kind d idx pa : Nat) (s : State) : State :=
  let s := s.illegible.foldl (fun s u => logErr u 3 s) s
  let (key, s) := s.fresh
  let m := dwordsAt 0 [0x50444D5A + 2 ^ 32, 0x21900000, 0x3F * 2 ^ 56 + kind % 256 * 2 ^ 48 + d % 256 * 2 ^ 40 + idx % 2 ^ 40,
    s.tick, s.tick, min 1920 s.log.length, pa] ++ s.dumpBytes key
  putImage s.dumpBase 0x21900000 m s

/-- A fatal error (R399): every tile and core freezes for good, every queue reader halts, with no halt cause of its own (R386),
the dump is written and the host interrupted. -/
def fatal (kind d idx pa : Nat) (s : State) : State :=
  if s.frozen then s
  else
    let s := (s.queues.map (·.1)).foldl (fun s q => if s.qState q = 1 then haltReader q s else s) s
    let s := { s with frozen := true }
    let s := if s.dumpOn then writeDump kind d idx pa s else s
    s.raise 0

/-- FATAL_ERROR (R399). -/
def execFatalError (kind d idx : Nat) (s : State) : Host.Outcome State Fault Refusal := .next (fatal kind d idx 0 s)

/-! ### Uncorrectable errors (R397) -/

/-- Sticky records, snapshot registers or control registers of a context: an unhandled `DATA_LOST` at the next bundle that
it prepares, which reads them. -/
def loseContext (x : Nat) (s : State) : State :=
  s.modCtx x (fun c =>
    if c.life = .live then { c with entryErr := some { cause := .dataLost, whole := true, fatal := true } } else c)

/-- Mark token n of a list. -/
def markTok (n : Nat) (l : List Tok) : List Tok := l.mapIdx (fun i t => if i = n then { t with bad := true } else t)
/-- Mark token n of a queue, markers apart. -/
def markItem : Nat → List EItem → List EItem
  | _, [] => []
  | n, e :: r =>
    match e.tok, n with
    | none, n => e :: markItem n r
    | some t, 0 => { e with tok := some { t with bad := true } } :: r
    | some _, n + 1 => e :: markItem n r
/-- Mark token n of the edges of PE p in order, then of its DELAY. -/
def markEdge (p n : Nat) : Map Edge → Map Edge × Option Nat
  | [] => ([], some n)
  | (k, e) :: r =>
    if k % 256 / 4 ≠ p then (let (m, left) := markEdge p n r; ((k, e) :: m, left))
    else
      let c := tokCount e.q
      if n < c then ((k, { e with q := markItem n e.q }) :: r, none)
      else (let (m, left) := markEdge p (n - c) r; ((k, e) :: m, left))

/-- An uncorrectable error of 64-bit word w of PE p (R393): 0 to 127 the halves of its accumulators, 128 to 383 its weight
store, 384 to 895 its edge token pool, and above its operator state (log entry 86, DESIGN CHOICE). A word that holds nothing
changes nothing. -/
def Arr.hitPe (a : Arr) (p w : Nat) : Arr :=
  let x := a.pe p
  if w < 128 then a.setPe p { x with accBad := NatSet.add w x.accBad }
  else if w < 384 then
    let n := (w - 128) / 8
    let mark := fun (r : List (List Tok) × Nat) (ts : List Tok) =>
      (r.1 ++ [if r.2 ≤ n ∧ n < r.2 + ts.length then markTok (n - r.2) ts else ts], r.2 + ts.length)
    let r := x.sets.foldl mark ([], 0)
    a.setPe p { x with sets := r.1, fill := if r.2 ≤ n then markTok (n - r.2) x.fill else x.fill }
  else if w < 896 then
    match markEdge p ((w - 384) / 8) a.edges with
    | (m, none) => { a with edges := m }
    | (_, some n) => if opOP x.op = oDELAY then a.setPe p { x with held := markTok n x.held } else a
  else a.setPe p { x with bad := true }

/-- Whether a granule lies in the overflow area of a die whose engine holds an entry there (R307). -/
def State.inOverflow (s : State) (pa d : Nat) : Bool :=
  let v := s.win.read (wSYNCOVF + 8 * d)
  let base := (fld v 16 36).toNat * 65536
  !(s.die d).ovfl.isEmpty && decide (base ≤ pa) && decide (pa < base + (fld v 0 16).toNat * 65536)

/-- The trap of a bundle whose fetch met an uncorrectable error. -/
def fetchLost (c : Ctx) : TrapInfo := { cause := .dataLost, whole := true, addr := BitVec.ofNat 64 (c.textVa c.pc) }

/-- A link goes down: INTSTAT.LINK (R455). -/
def linkEvent (s : State) : State := s.raise 6

/-- UNCORRECTABLE_ERROR (R393, R397): marked where its data would be consumed. One of the sync engine's overflow area is
fatal while the area holds an entry (R399; log entry 86, DEDUCED). -/
def execUncorrectableError (u : ErrSite) (s : State) : Host.Outcome State Fault Refusal :=
  let s := logErr u 2 s
  .next (
    match u with
    | .ctxReg c f n => s.modCtx c (fun c => { c with badRegs := if c.badRegs.elem (f, n) then c.badRegs else (f, n) :: c.badRegs })
    | .ctxState c => loseContext c s
    | .fetch c => s.modCtx c (fun c => if c.life = .live then { c with entryErr := some (fetchLost c) } else c)
    | .tileWord t off => s.modTile t (fun T => { T with pad := { T.pad with bad := NatSet.add (off / 8) T.pad.bad } })
    | .clusterWord k off => s.modCluster k (fun K => { K with pad := { K.pad with bad := NatSet.add (off / 8) K.pad.bad } })
    | .array t p => s.modArr t (fun a => a.hitPe p s.sub)
    | .streamBuf c h =>
      (match s.head c h with
       | some k => if k.started ∧ !k.faulted ∧ !k.fin then faultCmd c h k { cause := .dataLost, addr := k.base } k.k s else s
       | none => s)
    | .tlb _ => countedErr u s
    | .galleryWord g off => s.modGal g (fun G => { G with store := { G.store with bad := NatSet.add (off / 8) G.store.bad } })
    | .galleryPool g i => s.modGal g (fun G => { G with poolBad := NatSet.add i G.poolBad })
    | .mergeBuf k =>
      if ((s.mn k).state = mnOPEN ∨ (s.mn k).state = mnSEALED ∨ (s.mn k).state = mnREADY) ∧ !(s.mn k).buf.isEmpty then
        mnFault k 4 { cause := .dataLost, addr := (s.mn k).base } s
      else s
    | .syncSram d => fatal 1 d 0 0 s
    | .queueUnit d => fatal 2 d 0 0 s
    | .supervisor d => fatal 3 d 0 0 s
    | .hbm pa =>
      let s := { s with badPa := NatSet.add (pa / 32) s.badPa }
      (match [0, 1].find? (s.inOverflow pa) with | some d => fatal 1 d 0 (pa / 32 * 32) s | none => s)
    | .pool pa => linkEvent { s with badPa := NatSet.add (pa / 32) s.badPa }
    | .lane _ _ => linkEvent s)

/-! ### DRAM requests (R272, R365, R408) -/

/-- A DRAM request performed: a masked write that meets an uncorrectable granule it does not cover is not (R365). -/
def performDram (r : DramReq) (s : State) : State :=
  if !r.write || s.rmwBad r.pa r.data then s else s.writePa r.pa r.data

/-- A request reaches its memory: HBM holds it during a landing and in order behind those held (R408). -/
def admitDram (r : DramReq) (s : State) : State :=
  if inHbm r.pa && (s.landing.isSome || !s.held.isEmpty) then { s with held := s.held ++ [r] } else performDram r s

/-- DRAM_REQUEST (R408): a stack's controller admits or holds a request; there is no physical address beyond 52 bits
(R272), and no DRAM outside HBM. -/
def execDramRequest (r : DramReq) (s : State) : Host.Outcome State Fault Refusal :=
  if 2 ^ 52 < r.pa + r.data.length then .fault .noPhysicalAddress
  else .next (if hbmSize < r.pa + r.data.length then s else admitDram r s)

/-- Held requests are performed in their order. -/
def releaseHeld (s : State) : State := s.held.foldl (fun s r => performDram r s) { s with held := [] }

/-! ### Risers and landings (R402, R405, R406, R411, R412) -/

/-- Set an EVPEND bit of every context that holds a step. -/
def setEvAll (bit : Nat) (s : State) : State :=
  { s with ctxs := s.ctxs.map (fun c => if c.1 < 512 ∧ c.2.life ≠ .free then (c.1, c.2.setEv bit) else c) }

/-- RISER_START (R405). -/
def execRiserStart (s : State) : Host.Outcome State Fault Refusal :=
  .next (if s.landing.isNone ∧ s.calDist = 256 then setEvAll 7 s else s)

/-- Whether a scheduled self-test can run in a landing of a kind (R395, R406): a PE's needs an idle PE or no armed run. -/
def State.canTest (s : State) (kind : Nat) (u : ErrSite) : Bool :=
  match u with
  | .array t p =>
    let a := s.arr t
    (match (a.pe p).img with
     | none => true
     | some i => opOP (imgOp (a.img i).raw p) == oIDLE || (a.runq i (imgGroup (a.img i).raw p)).isEmpty)
  | .lane _ _ => 2 ≤ kind
  | _ => true

/-- The self-tests that can run do; one that fails makes its error lasting (R395). -/
def runTests (kind : Nat) (s : State) : State :=
  let due := s.tests.filter (s.canTest kind)
  let s := { s with tests := s.tests.filter (fun u => !s.canTest kind u) }
  due.foldl (fun s u => let (n, s) := s.fresh; if Config.selfTestFails n then lasting u s else s) s

/-- The mandatory threshold of RETRAIN (R412, R453); 0 sets none. -/
def State.retrainAt (s : State) : Nat := (fld (s.win.read wRETRAIN) 0 16).toNat
/-- Stacks whose error counter has reached it. -/
def State.retrainDue (s : State) : List Nat :=
  if s.retrainAt = 0 then []
  else (List.range 8).filter (fun k => s.retrainAt ≤ (mapGet (0, 0) s.errs (siteKey (.hbm (k * 2 ^ 36)))).1)
/-- Whether a save slot has bytes in a stack. -/
def State.slotIn (s : State) (slot k : Nat) : Bool :=
  s.slotPa slot / 2 ^ 36 == k || (s.slotPa slot + 0xBFFFF) / 2 ^ 36 == k
/-- Mandatory retraining of stacks (R412): a save that streams to one has its deadline extended, and the counter starts
again. -/
def retrain (s : State) : State :=
  s.retrainDue.foldl (fun s k =>
    { s with
      errs := mapDel (siteKey (.hbm (k * 2 ^ 36))) s.errs
      tiles := s.tiles.map (fun t =>
        (t.1, { t.2 with saves := t.2.saves.map (fun v => if s.slotIn v.slot k then { v with ext := v.ext + 1 } else v) })) }) s

/-- Whether a save streams to a stack (R412). -/
def State.streamsTo (s : State) (k : Nat) : Bool := s.tiles.any (fun t => t.2.saves.any (fun v => s.slotIn v.slot k))
/-- Elective retraining of stacks without a mandatory one (R412): one that a save streams to moves to the next grand landing,
and RETRAIN records the move. Whether the driver has asked for one is a free value (log entry 57). -/
def electRetrain (but : List Nat) (s : State) : State :=
  (List.range 8).foldl (fun s k =>
    let (n, s) := s.fresh
    if but.elem k || !(s.elective.has k || Config.electiveAsked n) then s
    else if s.streamsTo k then
      { s with elective := NatSet.add k s.elective
               win := s.win.write wRETRAIN (s.win.read wRETRAIN ||| BitVec.ofNat 64 (2 ^ (16 + k))) }
    else { s with elective := s.elective.del k }) s

/-- The link of a lane's error counter, if it is one (R393). -/
def laneLink (key : Nat) : Option Nat := if key / 2 ^ 40 = 9 then some (key % 2 ^ 40 / 2 ^ 16) else none
/-- The errors of a link. -/
def State.linkErrs (s : State) (u : Nat) : Nat :=
  s.errs.foldl (fun n (e : Nat × Nat × Nat) => if laneLink e.1 = some u then n + e.2.1 else n) 0
/-- Lane retraining, mandatory for a link whose counter has reached the threshold (R406): the counter starts again. -/
def retrainLanes (s : State) : State :=
  if s.retrainAt = 0 then s
  else { s with errs := s.errs.filter (fun e => match laneLink e.1 with | some u => decide (s.linkErrs u < s.retrainAt) | none => true) }

/-- LANDING_START (R402, R406). -/
def execLandingStart (s : State) : Host.Outcome State Fault Refusal :=
  if s.tick < 8192 ∨ s.tick % 8192 ≠ 0 ∨ s.landing.isSome then .next s
  else
    let k := slotKind s.tick
    let s := { s with landing := some { kind := k, start := s.tick, stop := s.tick + landingLen k } }
    let s := runTests k s
    let s := if 2 ≤ k then retrainLanes s else s
    .next (if k = 3 then electRetrain s.retrainDue (retrain s) else s)

/-- LANDING_END (R402, R408): held requests are sent again from the first tick after it, and a QCMD command that waited has
its effect, unless another landing follows directly. -/
def execLandingEnd (s : State) : Host.Outcome State Fault Refusal :=
  match s.landing with
  | none => .next s
  | some l =>
    if s.tick < l.stop then .next s
    else
      let s := { s with landing := none }
      .next (if s.tick % 8192 = 0 then s else qcmdGo (releaseHeld s))

/-- MAINT_OVERRUN (R411): mandatory work extends the landing by 64 ticks, up to 4,096; the first extension is the event of
that landing. -/
def execMaintOverrun (s : State) : Host.Outcome State Fault Refusal :=
  match s.landing with
  | none => .next s
  | some l =>
    let ext := l.stop - (l.start + landingLen l.kind)
    if 4096 ≤ ext then .next s
    else
      let s := { s with landing := some { l with stop := l.stop + 64 } }
      if ext ≠ 0 then .next s
      else
        let s := { s with ovr := s.ovr + 1 }
        let ev := fun (D : Die) => { D with events := D.events ++ [(Cause.maintOverrun.code, 0, 0)] }
        .next ((setEvAll 1 ((s.modDie 0 ev).modDie 1 ev)).raise 3)

end Sys2Proof.Machine
end

