-- ==== Sys2Proof/Machine/Sha.lean ====
section
/-! DEFINITION. The hashes and signatures of the supervisor (R460 to R462): SHA-256 (FIPS 180-4), HMAC-SHA-256, and LM-OTS, LMS
and HSS (RFC 8554) with LMOTS_SHA256_N32_W8. -/

namespace Sys2Proof.Machine

/-! ### Strings -/

/-- A number as n bytes, the most significant first. -/
def beBytes (n v : Nat) : List Byte := (List.range n).map (fun i => BitVec.ofNat 8 (v / 2 ^ (8 * (n - 1 - i))))
/-- The number that bytes stand for, the most significant first. -/
def ofBe (l : List Byte) : Nat := l.foldl (fun a b => a * 256 + b.toNat) 0
/-- The 32 bytes of a digest. -/
def digestBytes (d : BitVec 256) : List Byte := beBytes 32 d.toNat

/-! ### SHA-256 -/

/-- The round constants. -/
def shaK : List (BitVec 32) :=
  [0x428a2f98, 0x71374491, 0xb5c0fbcf, 0xe9b5dba5, 0x3956c25b, 0x59f111f1, 0x923f82a4, 0xab1c5ed5,
   0xd807aa98, 0x12835b01, 0x243185be, 0x550c7dc3, 0x72be5d74, 0x80deb1fe, 0x9bdc06a7, 0xc19bf174,
   0xe49b69c1, 0xefbe4786, 0x0fc19dc6, 0x240ca1cc, 0x2de92c6f, 0x4a7484aa, 0x5cb0a9dc, 0x76f988da,
   0x983e5152, 0xa831c66d, 0xb00327c8, 0xbf597fc7, 0xc6e00bf3, 0xd5a79147, 0x06ca6351, 0x14292967] ++
  [0x27b70a85, 0x2e1b2138, 0x4d2c6dfc, 0x53380d13, 0x650a7354, 0x766a0abb, 0x81c2c92e, 0x92722c85,
   0xa2bfe8a1, 0xa81a664b, 0xc24b8b70, 0xc76c51a3, 0xd192e819, 0xd6990624, 0xf40e3585, 0x106aa070,
   0x19a4c116, 0x1e376c08, 0x2748774c, 0x34b0bcb5, 0x391c0cb3, 0x4ed8aa4a, 0x5b9cca4f, 0x682e6ff3,
   0x748f82ee, 0x78a5636f, 0x84c87814, 0x8cc70208, 0x90befffa, 0xa4506ceb, 0xbef9a3f7, 0xc67178f2]

/-- The eight words of a hash. -/
structure ShaState where
  a : BitVec 32 := 0x6a09e667
  b : BitVec 32 := 0xbb67ae85
  c : BitVec 32 := 0x3c6ef372
  d : BitVec 32 := 0xa54ff53a
  e : BitVec 32 := 0x510e527f
  f : BitVec 32 := 0x9b05688c
  g : BitVec 32 := 0x1f83d9ab
  h : BitVec 32 := 0x5be0cd19
  deriving DecidableEq, Repr

/-- One round with constant k and schedule word w. -/
def ShaState.round (s : ShaState) (k w : BitVec 32) : ShaState :=
  let s1 := s.e.rotateRight 6 ^^^ s.e.rotateRight 11 ^^^ s.e.rotateRight 25
  let ch := (s.e &&& s.f) ^^^ (~~~s.e &&& s.g)
  let t1 := s.h + s1 + ch + k + w
  let s0 := s.a.rotateRight 2 ^^^ s.a.rotateRight 13 ^^^ s.a.rotateRight 22
  let maj := (s.a &&& s.b) ^^^ (s.a &&& s.c) ^^^ (s.b &&& s.c)
  { a := t1 + (s0 + maj), b := s.a, c := s.b, d := s.c, e := s.d + t1, f := s.e, g := s.f, h := s.g }
/-- Word-wise addition. -/
def ShaState.add (s t : ShaState) : ShaState :=
  { a := s.a + t.a, b := s.b + t.b, c := s.c + t.c, d := s.d + t.d, e := s.e + t.e, f := s.f + t.f, g := s.g + t.g, h := s.h + t.h }

/-- The next n words of a message schedule, whose words so far stand latest first. -/
def shaExtend : Nat → List (BitVec 32) → List (BitVec 32)
  | 0, r => r
  | n + 1, r =>
    let x := r.getD 14 0
    let y := r.getD 1 0
    let s0 := x.rotateRight 7 ^^^ x.rotateRight 18 ^^^ (x >>> 3)
    let s1 := y.rotateRight 17 ^^^ y.rotateRight 19 ^^^ (y >>> 10)
    shaExtend n ((r.getD 15 0 + s0 + r.getD 6 0 + s1) :: r)
/-- One block of 64 bytes. -/
def ShaState.block (s : ShaState) (l : List Byte) : ShaState :=
  let w := (List.range 16).map (fun i => BitVec.ofNat 32 (ofBe ((l.drop (4 * i)).take 4)))
  s.add ((shaK.zip (shaExtend 48 w.reverse).reverse).foldl (fun s e => s.round e.1 e.2) s)
/-- A message, padded to whole blocks. -/
def shaPad (l : List Byte) : List Byte :=
  l ++ [0x80] ++ List.replicate ((119 - l.length % 64) % 64) 0 ++ beBytes 8 (8 * l.length)
/-- The digest of a message. -/
def sha256 (l : List Byte) : BitVec 256 :=
  let m := shaPad l
  let s := (List.range (m.length / 64)).foldl (fun s i => s.block ((m.drop (64 * i)).take 64)) ({} : ShaState)
  s.a ++ s.b ++ s.c ++ s.d ++ s.e ++ s.f ++ s.g ++ s.h

/-- HMAC-SHA-256 of a message under a key of 32 bytes. -/
def hmacSha256 (key : BitVec 256) (l : List Byte) : BitVec 256 :=
  let k := digestBytes key ++ List.replicate 32 0
  sha256 (k.map (· ^^^ 0x5c) ++ digestBytes (sha256 (k.map (· ^^^ 0x36) ++ l)))

/-! ### LM-OTS: LMOTS_SHA256_N32_W8, type 4 -/

/-- A hash of RFC 8554: identifier, number, 16 bits that separate, and the rest. -/
def lmHash (I : List Byte) (q sep : Nat) (l : List Byte) : List Byte := digestBytes (sha256 (I ++ beBytes 4 q ++ beBytes 2 sep ++ l))
/-- n steps of chain i of key q, from step j on. -/
def otsChain (I : List Byte) (q i : Nat) : Nat → Nat → List Byte → List Byte
  | 0, _, x => x
  | n + 1, j, x => otsChain I q i n (j + 1) (lmHash I q i (beBytes 1 j ++ x))
/-- The 34 digits of a message with randomiser C: its hash and their checksum. -/
def otsDigits (I : List Byte) (q : Nat) (C msg : List Byte) : List Byte :=
  let Q := lmHash I q 0x8181 (C ++ msg)
  Q ++ beBytes 2 (Q.foldl (fun a b => a + (255 - b.toNat)) 0)
/-- The public key of the ends of the 34 chains. -/
def otsPublic (I : List Byte) (q : Nat) (ends : List (List Byte)) : List Byte := lmHash I q 0x8080 ends.flatten
/-- The key that a signature of a message stands for: type, randomiser and 34 chain values. -/
def otsCandidate (I : List Byte) (q : Nat) (msg sig : List Byte) : List Byte :=
  let d := otsDigits I q ((sig.drop 4).take 32) msg
  otsPublic I q ((List.range 34).map (fun i =>
    let a := (d.getD i 0).toNat
    otsChain I q i (255 - a) a ((sig.drop (36 + 32 * i)).take 32)))
/-- The length of such a signature. -/
def otsLen : Nat := 4 + 32 + 32 * 34

/-! ### LMS -/

/-- The type of an LMS tree of height h (R460, R462). -/
def lmsType (h : Nat) : Nat := if h = 20 then 8 else 6
/-- The root that a leaf's key and an authentication path lead to, from node r of the tree. -/
def lmsClimb (I : List Byte) : Nat → List (List Byte) → List Byte → List Byte
  | _, [], x => x
  | r, p :: rest, x => lmsClimb I (r / 2) rest (lmHash I (r / 2) 0x8383 (if r % 2 = 1 then p ++ x else x ++ p))
/-- Whether an LMS signature of a message verifies under a public key of a tree of height h. -/
def lmsVerify (h : Nat) (key msg sig : List Byte) : Bool :=
  let I := (key.drop 8).take 16
  let q := ofBe (sig.take 4)
  let ots := (sig.drop 4).take otsLen
  let path := (List.range h).map (fun i => (sig.drop (8 + otsLen + 32 * i)).take 32)
  key.length == 56 && ofBe (key.take 4) == lmsType h && ofBe ((key.drop 4).take 4) == 4 &&
  sig.length == 8 + otsLen + 32 * h && ofBe (ots.take 4) == 4 && ofBe ((sig.drop (4 + otsLen)).take 4) == lmsType h &&
  decide (q < 2 ^ h) &&
  lmsClimb I (2 ^ h + q) path (lmHash I (2 ^ h + q) 0x8282 (otsCandidate I q msg ots)) == key.drop 24

/-! ### The device's keys (R462) -/

/-- An item of a level's tree for a boot, derived by HMAC-SHA-256 from the fused secret: chain starts 0 to 33 of leaf q, its
randomiser 34, and the tree's identifier 35. -/
def deviceItem (level boot q i : Nat) : List Byte := digestBytes (hmacSha256 Config.fusedSecret (Config.kdfInput level boot q i))
/-- The identifier of a tree. -/
def deviceId (level boot : Nat) : List Byte := (deviceItem level boot 0 35).take 16
/-- The one-time public key of leaf q. -/
def deviceOts (level boot q : Nat) : List Byte :=
  let I := deviceId level boot
  otsPublic I q ((List.range 34).map (fun i => otsChain I q i 255 0 (deviceItem level boot q i)))
/-- Node r of a tree of height h, n levels above its leaves. -/
def deviceNode (level boot h : Nat) : Nat → Nat → List Byte
  | 0, r => lmHash (deviceId level boot) r 0x8282 (deviceOts level boot (r - 2 ^ h))
  | n + 1, r => lmHash (deviceId level boot) r 0x8383 (deviceNode level boot h n (2 * r) ++ deviceNode level boot h n (2 * r + 1))
/-- The LMS public key of a tree of height h. -/
def deviceKey (level boot h : Nat) : List Byte :=
  beBytes 4 (lmsType h) ++ beBytes 4 4 ++ deviceId level boot ++ deviceNode level boot h h 1
/-- The LMS signature of a message by leaf q of a tree of height h. -/
def deviceSign (level boot h q : Nat) (msg : List Byte) : List Byte :=
  let I := deviceId level boot
  let C := deviceItem level boot q 34
  let d := otsDigits I q C msg
  let y := (List.range 34).flatMap (fun i => otsChain I q i (d.getD i 0).toNat 0 (deviceItem level boot q i))
  let path := (List.range h).flatMap (fun i => deviceNode level boot h i ((2 ^ h + q) / 2 ^ i ^^^ 1))
  beBytes 4 q ++ beBytes 4 4 ++ C ++ y ++ beBytes 4 (lmsType h) ++ path

/-- The public level-1 key: one tree of height 20 for every boot. -/
def identityKey : List Byte := deviceKey 1 0 20
/-- The HSS signature of a message by leaf q of the boot's level-2 tree of height 10, whose key the level-1 leaf `boot` signs. -/
def hssSign (boot q : Nat) (msg : List Byte) : List Byte :=
  let key2 := deviceKey 2 boot 10
  beBytes 4 1 ++ deviceSign 1 0 20 boot key2 ++ key2 ++ deviceSign 2 boot 10 q msg

end Sys2Proof.Machine
end

