-- ==== Sys2Proof/Machine/Window.lean ====
section
/-! DEFINITION. The management window and the outside world (R276, R277, R301, R350 to R352, R384, R442 to R462): shootdowns,
owners, SYNCHOST, links, peers, gallery jobs, PUBLISH, the mailbox, resets and bring-up. Events name the tile, core, package
or place in `unit`, and the place of a request in `sub`. -/

namespace Sys2Proof.Machine

/-! ### Shootdowns (R276, R277) -/

/-- TLBINV.BUSY. -/
def State.tlbBusy (s : State) : Bool := s.shoot.isSome
/-- A shootdown starts. -/
def beginShoot (k asid n : Nat) (s : State) : State :=
  { s with shoot := some (k, asid % 2 ^ 16, (fld (s.win.read wTLBINVVA) 16 40).toNat, n % 2 ^ 20)
           win := s.win.write wTLBINV (BitVec.ofNat 64 (2 ^ 63)) }
/-- TLBINV_ALL (R277). -/
def execTlbinvAll (s : State) : Host.Outcome State Fault Refusal := window .tlbinvAll wTLBINV State.tlbBusy (beginShoot 0 0 0) s
/-- TLBINV_ASID (R277). -/
def execTlbinvAsid (asid : Nat) (s : State) : Host.Outcome State Fault Refusal :=
  window (.tlbinvAsid asid) wTLBINV State.tlbBusy (beginShoot 1 asid 0) s
/-- TLBINV_RANGE (R277): pages of 64 KiB from TLBINVVA. -/
def execTlbinvRange (asid npage : Nat) (s : State) : Host.Outcome State Fault Refusal :=
  window (.tlbinvRange asid npage) wTLBINV State.tlbBusy (beginShoot 2 asid npage) s
/-- TLBINV_KIND3 (R277). -/
def execTlbinvKind3 (s : State) : Host.Outcome State Fault Refusal :=
  window .tlbinvKind3 wTLBINV State.tlbBusy (fun s => s.mwErr wTLBINV 2) s

/-- Whether a shootdown drops an entry, whatever page size it maps. -/
def shootHits (k asid page n : Nat) (e : TlbEntry) : Bool :=
  k == 0 || (e.asid == asid &&
    (k == 1 || (decide (e.va * 2 ^ e.bits < (page + n) * 65536) && decide (page * 65536 < (e.va + 1) * 2 ^ e.bits))))
/-- Whether it drops a walk-cache entry: one that serves a page it names. -/
def shootWalks (k asid page n : Nat) (w : WalkEntry) : Bool :=
  k == 0 || (w.asid == asid &&
    (k == 1 || (decide (w.pre * 2 ^ walkBits w.up < (page + n) * 65536) &&
      decide (page * 65536 < (w.pre + 1) * 2 ^ walkBits w.up))))
/-- SHOOTDOWN_DONE (R277): every matching entry is dropped. No element block stands between its translation and its
access, so none is left to wait for. -/
def execShootdownDone (s : State) : Host.Outcome State Fault Refusal :=
  match s.shoot with
  | none => .next s
  | some (k, asid, page, n) =>
    let cut := fun (l : List TlbEntry) => l.filter (fun e => !shootHits k asid page n e)
    let cutW := fun (l : List WalkEntry) => l.filter (fun e => !shootWalks k asid page n e)
    .next { s with tiles := s.tiles.map (fun t => (t.1, { t.2 with tlb := cut t.2.tlb, walks := cutW t.2.walks }))
                   gals := s.gals.map (fun g => (g.1, { g.2 with tlb := cut g.2.tlb, walks := cutW g.2.walks }))
                   shoot := none, win := s.win.write wTLBINV 0 }

/-! ### Owners (R260, R456) -/

/-- The address spaces of the steps placed on a tile (R260): in a lane, in a context, or saved. -/
def State.placedAsids (s : State) (t : Nat) : List Nat :=
  let T := s.tile t
  (T.disp ++ T.child).filterMap (fun k => (s.launch? k.launch).map (·.asid)) ++
  ([2 * t, 2 * t + 1].filter (fun x => (s.ctx x).life != .free)).map (fun x => (s.ctx x).asid) ++
  T.resume.map (fun r => (s.ctx (savedNo r.slot)).asid)

/-- Fields of OWNSET. -/
def ownNew (v : W64) : Nat := if v.getLsbD 62 then 2 ^ 16 else (fld v 0 16).toNat
def ownFloor (v : W64) : Nat := (fld v 32 23).toNat

/-- TSOWN or CSOWN of an owner (2^16: none) and a floor. -/
def ownWord (o floor : Nat) : W64 := BitVec.ofNat 64 (floor * 2 ^ 32 + (if o = 2 ^ 16 then 2 ^ 16 else o % 2 ^ 16))
/-- The owner in TSOWN or CSOWN. -/
def ownOld (v : W64) : Nat := if v.getLsbD 16 then 2 ^ 16 else (fld v 0 16).toNat

/-- Set the owner and floor of tile t, unless R260 refuses. -/
def ownTile (off t : Nat) (v : W64) (s : State) : State :=
  let T := s.tile t
  let old := ownOld (T.crs.read 0x36)
  let o := ownNew v
  let floor := if v.getLsbD 16 then ownFloor v else T.floor
  if floor % 1024 ≠ 0 ∨ 0x40000 ≤ floor then s.mwErr off 2
  else if (o ≠ old ∧ (s.placedAsids t).elem old) ∨ (floor ≠ T.floor ∧ !T.allocs.isEmpty) then s.mwErr off 3
  else
    s.modTile t (fun T =>
      { T with crs := T.crs.write 0x36 (ownWord o floor), pad := if o = old then T.pad else T.pad.zeroFill 0 floor })

/-- Set the owner and floor of cluster k, unless R260 refuses. -/
def ownCluster (off k : Nat) (v : W64) (s : State) : State :=
  let K := s.cluster k
  let old := ownOld (K.crs.read 0x37)
  let o := ownNew v
  let floor := if v.getLsbD 16 then ownFloor v else K.floor
  let teams := K.allocs.any (fun a => match s.launch? (a.owner / 2 ^ 40) with | some l => l.asid == old | none => false)
  if floor % 1024 ≠ 0 ∨ 0x600000 < floor then s.mwErr off 2
  else if (o ≠ old ∧ (teams ∨ (span (8 * k) 8).any (fun t => (s.placedAsids t).elem old))) ∨ (floor ≠ K.floor ∧ !K.allocs.isEmpty) then
    s.mwErr off 3
  else
    s.modCluster k (fun K =>
      { K with crs := K.crs.write 0x37 (ownWord o floor), pad := if o = old then K.pad else K.pad.zeroFill 0 floor })

/-- OWNSET (R260, R456) of tile `unit`. -/
def execOwnset (v : W64) (s : State) : Host.Outcome State Fault Refusal :=
  let t := s.unit % 256
  let off := 0x10000 + 256 * t
  window (.ownset v) off notBusy (fun s => if v.getLsbD 63 then ownCluster off (clusterOf t) v s else ownTile off t v s) s

/-! ### SYNCHOST (R456) -/

/-- SYNCHOST.BUSY. -/
def State.synchostBusy (s : State) : Bool := (s.win.read (wSYNCHOST + 16)).getLsbD 63
/-- Send the host's operation of code n, unless its pointer fails R309. -/
def synchost (me : Instr) (n : Nat) (op : SyncOp) (s : State) : Host.Outcome State Fault Refusal :=
  window me (wSYNCHOST + 16) State.synchostBusy (fun s =>
    let p := s.win.read (wSYNCHOST + 8)
    if (s.checkObj p).isSome then s.mwErr (wSYNCHOST + 16) 2
    else
      { s with win := s.win.write (wSYNCHOST + 16) (BitVec.ofNat 64 (2 ^ 63 + n)) }.sendSync
        { who := .host, asid := (s.win.read wSYNCHOST).toNat % 2 ^ 16, ptr := p, op := op, v := s.win.read (wSYNCHOST + 24) }) s
/-- SYNCHOST_ADD (R456). -/
def execSynchostAdd (s : State) : Host.Outcome State Fault Refusal := synchost .synchostAdd 0 (.atom 0) s
/-- SYNCHOST_AND (R456). -/
def execSynchostAnd (s : State) : Host.Outcome State Fault Refusal := synchost .synchostAnd 1 (.atom 1) s
/-- SYNCHOST_OR (R456). -/
def execSynchostOr (s : State) : Host.Outcome State Fault Refusal := synchost .synchostOr 2 (.atom 2) s
/-- SYNCHOST_XOR (R456). -/
def execSynchostXor (s : State) : Host.Outcome State Fault Refusal := synchost .synchostXor 3 (.atom 3) s
/-- SYNCHOST_MINU (R456). -/
def execSynchostMinu (s : State) : Host.Outcome State Fault Refusal := synchost .synchostMinu 4 (.atom 4) s
/-- SYNCHOST_MAXU (R456). -/
def execSynchostMaxu (s : State) : Host.Outcome State Fault Refusal := synchost .synchostMaxu 5 (.atom 5) s
/-- SYNCHOST_MINI (R456). -/
def execSynchostMini (s : State) : Host.Outcome State Fault Refusal := synchost .synchostMini 6 (.atom 6) s
/-- SYNCHOST_MAXI (R456). -/
def execSynchostMaxi (s : State) : Host.Outcome State Fault Refusal := synchost .synchostMaxi 7 (.atom 7) s
/-- SYNCHOST_SWAP (R456). -/
def execSynchostSwap (s : State) : Host.Outcome State Fault Refusal := synchost .synchostSwap 8 (.atom 8) s
/-- SYNCHOST_READ (R456). -/
def execSynchostRead (s : State) : Host.Outcome State Fault Refusal := synchost .synchostRead 16 .read s
/-- SYNCHOST_REFUSED (R456): an unknown code, another bit of the operation set, or a pointer that fails R309. -/
def execSynchostRefused (s : State) : Host.Outcome State Fault Refusal :=
  window .synchostRefused (wSYNCHOST + 16) State.synchostBusy (fun s => s.mwErr (wSYNCHOST + 16) 2) s

/-! ### Links (R441, R443, R446, R450) -/

/-- The waits that leave an engine of other packages, as the requests that made them. -/
def waitsGone (gone : Nat → Waiter → Bool) (D : Die) : List SyncReq :=
  D.objs.flatMap (fun o => (o.2.waiters.filter (gone o.1)).map (fun w =>
    { who := w.who, asid := o.1 / 2 ^ 64, ptr := BitVec.ofNat 64 o.1, op := SyncOp.wait w.cond, v := w.v }))
/-- Requests and waits of other packages' objects are lost. -/
def loseRemote (req : SyncReq → Bool) (gone : Nat → Waiter → Bool) (s : State) : State :=
  let D := s.die 2
  let lost := (D.queue ++ D.parked).filter req ++ waitsGone gone D
  let keep := fun (r : SyncReq) => !req r
  let s := s.setDie 2 ({ D with queue := D.queue.filter keep, parked := D.parked.filter keep }.cutWaiters gone)
  lost.foldl (fun s r => loseSync r s) s

/-- The commands with requests under way on a port (R446): context, handle and command. -/
def State.cmdsOn (s : State) (p : Nat) : List (Nat × Nat × Cmd) :=
  s.ctxs.flatMap (fun c => c.2.handles.flatMap (fun h => match h.2.cmds with
    | k :: _ => if !k.faulted && (match k.sent with | some (_, l) => l.any (·.2 == p) | none => false) then [(c.1, h.1, k)] else []
    | [] => []))
/-- The packets under way on a port: core, tag, packet and its physical address (R446). -/
def State.packetsOn (s : State) (p : Nat) : List (Nat × Nat × Packet × Nat) :=
  s.gals.flatMap (fun g => g.2.tags.flatMap (fun t =>
    match t.2.pkt with
    | some q =>
      (match t.2.state, q.sent with
       | 1, some (_, (b, o) :: l) => if ((b, o) :: l).any (·.2 == p) then [(g.1, t.1, q, b * 256 + q.addr.toNat % 256)] else []
       | _, _ => [])
    | none => []))
/-- The requests of a command on a port that goes down: a token's command faults; the block of another command that needs one
of them does. -/
def loseCmd (p x h : Nat) (k : Cmd) (s : State) : State :=
  if k.op = 0x0C then faultCmd x h k { cause := .dataLost } 0 s
  else setHead x h { k with sent := k.sent.map (fun e => (e.1, e.2.map (fun b => (b.1, if b.2 = p then portLost else b.2)))) } s

/-- The requests in flight on a port that goes down are lost, not sent again (R446), and the records of the waits that came
by it are free (R318). -/
def loseInFlight (p : Nat) (s : State) : State :=
  let cmds := s.cmdsOn p
  let pkts := s.packetsOn p
  let s := loseRemote (fun r => r.port == p) (fun _ w => w.port == p) s
  let s := cmds.foldl (fun s e => loseCmd p e.1 e.2.1 e.2.2 s) s
  let s := pkts.foldl (fun s e => losePkt e.1 e.2.1 e.2.2.1 e.2.2.2 s) s
  let theirs := fun (D : Die) => { D with parked := D.parked.filter (fun r => !(r.isWait && r.port == p)) }.cutWaiters (fun _ w => w.port == p)
  ((s.modDie 0 theirs).modDie 1 theirs).relend

/-- LINK_DOWN (R441, R446, R455): loss of the bridge is fatal, kind 4. -/
def execLinkDown (l : LinkId) (s : State) : Host.Outcome State Fault Refusal :=
  let s := linkEvent s
  .next (match l with
    | .ualink p =>
      let s := if s.down.has p then s else loseInFlight p s
      { s with down := NatSet.add p s.down }.relend
    | .bridgeLane _ => s
    | .bridge => fatal 4 0 0 0 { s with bridge := false }
    | .pool => { s with poolUp := false })
/-- LINK_UP (R446). -/
def execLinkUp (l : LinkId) (s : State) : Host.Outcome State Fault Refusal :=
  .next (match l with
    | .ualink p => { s with down := s.down.del p }
    | .bridgeLane _ => s
    | .bridge => { s with bridge := true }
    | .pool => { s with poolUp := true })

/-- LINK_LOSS_TIMEOUT (R446): with no port to package `unit` up, the sync operations and waits sent LINKTO ticks ago or
earlier are lost, and that package's own waits here free their records (R318). -/
def execLinkLossTimeout (s : State) : Host.Outcome State Fault Refusal :=
  let p := s.unit % 256
  if p = s.pkgnum ∨ s.peerUp p then .next s
  else
    let limit := (s.win.read wLINKTO).toNat
    let old := fun (q : W64) (t : Nat) => (fld q 32 8).toNat == p && decide (t + limit ≤ s.tick)
    let s := loseRemote (fun r => old r.ptr r.at_) (fun key w => old (BitVec.ofNat 64 key) w.at_) s
    let theirs := fun (_ : Nat) (w : Waiter) => (match w.who with | .peer q _ => q == p | _ => false) && decide (w.at_ + limit ≤ s.tick)
    .next ((s.modDie 0 (·.cutWaiters theirs)).modDie 1 (·.cutWaiters theirs)).relend

/-! ### Writes and requests from outside (R301, R445 to R447) -/

/-- Whether an EXPOSE entry accepts an access of a package to some bytes (R445). -/
def State.exposed (s : State) (pkg addr n : Nat) (write : Bool) : Bool :=
  (List.range 16).any (fun i =>
    let w := s.win.read (wEXPOSE + 16 * i)
    let base := (fld w 21 31).toNat * 2 ^ 21
    let size := (fld (s.win.read (wEXPOSE + 16 * i + 8)) 0 32).toNat * 2 ^ 21
    w.getLsbD 0 && (w.getLsbD 1 || (fld w 8 8).toNat == pkg) && (!write || w.getLsbD 2) && decide (base ≤ addr) &&
      decide (addr + n ≤ base + size))
/-- Whether a valid entry names a package. -/
def State.peerNamed (s : State) (pkg : Nat) : Bool :=
  (List.range 16).any (fun i =>
    let w := s.win.read (wEXPOSE + 16 * i)
    w.getLsbD 0 && (w.getLsbD 1 || (fld w 8 8).toNat == pkg))

/-- The sync operation of a peer's request (R316, R312 to R314): codes 0 to 8 are FN of R316, 9 compares with `cmp`, 10 to
12 release, 13 reads, and 16 to 23 wait on the condition code − 16. -/
def peerOp (op : Nat) (cmp : W64) : Option SyncOp :=
  if op ≤ 8 then some (.atom op) else if op = 9 then some (.cas cmp) else if op = 10 then some .relAdd
  else if op = 11 then some .relSet else if op = 12 then some .relX else if op = 13 then some .read
  else if 16 ≤ op ∧ op < 24 then some (.wait (op - 16)) else none

/-- A length and address that the links carry (R443): 32 to 256 bytes, naturally aligned. -/
def peerSized (a n : Nat) : Bool := (n == 32 || n == 64 || n == 128 || n == 256) && a % n == 0

/-- PEER_ACCESS (R443, R445 to R447): an accepted access is performed, one to HBM during a landing when it ends; a refused
one performs nothing here. Operation 24 withdraws the waits of a party on an object; `v` is its holder id, and a grant of .X
to it is undone (R318, R324). A token waits at its sender while its channel is full. -/
def execPeerAccess (r : PeerReq) (s : State) : Host.Outcome State Fault Refusal :=
  .next (match r with
    | .read _ _ _ => s
    | .write pkg a d =>
      if peerSized a d.length && s.exposed pkg a d.length true && decide (a + d.length ≤ hbmSize) then admitDram { pa := a, write := true, data := d.map some } s else s
    | .sync pkg party asid p op v cmp port =>
      if !(s.peerNamed pkg && (s.checkObj p).isNone && (fld p 32 8).toNat == s.pkgnum) then s
      else if op = 24 then
        let d := s.engineOf p
        (undoGrant d (objKey asid p) v (dropWaits (.peer pkg party) d s)).relend
      else
        (match peerOp op cmp with
         | some o => s.sendSync { who := .peer pkg party, asid := asid, ptr := p, op := o, v := v, port := port }
         | none => s)
    | .token t ch v =>
      let q := (s.tile t).chan ch
      if 16 ≤ ch ∨ 256 ≤ t ∨ 8 ≤ q.length then s else s.modTile t (fun T => { T with chans := mapPut ch (q ++ [v]) T.chans }))

/-- The key of the BAR2 aperture register, whose offset in the window the spec does not give (log entry 87). -/
def wAPERTURE : Nat := 0x4000000
/-- Whether the host sees n bytes of HBM at a physical address through BAR2 (R450): 64 GiB from the aperture. -/
def State.inAperture (s : State) (pa n : Nat) : Bool :=
  let base := (fld (s.win.read wAPERTURE) 12 40).toNat * 4096
  decide (base ≤ pa) && decide (pa + n ≤ base + 2 ^ 36) && decide (pa + n ≤ hbmSize)
/-- HOST_WINDOW_WRITE (R301, R450): a write to HBM through BAR2, in the order in which the port received it. -/
def execHostWindowWrite (pa : Nat) (d : List Byte) (s : State) : Host.Outcome State Fault Refusal :=
  if 2 ^ 52 < pa + d.length then .fault .noPhysicalAddress
  else .next (if d.isEmpty || !s.inAperture pa d.length then s else admitDram { pa := pa, write := true, data := d.map some } s)

/-! ### Gallery jobs (R350 to R352) -/

/-- Offset of GJOB. -/
def wGJOB (g : Nat) : Nat := 0x30000 + 64 * g
/-- Change the context of a gallery core. -/
def galCtx (g : Nat) : Nat := 512 + g

/-- The core's state at entry (R347, R351): nothing of an earlier job stays. -/
def clearGal (state : Nat) (compl : W64) (G : Gal) : Gal :=
  { tlb := G.tlb, walks := G.walks, cause := G.cause, pc := G.pc, freeze := G.freeze, state := state, compl := compl }

/-- A job enters: its descriptor passed its check. No landing keeps the header, since none kept the descriptor. -/
def enterJob (g asid gen entry : Nat) (code : W64) (args : List W64) (s : State) : State :=
  let x := galCtx g
  let (r, s) := s.readHeader x asid gen code (BitVec.ofNat 64 entry)
  let (prof, off, len, err) : Nat × Nat × Nat × Option TrapInfo := match r with
    | some (.ok (p, o, n)) => (p, o, n, if p = 0 then none else some { cause := .illegalBundle, whole := true })
    | some (.error t) => (0, 0, 0, some t)
    | none => (0, 0, 0, some { cause := .illegalBundle, whole := true })
  s.setCtx x
    { life := .live, pc := BitVec.ofNat 64 entry, a := RegFile.fill 1 args, crs := RegFile.writes [] [(1, BitVec.ofNat 64 prof)]
      entryErr := err, asid := asid, gen := gen, code := code, textOff := off, textLen := len, stall := s.tick + 1, born := s.tick }

/-- A well-formed pointer of space 0xC (R351, R352). -/
def syncPtrOk (p : W64) : Bool := ptrCode p == 12 && mbzOk p
/-- Start the job whose descriptor lies at `pa` (R351). -/
def startJob (g pa : Nat) (s : State) : State :=
  let f := fun (off n : Nat) => s.mem.readLE (pa + off) n
  let compl : W64 := BitVec.ofNat 64 (f 0x10 8)
  let code : W64 := BitVec.ofNat 64 (f 0 8)
  let bad := f 0x0F 1 != 0 || f 0x18 8 != 0 || f 0x98 40 != 0 || f 8 4 % 4 != 0 || decide (2 ^ 56 ≤ code.toNat) ||
    code.toNat % 64 != 0 || !syncPtrOk compl
  let s := s.modGal g (clearGal 1 compl)
  if s.lostPa pa 192 then s.setCtx (galCtx g) { life := .ended 0 (some .dataLost) 0, asid := f 0xC 2 }
  else if bad then s.setCtx (galCtx g) { life := .ended 0 (some .launchFormat) 0, asid := f 0xC 2 }
  else enterJob g (f 0xC 2) (f 0xE 1) (f 8 4) code ((List.range 15).map (fun i => BitVec.ofNat 64 (f (0x20 + 8 * i) 8))) s

/-- JOB_START (R350, R351): GJOB of core `unit` written with GO; the descriptor in HBM is read after a landing. -/
def execJobStart (v : W64) (s : State) : Host.Outcome State Fault Refusal :=
  let g := s.unit % 64
  if s.landing.isSome ∧ s.cur < hostTurn then .next (waitTurn (.jobStart v) s)
  else
    window (.jobStart v) (wGJOB g) notBusy (fun s =>
      if !v.getLsbD 0 then s
      else if (s.gal g).state ≠ 0 ∨ (s.ctx (galCtx g)).life ≠ .free ∨ s.frozen then s.mwErr (wGJOB g) 3
      else startJob g ((fld v 6 46).toNat * 64) s) s

/-- JOB_COMPLETE (R352): a job that has ended is ENDING, and completes when nothing of it is left. -/
def execJobComplete (s : State) : Host.Outcome State Fault Refusal :=
  let g := s.unit % 64
  let c := s.ctx (galCtx g)
  match c.life with
  | .ended st cause pc =>
    let s := s.modGal g (fun G =>
      let G := { G with state := 2 }
      match cause with | some k => { G with cause := k.code, pc := pc } | none => G)
    if s.galStopped g || (s.gal g).tags.any (fun t => t.2.state == 1) || c.ld != 0 || c.st != 0 || c.sync != 0 then .next s
    else
      let code := match cause with | some k => k.code | none => 0
      let v : W64 := BitVec.ofNat 64 (2 ^ 63 + (if cause.isSome then 2 ^ 62 else 0) + code * 2 ^ 54 + st % 512)
      let p := (s.gal g).compl
      let s := if !syncPtrOk p then s
        else s.sendSync { who := .engine, asid := c.asid, ptr := p, op := .signal, v := v }
      .next (((s.modGal g (fun G => { G with state := 0 })).setCtx (galCtx g) {}).raise 5)
  | _ => .next s

/-! ### PUBLISH (R452) -/

/-- PUBLISH (R452). -/
def opPublish (f : MR) (s : State) : Res :=
  if !s.cx.guard f.gp then .ok s
  else
    let p := s.cx.rm f.ma.toNat
    if ptrCode p ≠ 0 then trapM .spaceForeign p
    else if !mbzOk p then trapM .spaceRange p
    else if p.toNat % 8 ≠ 0 then trapM .misaligned p
    else
      let c := s.cx
      let r : OutReq := { ctx := s.cur, ptr := p, val := c.rm f.mb.toNat, ctime := c.ctime, pc := c.pc, step := c.task.sid, at_ := s.tick, iss := c.iss }
      .ok ({ s with pubs := s.pubs ++ [r] }.modCx (fun c => { c with str := c.str + 1 }))
/-- PUBLISH alone (R452). -/
def execPublish (f : MR) (s : State) : Host.Outcome State Fault Refusal := finishHold s (holdStr f.gp s) (opPublish f s)

/-- A PUBLISH that faults writes its record, and stays outstanding (R217, R452; log entry 49). -/
def failPublish (i : Nat) (r : OutReq) (f : Flt) (s : State) : State :=
  { s with pubs := s.pubs.set i { r with faulted := true } }.modCtx r.ctx (fun c =>
    c.record 19 (sfWords f 0x28 19 0 0 0 0 r.ctime r.pc))

/-- PUBLISH_COUNTER_WRITE (R300, R452): request `sub`, the first of its context that has not faulted, once no access before its
issue waits (R293). A host-window write has been performed in host memory when its block was, so an operation joined before is
covered. -/
def execPublishCounterWrite (s : State) : Host.Outcome State Fault Refusal :=
  match s.pubs[s.sub]? with
  | none => .next s
  | some r =>
    if r.faulted || !s.engineOn r.ctx || s.behind r.ctx r.iss || (s.pubs.take s.sub).any (fun e => e.ctx == r.ctx && !e.faulted) then .next s
    else
      let c := s.ctx r.ctx
      match s.xlate r.ctx c.asid c.gen false (fld r.ptr 0 56).toNat true with
      | (.wait, s) => .next s
      | (.fail sub, s) => .next (failPublish s.sub r { cause := .streamXlate, sub := sub, addr := r.ptr } s)
      | (.lost, s) => .next (failPublish s.sub r { cause := .dataLost, addr := r.ptr } s)
      | (.ok pa, s) =>
        if !inHost pa then .next (failPublish s.sub r { cause := .paramRange, addr := r.ptr } s)
        else
          let s := { s with pubs := s.pubs.eraseIdx s.sub }
          .next (endReq r 0x28 none (s.writePa pa ((natToBytes r.val.toNat 8).map some)))

/-! ### The mailbox (R460 to R462) -/

/-- Offset of the mailbox. -/
def wMBOX : Nat := 0x50000
/-- A measurement register. -/
def Trust.m (t : Trust) (r : Nat) : BitVec 256 := mapGet 0 t.mreg r
/-- Extend it: M := SHA-256(M ‖ d). -/
def Trust.extend (t : Trust) (r : Nat) (d : BitVec 256) : Trust :=
  { t with mreg := mapPut r (sha256 (digestBytes (t.m r) ++ digestBytes d)) t.mreg }
/-- MAILBOX_EXTEND (R461): MREG3 to MREG7. -/
def execMailboxExtend (r : Nat) (d : BitVec 256) (s : State) : Host.Outcome State Fault Refusal :=
  window (.mailboxExtend r d) wMBOX notBusy (fun s =>
    if r < 3 ∨ 7 < r then s.mwErr wMBOX 2 else { s with trust := s.trust.extend r d }) s
/-- What a quote signs: nonce, MREG0 to MREG7, PKGNUM and leaf index. -/
def State.quoted (s : State) (nonce : BitVec 256) : List Byte :=
  digestBytes nonce ++ (List.range 8).flatMap (fun r => digestBytes (s.trust.m r)) ++ beBytes 1 s.pkgnum ++ beBytes 4 (s.trust.leaf % 2 ^ 20)
/-- MAILBOX_QUOTE (R462): the signature by the next leaf of the boot's tree; refused after 1,024 quotes, or when the leaf counter
did not advance. -/
def execMailboxQuote (nonce : BitVec 256) (s : State) : Host.Outcome State Fault Refusal :=
  window (.mailboxQuote nonce) wMBOX notBusy (fun s =>
    if !s.trust.signer || decide (1024 ≤ s.trust.quotes) then s.mwErr wMBOX 3
    else { s with trust := { s.trust with quotes := s.trust.quotes + 1, out := hssSign (s.trust.leaf % 2 ^ 20) s.trust.quotes (digestBytes (sha256 (s.quoted nonce))) } }) s
/-- MAILBOX_COMMIT (R460): the fused minimum rises to the running security version. -/
def execMailboxCommit (s : State) : Host.Outcome State Fault Refusal :=
  window .mailboxCommit wMBOX notBusy (fun s => { s with trust := { s.trust with minSvn := max s.trust.minSvn s.trust.svn } }) s
/-- MAILBOX_EXPORT_KEY (R462). -/
def execMailboxExportKey (s : State) : Host.Outcome State Fault Refusal :=
  window .mailboxExportKey wMBOX notBusy (fun s => { s with trust := { s.trust with out := identityKey } }) s

/-! ### Reset and bring-up (R457, R458, R460 to R462) -/

/-- What fuses and the board keep over any reset. -/
def Trust.fuses (t : Trust) : Trust := { revoked := t.revoked, minSvn := t.minSvn, leaf := t.leaf }
/-- COLD_RESET (R457): every state but the fuses; memory outside the part is not the package's. -/
def execColdReset (s : State) : Host.Outcome State Fault Refusal :=
  .next { State.reset with trust := s.trust.fuses, mem := s.mem.filter (fun c => !inHbm c.1), free := s.free }
/-- What a warm reset leaves (R457): HBM stays, with the save slots and images that lie in it. -/
def warmReset (s : State) : State :=
  { State.reset with
    trust := s.trust.fuses, mem := s.mem, badPa := s.badPa, free := s.free, warm := true
    ctxs := s.ctxs.filter (fun c => decide (2 ^ 32 ≤ c.1)), slotKeep := s.slotKeep, pkg := s.pkg
    launchNo := s.launchNo, stepNo := s.stepNo }
/-- WARM_RESET (R457). -/
def execWarmReset (s : State) : Host.Outcome State Fault Refusal :=
  .next (warmReset s)
/-- Set PHASE. -/
def State.setPhase (s : State) (p : Nat) : State :=
  { s with win := s.win.write wMWSTAT ((s.win.read wMWSTAT &&& 0x1FFFFFFFFFFFFFFF) ||| BitVec.ofNat 64 (p * 2 ^ 61)) }
/-- The digest of an image: of its header and body, as long as its length says (R460). -/
def imageDigest (img : FwImage) : BitVec 256 := sha256 ((img.header ++ img.body).take img.len)
/-- Whether the ROM accepts an image (R460). -/
def State.authentic (s : State) (img : FwImage) : Bool :=
  (List.range 4).any (fun i => !s.trust.revoked.elem i && Config.fuseKey i == sha256 img.key) &&
  lmsVerify 20 img.key (digestBytes (imageDigest img)) img.sig && decide (s.trust.minSvn ≤ img.svn) && decide (img.svn ≤ 64)
/-- BRINGUP (R458, R460 to R462): PHASE advances by one, or to FAILED; in READY the firmware loads further code objects, each
measured in MREG2 (log entry 60). -/
def execBringup (img : FwImage) (s : State) : Host.Outcome State Fault Refusal :=
  .next (match (fld (s.win.read wMWSTAT) 61 3).toNat with
    | 0 =>
      let T := s.trust
      if !img.romRuns then s.setPhase 7
      else { s.setPhase 1 with trust := { T with leaf := if img.leafAdvanced then T.leaf + 1 else T.leaf, signer := img.leafAdvanced } }
    | 1 =>
      if s.authentic img then { s.setPhase 2 with trust := { s.trust.extend 0 (imageDigest img) with svn := img.svn } }
      else (s.mwErr 0 6).setPhase 7
    | 2 =>
      if !img.trained then s.setPhase 7
      else { s.setPhase 3 with trust := img.codes.foldl (fun T d => T.extend 2 d) (s.trust.extend 1 img.config) }
    | 3 => { s with trust := img.codes.foldl (fun T d => T.extend 2 d) s.trust }
    | _ => s)

/-! ### Resume from a package image (R459) -/

/-- The owner, allocations and lanes of a tile come back. -/
def resumeTile (k T : Tile) : Tile :=
  let crs := T.crs.write 0x36 (k.crs.read 0x36)
  { T with crs := crs, allocs := k.allocs ++ T.allocs, disp := k.disp ++ T.disp, child := k.child ++ T.child }

/-- The owner and allocations of cluster j come back, with the bytes of the allocations. -/
def State.resumeCluster (s : State) (j : Nat) (k K : Cluster) : Cluster :=
  let crs := K.crs.write 0x37 (k.crs.read 0x37)
  let img := s.pkgImg + 0x10100000 + j * 0x800000
  let mem := k.allocs.foldl (fun m a => Mem.writeCells m 0 (s.cut (img + a.base) a.size a.base)) K.pad.mem
  let dirty := mem.foldl (fun d c => NatSet.add (c.1 / 1024) d) K.pad.dirty
  let pad := { K.pad with mem := mem, dirty := dirty, full := k.pad.full }
  { K with crs := crs, allocs := k.allocs ++ K.allocs, pad := pad }

/-- A queue comes back HALTED with RDIDX as saved (R459). -/
def resumeQueue (q rd : Nat) (s : State) : State := (s.qSetState q 2).qSet q 0x10 rd
/-- The records of one map over those of another. -/
def overlay {α : Type} (new old : Map α) : Map α := new.foldl (fun m e => mapPut e.1 e.2 m) old

/-- Doubleword k of entry i of the resume area at PKGIMG (R434). -/
def State.imageEntry (s : State) (i k : Nat) : W64 := BitVec.ofNat 64 (s.mem.readLE (s.pkgImg + 0x21900000 + 32 * i + 8 * k) 8)
/-- The slots whose entries are valid there. -/
def State.imageSlots (s : State) : List Nat :=
  (s.cut (s.pkgImg + 0x21900000) 0x200000 0).filterMap (fun c => if c.1 % 32 = 15 ∧ 128 ≤ c.2.toNat then some (c.1 / 32) else none)
/-- The resume entry of a slot comes back from the image, of a step that the slot holds; its age and lane come from the record
of its tile. -/
def resumeEntry (old : Map Tile) (i : Nat) (s : State) : State :=
  let w := s.imageEntry i 1
  let t := (fld w 48 8).toNat
  let slotOf := fun (j : Nat) => (s.imageEntry j 2).toNat % 65536
  let mate := if slotOf i ≠ 0xFFFF then some (slotOf i) else s.imageSlots.find? (fun j => slotOf j == i)
  if (s.ctx (savedNo i)).life = .free then s
  else
    let (n, s) := s.fresh
    let r := (((mapGet {} old t : Tile).resume).find? (fun r => r.slot == i)).getD { slot := i, seq := n }
    let s := s.modCtx (savedNo i) (fun c =>
      { c.setCr 0x11 (s.imageEntry i 0) with jcnt := w.toNat % 2 ^ 16, loans := [(2 ^ 41, (fld w 40 3).toNat)] })
    { s.modTile t (fun T => { T with resume := T.resume ++ [{ r with mate := mate }] }) with slots := NatSet.add i s.slots }

/-- The record of the image at PKGIMG, known by its bytes. -/
def State.imageKeep (s : State) : Option PkgKeep := (s.pkg.find? (fun p => p.2.img == s.cut s.pkgImg 0x21900000 0)).map (·.2)
/-- Whether PKGNUM and the security version of an image pass (R459); those of an image with no record are free values. -/
def State.imagePasses (s : State) : Bool :=
  match s.imageKeep with
  | some p => p.pkgnum == s.pkgnum && decide (p.svn ≤ s.trust.svn)
  | none => Config.imagePasses s.free
/-- The owners, allocations, lanes and queues of a record come back. -/
def resumeKeep (p : PkgKeep) (s : State) : State :=
  let s := p.tiles.foldl (fun s t => s.modTile t.1 (resumeTile t.2)) s
  let s := p.clusters.foldl (fun s k => s.modCluster k.1 (s.resumeCluster k.1 k.2)) s
  let s := p.rds.foldl (fun s e => resumeQueue e.1 e.2 s) s
  { s with launches := overlay p.launches s.launches, queues := overlay p.queues s.queues, passG := p.passG
           launchNo := max s.launchNo p.launchNo, stepNo := max s.stepNo p.stepNo }

/-- PACKAGE_RESUME (R459): of the image at PKGIMG, after a warm reset; it waits for a landing to end (R408). Resume entries come
from the image; what its open parts hold is kept in a record (log entry 51). -/
def execPackageResume (s : State) : Host.Outcome State Fault Refusal :=
  if s.landing.isSome ∧ s.cur < hostTurn then .next (waitTurn .packageResume s)
  else
    window .packageResume wRESUME notBusy (fun s =>
      if !s.warm ∨ s.mem.readLE s.pkgImg 4 ≠ 0x4556535A ∨ !s.imagePasses then { s.mwErr wRESUME 3 with free := s.free + 1 }
      else
        let keep := s.imageKeep
        let slots := s.imageSlots
        let s := { s with free := s.free + 1 }
        let s := match keep with | some p => resumeKeep p s | none => s
        slots.foldl (fun s i => resumeEntry (match keep with | some p => p.tiles | none => []) i s) s) s

/-! ### Debug (R384, R400, R453) -/

/-- Offset of the context record of context x. -/
def wCTX (x : Nat) : Nat := 0x1000000 + 0x10000 * x

/-- DEBUG_RESUME (R384): the debugger resumes context `cur` at the following bundle. -/
def execDebugResume (s : State) : Host.Outcome State Fault Refusal :=
  window .debugResume (wCTX (s.cur % 512)) notBusy (fun s =>
    if s.cx.halted then s.modCx (fun c => { c with halted := false, stall := max c.stall (s.tick + 1) })
    else s.mwErr (wCTX (s.cur % 512)) 3) s

/-- Replace doubleword `i` of a value. -/
def putDword (i : Nat) (v : W64) (x : W512) : W512 :=
  blend ((BitVec.allOnes 64).setWidth 512 <<< (64 * i)) x (v.setWidth 512 <<< (64 * i))
/-- A doubleword of a sticky record as `StickyRec.dwords` lays it out: word, extension, address; none where the word is no
operation of the slot, or the doubleword holds nothing. -/
def StickyRec.put (r : StickyRec) (sl : Slot) (field : Nat) (v : W64) : Option StickyRec :=
  let old := encode r.op
  let word : W64 := match old with | some e => e.2.1 | none => 0
  let ext := match old with | some e => e.2.2 | none => none
  let go := fun (w : W64) (e : Option W32) => match decodeSlot sl w e with
    | .ok i => some { r with op := i }
    | .error _ => none
  match field with
  | 0 => go v ext
  | 1 => go word (if v.getLsbD 32 then some (fld v 0 32) else none)
  | 2 => some { r with addr := v }
  | _ => none
/-- The doubleword at `off` of sticky records and issue index (`recordBytes`). -/
def putRecord (off : Nat) (v : W64) (l : StickyRec × StickyRec × StickyRec × Nat) : Option (StickyRec × StickyRec × StickyRec × Nat) :=
  let (ra, rv, rm, k) := l
  let f := off % 32 / 8
  match off / 32 with
  | 0 => (ra.put .a f v).map (fun r => (r, rv, rm, k))
  | 1 => (rv.put .v f v).map (fun r => (ra, r, rm, k))
  | 2 => (rm.put .m f v).map (fun r => (ra, rv, r, k))
  | _ => if off = 0x60 then some (ra, rv, rm, v.toNat % 64) else none
/-- The doubleword at `off` of snapshot registers (`snapshotBytes`): a value's. -/
def putSnapshot (off : Nat) (v : W64) (l : List Pend) : Option (List Pend) :=
  match l[off / 128]? with
  | some e => if off % 128 < 64 then some (l.set (off / 128) { e with val := putDword (off % 128 / 8) v e.val }) else none
  | none => none
/-- The doubleword at `off` of the binding table (`bindBytes`). -/
def putBinding (off : Nat) (v : W64) (l : List Binding) : Option (List Binding) :=
  match l[off / 32]? with
  | none => none
  | some b =>
    some (l.set (off / 32) (match off % 32 / 8 with
      | 0 => { b with obj := v }
      | 1 => { b with base := v }
      | 2 => { b with len := v }
      | _ => { b with scope := v.toNat % 8 }))
/-- The doubleword at `off` of the shadow set (`shadowBytes`). -/
def Shadow.put (h : Shadow) (off : Nat) (v : W64) : Option Shadow :=
  if off < 0x68 then
    (putRecord off v (h.recA, h.recV, h.recM, h.k)).map (fun l => { h with recA := l.1, recV := l.2.1, recM := l.2.2.1, k := l.2.2.2 })
  else if off = 0x68 then some { h with pc := v }
  else if off = 0x70 then some { h with ctime := v.toNat }
  else if 0x100 ≤ off then (putSnapshot (off - 0x100) v h.pend).map (fun l => { h with pend := l })
  else none
/-- A doubleword of the parts of a context record whose layout is the model's (log entry 85). -/
def Ctx.putOpen (c : Ctx) (off : Nat) (v : W64) : Option Ctx :=
  if off < 0x8D00 then
    (putRecord (off - 0x8C00) v (c.recA, c.recV, c.recM, c.k)).map (fun l => { c with recA := l.1, recV := l.2.1, recM := l.2.2.1, k := l.2.2.2 })
  else if off < 0x9900 then (putSnapshot (off - 0x8D00) v c.pend).map (fun l => { c with pend := l })
  else if off < 0xB000 then
    match c.shadow with
    | some h => (h.put (off - 0xA000) v).map (fun h => { c with shadow := some h })
    | none => none
  else (putBinding (off - 0xB000) v c.binds).map (fun l => { c with binds := l })

/-- The debugger writes a doubleword of the record of the halted current context: a write-one-to-clear field clears, and a part
that holds nothing takes nothing (log entry 85). -/
def debugWrite (off : Nat) (v : W64) (s : State) : State :=
  let set := fun (f : Ctx → Ctx) => s.modCx f
  let all512 : W512 := BitVec.allOnes 512
  if off < 0x8000 then
    let n := off / 64
    let sh := off % 64 * 8
    let m : W512 := (BitVec.allOnes 64).setWidth 512 <<< sh
    set (fun c => c.writeDst (.v n) m (v.setWidth 512 <<< sh))
  else if off < 0x8200 then
    let n := (off - 0x8000) / 8
    set (fun c => c.writeDst (.a n) all512 (v.setWidth 512))
  else if off < 0x8300 then
    let n := (off - 0x8200) / 8
    set (fun c => c.writeDst (.m n) all512 (v.setWidth 512))
  else if off = 0x8300 then
    set (fun c => (List.range 16).foldl (fun c i => c.writeDst (.p i) all512 (if v.getLsbD i then 1 else 0)) c)
  else if off = 0x8308 ∨ off = 0x8310 then
    let i := (off - 0x8308) / 4
    set (fun c => (c.writeDst (.lc i) all512 ((v.setWidth 32).setWidth 512)).writeDst (.lc (i + 1)) all512 ((fld v 32 32).setWidth 512))
  else if 0x8320 ≤ off ∧ off < 0x83A0 then
    set (fun c => c.writeDst (.vm ((off - 0x8320) / 8)) all512 (v.setWidth 512))
  else if 0x8400 ≤ off ∧ off < 0x8C00 then
    match crInfo ((off - 0x8400) / 8) with
    | some i =>
      if i.rw = 0 ∧ i.w1c = 0 then s.mwErr (wCTX s.cur + off) 5
      else applyCr { num := (off - 0x8400) / 8, mask := i.rw ||| (v &&& i.w1c), val := v &&& i.rw } s
    | none => s.mwErr (wCTX s.cur + off) 5
  else if (0x8C00 ≤ off ∧ off < 0x9900) ∨ (0xA000 ≤ off ∧ off < 0xB200) then
    match s.cx.putOpen off v with
    | some c => s.setCx c
    | none => s
  else s.mwErr (wCTX s.cur + off) 5

/-! ### Plain registers of the window (R453) -/

/-- The writable and write-one-to-clear bits of a plain register. -/
def regBits (off : Nat) : Option (W64 × W64) :=
  let f := fun (hi lo : Nat) => BitVec.ofNat 64 (2 ^ (hi + 1) - 2 ^ lo)
  if off = wMWSTAT then some (0, 1)
  else if off = wINTSTAT then some (0, 0x7F)
  else if off = wINTMASK then some (0x7F, 0)
  else if off = wPKGNUM then some (0xFF, 0)
  else if off = wQTBASE ∨ off = wASTBASE then some (f 51 12, 0)
  else if wQHALTMAP ≤ off ∧ off < wQHALTMAP + 128 then some (0, all64)
  else if off = wTLBINVVA then some (f 55 16, 0)
  else if off = wSYNCOVF ∨ off = wSYNCOVF + 8 then some (f 51 0, 0)
  else if off = wSYNCHOST then some (0xFFFF, 0)
  else if off = wSYNCHOST + 8 ∨ off = wSYNCHOST + 24 then some (all64, 0)
  else if off = wDUMPBASE then some (f 51 21 + 1, 0)
  else if off = wSAVEPOOL then some (f 51 0, 0)
  else if off = wPKGIMG then some (f 51 21, 0)
  else if off = wPWRBUD ∨ off = wLINKTO then some (all64, 0)
  else if off = wRETRAIN then some (0xFFFF, 0xFF0000)
  else if wUAROUTE ≤ off ∧ off < wUAROUTE + 0x800 then some (0xFFF, 0)
  else if wMBOX ≤ off ∧ off < wMBOX + 0x1000 then some (all64, 0)
  else if wEXPOSE ≤ off ∧ off < wEXPOSE + 0x100 then some (if off % 16 = 0 then (f 51 21 + 0xFF07, 0) else (0xFFFFFFFF, 0))
  else if 0x10000 ≤ off ∧ off < 0x20000 then
    let o := off % 256
    if 0x18 ≤ o ∧ o < 0x58 then some (0x1FF, 0) else if o = 0x58 then some (3, 0) else none
  else none

/-- A write of a plain register: its writable fields take the value, its write-one-to-clear fields clear. One of INTMASK
raises the vectors of the bits of INTSTAT that it unmasks (R455; log entry 82). Reserved bits are dropped, with no ECODE (R5,
R453; log entry 94, DESIGN CHOICE). -/
def writeReg (off : Nat) (v rw w1c : W64) (s : State) : State :=
  let old := s.win.read off
  let s := { s with win := s.win.write off ((old &&& ~~~rw &&& ~~~(v &&& w1c)) ||| (v &&& rw)) }
  if off = wINTMASK then s.vectors (s.win.read wINTSTAT &&& old &&& ~~~v) else s

/-- The read-only fields of registers that have other fields too (R171, R277, R434, R454). -/
def roBits (off : Nat) : W64 :=
  if off = wMWSTAT then 0xE000FFFFFFFFFF00
  else if off = wTLBINV ∨ off = wQCMD then 0x8000000000000000
  else if off = wPCTL then 0xC000000000000000
  else 0
/-- A write that would change a read-only field is refused in that field (R453): it has a bit there that the register does
not hold (log entry 88, DEDUCED). -/
def refuseRo (off : Nat) (v : W64) (s : State) : State :=
  if v &&& roBits off &&& ~~~s.win.read off != 0 then s.mwErr off 5 else s

/-- Whether a sync engine holds an entry in its overflow area, or a BASE lies outside its HBM (R307). -/
def State.ovfRefused (s : State) (d : Nat) (v : W64) : Bool :=
  let base := (fld v 16 36).toNat * 65536
  !(s.die d).ovfl.isEmpty || base / 2 ^ 38 != d

/-- A write of the window at an offset (R453). -/
def windowWrite (off : Nat) (v : W64) (s : State) : State :=
  if off % 8 ≠ 0 then s.mwErr off 5
  else if off = wSYNCOVF ∨ off = wSYNCOVF + 8 then
    let d := (off - wSYNCOVF) / 8
    if s.ovfRefused d v then s.mwErr off 3 else writeReg off v 0xFFFFFFFFFFFFF 0 s
  else if 0x10000 ≤ off ∧ off < 0x20000 ∧ off % 256 = 8 then
    let n := (fld v 0 16).toNat
    if 1 ≤ n ∧ n ≤ 31 then s.mwErr off 2 else s.modTile ((off - 0x10000) / 256) (fun T => { T with crs := T.crs.write 0x45 (BitVec.ofNat 64 n) })
  else if 0x10000 ≤ off ∧ off < 0x20000 ∧ off % 256 = 0x10 then
    s.modTile ((off - 0x10000) / 256) (fun T => { T with crs := T.crs.write 0xC1 (v &&& 0x1FFFFFFFF) })
  else if 0x1000000 ≤ off ∧ off < 0x3000000 then
    let x := (off - 0x1000000) / 0x10000
    if (s.ctx x).halted then
      let s' := debugWrite (off % 0x10000) v { s with cur := x }
      { s' with cur := s.cur }
    else s.mwErr off 3
  else
    match regBits off with
    | some (rw, w1c) => refuseRo off v (writeReg off v rw w1c s)
    | none => if off = Config.apertureOffset then writeReg wAPERTURE v 0xFFFFFFFFFF000 0 s else s.mwErr off 5

/-- The operation that a write at an offset with a row of its own is, with the unit it names: TLBINV, QCMD, PCTL, SYNCHOST,
RESUME, OWNSET and GJOB. -/
def ownRow (off : Nat) (v : W64) : Option (Instr × Nat × Nat) :=
  let g := fun (l n : Nat) => (fld v l n).toNat
  if off = wTLBINV then
    some (match g 60 2 with
      | 0 => (.tlbinvAll, 0, 0) | 1 => (.tlbinvAsid (g 44 16), 0, 0) | 2 => (.tlbinvRange (g 44 16) (g 24 20), 0, 0)
      | _ => (.tlbinvKind3, 0, 0))
  else if off = wQCMD then
    some (match g 0 4 with
      | 1 => (.qcmdEnable, g 32 10, 0) | 2 => (.qcmdHalt, g 32 10, 0) | 3 => (.qcmdResume, g 32 10, 0)
      | 4 => (.qcmdDestroy, g 32 10, 0) | 5 => (.qcmdDoorbell, g 32 10, 0) | n => (.qcmdInvalidCommand n, g 32 10, 0))
  else if off = wPCTL then
    some (match g 56 3 with
      | 1 => (.pctlContext, 0, 2 * g 0 8 + g 8 1) | 2 => (.pctlQueue, g 16 10, 0) | 3 => (.pctlPackageSave, 0, 0)
      | n => (.pctlInvalidCommand n, 0, 0))
  else if off = wSYNCHOST + 16 then
    some (if v &&& 0x7FFFFFFFFFFFFFE0 != 0 then (.synchostRefused, 0, 0)
      else match g 0 5 with
      | 0 => (.synchostAdd, 0, 0) | 1 => (.synchostAnd, 0, 0) | 2 => (.synchostOr, 0, 0) | 3 => (.synchostXor, 0, 0)
      | 4 => (.synchostMinu, 0, 0) | 5 => (.synchostMaxu, 0, 0) | 6 => (.synchostMini, 0, 0) | 7 => (.synchostMaxi, 0, 0)
      | 8 => (.synchostSwap, 0, 0) | 16 => (.synchostRead, 0, 0) | _ => (.synchostRefused, 0, 0))
  else if off = wRESUME ∧ v.getLsbD 0 then some (.packageResume, 0, 0)
  else if 0x10000 ≤ off ∧ off < 0x20000 ∧ off % 256 = 0 then some (.ownset v, (off - 0x10000) / 256, 0)
  else if 0x30000 ≤ off ∧ off < 0x31000 ∧ off % 64 = 0 then some (.jobStart v, (off - 0x30000) / 64, 0)
  else none

/-- Perform such a write. -/
def runOwn (i : Instr) (s : State) : Host.Outcome State Fault Refusal :=
  match i with
  | .tlbinvAll => execTlbinvAll s
  | .tlbinvAsid a => execTlbinvAsid a s
  | .tlbinvRange a n => execTlbinvRange a n s
  | .tlbinvKind3 => execTlbinvKind3 s
  | .qcmdEnable => execQcmdEnable s
  | .qcmdHalt => execQcmdHalt s
  | .qcmdResume => execQcmdResume s
  | .qcmdDestroy => execQcmdDestroy s
  | .qcmdDoorbell => execQcmdDoorbell s
  | .qcmdInvalidCommand n => execQcmdInvalidCommand n s
  | .pctlContext => execPctlContext s
  | .pctlQueue => execPctlQueue s
  | .pctlPackageSave => execPctlPackageSave s
  | .pctlInvalidCommand n => execPctlInvalidCommand n s
  | .synchostAdd => execSynchostAdd s
  | .synchostAnd => execSynchostAnd s
  | .synchostOr => execSynchostOr s
  | .synchostXor => execSynchostXor s
  | .synchostMinu => execSynchostMinu s
  | .synchostMaxu => execSynchostMaxu s
  | .synchostMini => execSynchostMini s
  | .synchostMaxi => execSynchostMaxi s
  | .synchostSwap => execSynchostSwap s
  | .synchostRead => execSynchostRead s
  | .synchostRefused => execSynchostRefused s
  | .packageResume => execPackageResume s
  | .ownset v => execOwnset v s
  | .jobStart v => execJobStart v s
  | _ => .next s

/-- MGMT_REG_WRITE (R453): WRESET acts in every phase, in its order (R301); a write at an offset with a row of its own is that
operation, in its turn. -/
def execMgmtRegWrite (off : Nat) (v : W64) (s : State) : Host.Outcome State Fault Refusal :=
  if off = wWRESET then .next (inOrder (.mgmtRegWrite off v) (fun s => if v.getLsbD 0 then warmReset s else s) s)
  else
    match ownRow off v with
    | some (i, u, x) =>
      if s.hostBehind then .next (waitTurn (.mgmtRegWrite off v) s)
      else runOwn i (refuseRo off v { s with unit := u, cur := s.cur / hostTurn * hostTurn + x })
    | none => window (.mgmtRegWrite off v) off notBusy (fun s => if off = wRESUME then s else windowWrite off v s) s

end Sys2Proof.Machine
end

