-- ==== Sys2Proof/Machine/Events.lean ====
section
/-! DEFINITION. Events of a context beside its issues: arriving results (R16, R18, R101), full/empty time-outs (R321), the
end of a YIELD (R122), SFPEND (R390) and trap entry (R382). -/

namespace Sys2Proof.Machine

/-- What a bundle that does not issue leaves: its waits withdrawn, its power request given up (R324, R415), the reply of a
supervisor call discarded (R384), and its place among those who ask for an entry of a queue (R233). -/
def leaveHolds (n : Nat) (s : State) : State :=
  (dropPower n (abandon n s)).modCtx n (fun c => { c.unaskAll with hold := .none, pwr := .none })

/-- The current context takes a trap of the bundle at PC, its requests given up. -/
def takeTrapHeld (t : TrapInfo) (s : State) : State := takeTrap t (leaveHolds s.cur s)

/-- TRAP_ENTRY (R382, R383). -/
def execTrapEntry (t : TrapInfo) (s : State) : Host.Outcome State Fault Refusal :=
  .next (if s.cx.life = .live then takeTrapHeld t s else s)

/-- SFPEND_WRITE (R387, R390): a write of `v` to SFPEND of the current context. -/
def execSfpendWrite (v : W64) (s : State) : Host.Outcome State Fault Refusal :=
  .next (applyCr { num := 0x90, mask := v &&& 0x1FFFFF, val := 0 } s)

/-- YIELD_END (R122): the cycles of a YIELD, of lost cycles or of handler entry have passed. -/
def execYieldEnd (s : State) : Host.Outcome State Fault Refusal :=
  .next (if s.cx.stall ≠ 0 ∧ s.cx.stall ≤ s.tick then s.modCx (fun c => { c with stall := 0 }) else s)

/-! ### Results (R16, R18) -/

/-- A load of the current context that waits no more is performed (R101, R143, R397). -/
def performFe (e : Pend) (s : State) : Pend × State :=
  match e.fe with
  | none => (e, s)
  | some w =>
    if s.readWaits s.cur s.cx e.seq w then (e, s)
    else
      let r := s.readCells (tileOf s.cur) w
      ({ e with val := r.1.1, flags := if e.dst = .none then 0 else r.1.2.1, fe := none, ready := max e.ready s.tick,
                lost := r.1.2.2 }, r.2)

/-- Whether the data of a pending result is present at a tick (R16): a load's, or the answer of a returning atomic. -/
def Pend.present (e : Pend) (tick : Nat) : Bool :=
  !e.arrived && e.fe.isNone && decide (e.ready ≤ tick) && (e.load || e.tag == 1)

/-- An arrival: its class count falls (R110); the entry of a handler that waited for it begins 9 cycles later (R382);
an error after the end of the step is the step's fault (R379). -/
def countArrival (e : Pend) (tick : Nat) (c : Ctx) : Ctx :=
  let c := if e.load then { c with ld := c.ld - 1 } else { c with sync := c.sync - 1 }
  let c := if e.load && e.tag == 1 && c.inh then { c with stall := max c.stall (tick + 9) } else c
  match c.life, e.lost with
  | .ended st none pc, some _ => { c with life := .ended st (some .dataLost) pc }
  | _, _ => c

/-- Let the results of a list arrive in order. -/
def arriveAll (x : Nat) (s : State) : List Pend → List Pend × State
  | [] => ([], s)
  | e :: rest =>
    let p := performFe e s
    let e := p.1
    let now := e.present p.2.tick
    let s := if now then cancelFault x (p.2.modCtx x (countArrival e p.2.tick)) else p.2
    let r := arriveAll x s rest
    ((if now then { e with arrived := true } else e) :: r.1, r.2)

/-- The program's results that a handler set aside arrive. -/
def arriveShadow (s : State) : State :=
  match s.cx.shadow with
  | none => s
  | some h =>
    let r := arriveAll s.cur s h.pend
    r.2.modCtx s.cur (fun c => { c with shadow := some { h with pend := r.1 } })

/-- RESULT_ARRIVES (R18): every result of the current context whose data is present arrives, and the stores that waited
for loads are performed (R20), and the sync requests behind them sent (R293). -/
def execResultArrives (s : State) : Host.Outcome State Fault Refusal :=
  let s := arriveShadow s
  let r := arriveAll s.cur s s.cx.pend
  .next (flushSync (performStores (r.2.modCtx s.cur (fun c => { c with pend := r.1 }))))

/-! ### Full/empty time-outs (R321) -/

/-- Whether a waiting load has waited longer than a limit. -/
def Pend.timedOut (e : Pend) (limit : Nat) : Bool :=
  match e.fe with | some w => !e.arrived && w.need && decide (limit < w.tick) | none => false

/-- The loads of a list that time out are withdrawn, each leaving its class and its trap (R379); one after the end of its
step gives the step's fault. -/
def timeOut (tick : Nat) (gone : List Pend) (c : Ctx) : Ctx :=
  gone.foldl (fun c e =>
    let c := { c with ld := c.ld - 1 }
    let c := if e.tag == 1 && c.inh then { c with stall := max c.stall (tick + 9) } else c
    match c.life with
    | .ended st cause pc => { c with life := .ended st (match cause with | some k => some k | none => some .feTimeout) pc }
    | _ =>
      { c with deferred := c.deferred ++ [{ cause := .feTimeout, whole := true, defer := true,
                                            addr := match e.fe with | some w => w.addr | none => 0 }] }) c

/-- FE_TIMEOUT (R321) of the current context: its waiting loads, and the hold of an `.EF` store at its bundle. The waits of
a context that is being saved are withdrawn (R422). -/
def execFeTimeout (s : State) : Host.Outcome State Fault Refusal :=
  let c := s.cx
  let limit := (fld (c.cr 0x50) 0 32).toNat
  if limit = 0 || (s.tile (tileOf s.cur)).saves.any (fun v => v.ctx == s.cur) then .next s
  else
    let out := fun (e : Pend) => e.timedOut limit
    let all := c.pend ++ (match c.shadow with | some h => h.pend | none => [])
    let s := cancelFault s.cur (s.modCx (fun c =>
      timeOut s.tick (all.filter out)
        { c with pend := c.pend.filter (fun e => !out e)
                 shadow := c.shadow.map (fun h => { h with pend := h.pend.filter (fun e => !out e) }) }))
    match s.cx.feh.find? (fun h => decide (limit < h.tick)) with
    | some h => .next (if s.cx.life = .live then takeTrapHeld { cause := .feTimeout, slot := h.slot, addr := h.addr } s else s)
    | none => .next s

end Sys2Proof.Machine
end

