-- ==== Sys2Proof/Machine/Issue.lean ====
section
/-! DEFINITION. The issue of a bundle (R12 to R22, R44 to R52, R116, R121, R378, R379, R391, R418): what each slot
operation does, holds for, reads and weighs, and the issue put together from them. -/

namespace Sys2Proof.Machine

/-! ### Tables by operation -/

/-- The address a steppable operation computes at its first issue (R44, R45). -/
def baseOf (i : Instr) (c : Ctx) : W64 :=
  match i with
  | .ld f => amAddr f.ra f.ext c
  | .lds f => amAddr f.ra f.ext c
  | .st f => amAddr f.ra f.ext c
  | .vld f => vlAddr f c
  | .vst f => vlAddr f c
  | .vldx f => vlAddr f c
  | .vstx f => vlAddr f c
  | .vldb f => vlAddr f c
  | .saff f => msAddr f c
  | .saffw f => msAddr f c
  | .sind f => msAddr f c
  | .sindw f => msAddr f c
  | .srec f => msAddr f c
  | .swin f => msAddr f c
  | .smcast f => msAddr f c
  | .temit f => msAddr f c
  | .tcons f => msAddr f c
  | .scopy f => msAddr f c
  | .sfill f => msAddr f c
  | .scancel f => msAddr f c
  | .mnfeed f => msAddr f c
  | .mndrain f => msAddr f c
  | .nsdot f => msAddr f c
  | .spref f => msAddr f c
  | .grecv f => msAddr f c
  | .sdual f => msAddr f c
  | _ => 0

/-- What a re-issue adds to the steppable address: STEP times the unit (R45). -/
def strideOf (i : Instr) : W64 :=
  match i with
  | .ld f => f.step.signExtend 64 * BitVec.ofNat 64 (szBytes f.sz)
  | .lds f => f.step.signExtend 64 * BitVec.ofNat 64 (szBytes f.sz)
  | .st f => f.step.signExtend 64 * BitVec.ofNat 64 (szBytes f.sz)
  | .vld f => f.step.signExtend 64 * 64
  | .vst f => f.step.signExtend 64 * 64
  | .vldx f => f.step.signExtend 64 * 64
  | .vstx f => f.step.signExtend 64 * 64
  | .vldb f => f.step.signExtend 64 * 64
  | .saff f => f.step.signExtend 64 * 64
  | .saffw f => f.step.signExtend 64 * 64
  | .sind f => f.step.signExtend 64 * 64
  | .sindw f => f.step.signExtend 64 * 64
  | .srec f => f.step.signExtend 64 * 64
  | .swin f => f.step.signExtend 64 * 64
  | .smcast f => f.step.signExtend 64 * 64
  | .temit f => f.step.signExtend 64 * 64
  | .tcons f => f.step.signExtend 64 * 64
  | .scopy f => f.step.signExtend 64 * 64
  | .sfill f => f.step.signExtend 64 * 64
  | .scancel f => f.step.signExtend 64 * 64
  | .mnfeed f => f.step.signExtend 64 * 64
  | .mndrain f => f.step.signExtend 64 * 64
  | .nsdot f => f.step.signExtend 64 * 64
  | .spref f => f.step.signExtend 64 * 64
  | .grecv f => f.step.signExtend 64 * 64
  | .sdual f => f.step.signExtend 64 * 64
  | _ => 0

/-- The once-only operations (R46). -/
def onceOnlyOp (i : Instr) : Bool :=
  match i with
  | .wrcr _ => true
  | .setcr _ => true
  | .clrcr _ => true
  | .vlscale _ => true
  | .scancel _ => true
  | .swload _ => true
  | .swact _ => true
  | .cfgload _ => true
  | .cfgact _ => true
  | .cfgpref _ => true
  | .aflush _ => true
  | .adepth _ => true
  | .mnopen _ => true
  | .mnflush _ => true
  | .mnclose _ => true
  | .mncloseA _ => true
  | .launch _ => true
  | .spawn _ => true
  | .jinit _ => true
  | .pgreq _ => true
  | .pgreqRel _ => true
  | .lapin _ => true
  | .lapinRel _ => true
  | .publish _ => true
  | _ => false

/-- The weight of an operation (R418). -/
def weightOf (i : Instr) : Nat :=
  match i with
  | .anop => 0
  | .vnop => 0
  | .mnop => 0
  | .bnop => 0
  | .mul _ => 2
  | .mulh _ => 2
  | .mulhu _ => 2
  | .mulhsu _ => 2
  | .madd _ => 2
  | .muli _ => 2
  | .ld _ => 2
  | .lds _ => 2
  | .st _ => 2
  | .ldx _ => 2
  | .ldxs _ => 2
  | .stx _ => 2
  | .vld _ => 5
  | .vst _ => 5
  | .vldx _ => 5
  | .vstx _ => 5
  | .vldb _ => 5
  | .vmul _ => 6
  | .vfma _ => 6
  | .vfms _ => 6
  | .vfnma _ => 6
  | .vmaddi _ => 6
  | .vrcp _ => 6
  | .vrsq _ => 6
  | .vrsum _ => 6
  | .vrmax _ => 6
  | .vrmin _ => 6
  | .vrdot _ => 6
  | .vlacc _ => 6
  | .vamax _ => 6
  | .mset _ => 1
  | .msetHi _ => 1
  | .maddM _ => 1
  | .mmov _ => 1
  | .xferm _ => 1
  | _ =>
    match i.slot with
    | some .v => 4
    | some .m => 2
    | _ => 1

/-- A register of a file (R381). -/
def rA (n : BitVec 6) : Nat × Nat := (0, n.toNat)
def rV (n : BitVec 9) : Nat × Nat := (1, n.toNat)
def rM (n : BitVec 5) : Nat × Nat := (2, n.toNat)
def rP (n : BitVec 4) : Nat × Nat := (3, n.toNat)
def rW (n : BitVec 4) : Nat × Nat := (3, 128 + n.toNat)
def rC (n : BitVec 2) : Nat × Nat := (3, 256 + n.toNat)
/-- Sources under a guard: a failing one reads only its predicate (R38). -/
def under (c : Ctx) (gp : BitVec 4) (l : List (Nat × Nat)) : List (Nat × Nat) := rP gp :: (if c.guard gp then l else [])
/-- The same of a B operation. -/
def underB (c : Ctx) (gp : BitVec 4) (gn : BitVec 1) (l : List (Nat × Nat)) : List (Nat × Nat) :=
  rP gp :: (if c.guardB gp gn then l else [])
/-- VB, unless the extension replaces it (R37). -/
def orExt {α : Type} (e : Option W32) (l : List α) : List α := match e with | some _ => [] | none => l
/-- A run of V registers (R128). -/
def runV (n : BitVec 9) (k : Nat) : List (Nat × Nat) := (List.range k).map (fun i => (1, n.toNat + i))
/-- A run of parameter registers (R36). -/
def runM (n : BitVec 5) (k : Nat) : List (Nat × Nat) := (List.range k).map (fun i => (2, n.toNat + i))
/-- The source of XFERA (R103). -/
def xferaSrc (f : AT) : Nat × Nat :=
  match f.sf.toNat with
  | 0 => (1, f.src.toNat)
  | 1 => (2, f.src.toNat % 32)
  | _ => (3, f.src.toNat / 128 * 128 + (if f.src.toNat / 128 = 2 then f.src.toNat % 4 else f.src.toNat % 16))
/-- The value operand of a sync operation (R309). -/
def syncSrc (imm : BitVec 1) (vb : BitVec 4) : List (Nat × Nat) := if imm = 0 then [rW vb] else []

/-- The address register of a steppable operation, read at its first issue whatever its guard (R44, R45). -/
def addrRegs (i : Instr) : List (Nat × Nat) :=
  match i with
  | .ld f => [rA f.ra]
  | .lds f => [rA f.ra]
  | .st f => [rA f.ra]
  | .vld f => [rV f.va]
  | .vst f => [rV f.va]
  | .vldx f => [rV f.va]
  | .vstx f => [rV f.va]
  | .vldb f => [rV f.va]
  | .saff f => [rM f.mb]
  | .saffw f => [rM f.mb]
  | .sind f => [rM f.mb]
  | .sindw f => [rM f.mb]
  | .swin f => [rM f.mb]
  | .smcast f => [rM f.mb]
  | .scopy f => [rM f.mb]
  | .sfill f => [rM f.mb]
  | .mnfeed f => [rM f.mb]
  | .mndrain f => [rM f.mb]
  | .nsdot f => [rM f.mb]
  | .spref f => [rM f.mb]
  | .grecv f => [rM f.mb]
  | .sdual f => [rM f.mb]
  | _ => []

/-- The registers an operation reads (R13); `first` says it issues as present, which reads its address registers (R45). -/
def readsOf (i : Instr) (first : Bool) (c : Ctx) : List (Nat × Nat) :=
  match i with
  | .add f => under c f.gp [rA f.ra, rA f.rb]
  | .sub f => under c f.gp [rA f.ra, rA f.rb]
  | .and f => under c f.gp [rA f.ra, rA f.rb]
  | .or f => under c f.gp [rA f.ra, rA f.rb]
  | .xor f => under c f.gp [rA f.ra, rA f.rb]
  | .andn f => under c f.gp [rA f.ra, rA f.rb]
  | .shl f => under c f.gp [rA f.ra, rA f.rb]
  | .shr f => under c f.gp [rA f.ra, rA f.rb]
  | .sra f => under c f.gp [rA f.ra, rA f.rb]
  | .min f => under c f.gp [rA f.ra, rA f.rb]
  | .minu f => under c f.gp [rA f.ra, rA f.rb]
  | .max f => under c f.gp [rA f.ra, rA f.rb]
  | .maxu f => under c f.gp [rA f.ra, rA f.rb]
  | .abs f => under c f.gp [rA f.ra]
  | .clz f => under c f.gp [rA f.ra]
  | .popc f => under c f.gp [rA f.ra]
  | .cmp f => under c f.gp [rA f.ra, rA f.rb]
  | .addi f => under c f.gp [rA f.ra]
  | .andi f => under c f.gp [rA f.ra]
  | .ori f => under c f.gp [rA f.ra]
  | .xori f => under c f.gp [rA f.ra]
  | .shli f => under c f.gp [rA f.ra]
  | .shri f => under c f.gp [rA f.ra]
  | .srai f => under c f.gp [rA f.ra]
  | .movi f => [rP f.gp]
  | .movhi f => under c f.gp [rA f.ra]
  | .mul f => under c f.gp [rA f.ra, rA f.rb]
  | .mulh f => under c f.gp [rA f.ra, rA f.rb]
  | .mulhu f => under c f.gp [rA f.ra, rA f.rb]
  | .mulhsu f => under c f.gp [rA f.ra, rA f.rb]
  | .madd f => under c f.gp [rA f.ra, rA f.rb, rA f.rd]
  | .sel f => [rP f.gp, if c.guard f.gp then rA f.ra else rA f.rb]
  | .bfx f => under c f.gp [rA f.ra, rA f.rb]
  | .bfxs f => under c f.gp [rA f.ra, rA f.rb]
  | .bfi f => under c f.gp [rA f.ra, rA f.rb, rA f.rd]
  | .lea f => under c f.gp [rA f.ra, rA f.rb]
  | .ld f => under c f.gp ((if first then [rA f.ra] else []))
  | .lds f => under c f.gp ((if first then [rA f.ra] else []))
  | .st f => under c f.gp ((if first then [rA f.ra] else []) ++ [rA f.rd])
  | .ldx f => under c f.gp [rA f.ra, rA f.rb]
  | .ldxs f => under c f.gp [rA f.ra, rA f.rb]
  | .stx f => under c f.gp [rA f.ra, rA f.rb, rA f.rd]
  | .aspq f => under c f.gp [rA f.ra, rA f.rb]
  | .aspc f => under c f.gp [rA f.ra]
  | .xfera f => under c f.gp [xferaSrc f]
  | .rdcr f => [rP f.gp]
  | .wrcr f => under c f.gp [rA f.reg]
  | .setcr f => under c f.gp [rA f.reg]
  | .clrcr f => under c f.gp [rA f.reg]
  | .addpc f => [rP f.gp]
  | .muli f => under c f.gp [rA f.ra]
  | .ext f => under c f.gp [rA f.ra]
  | .greq f => under c f.gp [rA f.ra, rA f.rb]
  | .gwr f => under c f.gp [rA f.ra, rA f.rb]
  | .gwrm f => under c f.gp [rA f.ra, rA f.rb]
  | .gtagwT f => under c f.gp [rA f.ra]
  | .gtagwC f => under c f.gp [rA f.ra]
  | .gtagq f => under c f.gp [rA f.ra]
  | .gbin f => under c f.gp [rA f.ra, rA f.rb]
  | .gbdrain f => [rP f.gp]
  | .gbdrainClr f => [rP f.gp]
  | .gdedup f => under c f.gp [rA f.ra]
  | .gdedupClr f => [rP f.gp]
  | .gpool f => under c f.gp [rA f.ra, rA f.rb]
  | .gprnd f => under c f.gp [rA f.ra, rA f.rb]
  | .ghand f => under c f.gp [rA f.ra, rA f.rb]
  | .gfence f => under c f.gp [rA f.ra]
  | .br f => [rP f.gp]
  | .call f => [rP f.gp]
  | .ret f => [rP f.gp]
  | .brx f => [rP f.gp]
  | .loopr f => [rC f.lc]
  | .waitc f => [rP f.gp]
  | .wait f => underB c f.gp f.gn (rW f.va :: syncSrc f.imm f.vb)
  | .fence f => [rP f.gp]
  | .acquire f => underB c f.gp f.gn (rW f.va :: syncSrc f.imm f.vb)
  | .acquireX f => underB c f.gp f.gn [rW f.va]
  | .release f => underB c f.gp f.gn (rW f.va :: syncSrc f.imm f.vb)
  | .releaseX f => underB c f.gp f.gn [rW f.va]
  | .bind f => underB c f.gp f.gn [rW f.va, rW f.vb, rW f.vd]
  | .unbind f => underB c f.gp f.gn [rW f.va]
  | .unbindAll f => [rP f.gp]
  | .atom f => underB c f.gp f.gn (rW f.va :: syncSrc f.imm f.vb)
  | .atomnr f => underB c f.gp f.gn (rW f.va :: syncSrc f.imm f.vb)
  | .atomcas f => underB c f.gp f.gn [rW f.va, rW f.vb, rW f.vd]
  | .join f => [rP f.gp]
  | .pwait f => [rP f.gp]
  | .evwait f => [rP f.gp]
  | .yield f => [rP f.gp]
  | .exit f => [rP f.gp]
  | .trap f => [rP f.gp]
  | .eret f => [rP f.gp]
  | .svc f => underB c f.gp f.gn [rW f.va]
  | .bkpt f => [rP f.gp]
  | .plog f => underB c f.gp f.gn [rP f.va, rP f.vb]
  | .vmlog f => underB c f.gp f.gn [rW f.va, rW f.vb]
  | .xferb f => [if f.dk = 1 ∧ f.sf = 1 then (1, f.src.toNat) else (0, f.src.toNat % 64)]
  | .stkclr f => [rP f.gp]
  | .ifence f => [rP f.gp]
  | .calwait f => [rP f.gp]
  | .vadd f => rW f.vm :: rV f.va :: orExt f.ext [rV f.vb]
  | .vsub f => rW f.vm :: rV f.va :: orExt f.ext [rV f.vb]
  | .vmul f => rW f.vm :: rV f.va :: orExt f.ext [rV f.vb]
  | .vfma f => rW f.vm :: rV f.va :: rV f.vc :: orExt f.ext [rV f.vb]
  | .vfms f => rW f.vm :: rV f.va :: rV f.vc :: orExt f.ext [rV f.vb]
  | .vfnma f => rW f.vm :: rV f.va :: rV f.vc :: orExt f.ext [rV f.vb]
  | .vmin f => rW f.vm :: rV f.va :: orExt f.ext [rV f.vb]
  | .vmax f => rW f.vm :: rV f.va :: orExt f.ext [rV f.vb]
  | .vabs f => [rW f.vm, rV f.va]
  | .vneg f => [rW f.vm, rV f.va]
  | .vand f => rW f.vm :: rV f.va :: orExt f.ext [rV f.vb]
  | .vor f => rW f.vm :: rV f.va :: orExt f.ext [rV f.vb]
  | .vxor f => rW f.vm :: rV f.va :: orExt f.ext [rV f.vb]
  | .vandn f => rW f.vm :: rV f.va :: orExt f.ext [rV f.vb]
  | .vshl f => rW f.vm :: rV f.va :: orExt f.ext [rV f.vb]
  | .vshr f => rW f.vm :: rV f.va :: orExt f.ext [rV f.vb]
  | .vsra f => rW f.vm :: rV f.va :: orExt f.ext [rV f.vb]
  | .vcmp f => rW f.vm :: rV f.va :: orExt f.ext [rV f.vb]
  | .vsel f => rW f.vm :: rV f.va :: rV f.vc :: orExt f.ext [rV f.vb]
  | .vmov f => [rW f.vm, rV f.va]
  | .vbcst f => [rW f.vm, rV f.va]
  | .vperm f => rW f.vm :: rV f.va :: rV f.vc :: orExt f.ext [rV f.vb]
  | .vslide f => rW f.vm :: rV f.va :: orExt f.ext [rV f.vb]
  | .vzip f => rW f.vm :: rV f.va :: orExt f.ext [rV f.vb]
  | .vunzip f => rW f.vm :: rV f.va :: orExt f.ext [rV f.vb]
  | .vcvt f => [rW f.vm, rV f.va]
  | .vpack f => [rW f.vm, rV f.va]
  | .vwiden f => [rW f.vm, rV f.va]
  | .vqnt f => rW f.vm :: runV f.va (tyWidth (f.fn.toNat % 16) / 8) ++ orExt f.ext [rV f.vb]
  | .vdqnt f => rW f.vm :: rV f.va :: orExt f.ext [rV f.vb]
  | .vamax f => runV f.va (tyWidth f.ty.toNat / 4)
  | .vscale f => rW f.vm :: rV f.va :: orExt f.ext [rV f.vb]
  | .vrsum f => [rW f.vm, rV f.va]
  | .vrmax f => [rW f.vm, rV f.va]
  | .vrmin f => [rW f.vm, rV f.va]
  | .vrdot f => rW f.vm :: rV f.va :: orExt f.ext [rV f.vb]
  | .vlacc f => [rW f.vm, rV f.va] ++ (if f.fn.toNat / 16 % 2 = 1 then orExt f.ext [rV f.vb] else []) ++ (if f.fn.toNat / 32 = 1 then [] else [rV f.vd])
  | .vlarnd f => [rW f.vm, rV f.va]
  | .vclass f => [rW f.vm, rV f.va]
  | .vpopc f => [rW f.vm, rV f.va]
  | .vclz f => [rW f.vm, rV f.va]
  | .vmaddi f => rW f.vm :: rV f.va :: rV f.vc :: orExt f.ext [rV f.vb]
  | .vabsd f => rW f.vm :: rV f.va :: orExt f.ext [rV f.vb]
  | .vrcp f => [rW f.vm, rV f.va]
  | .vrsq f => [rW f.vm, rV f.va]
  | .vld f => rW f.vm :: ((if first then [rV f.va] else []))
  | .vst f => rW f.vm :: ((if first then [rV f.va] else []) ++ [rV f.vd])
  | .vldx f => rW f.vm :: ((if first then [rV f.va] else []) ++ [rV f.vb])
  | .vstx f => rW f.vm :: ((if first then [rV f.va] else []) ++ [rV f.vb] ++ [rV f.vd])
  | .vldb f => rW f.vm :: ((if first then [rV f.va] else []))
  | .vlscale f => [rV f.vd, rV f.va]
  | .xferv f => [rW f.vm, (0, f.src.toNat)]
  | .viota f => [rW f.vm]
  | .vcpsgn f => rW f.vm :: rV f.va :: orExt f.ext [rV f.vb]
  | .vrint f => [rW f.vm, rV f.va]
  | .mset f => [rP f.gp]
  | .msetHi f => under c f.gp [rM f.md]
  | .maddM f => under c f.gp (if f.fn = 0 then [rM f.ma] else [rM f.ma, rM f.mb])
  | .mmov f => under c f.gp [rM f.ma]
  | .xferm f => under c f.gp [(0, f.src.toNat)]
  | .saff f => under c f.gp ((if first then [rM f.mb] else []) ++ runM f.mp (if shScal (c.rm f.mp.toNat).toNat then 5 else 4))
  | .saffw f => under c f.gp ((if first then [rM f.mb] else []) ++ runM f.mp (if shScal (c.rm f.mp.toNat).toNat then 5 else 4))
  | .sind f => under c f.gp ((if first then [rM f.mb] else []) ++ runM f.mp (if shScal (c.rm f.mp.toNat).toNat then 5 else 4))
  | .sindw f => under c f.gp ((if first then [rM f.mb] else []) ++ runM f.mp (if shScal (c.rm f.mp.toNat).toNat then 5 else 4))
  | .srec f => under c f.gp (runM f.mp 1)
  | .swin f => under c f.gp ((if first then [rM f.mb] else []) ++ runM f.mp 4)
  | .smcast f => under c f.gp ((if first then [rM f.mb] else []) ++ runM f.mp 5)
  | .temit f => under c f.gp [rM f.mb]
  | .tcons f => [rP f.gp]
  | .scopy f => under c f.gp ((if first then [rM f.mb] else []) ++ runM f.mp 5)
  | .sfill f => under c f.gp ((if first then [rM f.mb] else []) ++ runM f.mp 5)
  | .scancel f => [rP f.gp]
  | .sbar f => [rP f.gp]
  | .swload f => under c f.gp [rM f.ma]
  | .swact f => [rP f.gp]
  | .cfgload f => under c f.gp [rM f.ma]
  | .cfgact f => [rP f.gp]
  | .afire f => [rP f.gp]
  | .aflush f => [rP f.gp]
  | .adepth f => [rP f.gp]
  | .mnopen f => under c f.gp (runM f.ma 3)
  | .mnfeed f => under c f.gp ((if first then [rM f.mb] else []) ++ runM f.mp 3)
  | .mnflush f => [rP f.gp]
  | .mndrain f => under c f.gp ((if first then [rM f.mb] else []) ++ runM f.mp (if f.fn.toNat % 2 = 1 then 4 else 2))
  | .mnclose f => [rP f.gp]
  | .mncloseA f => [rP f.gp]
  | .nsdot f => under c f.gp ((if first then [rM f.mb] else []) ++ runM f.mp (if shScal (c.rm f.mp.toNat).toNat then 7 else 5))
  | .launch f => under c f.gp [rM f.ma]
  | .spawn f => under c f.gp [rM f.ma, rM f.mb]
  | .jinit f => [rP f.gp]
  | .pgreq f => [rP f.gp]
  | .pgreqRel f => [rP f.gp]
  | .spref f => under c f.gp ((if first then [rM f.mb] else []) ++ runM f.mp 4)
  | .grecv f => under c f.gp ((if first then [rM f.mb] else []) ++ runM f.mp 1)
  | .sdual f => under c f.gp ((if first then [rM f.mb] else []) ++ runM f.mp 5)
  | .sstat f => [rP f.gp]
  | .lapin f => under c f.gp [rM f.ma]
  | .lapinRel f => [rP f.gp]
  | .publish f => under c f.gp [rM f.ma, rM f.mb]
  | .cfgpref f => under c f.gp [rM f.ma]
  | _ => []

/-- The effect of a slot operation, with its steppable address (R44). -/
def runOp (i : Instr) (p : W64) (s : State) : Res :=
  match i with
  | .add f => opAdd f s
  | .sub f => opSub f s
  | .and f => opAnd f s
  | .or f => opOr f s
  | .xor f => opXor f s
  | .andn f => opAndn f s
  | .shl f => opShl f s
  | .shr f => opShr f s
  | .sra f => opSra f s
  | .min f => opMin f s
  | .minu f => opMinu f s
  | .max f => opMax f s
  | .maxu f => opMaxu f s
  | .abs f => opAbs f s
  | .clz f => opClz f s
  | .popc f => opPopc f s
  | .cmp f => opCmp f s
  | .addi f => opAddi f s
  | .andi f => opAndi f s
  | .ori f => opOri f s
  | .xori f => opXori f s
  | .shli f => opShli f s
  | .shri f => opShri f s
  | .srai f => opSrai f s
  | .movi f => opMovi f s
  | .movhi f => opMovhi f s
  | .mul f => opMul f s
  | .mulh f => opMulh f s
  | .mulhu f => opMulhu f s
  | .mulhsu f => opMulhsu f s
  | .madd f => opMadd f s
  | .sel f => opSel f s
  | .bfx f => opBfx f s
  | .bfxs f => opBfxs f s
  | .bfi f => opBfi f s
  | .lea f => opLea f s
  | .ld f => opLd f p s
  | .lds f => opLds f p s
  | .st f => opSt f p s
  | .ldx f => opLdx f s
  | .ldxs f => opLdxs f s
  | .stx f => opStx f s
  | .aspq f => opAspq f s
  | .aspc f => opAspc f s
  | .xfera f => opXfera f s
  | .rdcr f => opRdcr f s
  | .wrcr f => opWrcr f s
  | .setcr f => opSetcr f s
  | .clrcr f => opClrcr f s
  | .addpc f => opAddpc f s
  | .muli f => opMuli f s
  | .ext f => opExt f s
  | .greq f => opGreq f s
  | .gwr f => opGwr f s
  | .gwrm f => opGwrm f s
  | .gtagwT f => opGtagwT f s
  | .gtagwC f => opGtagwC f s
  | .gtagq f => opGtagq f s
  | .gbin f => opGbin f s
  | .gbdrain f => opGbdrain f s
  | .gbdrainClr f => opGbdrainClr f s
  | .gdedup f => opGdedup f s
  | .gdedupClr f => opGdedupClr f s
  | .gpool f => opGpool f s
  | .gprnd f => opGprnd f s
  | .ghand f => opGhand f s
  | .gfence f => opGfence f s
  | .br f => opBr f s
  | .call f => opCall f s
  | .ret f => opRet f s
  | .brx f => opBrx f s
  | .loop f => opLoop f s
  | .loopr f => opLoopr f s
  | .loops f => opLoops f s
  | .waitc f => opWaitc f s
  | .wait f => opWait f s
  | .fence f => opFence f s
  | .acquire f => opAcquire f s
  | .acquireX f => opAcquireX f s
  | .release f => opRelease f s
  | .releaseX f => opReleaseX f s
  | .bind f => opBind f s
  | .unbind f => opUnbind f s
  | .unbindAll f => opUnbindAll f s
  | .atom f => opAtom f s
  | .atomnr f => opAtomnr f s
  | .atomcas f => opAtomcas f s
  | .join f => opJoin f s
  | .pwait f => opPwait f s
  | .evwait f => opEvwait f s
  | .yield f => opYield f s
  | .exit f => opExit f s
  | .trap f => opTrap f s
  | .eret f => opEret f s
  | .svc f => opSvc f s
  | .bkpt f => opBkpt f s
  | .plog f => opPlog f s
  | .vmlog f => opVmlog f s
  | .lci f => opLci f s
  | .xferb f => opXferb f s
  | .stkclr f => opStkclr f s
  | .ifence f => opIfence f s
  | .calwait f => opCalwait f s
  | .vadd f => opVadd f s
  | .vsub f => opVsub f s
  | .vmul f => opVmul f s
  | .vfma f => opVfma f s
  | .vfms f => opVfms f s
  | .vfnma f => opVfnma f s
  | .vmin f => opVmin f s
  | .vmax f => opVmax f s
  | .vabs f => opVabs f s
  | .vneg f => opVneg f s
  | .vand f => opVand f s
  | .vor f => opVor f s
  | .vxor f => opVxor f s
  | .vandn f => opVandn f s
  | .vshl f => opVshl f s
  | .vshr f => opVshr f s
  | .vsra f => opVsra f s
  | .vcmp f => opVcmp f s
  | .vsel f => opVsel f s
  | .vmov f => opVmov f s
  | .vbcst f => opVbcst f s
  | .vperm f => opVperm f s
  | .vslide f => opVslide f s
  | .vzip f => opVzip f s
  | .vunzip f => opVunzip f s
  | .vcvt f => opVcvt f s
  | .vpack f => opVpack f s
  | .vwiden f => opVwiden f s
  | .vqnt f => opVqnt f s
  | .vdqnt f => opVdqnt f s
  | .vamax f => opVamax f s
  | .vscale f => opVscale f s
  | .vrsum f => opVrsum f s
  | .vrmax f => opVrmax f s
  | .vrmin f => opVrmin f s
  | .vrdot f => opVrdot f s
  | .vlacc f => opVlacc f s
  | .vlarnd f => opVlarnd f s
  | .vclass f => opVclass f s
  | .vpopc f => opVpopc f s
  | .vclz f => opVclz f s
  | .vmaddi f => opVmaddi f s
  | .vabsd f => opVabsd f s
  | .vrcp f => opVrcp f s
  | .vrsq f => opVrsq f s
  | .vld f => opVld f p s
  | .vst f => opVst f p s
  | .vldx f => opVldx f p s
  | .vstx f => opVstx f p s
  | .vldb f => opVldb f p s
  | .vlscale f => opVlscale f s
  | .xferv f => opXferv f s
  | .viota f => opViota f s
  | .vcpsgn f => opVcpsgn f s
  | .vrint f => opVrint f s
  | .mset f => opMset f s
  | .msetHi f => opMsetHi f s
  | .maddM f => opMaddM f s
  | .mmov f => opMmov f s
  | .xferm f => opXferm f s
  | .saff f => opSaff f p s
  | .saffw f => opSaffw f p s
  | .sind f => opSind f p s
  | .sindw f => opSindw f p s
  | .srec f => opSrec f s
  | .swin f => opSwin f p s
  | .smcast f => opSmcast f p s
  | .temit f => opTemit f s
  | .tcons f => opTcons f s
  | .scopy f => opScopy f p s
  | .sfill f => opSfill f p s
  | .scancel f => opScancel f s
  | .sbar f => opSbar f s
  | .swload f => opSwload f s
  | .swact f => opSwact f s
  | .cfgload f => opCfgload f s
  | .cfgact f => opCfgact f s
  | .afire f => opAfire f s
  | .aflush f => opAflush f s
  | .adepth f => opAdepth f s
  | .mnopen f => opMnopen f s
  | .mnfeed f => opMnfeed f p s
  | .mnflush f => opMnflush f s
  | .mndrain f => opMndrain f p s
  | .mnclose f => opMnclose f s
  | .mncloseA f => opMncloseA f s
  | .nsdot f => opNsdot f p s
  | .launch f => opLaunch f s
  | .spawn f => opSpawn f s
  | .jinit f => opJinit f s
  | .pgreq f => opPgreq f s
  | .pgreqRel f => opPgreqRel f s
  | .spref f => opSpref f p s
  | .grecv f => opGrecv f p s
  | .sdual f => opSdual f p s
  | .sstat f => opSstat f s
  | .lapin f => opLapin f s
  | .lapinRel f => opLapinRel f s
  | .publish f => opPublish f s
  | .cfgpref f => opCfgpref f s
  | _ => .ok s

/-- The pre-issue hold of a slot operation: the state its waiting leaves, or none when it does not hold (R121). -/
def holdOp (i : Instr) (p : W64) (s : State) : Option State :=
  match i with
  | .ld f => holdLoad f.gp s
  | .lds f => holdLoad f.gp s
  | .st f => holdStore f.gp f.sz f.q p s
  | .ldx f => holdLoad f.gp s
  | .ldxs f => holdLoad f.gp s
  | .stx f => holdStore f.gp f.sz f.q (axAddr f s.cx) s
  | .greq f => holdTag f.gp f.fn.toNat s
  | .gwr f => holdTag f.gp f.fn.toNat s
  | .gwrm f => holdTag f.gp f.fn.toNat s
  | .gtagwT f => holdGtagw false f s
  | .gtagwC f => holdGtagw true f s
  | .ghand f => holdTag f.gp f.fn.toNat s
  | .gfence f => holdGfence f s
  | .gbin f => holdGbin f s
  | .loop f => holdLoop (cntOf f.cnt f.ext) f.last s
  | .loopr f => holdLoop (s.cx.rlc f.lc.toNat) f.last s
  | .loops f => holdLoops f s
  | .waitc f => holdWaitc f s
  | .wait f => holdWait f s
  | .fence f => holdFence f s
  | .acquire f => holdAcquire f s
  | .acquireX f => holdAcquireX f s
  | .release f => holdSync (s.cx.guardB f.gp f.gn) s
  | .releaseX f => holdReleaseX f s
  | .atom f => holdSync (s.cx.guardB f.gp f.gn) s
  | .atomnr f => holdSync (s.cx.guardB f.gp f.gn) s
  | .atomcas f => holdSync (s.cx.guardB f.gp f.gn) s
  | .join f => holdJoin f s
  | .pwait f => holdPwait f s
  | .evwait f => holdEvwait f s
  | .eret f => holdEret f s
  | .svc f => holdSvc f s
  | .calwait f => holdCalwait f s
  | .vld f => holdVload f s
  | .vst f => holdVstore .contig f p s
  | .vldx f => holdVload f s
  | .vstx f => holdVstore .indexed f p s
  | .vldb f => holdVload f s
  | .saff f => holdCmd f true s
  | .saffw f => holdCmd f true s
  | .sind f => holdCmd f true s
  | .sindw f => holdCmd f true s
  | .srec f => holdCmd f true s
  | .swin f => holdCmd f true s
  | .smcast f => holdSmcast f p s
  | .temit f => holdCmd f true s
  | .tcons f => holdTcons f s
  | .scopy f => holdCmd f true s
  | .sfill f => holdCmd f true s
  | .sbar f => holdSbar f s
  | .swload f => holdStr f.gp s
  | .swact f => holdSwact f s
  | .cfgload f => holdStr f.gp s
  | .cfgact f => holdCfgact f s
  | .afire f => holdAfire f s
  | .adepth f => holdAdepth f s
  | .mnopen f => holdMnopen f s
  | .mnfeed f => holdCmd f false s
  | .mndrain f => holdCmd f false s
  | .nsdot f => holdNsdot f p s
  | .launch f => holdStr f.gp s
  | .spawn f => holdSpawn f s
  | .spref f => holdCmd f true s
  | .grecv f => holdCmd f true s
  | .sdual f => holdCmd f true s
  | .publish f => holdStr f.gp s
  | .cfgpref f => holdCfgpref f s
  | _ => none
/-! ### The plan of an issue (R44) -/

/-- One issue: the bundle at `pc`, its issue index, the records as the issue leaves them, once-only operations apart, and
whether ERET.SKIP consumes it (R385). -/
structure Plan where
  pc   : W64
  b    : Bundle
  k    : Nat
  recA : StickyRec
  recV : StickyRec
  recM : StickyRec
  skip : Bool
  deriving DecidableEq, Repr

/-- The last issue of its bundle. -/
def Plan.last (p : Plan) : Bool := p.k == p.b.rep

/-- The record a slot executes at issue k (R44); a gallery core has no sticky records (R34). -/
def planRec (gal : Bool) (k : Nat) (present : Option Instr) (nop : Instr) (r : StickyRec) (c : Ctx) : StickyRec :=
  match present with
  | some i => if k = 0 then { op := i, addr := baseOf i c } else { r with addr := r.addr + strideOf r.op }
  | none => if gal then { op := nop } else { r with addr := r.addr + strideOf r.op }

/-- The plan for the bundle at `pc`. -/
def mkPlan (gal : Bool) (pc : W64) (b : Bundle) (c : Ctx) : Plan :=
  { pc := pc, b := b, k := c.k, skip := c.skip
    recA := planRec gal c.k b.a .anop c.recA c
    recV := planRec gal c.k b.v .vnop c.recV c
    recM := planRec gal c.k b.m .mnop c.recM c }

/-- What the issue executes, in slot order: slot, operation, steppable address. A skipped issue executes nothing; B
executes with the last issue. -/
def Plan.ops (p : Plan) : List (Nat × Instr × W64) :=
  if p.skip then []
  else [(0, p.recA.op, p.recA.addr), (1, p.recV.op, p.recV.addr), (2, p.recM.op, p.recM.addr)] ++
    (match p.b.b with | some i => if p.last then [(3, i, (0 : W64))] else [] | none => [])

/-- Whether a slot is active (R49): it issues a present operation, or re-issues one that is not its NOP. -/
def Plan.activeSlot (p : Plan) (present : Option Instr) (r : StickyRec) (nop : Instr) : Bool :=
  (p.k == 0 && present.isSome) || r.op != nop
/-- Whether the operation of a slot issues as present, and not again from its record (R44). -/
def Plan.first (p : Plan) (slot : Nat) : Bool :=
  match slot with
  | 0 => p.k == 0 && p.b.a.isSome
  | 1 => p.k == 0 && p.b.v.isSome
  | 2 => p.k == 0 && p.b.m.isSome
  | _ => true
/-- The registers an issue reads (R13, R45). -/
def Plan.reads (p : Plan) (c : Ctx) : List (Nat × Nat) :=
  p.ops.flatMap (fun o => (if p.first o.1 then addrRegs o.2.1 else []) ++ readsOf o.2.1 (p.first o.1) c)
/-- The active slots of the issue (R160). -/
def Plan.active (p : Plan) : List Nat :=
  if p.skip then []
  else (if p.activeSlot p.b.a p.recA .anop then [0] else []) ++ (if p.activeSlot p.b.v p.recV .vnop then [1] else []) ++
    (if p.activeSlot p.b.m p.recM .mnop then [2] else []) ++ (if p.b.b.isSome && p.last then [3] else [])
/-- The weight of the issue (R418). -/
def Plan.weight (p : Plan) : Nat := p.ops.foldl (fun w o => w + weightOf o.2.1) 0

/-! ### Preparation: traps before issue, holds (R16, R22, R42, R121, R293, R379, R391) -/

/-- Whether context x may issue at all this cycle (R160, R162). -/
def State.canIssue (s : State) (x : Nat) : Bool :=
  let c := s.ctx x
  c.life == .live && !c.halted && decide (c.stall ≤ s.tick) && !s.frozen &&
  (if isGal x then decide ((s.gal (x - 512)).freeze ≤ s.tick)
   else decide (x < 512) && !s.tileStopped (tileOf x) && !s.saving x)

/-- A due result holds every bundle until its data is present (R16). In profile L4 a load does so from two positions past its
own on (R22), and the results of atomics, and what a handler's entry waits for (R382), at once. -/
def Ctx.dueHold (c : Ctx) : Bool :=
  c.pend.any (fun e => decide (e.pos ≤ c.now) && !e.arrived &&
    (c.cr 1 != 1 || (match e.dst with | .vm _ => true | _ => false) || (e.tag == 1 && e.pos == 0) || decide (e.pos + 2 ≤ c.now)))

/-- In profile L4 a bundle at one of the two positions from a load's own on holds until its data is present where it reads
the destination (R22). -/
def Ctx.readHold (c : Ctx) (reads : List (Nat × Nat)) : Bool :=
  c.pend.any (fun e => decide (e.pos ≤ c.now) && !e.arrived &&
    (match e.dst.reg with | some r => reads.elem r | none => false))

/-- The trap of a lost or withdrawn result that is due (R379, R397); DEFER marks one past its position, or from before or
within a handler (tag 2). -/
def Pend.lateTrap (e : Pend) (now : Nat) : Option TrapInfo :=
  if e.arrived && decide (e.pos ≤ now) && (e.lost.isSome || e.trapped.isSome) then
    some { cause := e.trapped.getD .dataLost, whole := true, defer := decide (e.pos < now) || e.tag == 2, addr := e.lost.getD 0 }
  else none

/-- The trap of an earlier source that the next program bundle takes (R379): never in a handler, nor at a position that
ERET.SKIP consumes. -/
def Ctx.lateTrap (c : Ctx) : Option TrapInfo :=
  if c.inh || c.skip then none
  else match c.deferred with
    | t :: _ => some t
    | [] => c.pend.findSome? (fun e => e.lateTrap c.now)

/-- Its source is done with. -/
def Ctx.dropLate (c : Ctx) : Ctx :=
  match c.deferred with
  | _ :: rest => { c with deferred := rest }
  | [] => { c with pend := c.pend.eraseP (fun e => (e.lateTrap c.now).isSome) }

/-- Ask every slot for its hold (R121): how many hold. -/
def askHolds (ops : List (Nat × Instr × W64)) (s : State) : Nat × State :=
  ops.foldl (fun r o => match holdOp o.2.1 o.2.2 r.2 with | some s' => (r.1 + 1, s') | none => r) (0, s)

/-- The `.EF` holds of a bundle before it is asked, and after `n` of its slots hold (R321). -/
def Ctx.askFe (c : Ctx) : Ctx := { c with feh := c.feh.map (fun h => { h with hit := false }) }
def Ctx.keepFe (c : Ctx) (n : Nat) : Ctx :=
  { c with feh := (c.feh.filter (·.hit)).map (fun h => { h with sole := n == 1 }) }

/-- What the preparation of an issue finds: nothing issues; a trap at a bundle, of the bundle (0), of an earlier source
(1) or of the step's entry (2); or an issue. -/
inductive Prep where
  | idle
  | trap (pc : W64) (t : TrapInfo) (kind : Nat)
  | go (p : Plan)
  deriving DecidableEq, Repr

/-- Whether an ERET among some operations holds: its hold is R385's, and none of R121's. -/
def State.eretHolds (s : State) (ops : List (Nat × Instr × W64)) : Bool :=
  ops.any (fun o => match o.2.1 with | .eret f => (holdEret f s).isSome | _ => false)

/-- The holds of a planned issue. A request that is answered at once does not hold; STREAM_PENDING ends a hold of R121 (R391). -/
def prepHolds (p : Plan) (s : State) : Prep × State :=
  let c := s.cx
  if p.skip then (.go p, s)
  else if c.cr 1 == 1 && c.readHold (p.reads c) then (.idle, s)
  else
    let r := askHolds p.ops (s.modCx (·.askFe))
    let r := if r.1 = 0 then r else askHolds p.ops r.2
    let s := r.2.modCx (·.keepFe r.1)
    if r.1 = 0 then (.go p, s)
    else if (s.cx.cr 0x81).getLsbD 2 && (s.cx.cr 7).getLsbD 0 && !(r.1 == 1 && s.eretHolds p.ops) then
      (.trap p.pc { cause := .streamPending, whole := true } 0, s)
    else (.idle, s)

/-- Prepare the next issue of the current context. -/
def prep (s : State) : Prep × State :=
  if !s.canIssue s.cur then (.idle, s)
  else
    let s := s.modCx (·.settle)
    match s.cx.entryErr with
    | some t => (.trap s.cx.pc t 2, s)
    | none =>
      if s.cx.dueHold then (.idle, s)
      else
        match s.fetch, s.cx.lateTrap with
        | (.wait, s), some l => (.trap s.cx.pc l 1, s)
        | (.wait, s), none => (.idle, s)
        | (.trap pc _, s), some l => (.trap pc l 1, s)
        | (.trap pc t, s), none => (.trap pc t 0, s)
        | (.bundle pc _, s), some l => (.trap pc l 1, s)
        | (.bundle pc b, s), none =>
          let s := s.modCx (fun c => { c with pc := pc, len := b.bytes })
          prepHolds (mkPlan (isGal s.cur) pc b s.cx) s

/-! ### The issue -/

/-- Take the trap that the preparation found. -/
def takePrepTrap (pc : W64) (t : TrapInfo) (kind : Nat) (s : State) : State :=
  takeTrapHeld t (s.modCx (fun c =>
    let c := if kind = 1 then c.dropLate else if kind = 2 then { c with entryErr := none } else c
    { c with pc := pc }))

/-- The trap of an operation that reads a register with an uncorrectable error (R397), its guard holding (R38). -/
def badRead (slot : Nat) (i : Instr) (first : Bool) (c : Ctx) : Option TrapInfo :=
  if c.badRegs.isEmpty then none
  else ((readsOf i first c).find? c.badReg).map (fun r =>
    { cause := .dataLost, slot := slot, arg := r.1 * 1024 + r.2 })

/-- The checks of every operation of an issue on the state before it (R52): the first trap in slot order, and the state
it leaves. -/
def checkOps (first : Nat → Bool) (s0 : State) : List (Nat × Instr × W64) → Option (TrapInfo × State)
  | [] => none
  | (slot, i, a) :: rest =>
    match badRead slot i (first slot) s0.cx with
    | some t => some (t, s0)
    | none =>
      match runOp i a s0 with
      | .ok _ => checkOps first s0 rest
      | .trap t => some (t, s0)
      | .trapIn t s' => some (t, s')

/-- The effects of the operations of an issue, in slot order. -/
def effectsOf : List (Nat × Instr × W64) → State → State
  | [], s => s
  | (_, i, a) :: rest, s => effectsOf rest (match runOp i a s with | .ok s' => s' | _ => s)

/-- Run the operations of an issue from the state `s0` before it: every check first, then the effects (R52, R378). -/
def runOps (first : Nat → Bool) (s0 : State) (ops : List (Nat × Instr × W64)) : Except (TrapInfo × State) State :=
  match checkOps first s0 ops with
  | some e => .error e
  | none => .ok (effectsOf ops s0)

/-- The value of a loop register as the loop-end check reads it: what this bundle's loop operation wrote, or the register
(R116). -/
def loopVal {α : Type} (n : Nat) (l : List (Nat × α)) (d : α) : α := ((l.find? (fun x => x.1 == n)).map (·.2)).getD d

/-- The loop-end check (R116) of the bundle at h over counters N: the back edge taken, if any. It goes where LOOPBn says, whose
last bits `seek` refuses there (log entry 96, DESIGN CHOICE). -/
def loopEnd (h : W64) : List Nat → Ctx → Option W64 × Ctx
  | [], c => (none, c)
  | n :: rest, c =>
    let v := loopVal n c.buf.lcNow (c.rlc n)
    if loopVal n c.buf.loope (c.cr (12 + n)) = h ∧ v ≠ 0 then
      let c := c.deliver (.lc n) ((v - 1).setWidth 512) 1 3
      if v ≠ 1 then (some (loopVal n c.buf.loopb (c.cr (8 + n))), c) else loopEnd h rest c
    else loopEnd h rest c

/-- A record after the issue: once-only operations become the NOP (R44, R46). -/
def StickyRec.after (r : StickyRec) (nop : Instr) : StickyRec := if onceOnlyOp r.op then { op := nop } else r

/-- Context time passes, or a handler position (R12, R383). Its 64 bits (R28) are those that are read and latched: the
count itself does not wrap, so that positions keep their order (R13). -/
def Ctx.advance (c : Ctx) : Ctx := if c.inh then { c with hpos := c.hpos + 1 } else { c with ctime := c.ctime + 1 }

/-- The context at the end of an issue, before its effects outside the context: loop-end check, next PC, records, issue
index, context time. The step of an EXIT ends at the position of the EXIT; a TRAP or BKPT is taken at its own index. -/
def endIssue (p : Plan) (c : Ctx) : Ctx :=
  let f := c.buf.final
  let r := if p.last && !c.buf.taken then loopEnd p.pc [3, 2, 1, 0] c else (none, c)
  let c := r.2
  let next := if p.last then some (r.1.getD (c.buf.next.getD c.after)) else none
  let c := match f with | .exit _ => c | _ => c.advance
  { c with
    buf := { c.buf with next := next }
    recA := p.recA.after .anop
    recV := p.recV.after .vnop
    recM := p.recM.after .mnop
    k := match f with | .soft _ _ => p.k | _ => if p.last then 0 else p.k + 1
    skip := false }

/-- Count the weight of an issue in its tile's current cycle (R418). -/
def addWeight (w : Nat) (s : State) : State :=
  if isGal s.cur then s
  else s.modTile (tileOf s.cur) (fun T => match T.weights with | x :: t => { T with weights := (x + w) :: t } | [] => { T with weights := [w] })

/-- Run a planned issue. -/
def runPlan (p : Plan) (s : State) : State :=
  match runOps p.first s p.ops with
  | .error (t, s') => takeTrapHeld t s'
  | .ok s' => addWeight p.weight (commit (s'.modCx (endIssue p)))

/-- BUNDLE_ISSUE (R44): the current context makes its next issue, takes its trap, or holds. -/
def issueBundle (s : State) : State :=
  match prep s with
  | (.idle, s) => s
  | (.trap pc t kind, s) => takePrepTrap pc t kind s
  | (.go p, s) => runPlan p s

/-- BUNDLE_ISSUE (R44). -/
def execBundleIssue (s : State) : Host.Outcome State Fault Refusal := .next (issueBundle s)

end Sys2Proof.Machine
end

