-- ==== Sys2Proof/Machine/Cycle.lean ====
section
/-! DEFINITION. A cycle (log entry 2): what its start changes, the merge stages of the tiles (R160 to R162, R419), and
the operations and events it runs, in order. An event whose time has not come has no effect. -/

namespace Sys2Proof.Machine

/-! ### The start of a cycle -/

/-- One more cycle of a full/empty wait (R321). -/
def Pend.tickFe (e : Pend) : Pend :=
  match e.fe with
  | some w => if e.arrived then e else { e with fe := some { w with tick := w.tick + 1 } }
  | none => e

/-- Context x as a new cycle begins: the stores of the cycle before have been performed, but for those that wait (R20), and
its full/empty waits are a cycle longer, unless its tile was frozen or it is being saved (R321). -/
def Ctx.newCycle (c : Ctx) (idle : Bool) : Ctx :=
  let c := { c with st := (c.stq.map (fun o => (o.iss, o.slot))).eraseDups.length }
  if idle then c
  else
    { c with feh := c.feh.map (fun h => { h with tick := h.tick + 1 }), pend := c.pend.map Pend.tickFe
             shadow := c.shadow.map (fun h => { h with pend := h.pend.map Pend.tickFe }) }

/-- The commands of a context after tick f, in which its tile was frozen: a completion that waits for a token to reach its FIFO
falls a cycle later (R188, R217). -/
def Ctx.laterCmds (f : Nat) (c : Ctx) : Ctx :=
  let later := fun (k : Cmd) => if f ≤ k.at_ then { k with at_ := k.at_ + 1 } else k
  { c with handles := c.handles.map (fun h => (h.1, { h.2 with cmds := h.2.cmds.map later })) }

/-- A tile as a new cycle begins: a new weight of 0 (R418), who issued in the cycle before (R161), an ECC freeze cycle
counted (R394, R420), and after a freeze cycle every pending event of the array, and the end of a drain, a cycle later (R188,
R435). -/
def Tile.newCycle (T : Tile) (tick : Nat) : Tile :=
  let v := T.crs.read 0x46
  let late := tick != 0 && T.frozenAt (tick - 1)
  { T with hist := { T.hist with prev0 := T.hist.now0, prev1 := T.hist.now1, now0 := false, now1 := false }
           arr := if late then Arr.later (tick - 1) T.arr else T.arr
           saves := if late then T.saves.map (fun v => { v with quiet := v.quiet + 1 }) else T.saves
           weights := if T.weights.isEmpty then [] else (0 :: T.weights).take 64
           crs := if T.frozenAt tick then T.crs.write 0x46 ((v &&& 0xFFFFFFFF00000000) ||| ((fld v 0 32 + 1).setWidth 64)) else T.crs }

/-- Whether the tile of a context is frozen at a tick. -/
def State.ctxFrozen (s : State) (x tick : Nat) : Bool := s.frozen || (x < 512 && (s.tile (tileOf x)).frozenAt tick)

/-- The tick advances. -/
def State.advance (s : State) : State :=
  let tick := s.tick + 1
  { s with tick := tick, merged := false
           ctxs := s.ctxs.map (fun c =>
             let e := if s.ctxFrozen c.1 s.tick then c.2.laterCmds s.tick else c.2
             if c.1 < 2 ^ 32 then (c.1, e.newCycle (s.ctxFrozen c.1 s.tick || s.saving c.1)) else c)
           tiles := s.tiles.map (fun t => (t.1, t.2.newCycle tick)) }

/-- Numbers below n as the `sub` of a due event. -/
def dues (op : Instr) (cur unit : Nat) (subs : List Nat) : List Due := subs.map (fun i => { op := op, cur := cur, unit := unit, sub := i })

/-- Whether some result of a context has not arrived, or a store or a sync request waits. -/
def Ctx.awaits (c : Ctx) : Bool :=
  !c.stq.isEmpty || !c.syq.isEmpty || c.pend.any (fun e => !e.arrived) || (match c.shadow with | some h => h.pend.any (fun e => !e.arrived) | none => false)

/-- What may arrive or end for context x. -/
def ctxArrivals (x : Nat) (c : Ctx) : List Due :=
  (if c.awaits then [{ op := .resultArrives, cur := x }] else []) ++
  (if c.awaits || !c.feh.isEmpty then [{ op := .feTimeout, cur := x }] else []) ++
  (if c.stall != 0 then [{ op := .yieldEnd, cur := x }] else [])

/-- The token arrivals of a tile (R182). -/
def tokenArrivals (t : Nat) (a : Arr) : List Due :=
  dues .tokenArrive 0 t (a.edges.map (·.1)) ++ dues .tokenArrive 0 t (a.out.map (fun e => 512 + e.1)) ++
  dues .tokenArrive 0 t (a.inp.map (fun e => 544 + e.1)) ++ dues .tokenArrive 0 t (a.band.map (fun e => 576 + e.1)) ++
  dues .edgeDepthChange 0 t ((a.edges.filter (fun e => e.2.q.any (fun i => i.tok.isNone))).map (·.1)) ++
  dues .aflushNulEnter 0 t (a.nuls.map (·.1))

/-- What a cycle runs before its merge stages: the calendar, ends of freezes and pauses, arrivals. -/
def State.arrivals (s : State) : List Due :=
  [{ op := .landingEnd }, { op := .landingStart }, { op := .riserStart }] ++
  s.tiles.flatMap (fun t => if t.2.freeze != 0 then [{ op := .freezeEnd, unit := t.1 }] else []) ++
  s.gals.flatMap (fun g => if g.2.freeze != 0 then [{ op := .freezeEnd, unit := 256 + g.1 }] else []) ++
  s.dies.flatMap (fun d => if d.2.pause != 0 then [{ op := .enginePauseEnd, unit := d.1 }] else []) ++
  s.clusters.flatMap (fun k => if k.2.mn.pause != 0 then [{ op := .enginePauseEnd, unit := k.1 + 2 }] else []) ++
  s.ctxs.flatMap (fun c => if c.1 < 2 ^ 32 then ctxArrivals c.1 c.2 else [])

/-- A new cycle. The faults of the last one halt their queues (R172); window writes that waited for host memory go first (R301);
a PCTL command goes on (R434). -/
def newCycle (s : State) : State :=
  let s := (settleFaults s).advance
  let s := if s.pctl = 0 then s else pctlProgress s
  let host := if s.landing.isNone && s.held.isEmpty then s.hostq else []
  { s with hostq := if s.landing.isNone && s.held.isEmpty then [] else s.hostq, agenda := host ++ s.arrivals }

/-! ### Merge issue (R160, R161, R419) -/

/-- What a context offers: its active slots and weight; none when it does not offer. A trap that the preparation found has
no slot and no weight, so that it collides with nothing (log entry 73, DESIGN CHOICE). -/
def offer (x : Nat) (s : State) : Option (List Nat × Nat) × State :=
  match prep { s with cur := x } with
  | (.idle, s) => (none, s)
  | (.trap _ _ _, s) => (some ([], 0), s)
  | (.go p, s) => (some (p.active, p.weight), s)

/-- The winner of a collision on a tile (R161): true is context 1. -/
def mergeWinner (h : MergeHist) (eff0 eff1 : Nat) : Bool :=
  if 64 ≤ h.lost0 then false
  else if 64 ≤ h.lost1 then true
  else if eff0 ≠ eff1 then decide (eff0 < eff1)
  else if h.prev0 ≠ h.prev1 then h.prev0
  else match h.winner with | some w => w == 0 | none => false

/-- The contexts of a tile that issue, and the history they leave (R160, R161). -/
def mergeTile (h : MergeHist) (eff0 eff1 : Nat) (o0 o1 : Option (List Nat × Nat)) : Bool × Bool × MergeHist :=
  match o0, o1 with
  | none, none => (false, false, h)
  | some _, none => (true, false, { h with lost0 := 0, now0 := true })
  | none, some _ => (false, true, { h with lost1 := 0, now1 := true })
  | some a, some b =>
    if a.1.all (fun i => !b.1.elem i) then (true, true, { h with lost0 := 0, lost1 := 0, now0 := true, now1 := true })
    else if mergeWinner h eff0 eff1 then
      (false, true, { h with winner := some 1, lost0 := h.lost0 + 1, lost1 := 0, now1 := true })
    else (true, false, { h with winner := some 0, lost0 := 0, lost1 := h.lost1 + 1, now0 := true })

/-- Whether the governor freezes a tile that would issue weight w (R419). -/
def governs (T : Tile) (w : Nat) : Bool :=
  let limit := (fld (T.crs.read 0x45) 0 16).toNat
  limit != 0 && decide (limit < ((T.weights.drop 1).take 63).foldl (· + ·) 0 + w)

/-- The merge stage of tile t: the contexts that issue. -/
def mergeStage (t : Nat) (s : State) : List Nat × State :=
  if s.arrFrozen t then ([], s)
  else
    let (o0, s) := offer (2 * t) s
    let (o1, s) := offer (2 * t + 1) s
    let T := s.tile t
    let r := mergeTile T.hist (s.ctx (2 * t)).eff (s.ctx (2 * t + 1)).eff o0 o1
    let w := (if r.1 then (match o0 with | some o => o.2 | none => 0) else 0) +
      (if r.2.1 then (match o1 with | some o => o.2 | none => 0) else 0)
    if (o0.isSome || o1.isSome) && governs T w then
      ([], s.setTile t { T with freeze := max T.freeze (s.tick + 1), frz := s.tick, crs := T.crs.write 0x43 (T.crs.read 0x43 + 1) })
    else
      ((if r.1 then [2 * t] else []) ++ (if r.2.1 then [2 * t + 1] else []), s.setTile t { T with hist := r.2.2 })

/-- The tiles that hold a step. -/
def State.busyTiles (s : State) : List Nat :=
  s.ctxs.foldl (fun l c => if c.1 < 512 ∧ c.2.life = .live ∧ !l.elem (tileOf c.1) then l ++ [tileOf c.1] else l) []

/-- Every merge stage, and the gallery cores that issue. -/
def mergeStages (s : State) : List Nat × State :=
  let r := s.busyTiles.foldl (fun (r : List Nat × State) t => let m := mergeStage t r.2; (r.1 ++ m.1, m.2)) ([], s)
  let gs := (s.ctxs.filter (fun c => isGal c.1 && c.2.life == .live)).map (·.1)
  gs.foldl (fun r x => match offer x r.2 with | (some _, s) => (r.1 ++ [x], s) | (none, s) => (r.1, s)) r

/-! ### What else a cycle runs -/

/-- The events of a handle that has commands. -/
def handleEvents (x h : Nat) : List Due :=
  [.streamStart, .mnFeedArrive, .elementBlockTransfer, .temitSend, .mnDrainRun, .followOnArm, .streamComplete].map
    (fun op => ({ op := op, cur := x, sub := h } : Due))

/-- The events of a context that holds a step. -/
def ctxEvents (x : Nat) (c : Ctx) : List Due :=
  (c.handles.flatMap (fun h => if h.2.cmds.isEmpty then [] else handleEvents x h.1)) ++
  (match c.hold with | .retry _ _ => [{ op := .remoteWaiterRetry, cur := x }] | _ => []) ++
  (match c.life with
   | .free => []
   | .live => if x < 512 then [{ op := .preemptSave, cur := x }, { op := .stepPark, cur := x }] else []
   | .ended _ _ _ => if x < 512 then [{ op := .stepRetire, cur := x }, { op := .preemptSave, cur := x }] else [{ op := .jobComplete, unit := x - 512 }])

/-- The events of an array that holds an image. -/
def arrEvents (t : Nat) (a : Arr) : List Due :=
  dues .runStart 0 t (a.runs.map (·.1)) ++
  (if a.target.isSome then dues .peSwitch 0 t (List.range 64) else []) ++
  dues .operatorFire 0 t (a.pes.map (·.1)) ++
  dues .circuitTransfer 0 t (a.out.map (·.1))

/-- The events of a tile beside its contexts and array. -/
def tileEvents (t : Nat) (T : Tile) : List Due :=
  arrEvents t T.arr ++
  dues .cfgImageLanded 0 t ((T.arr.loads.map (·.slot)).eraseDups ++ (if T.tloads.isEmpty then [] else [2])) ++
  T.saves.flatMap (fun v => [{ op := .saveDrainQuiet, cur := v.ctx }, { op := .saveDeadlineExpire, cur := v.ctx },
                             { op := .saveComplete, cur := v.ctx }]) ++
  T.resume.flatMap (fun r => match r.restoring with | some x => [{ op := .stepRestore, cur := x }] | none => []) ++
  (if T.disp.isEmpty && T.child.isEmpty && T.resume.isEmpty then []
   else [{ op := .stepEntry, cur := 2 * t }, { op := .stepEntry, cur := 2 * t + 1 }])

/-- The events of a gallery core's tags. -/
def galEvents (g : Nat) (G : Gal) : List Due :=
  G.tags.flatMap (fun t => if t.2.state = 1 then [{ op := .packetComplete, unit := g, sub := t.1 }, { op := .handoffTake, unit := g, sub := t.1 }]
    else [])

/-- The packages whose parties wait at an engine (R318). -/
def Die.peersWaiting (D : Die) : List Nat :=
  (D.objs.flatMap (fun o => o.2.waiters.flatMap (fun w => match w.who with | .peer q _ => [q] | _ => []))).eraseDups

/-- The events of a sync engine, of the packages that its requests go to and of those that wait at it (R446). -/
def dieEvents (d : Nat) (D : Die) : List Due :=
  (if D.queue.isEmpty && !(d == 2 && D.objs.any (fun o => !o.2.waiters.isEmpty)) then [] else [{ op := .syncOperation, unit := d }]) ++
  (if D.parked.isEmpty then [] else [{ op := .parkedSyncComplete, unit := d }]) ++
  (if d = 2 then
    ((D.queue ++ D.parked).map (fun (r : SyncReq) => (fld r.ptr 32 8).toNat) ++
      D.objs.map (fun (o : Nat × SyncObj) => o.1 / 2 ^ 32 % 256)).eraseDups.map (fun (p : Nat) => { op := .linkLossTimeout, unit := p })
   else D.peersWaiting.map (fun (p : Nat) => { op := .linkLossTimeout, unit := p }))

/-- The queues whose destruction may end: those in memory, and QCMD's (R173). -/
def State.destroying (s : State) : List Nat :=
  let q := (fld (s.win.read wQCMD) 32 10).toNat
  let known := s.queues.map (·.1)
  known ++ (if s.qcmdBusy && !known.elem q then [q] else [])

/-- The events of queues and launches. -/
def State.queueEvents (s : State) : List Due :=
  s.queues.map (fun q => { op := .queueReaderCopy, unit := q.1 }) ++
  s.destroying.map (fun q => { op := .queueDestroyed, unit := q }) ++
  s.launches.flatMap (fun l => [{ op := .launchRecordCheck, unit := l.1 }]) ++
  (if s.queues.isEmpty then [] else [{ op := .quantumGrant }]) ++
  (if s.quantum.isSome then [{ op := .stepPlace }] else []) ++
  s.launches.flatMap (fun l => dues .teamRelease 0 l.1 (l.2.teams.map (·.1)) ++ [{ op := .launchComplete, unit := l.1 }]) ++
  dues .launchEnqueue 0 0 (List.range s.reqs.length) ++ dues .publishCounterWrite 0 0 (List.range s.pubs.length)

/-- Everything that may happen after the issues of a cycle. -/
def State.events (s : State) : List Due :=
  s.ctxs.flatMap (fun c => if c.1 < 2 ^ 32 then ctxEvents c.1 c.2 else []) ++
  s.tiles.flatMap (fun t => tileEvents t.1 t.2) ++
  s.clusters.flatMap (fun k => if k.2.mn.state = 0 then [] else [{ op := .mnReady, unit := k.1 }, { op := .mnAutoclose, unit := k.1 }]) ++
  s.gals.flatMap (fun g => galEvents g.1 g.2) ++
  s.dies.flatMap (fun d => dieEvents d.1 d.2) ++
  s.queueEvents ++
  (if s.waits.isEmpty then [] else [{ op := .pgrantArrive }]) ++
  (if s.shoot.isSome then [{ op := .shootdownDone }] else [])

/-- The merge stages decide, and the rest of the cycle is on the agenda. -/
def mergeCycle (s : State) : State :=
  let r := mergeStages s
  { r.2 with merged := true
             agenda := r.1.map (fun x => ({ op := .bundleIssue, cur := x } : Due)) ++
               r.2.tiles.flatMap (fun t => dues .runStart 0 t.1 (t.2.arr.runs.map (·.1)) ++ tokenArrivals t.1 t.2.arr) ++ r.2.events }

/-- What the machine runs next: the head of the agenda with its units, once removed; none where the cycle's agenda must be
made first. -/
def State.takeDue (s : State) : Option (Instr × State) :=
  match s.agenda with
  | [] => none
  | d :: rest => some (d.op, { s with agenda := rest, cur := d.cur, unit := d.unit, sub := d.sub })

/-- The agenda of the rest of this cycle, or of the next one. -/
def State.plan (s : State) : State := if s.merged then newCycle s else mergeCycle s

/-! ### Placing one instruction -/

/-- The bytes of some words (R2). -/
def bytesOf (ws : List W32) : List Byte := ws.flatMap wordBytes

/-- Where `placeWord` puts a text section: virtual and physical address, in a page of its own. -/
def textAt : Nat := 0x10000

/-- Let the very next step issue a bundle with the words `ws`, as the first bundle of a step of context x: the words stand
in HBM, the context's translation knows their page, and the bundle's issue is due. -/
def placeWord (x : Nat) (ws : List W32) (s : State) : State :=
  let e : TlbEntry := { asid := 0, gen := 0, pool := false, bits := 16, page := 1, va := 1, pa := textAt, r := true, w := true }
  let c : Ctx := { life := .live, textOff := textAt, textLen := 64 }
  let s := { s with mem := s.mem.writeMasked textAt ((bytesOf ws).map some), badPa := [], frozen := false, merged := true,
                    agenda := [{ op := .bundleIssue, cur := x }] }
  let s := s.setCtx x c
  if isGal x then s.modGal (x - 512) (fun g => { g with tlb := [e], freeze := 0 })
  else s.modTile (tileOf x) (fun t => { t with tlb := [e], freeze := 0, saves := [] })

/-- The same for a row of the opcode table: an operation of gallery cores alone goes to gallery core 0, every other one to
context 0. -/
def placeTableWord (nbits w : Nat) (s : State) : State :=
  match tableSlot nbits w with
  | none => s
  | some (sl, i) => placeWord (if galleryOp i then 512 else 0) (soloWords sl (BitVec.ofNat 64 w) none) s

end Sys2Proof.Machine
end

