-- ==== Sys2Proof/Machine/Dispatch.lean ====
section
/-! DEFINITION. The meaning of every constructor of `Instr`. -/

namespace Sys2Proof.Machine

/-- The dispatch: one arm per constructor. -/
def exec (i : Instr) (s : State) : Host.Outcome State Fault Refusal :=
  match i with
  | .add f => Sys2Proof.Machine.execAdd f s
  | .sub f => Sys2Proof.Machine.execSub f s
  | .and f => Sys2Proof.Machine.execAnd f s
  | .or f => Sys2Proof.Machine.execOr f s
  | .xor f => Sys2Proof.Machine.execXor f s
  | .andn f => Sys2Proof.Machine.execAndn f s
  | .shl f => Sys2Proof.Machine.execShl f s
  | .shr f => Sys2Proof.Machine.execShr f s
  | .sra f => Sys2Proof.Machine.execSra f s
  | .min f => Sys2Proof.Machine.execMin f s
  | .minu f => Sys2Proof.Machine.execMinu f s
  | .max f => Sys2Proof.Machine.execMax f s
  | .maxu f => Sys2Proof.Machine.execMaxu f s
  | .abs f => Sys2Proof.Machine.execAbs f s
  | .clz f => Sys2Proof.Machine.execClz f s
  | .popc f => Sys2Proof.Machine.execPopc f s
  | .cmp f => Sys2Proof.Machine.execCmp f s
  | .addi f => Sys2Proof.Machine.execAddi f s
  | .andi f => Sys2Proof.Machine.execAndi f s
  | .ori f => Sys2Proof.Machine.execOri f s
  | .xori f => Sys2Proof.Machine.execXori f s
  | .shli f => Sys2Proof.Machine.execShli f s
  | .shri f => Sys2Proof.Machine.execShri f s
  | .srai f => Sys2Proof.Machine.execSrai f s
  | .movi f => Sys2Proof.Machine.execMovi f s
  | .movhi f => Sys2Proof.Machine.execMovhi f s
  | .mul f => Sys2Proof.Machine.execMul f s
  | .mulh f => Sys2Proof.Machine.execMulh f s
  | .mulhu f => Sys2Proof.Machine.execMulhu f s
  | .mulhsu f => Sys2Proof.Machine.execMulhsu f s
  | .madd f => Sys2Proof.Machine.execMadd f s
  | .sel f => Sys2Proof.Machine.execSel f s
  | .bfx f => Sys2Proof.Machine.execBfx f s
  | .bfxs f => Sys2Proof.Machine.execBfxs f s
  | .bfi f => Sys2Proof.Machine.execBfi f s
  | .lea f => Sys2Proof.Machine.execLea f s
  | .ld f => Sys2Proof.Machine.execLd f s
  | .lds f => Sys2Proof.Machine.execLds f s
  | .st f => Sys2Proof.Machine.execSt f s
  | .ldx f => Sys2Proof.Machine.execLdx f s
  | .ldxs f => Sys2Proof.Machine.execLdxs f s
  | .stx f => Sys2Proof.Machine.execStx f s
  | .aspq f => Sys2Proof.Machine.execAspq f s
  | .aspc f => Sys2Proof.Machine.execAspc f s
  | .xfera f => Sys2Proof.Machine.execXfera f s
  | .rdcr f => Sys2Proof.Machine.execRdcr f s
  | .wrcr f => Sys2Proof.Machine.execWrcr f s
  | .setcr f => Sys2Proof.Machine.execSetcr f s
  | .clrcr f => Sys2Proof.Machine.execClrcr f s
  | .addpc f => Sys2Proof.Machine.execAddpc f s
  | .muli f => Sys2Proof.Machine.execMuli f s
  | .ext f => Sys2Proof.Machine.execExt f s
  | .greq f => Sys2Proof.Machine.execGreq f s
  | .gwr f => Sys2Proof.Machine.execGwr f s
  | .gwrm f => Sys2Proof.Machine.execGwrm f s
  | .gtagwT f => Sys2Proof.Machine.execGtagwT f s
  | .gtagwC f => Sys2Proof.Machine.execGtagwC f s
  | .gtagq f => Sys2Proof.Machine.execGtagq f s
  | .gbin f => Sys2Proof.Machine.execGbin f s
  | .gbdrain f => Sys2Proof.Machine.execGbdrain f s
  | .gbdrainClr f => Sys2Proof.Machine.execGbdrainClr f s
  | .gdedup f => Sys2Proof.Machine.execGdedup f s
  | .gdedupClr f => Sys2Proof.Machine.execGdedupClr f s
  | .gpool f => Sys2Proof.Machine.execGpool f s
  | .gprnd f => Sys2Proof.Machine.execGprnd f s
  | .ghand f => Sys2Proof.Machine.execGhand f s
  | .gfence f => Sys2Proof.Machine.execGfence f s
  | .br f => Sys2Proof.Machine.execBr f s
  | .call f => Sys2Proof.Machine.execCall f s
  | .ret f => Sys2Proof.Machine.execRet f s
  | .brx f => Sys2Proof.Machine.execBrx f s
  | .loop f => Sys2Proof.Machine.execLoop f s
  | .loopr f => Sys2Proof.Machine.execLoopr f s
  | .loops f => Sys2Proof.Machine.execLoops f s
  | .waitc f => Sys2Proof.Machine.execWaitc f s
  | .wait f => Sys2Proof.Machine.execWait f s
  | .fence f => Sys2Proof.Machine.execFence f s
  | .acquire f => Sys2Proof.Machine.execAcquire f s
  | .acquireX f => Sys2Proof.Machine.execAcquireX f s
  | .release f => Sys2Proof.Machine.execRelease f s
  | .releaseX f => Sys2Proof.Machine.execReleaseX f s
  | .bind f => Sys2Proof.Machine.execBind f s
  | .unbind f => Sys2Proof.Machine.execUnbind f s
  | .unbindAll f => Sys2Proof.Machine.execUnbindAll f s
  | .atom f => Sys2Proof.Machine.execAtom f s
  | .atomnr f => Sys2Proof.Machine.execAtomnr f s
  | .atomcas f => Sys2Proof.Machine.execAtomcas f s
  | .join f => Sys2Proof.Machine.execJoin f s
  | .pwait f => Sys2Proof.Machine.execPwait f s
  | .evwait f => Sys2Proof.Machine.execEvwait f s
  | .yield f => Sys2Proof.Machine.execYield f s
  | .exit f => Sys2Proof.Machine.execExit f s
  | .trap f => Sys2Proof.Machine.execTrap f s
  | .eret f => Sys2Proof.Machine.execEret f s
  | .svc f => Sys2Proof.Machine.execSvc f s
  | .bkpt f => Sys2Proof.Machine.execBkpt f s
  | .plog f => Sys2Proof.Machine.execPlog f s
  | .vmlog f => Sys2Proof.Machine.execVmlog f s
  | .lci f => Sys2Proof.Machine.execLci f s
  | .xferb f => Sys2Proof.Machine.execXferb f s
  | .stkclr f => Sys2Proof.Machine.execStkclr f s
  | .ifence f => Sys2Proof.Machine.execIfence f s
  | .calwait f => Sys2Proof.Machine.execCalwait f s
  | .vadd f => Sys2Proof.Machine.execVadd f s
  | .vsub f => Sys2Proof.Machine.execVsub f s
  | .vmul f => Sys2Proof.Machine.execVmul f s
  | .vfma f => Sys2Proof.Machine.execVfma f s
  | .vfms f => Sys2Proof.Machine.execVfms f s
  | .vfnma f => Sys2Proof.Machine.execVfnma f s
  | .vmin f => Sys2Proof.Machine.execVmin f s
  | .vmax f => Sys2Proof.Machine.execVmax f s
  | .vabs f => Sys2Proof.Machine.execVabs f s
  | .vneg f => Sys2Proof.Machine.execVneg f s
  | .vand f => Sys2Proof.Machine.execVand f s
  | .vor f => Sys2Proof.Machine.execVor f s
  | .vxor f => Sys2Proof.Machine.execVxor f s
  | .vandn f => Sys2Proof.Machine.execVandn f s
  | .vshl f => Sys2Proof.Machine.execVshl f s
  | .vshr f => Sys2Proof.Machine.execVshr f s
  | .vsra f => Sys2Proof.Machine.execVsra f s
  | .vcmp f => Sys2Proof.Machine.execVcmp f s
  | .vsel f => Sys2Proof.Machine.execVsel f s
  | .vmov f => Sys2Proof.Machine.execVmov f s
  | .vbcst f => Sys2Proof.Machine.execVbcst f s
  | .vperm f => Sys2Proof.Machine.execVperm f s
  | .vslide f => Sys2Proof.Machine.execVslide f s
  | .vzip f => Sys2Proof.Machine.execVzip f s
  | .vunzip f => Sys2Proof.Machine.execVunzip f s
  | .vcvt f => Sys2Proof.Machine.execVcvt f s
  | .vpack f => Sys2Proof.Machine.execVpack f s
  | .vwiden f => Sys2Proof.Machine.execVwiden f s
  | .vqnt f => Sys2Proof.Machine.execVqnt f s
  | .vdqnt f => Sys2Proof.Machine.execVdqnt f s
  | .vamax f => Sys2Proof.Machine.execVamax f s
  | .vscale f => Sys2Proof.Machine.execVscale f s
  | .vrsum f => Sys2Proof.Machine.execVrsum f s
  | .vrmax f => Sys2Proof.Machine.execVrmax f s
  | .vrmin f => Sys2Proof.Machine.execVrmin f s
  | .vrdot f => Sys2Proof.Machine.execVrdot f s
  | .vlacc f => Sys2Proof.Machine.execVlacc f s
  | .vlarnd f => Sys2Proof.Machine.execVlarnd f s
  | .vclass f => Sys2Proof.Machine.execVclass f s
  | .vpopc f => Sys2Proof.Machine.execVpopc f s
  | .vclz f => Sys2Proof.Machine.execVclz f s
  | .vmaddi f => Sys2Proof.Machine.execVmaddi f s
  | .vabsd f => Sys2Proof.Machine.execVabsd f s
  | .vrcp f => Sys2Proof.Machine.execVrcp f s
  | .vrsq f => Sys2Proof.Machine.execVrsq f s
  | .vld f => Sys2Proof.Machine.execVld f s
  | .vst f => Sys2Proof.Machine.execVst f s
  | .vldx f => Sys2Proof.Machine.execVldx f s
  | .vstx f => Sys2Proof.Machine.execVstx f s
  | .vldb f => Sys2Proof.Machine.execVldb f s
  | .vlscale f => Sys2Proof.Machine.execVlscale f s
  | .xferv f => Sys2Proof.Machine.execXferv f s
  | .viota f => Sys2Proof.Machine.execViota f s
  | .vcpsgn f => Sys2Proof.Machine.execVcpsgn f s
  | .vrint f => Sys2Proof.Machine.execVrint f s
  | .mset f => Sys2Proof.Machine.execMset f s
  | .msetHi f => Sys2Proof.Machine.execMsetHi f s
  | .maddM f => Sys2Proof.Machine.execMaddM f s
  | .mmov f => Sys2Proof.Machine.execMmov f s
  | .xferm f => Sys2Proof.Machine.execXferm f s
  | .saff f => Sys2Proof.Machine.execSaff f s
  | .saffw f => Sys2Proof.Machine.execSaffw f s
  | .sind f => Sys2Proof.Machine.execSind f s
  | .sindw f => Sys2Proof.Machine.execSindw f s
  | .srec f => Sys2Proof.Machine.execSrec f s
  | .swin f => Sys2Proof.Machine.execSwin f s
  | .smcast f => Sys2Proof.Machine.execSmcast f s
  | .temit f => Sys2Proof.Machine.execTemit f s
  | .tcons f => Sys2Proof.Machine.execTcons f s
  | .scopy f => Sys2Proof.Machine.execScopy f s
  | .sfill f => Sys2Proof.Machine.execSfill f s
  | .scancel f => Sys2Proof.Machine.execScancel f s
  | .sbar f => Sys2Proof.Machine.execSbar f s
  | .swload f => Sys2Proof.Machine.execSwload f s
  | .swact f => Sys2Proof.Machine.execSwact f s
  | .cfgload f => Sys2Proof.Machine.execCfgload f s
  | .cfgact f => Sys2Proof.Machine.execCfgact f s
  | .afire f => Sys2Proof.Machine.execAfire f s
  | .aflush f => Sys2Proof.Machine.execAflush f s
  | .adepth f => Sys2Proof.Machine.execAdepth f s
  | .mnopen f => Sys2Proof.Machine.execMnopen f s
  | .mnfeed f => Sys2Proof.Machine.execMnfeed f s
  | .mnflush f => Sys2Proof.Machine.execMnflush f s
  | .mndrain f => Sys2Proof.Machine.execMndrain f s
  | .mnclose f => Sys2Proof.Machine.execMnclose f s
  | .mncloseA f => Sys2Proof.Machine.execMncloseA f s
  | .nsdot f => Sys2Proof.Machine.execNsdot f s
  | .launch f => Sys2Proof.Machine.execLaunch f s
  | .spawn f => Sys2Proof.Machine.execSpawn f s
  | .jinit f => Sys2Proof.Machine.execJinit f s
  | .pgreq f => Sys2Proof.Machine.execPgreq f s
  | .pgreqRel f => Sys2Proof.Machine.execPgreqRel f s
  | .spref f => Sys2Proof.Machine.execSpref f s
  | .grecv f => Sys2Proof.Machine.execGrecv f s
  | .sdual f => Sys2Proof.Machine.execSdual f s
  | .sstat f => Sys2Proof.Machine.execSstat f s
  | .lapin f => Sys2Proof.Machine.execLapin f s
  | .lapinRel f => Sys2Proof.Machine.execLapinRel f s
  | .publish f => Sys2Proof.Machine.execPublish f s
  | .cfgpref f => Sys2Proof.Machine.execCfgpref f s
  | .trapEntry t => Sys2Proof.Machine.execTrapEntry t s
  | .sfpendWrite v => Sys2Proof.Machine.execSfpendWrite v s
  | .jobStart v => Sys2Proof.Machine.execJobStart v s
  | .dramRequest r => Sys2Proof.Machine.execDramRequest r s
  | .correctableError u => Sys2Proof.Machine.execCorrectableError u s
  | .uncorrectableError u => Sys2Proof.Machine.execUncorrectableError u s
  | .fatalError kind d idx => Sys2Proof.Machine.execFatalError kind d idx s
  | .linkDown l => Sys2Proof.Machine.execLinkDown l s
  | .peerAccess r => Sys2Proof.Machine.execPeerAccess r s
  | .hostWindowWrite pa data => Sys2Proof.Machine.execHostWindowWrite pa data s
  | .tlbinvAsid asid => Sys2Proof.Machine.execTlbinvAsid asid s
  | .tlbinvRange asid npage => Sys2Proof.Machine.execTlbinvRange asid npage s
  | .ownset v => Sys2Proof.Machine.execOwnset v s
  | .mailboxExtend r digest => Sys2Proof.Machine.execMailboxExtend r digest s
  | .mailboxQuote nonce => Sys2Proof.Machine.execMailboxQuote nonce s
  | .mgmtRegWrite off v => Sys2Proof.Machine.execMgmtRegWrite off v s
  | .bringup img => Sys2Proof.Machine.execBringup img s
  | .linkUp l => Sys2Proof.Machine.execLinkUp l s
  | .qcmdInvalidCommand cmd => Sys2Proof.Machine.execQcmdInvalidCommand cmd s
  | .pctlInvalidCommand cmd => Sys2Proof.Machine.execPctlInvalidCommand cmd s
  | .bundleIssue => Sys2Proof.Machine.execBundleIssue s
  | .resultArrives => Sys2Proof.Machine.execResultArrives s
  | .yieldEnd => Sys2Proof.Machine.execYieldEnd s
  | .feTimeout => Sys2Proof.Machine.execFeTimeout s
  | .stepEntry => Sys2Proof.Machine.execStepEntry s
  | .stepRetire => Sys2Proof.Machine.execStepRetire s
  | .stepPark => Sys2Proof.Machine.execStepPark s
  | .queueReaderCopy => Sys2Proof.Machine.execQueueReaderCopy s
  | .launchRecordCheck => Sys2Proof.Machine.execLaunchRecordCheck s
  | .quantumGrant => Sys2Proof.Machine.execQuantumGrant s
  | .stepPlace => Sys2Proof.Machine.execStepPlace s
  | .teamRelease => Sys2Proof.Machine.execTeamRelease s
  | .launchComplete => Sys2Proof.Machine.execLaunchComplete s
  | .qcmdEnable => Sys2Proof.Machine.execQcmdEnable s
  | .qcmdHalt => Sys2Proof.Machine.execQcmdHalt s
  | .qcmdResume => Sys2Proof.Machine.execQcmdResume s
  | .qcmdDestroy => Sys2Proof.Machine.execQcmdDestroy s
  | .qcmdDoorbell => Sys2Proof.Machine.execQcmdDoorbell s
  | .queueDestroyed => Sys2Proof.Machine.execQueueDestroyed s
  | .launchEnqueue => Sys2Proof.Machine.execLaunchEnqueue s
  | .streamStart => Sys2Proof.Machine.execStreamStart s
  | .elementBlockTransfer => Sys2Proof.Machine.execElementBlockTransfer s
  | .streamComplete => Sys2Proof.Machine.execStreamComplete s
  | .temitSend => Sys2Proof.Machine.execTemitSend s
  | .circuitTransfer => Sys2Proof.Machine.execCircuitTransfer s
  | .followOnArm => Sys2Proof.Machine.execFollowOnArm s
  | .publishCounterWrite => Sys2Proof.Machine.execPublishCounterWrite s
  | .operatorFire => Sys2Proof.Machine.execOperatorFire s
  | .tokenArrive => Sys2Proof.Machine.execTokenArrive s
  | .runStart => Sys2Proof.Machine.execRunStart s
  | .peSwitch => Sys2Proof.Machine.execPeSwitch s
  | .cfgImageLanded => Sys2Proof.Machine.execCfgImageLanded s
  | .edgeDepthChange => Sys2Proof.Machine.execEdgeDepthChange s
  | .aflushNulEnter => Sys2Proof.Machine.execAflushNulEnter s
  | .saveDrainQuiet => Sys2Proof.Machine.execSaveDrainQuiet s
  | .mnFeedArrive => Sys2Proof.Machine.execMnFeedArrive s
  | .mnReady => Sys2Proof.Machine.execMnReady s
  | .mnDrainRun => Sys2Proof.Machine.execMnDrainRun s
  | .mnAutoclose => Sys2Proof.Machine.execMnAutoclose s
  | .syncOperation => Sys2Proof.Machine.execSyncOperation s
  | .remoteWaiterRetry => Sys2Proof.Machine.execRemoteWaiterRetry s
  | .jobComplete => Sys2Proof.Machine.execJobComplete s
  | .packetComplete => Sys2Proof.Machine.execPacketComplete s
  | .handoffTake => Sys2Proof.Machine.execHandoffTake s
  | .riserStart => Sys2Proof.Machine.execRiserStart s
  | .landingStart => Sys2Proof.Machine.execLandingStart s
  | .landingEnd => Sys2Proof.Machine.execLandingEnd s
  | .maintOverrun => Sys2Proof.Machine.execMaintOverrun s
  | .freezeEnd => Sys2Proof.Machine.execFreezeEnd s
  | .pgrantArrive => Sys2Proof.Machine.execPgrantArrive s
  | .preemptSave => Sys2Proof.Machine.execPreemptSave s
  | .saveComplete => Sys2Proof.Machine.execSaveComplete s
  | .saveDeadlineExpire => Sys2Proof.Machine.execSaveDeadlineExpire s
  | .stepRestore => Sys2Proof.Machine.execStepRestore s
  | .shootdownDone => Sys2Proof.Machine.execShootdownDone s
  | .linkLossTimeout => Sys2Proof.Machine.execLinkLossTimeout s
  | .tlbinvAll => Sys2Proof.Machine.execTlbinvAll s
  | .tlbinvKind3 => Sys2Proof.Machine.execTlbinvKind3 s
  | .pctlContext => Sys2Proof.Machine.execPctlContext s
  | .pctlQueue => Sys2Proof.Machine.execPctlQueue s
  | .pctlPackageSave => Sys2Proof.Machine.execPctlPackageSave s
  | .synchostAdd => Sys2Proof.Machine.execSynchostAdd s
  | .synchostAnd => Sys2Proof.Machine.execSynchostAnd s
  | .synchostOr => Sys2Proof.Machine.execSynchostOr s
  | .synchostXor => Sys2Proof.Machine.execSynchostXor s
  | .synchostMinu => Sys2Proof.Machine.execSynchostMinu s
  | .synchostMaxu => Sys2Proof.Machine.execSynchostMaxu s
  | .synchostMini => Sys2Proof.Machine.execSynchostMini s
  | .synchostMaxi => Sys2Proof.Machine.execSynchostMaxi s
  | .synchostSwap => Sys2Proof.Machine.execSynchostSwap s
  | .synchostRead => Sys2Proof.Machine.execSynchostRead s
  | .packageResume => Sys2Proof.Machine.execPackageResume s
  | .debugResume => Sys2Proof.Machine.execDebugResume s
  | .mailboxCommit => Sys2Proof.Machine.execMailboxCommit s
  | .mailboxExportKey => Sys2Proof.Machine.execMailboxExportKey s
  | .coldReset => Sys2Proof.Machine.execColdReset s
  | .warmReset => Sys2Proof.Machine.execWarmReset s
  | .anop => Sys2Proof.Machine.execAnop s
  | .bnop => Sys2Proof.Machine.execBnop s
  | .vnop => Sys2Proof.Machine.execVnop s
  | .mnop => Sys2Proof.Machine.execMnop s
  | .parkedSyncComplete => Sys2Proof.Machine.execParkedSyncComplete s
  | .synchostRefused => Sys2Proof.Machine.execSynchostRefused s
  | .enginePauseEnd => Sys2Proof.Machine.execEnginePauseEnd s

end Sys2Proof.Machine
end

