-- ==== Sys2Proof/Machine/Step.lean ====
section
/-! DEFINITION. One step: the next operation or event of the cycle runs, or the agenda is made for what follows. -/

namespace Sys2Proof.Machine

/-- One step of the machine (log entry 2): the head of the agenda, removed from it, or, where none is left, the merge
stages of the cycle or the start of the next. A bundle is fetched, decoded and issued by BUNDLE_ISSUE. -/
def step (s : State) : Host.Outcome State Fault Refusal :=
  match s.takeDue with
  | some (i, s) => exec i s
  | none => .next s.plan

/-- The state with one opcode-table word where the very next step fetches and issues it (log entry 22). -/
def State.withFetchWord (s : State) (nbits w : Nat) : State := placeTableWord nbits w s

end Sys2Proof.Machine
end

