-- ==== Sys2Proof/Laws/PerInstr.lean ====
section
/-! SUPPORT. The round trip of the encoder and the decoder, per instruction: the word and extension of a well-formed slot
operation decode to it. One lemma a word layout, one a constructor. -/

namespace Sys2Proof.Laws.RoundTrip

/-- The word of an instruction decodes to it; an event of the machine has none. -/
def Statement (i : Instr) : Prop :=
  ∀ sl w e, i.wf = true → encode i = some (sl, w, e) → decodeSlot sl w e = .ok i

theorem cut_low {v w : Nat} {x : BitVec v} {y : BitVec w} {s n : Nat} (h : s + n ≤ w) : fld (x ++ y) s n = fld y s n :=
  BitVec.extractLsb'_append_eq_of_add_le h

theorem cut_high {v w : Nat} {x : BitVec v} {y : BitVec w} {s n : Nat} (h : w ≤ s) : fld (x ++ y) s n = fld x (s - w) n :=
  BitVec.extractLsb'_append_eq_of_le h

theorem fld_all {n : Nat} (x : BitVec n) : fld x 0 n = x := BitVec.extractLsb'_eq_self

theorem slot_a (w : BitVec 32) (e : Option W32) : decodeSlot .a (w.setWidth 64) e = decodeA w e := by
  rw [decodeSlot, BitVec.setWidth_setWidth_of_le _ (by decide), BitVec.setWidth_eq]

theorem slot_b (w : BitVec 32) (e : Option W32) : decodeSlot .b (w.setWidth 64) e = decodeB w e := by
  rw [decodeSlot, BitVec.setWidth_setWidth_of_le _ (by decide), BitVec.setWidth_eq]

theorem accepted {z : Bool} {i j : Instr} (hz : z = true) (hi : i = j) (hw : j.wf = true) : accept z i = .ok j := by
  subst hi; simp [accept, hz, hw]

/-! ### Word layouts -/

theorem wordAR (op : BitVec 6) (f : AR) :
    let w := op ++ f.rd ++ f.ra ++ f.rb ++ 0#4 ++ f.gp
    fld w 26 6 = op ∧ ofAR w = f ∧ (fld w 4 4 == 0) = true := by
  refine ⟨?_, ?_, ?_⟩
  · simp (disch := decide) only [cut_high, fld_all, Nat.reduceSub]
  · simp (disch := decide) only [ofAR, cut_low, cut_high, fld_all, Nat.reduceSub]
  · simp (disch := decide) only [cut_low, cut_high]; rfl

theorem wordAR2 (op : BitVec 6) (f : AR) :
    let w := op ++ f.rd ++ f.ra ++ f.rb ++ 1#4 ++ f.gp
    fld w 26 6 = op ∧ ofAR w = f ∧ (fld w 4 4 == 1) = true ∧ (fld w 4 4 == 0) = false := by
  refine ⟨?_, ?_, ?_, ?_⟩
  · simp (disch := decide) only [cut_high, fld_all, Nat.reduceSub]
  · simp (disch := decide) only [ofAR, cut_low, cut_high, fld_all, Nat.reduceSub]
  · simp (disch := decide) only [cut_low, cut_high]; rfl
  · simp (disch := decide) only [cut_low, cut_high]; rfl

theorem wordAR1 (op : BitVec 6) (f : AR1) :
    let w := op ++ f.rd ++ f.ra ++ 0#6 ++ 0#4 ++ f.gp
    fld w 26 6 = op ∧ ofAR1 w = f ∧ (zeroAR1 w) = true ∧ (fld w 4 4 == 0) = true := by
  refine ⟨?_, ?_, ?_, ?_⟩
  · simp (disch := decide) only [cut_high, fld_all, Nat.reduceSub]
  · simp (disch := decide) only [ofAR1, cut_low, cut_high, fld_all, Nat.reduceSub]
  · simp (disch := decide) only [zeroAR1, cut_low, cut_high]; rfl
  · simp (disch := decide) only [cut_low, cut_high]; rfl

theorem wordARn (op : BitVec 6) (f : ARn) :
    let w := op ++ f.rd ++ f.ra ++ f.rb ++ f.fn ++ f.gp
    fld w 26 6 = op ∧ ofARn w = f := by
  refine ⟨?_, ?_⟩
  · simp (disch := decide) only [cut_high, fld_all, Nat.reduceSub]
  · simp (disch := decide) only [ofARn, cut_low, cut_high, fld_all, Nat.reduceSub]

theorem wordAI (op : BitVec 6) (f : AI) :
    let w := op ++ f.rd ++ f.ra ++ f.imm ++ f.gp
    fld w 26 6 = op ∧ ofAI w f.ext = f := by
  refine ⟨?_, ?_⟩
  · simp (disch := decide) only [cut_high, fld_all, Nat.reduceSub]
  · simp (disch := decide) only [ofAI, cut_low, cut_high, fld_all, Nat.reduceSub]

theorem wordAI0 (op : BitVec 6) (f : AI0) :
    let w := op ++ f.rd ++ 0#6 ++ f.imm ++ f.gp
    fld w 26 6 = op ∧ ofAI0 w f.ext = f ∧ (zeroAI0 w) = true := by
  refine ⟨?_, ?_, ?_⟩
  · simp (disch := decide) only [cut_high, fld_all, Nat.reduceSub]
  · simp (disch := decide) only [ofAI0, cut_low, cut_high, fld_all, Nat.reduceSub]
  · simp (disch := decide) only [zeroAI0, cut_low, cut_high]; rfl

theorem wordAR3 (op : BitVec 6) (f : AR) :
    let w := op ++ f.rd ++ f.ra ++ f.rb ++ 2#4 ++ f.gp
    fld w 26 6 = op ∧ ofAR w = f ∧ (fld w 4 4 == 2) = true ∧ (fld w 4 4 == 0) = false ∧ (fld w 4 4 == 1) = false := by
  refine ⟨?_, ?_, ?_, ?_, ?_⟩
  · simp (disch := decide) only [cut_high, fld_all, Nat.reduceSub]
  · simp (disch := decide) only [ofAR, cut_low, cut_high, fld_all, Nat.reduceSub]
  · simp (disch := decide) only [cut_low, cut_high]; rfl
  · simp (disch := decide) only [cut_low, cut_high]; rfl
  · simp (disch := decide) only [cut_low, cut_high]; rfl

theorem wordAM (op : BitVec 6) (f : AM) :
    let w := op ++ f.rd ++ f.ra ++ f.step ++ f.sz ++ f.q ++ f.gp
    fld w 26 6 = op ∧ ofAM w f.ext = f := by
  refine ⟨?_, ?_⟩
  · simp (disch := decide) only [cut_high, fld_all, Nat.reduceSub]
  · simp (disch := decide) only [ofAM, cut_low, cut_high, fld_all, Nat.reduceSub]

theorem wordAX (op : BitVec 6) (f : AX) :
    let w := op ++ f.rd ++ f.ra ++ f.rb ++ f.sz ++ f.q ++ f.gp
    fld w 26 6 = op ∧ ofAX w = f := by
  refine ⟨?_, ?_⟩
  · simp (disch := decide) only [cut_high, fld_all, Nat.reduceSub]
  · simp (disch := decide) only [ofAX, cut_low, cut_high, fld_all, Nat.reduceSub]

theorem wordAR1n (op : BitVec 6) (f : AR1n) :
    let w := op ++ f.rd ++ f.ra ++ 0#6 ++ f.fn ++ f.gp
    fld w 26 6 = op ∧ ofAR1n w = f ∧ (zeroAR1n w) = true := by
  refine ⟨?_, ?_, ?_⟩
  · simp (disch := decide) only [cut_high, fld_all, Nat.reduceSub]
  · simp (disch := decide) only [ofAR1n, cut_low, cut_high, fld_all, Nat.reduceSub]
  · simp (disch := decide) only [zeroAR1n, cut_low, cut_high]; rfl

theorem wordAT (op : BitVec 6) (f : AT) :
    let w := op ++ f.rd ++ f.sf ++ f.src ++ f.sel ++ f.gp
    fld w 26 6 = op ∧ ofAT w = f := by
  refine ⟨?_, ?_⟩
  · simp (disch := decide) only [cut_high, fld_all, Nat.reduceSub]
  · simp (disch := decide) only [ofAT, cut_low, cut_high, fld_all, Nat.reduceSub]

theorem wordACRr (op : BitVec 6) (f : ACR) :
    let w := op ++ f.reg ++ 0#6 ++ f.num ++ f.gp
    fld w 26 6 = op ∧ ofACRr w = f ∧ (zeroACRr w) = true := by
  refine ⟨?_, ?_, ?_⟩
  · simp (disch := decide) only [cut_high, fld_all, Nat.reduceSub]
  · simp (disch := decide) only [ofACRr, cut_low, cut_high, fld_all, Nat.reduceSub]
  · simp (disch := decide) only [zeroACRr, cut_low, cut_high]; rfl

theorem wordACRw (op : BitVec 6) (f : ACR) :
    let w := op ++ 0#6 ++ f.reg ++ f.num ++ f.gp
    fld w 26 6 = op ∧ ofACRw w = f ∧ (zeroACRw w) = true := by
  refine ⟨?_, ?_, ?_⟩
  · simp (disch := decide) only [cut_high, fld_all, Nat.reduceSub]
  · simp (disch := decide) only [ofACRw, cut_low, cut_high, fld_all, Nat.reduceSub]
  · simp (disch := decide) only [zeroACRw, cut_low, cut_high]; rfl

theorem wordAR12 (op : BitVec 6) (f : AR1) :
    let w := op ++ f.rd ++ f.ra ++ 0#6 ++ 1#4 ++ f.gp
    fld w 26 6 = op ∧ ofAR1 w = f ∧ (zeroAR1 w) = true ∧ (fld w 4 4 == 1) = true ∧ (fld w 4 4 == 0) = false := by
  refine ⟨?_, ?_, ?_, ?_, ?_⟩
  · simp (disch := decide) only [cut_high, fld_all, Nat.reduceSub]
  · simp (disch := decide) only [ofAR1, cut_low, cut_high, fld_all, Nat.reduceSub]
  · simp (disch := decide) only [zeroAR1, cut_low, cut_high]; rfl
  · simp (disch := decide) only [cut_low, cut_high]; rfl
  · simp (disch := decide) only [cut_low, cut_high]; rfl

theorem wordAD (op : BitVec 6) (f : AD) :
    let w := op ++ f.rd ++ 0#12 ++ 0#4 ++ f.gp
    fld w 26 6 = op ∧ ofAD w = f ∧ (zeroAD w) = true ∧ (fld w 4 4 == 0) = true := by
  refine ⟨?_, ?_, ?_, ?_⟩
  · simp (disch := decide) only [cut_high, fld_all, Nat.reduceSub]
  · simp (disch := decide) only [ofAD, cut_low, cut_high, fld_all, Nat.reduceSub]
  · simp (disch := decide) only [zeroAD, cut_low, cut_high]; rfl
  · simp (disch := decide) only [cut_low, cut_high]; rfl

theorem wordAD2 (op : BitVec 6) (f : AD) :
    let w := op ++ f.rd ++ 0#12 ++ 1#4 ++ f.gp
    fld w 26 6 = op ∧ ofAD w = f ∧ (zeroAD w) = true ∧ (fld w 4 4 == 1) = true ∧ (fld w 4 4 == 0) = false := by
  refine ⟨?_, ?_, ?_, ?_, ?_⟩
  · simp (disch := decide) only [cut_high, fld_all, Nat.reduceSub]
  · simp (disch := decide) only [ofAD, cut_low, cut_high, fld_all, Nat.reduceSub]
  · simp (disch := decide) only [zeroAD, cut_low, cut_high]; rfl
  · simp (disch := decide) only [cut_low, cut_high]; rfl
  · simp (disch := decide) only [cut_low, cut_high]; rfl

theorem wordASn (op : BitVec 6) (f : ASn) :
    let w := op ++ 0#6 ++ f.ra ++ f.rb ++ f.fn ++ f.gp
    fld w 26 6 = op ∧ ofASn w = f ∧ (zeroASn w) = true := by
  refine ⟨?_, ?_, ?_⟩
  · simp (disch := decide) only [cut_high, fld_all, Nat.reduceSub]
  · simp (disch := decide) only [ofASn, cut_low, cut_high, fld_all, Nat.reduceSub]
  · simp (disch := decide) only [zeroASn, cut_low, cut_high]; rfl

theorem wordAS1 (op : BitVec 6) (f : AS1) :
    let w := op ++ 0#6 ++ f.ra ++ 0#10 ++ f.gp
    fld w 26 6 = op ∧ ofAS1 w = f ∧ (zeroAS1 w) = true := by
  refine ⟨?_, ?_, ?_⟩
  · simp (disch := decide) only [cut_high, fld_all, Nat.reduceSub]
  · simp (disch := decide) only [ofAS1, cut_low, cut_high, fld_all, Nat.reduceSub]
  · simp (disch := decide) only [zeroAS1, cut_low, cut_high]; rfl

theorem wordBJ (op : BitVec 6) (f : BJ) :
    let w := op ++ f.gp ++ f.gn ++ f.ofs
    fld w 26 6 = op ∧ ofBJ w f.ext = f := by
  refine ⟨?_, ?_⟩
  · simp (disch := decide) only [cut_high, fld_all, Nat.reduceSub]
  · simp (disch := decide) only [ofBJ, cut_low, cut_high, fld_all, Nat.reduceSub]

theorem wordBG (op : BitVec 6) (f : BG) :
    let w := op ++ f.gp ++ f.gn ++ 0#12 ++ 0#9
    fld w 26 6 = op ∧ ofBG w = f ∧ (zeroBG w) = true ∧ (fld w 0 9 == 0) = true := by
  refine ⟨?_, ?_, ?_, ?_⟩
  · simp (disch := decide) only [cut_high, fld_all, Nat.reduceSub]
  · simp (disch := decide) only [ofBG, cut_low, cut_high, fld_all, Nat.reduceSub]
  · simp (disch := decide) only [zeroBG, cut_low, cut_high]; rfl
  · simp (disch := decide) only [cut_low, cut_high]; rfl

theorem wordBL (op : BitVec 6) (f : BL) :
    let w := op ++ f.lc ++ f.cnt ++ f.last
    fld w 26 6 = op ∧ ofBL w f.ext = f := by
  refine ⟨?_, ?_⟩
  · simp (disch := decide) only [cut_high, fld_all, Nat.reduceSub]
  · simp (disch := decide) only [ofBL, cut_low, cut_high, fld_all, Nat.reduceSub]

theorem wordBLr (op : BitVec 6) (f : BLr) :
    let w := op ++ f.lc ++ 0#12 ++ f.last
    fld w 26 6 = op ∧ ofBLr w f.ext = f ∧ (zeroBLr w) = true := by
  refine ⟨?_, ?_, ?_⟩
  · simp (disch := decide) only [cut_high, fld_all, Nat.reduceSub]
  · simp (disch := decide) only [ofBLr, cut_low, cut_high, fld_all, Nat.reduceSub]
  · simp (disch := decide) only [zeroBLr, cut_low, cut_high]; rfl

theorem wordBLs (op : BitVec 6) (f : BLs) :
    let w := op ++ f.lc ++ 0#8 ++ f.hnd ++ f.last
    fld w 26 6 = op ∧ ofBLs w f.ext = f ∧ (zeroBLs w) = true := by
  refine ⟨?_, ?_, ?_⟩
  · simp (disch := decide) only [cut_high, fld_all, Nat.reduceSub]
  · simp (disch := decide) only [ofBLs, cut_low, cut_high, fld_all, Nat.reduceSub]
  · simp (disch := decide) only [zeroBLs, cut_low, cut_high]; rfl

theorem wordBW (op : BitVec 6) (f : BW) :
    let w := op ++ f.gp ++ 0#2 ++ f.nld ++ f.nst ++ f.nstr ++ f.narr ++ f.nsync
    fld w 26 6 = op ∧ ofBW w = f ∧ (zeroBW w) = true := by
  refine ⟨?_, ?_, ?_⟩
  · simp (disch := decide) only [cut_high, fld_all, Nat.reduceSub]
  · simp (disch := decide) only [ofBW, cut_low, cut_high, fld_all, Nat.reduceSub]
  · simp (disch := decide) only [zeroBW, cut_low, cut_high]; rfl

theorem wordBSy (op : BitVec 6) (f : BSy) :
    let w := op ++ f.gp ++ f.gn ++ f.va ++ f.vb ++ f.vd ++ f.imm ++ 0#4 ++ f.fn
    fld w 26 6 = op ∧ ofBSy w f.ext = f ∧ (zeroBSy w) = true ∧ fld w 0 4 = f.fn := by
  refine ⟨?_, ?_, ?_, ?_⟩
  · simp (disch := decide) only [cut_high, fld_all, Nat.reduceSub]
  · simp (disch := decide) only [ofBSy, cut_low, cut_high, fld_all, Nat.reduceSub]
  · simp (disch := decide) only [zeroBSy, cut_low, cut_high]; rfl
  · simp (disch := decide) only [cut_low, fld_all]

theorem wordBFe (op : BitVec 6) (f : BFe) :
    let w := op ++ f.gp ++ f.gn ++ 0#18 ++ f.scope
    fld w 26 6 = op ∧ ofBFe w = f ∧ (zeroBFe w) = true := by
  refine ⟨?_, ?_, ?_⟩
  · simp (disch := decide) only [cut_high, fld_all, Nat.reduceSub]
  · simp (disch := decide) only [ofBFe, cut_low, cut_high, fld_all, Nat.reduceSub]
  · simp (disch := decide) only [zeroBFe, cut_low, cut_high]; rfl

theorem wordBPt (op : BitVec 6) (f : BPt) :
    let w := op ++ f.gp ++ f.gn ++ f.va ++ 0#8 ++ 2#9
    fld w 26 6 = op ∧ ofBPt w = f ∧ (zeroBPt w) = true ∧ (fld w 0 9 == 2) = true ∧ (fld w 0 4 == 2) = true := by
  refine ⟨?_, ?_, ?_, ?_, ?_⟩
  · simp (disch := decide) only [cut_high, fld_all, Nat.reduceSub]
  · simp (disch := decide) only [ofBPt, cut_low, cut_high, fld_all, Nat.reduceSub]
  · simp (disch := decide) only [zeroBPt, cut_low, cut_high]; rfl
  · simp (disch := decide) only [cut_low, cut_high]; rfl
  · simp (disch := decide) only [cut_low, cut_high]; rfl

theorem wordBSn (op : BitVec 6) (f : BSn) :
    let w := op ++ f.gp ++ f.gn ++ f.va ++ f.vb ++ 0#4 ++ f.imm ++ 0#4 ++ f.fn
    fld w 26 6 = op ∧ ofBSn w f.ext = f ∧ (zeroBSn w) = true ∧ fld w 0 4 = f.fn := by
  refine ⟨?_, ?_, ?_, ?_⟩
  · simp (disch := decide) only [cut_high, fld_all, Nat.reduceSub]
  · simp (disch := decide) only [ofBSn, cut_low, cut_high, fld_all, Nat.reduceSub]
  · simp (disch := decide) only [zeroBSn, cut_low, cut_high]; rfl
  · simp (disch := decide) only [cut_low, fld_all]

theorem wordBBi (op : BitVec 6) (f : BBi) :
    let w := op ++ f.gp ++ f.gn ++ f.va ++ f.vb ++ f.vd ++ 0#6 ++ f.scope
    fld w 26 6 = op ∧ ofBBi w = f ∧ (zeroBBi w) = true := by
  refine ⟨?_, ?_, ?_⟩
  · simp (disch := decide) only [cut_high, fld_all, Nat.reduceSub]
  · simp (disch := decide) only [ofBBi, cut_low, cut_high, fld_all, Nat.reduceSub]
  · simp (disch := decide) only [zeroBBi, cut_low, cut_high]; rfl

theorem wordBPt2 (op : BitVec 6) (f : BPt) :
    let w := op ++ f.gp ++ f.gn ++ f.va ++ 0#8 ++ 0#9
    fld w 26 6 = op ∧ ofBPt w = f ∧ (zeroBPt w) = true ∧ (fld w 0 9 == 0) = true ∧ (fld w 0 1 == 1) = false := by
  refine ⟨?_, ?_, ?_, ?_, ?_⟩
  · simp (disch := decide) only [cut_high, fld_all, Nat.reduceSub]
  · simp (disch := decide) only [ofBPt, cut_low, cut_high, fld_all, Nat.reduceSub]
  · simp (disch := decide) only [zeroBPt, cut_low, cut_high]; rfl
  · simp (disch := decide) only [cut_low, cut_high]; rfl
  · simp (disch := decide) only [cut_low, cut_high]; rfl

theorem wordBG2 (op : BitVec 6) (f : BG) :
    let w := op ++ f.gp ++ f.gn ++ 0#12 ++ 1#9
    fld w 26 6 = op ∧ ofBG w = f ∧ (zeroBG w) = true ∧ (fld w 0 9 == 1) = true ∧ (fld w 0 1 == 1) = true := by
  refine ⟨?_, ?_, ?_, ?_, ?_⟩
  · simp (disch := decide) only [cut_high, fld_all, Nat.reduceSub]
  · simp (disch := decide) only [ofBG, cut_low, cut_high, fld_all, Nat.reduceSub]
  · simp (disch := decide) only [zeroBG, cut_low, cut_high]; rfl
  · simp (disch := decide) only [cut_low, cut_high]; rfl
  · simp (disch := decide) only [cut_low, cut_high]; rfl

theorem wordBCa (op : BitVec 6) (f : BCa) :
    let w := op ++ f.gp ++ f.gn ++ f.va ++ f.vb ++ f.vd ++ 0#9
    fld w 26 6 = op ∧ ofBCa w = f ∧ (zeroBCa w) = true := by
  refine ⟨?_, ?_, ?_⟩
  · simp (disch := decide) only [cut_high, fld_all, Nat.reduceSub]
  · simp (disch := decide) only [ofBCa, cut_low, cut_high, fld_all, Nat.reduceSub]
  · simp (disch := decide) only [zeroBCa, cut_low, cut_high]; rfl

theorem wordBPo (op : BitVec 6) (f : BPo) :
    let w := op ++ f.gp ++ f.gn ++ f.port ++ 0#16 ++ f.dir
    fld w 26 6 = op ∧ ofBPo w = f ∧ (zeroBPo w) = true := by
  refine ⟨?_, ?_, ?_⟩
  · simp (disch := decide) only [cut_high, fld_all, Nat.reduceSub]
  · simp (disch := decide) only [ofBPo, cut_low, cut_high, fld_all, Nat.reduceSub]
  · simp (disch := decide) only [zeroBPo, cut_low, cut_high]; rfl

theorem wordBMa (op : BitVec 6) (f : BMa) :
    let w := op ++ f.gp ++ f.gn ++ 0#13 ++ f.mask
    fld w 26 6 = op ∧ ofBMa w = f ∧ (zeroBMa w) = true := by
  refine ⟨?_, ?_, ?_⟩
  · simp (disch := decide) only [cut_high, fld_all, Nat.reduceSub]
  · simp (disch := decide) only [ofBMa, cut_low, cut_high, fld_all, Nat.reduceSub]
  · simp (disch := decide) only [zeroBMa, cut_low, cut_high]; rfl

theorem wordBNx (op : BitVec 6) (f : BNx) :
    let w := op ++ f.gp ++ f.gn ++ 0#12 ++ f.n
    fld w 26 6 = op ∧ ofBNx w f.ext = f ∧ (zeroBNx w) = true := by
  refine ⟨?_, ?_, ?_⟩
  · simp (disch := decide) only [cut_high, fld_all, Nat.reduceSub]
  · simp (disch := decide) only [ofBNx, cut_low, cut_high, fld_all, Nat.reduceSub]
  · simp (disch := decide) only [zeroBNx, cut_low, cut_high]; rfl

theorem wordBN (op : BitVec 6) (f : BN) :
    let w := op ++ f.gp ++ f.gn ++ 0#12 ++ f.n
    fld w 26 6 = op ∧ ofBN w = f ∧ (zeroBN w) = true := by
  refine ⟨?_, ?_, ?_⟩
  · simp (disch := decide) only [cut_high, fld_all, Nat.reduceSub]
  · simp (disch := decide) only [ofBN, cut_low, cut_high, fld_all, Nat.reduceSub]
  · simp (disch := decide) only [zeroBN, cut_low, cut_high]; rfl

theorem wordBEr (op : BitVec 6) (f : BEr) :
    let w := op ++ f.gp ++ f.gn ++ 0#20 ++ f.skip
    fld w 26 6 = op ∧ ofBEr w = f ∧ (zeroBEr w) = true := by
  refine ⟨?_, ?_, ?_⟩
  · simp (disch := decide) only [cut_high, fld_all, Nat.reduceSub]
  · simp (disch := decide) only [ofBEr, cut_low, cut_high, fld_all, Nat.reduceSub]
  · simp (disch := decide) only [zeroBEr, cut_low, cut_high]; rfl

theorem wordBSv (op : BitVec 6) (f : BSv) :
    let w := op ++ f.gp ++ f.gn ++ f.va ++ 0#4 ++ f.vd ++ f.n
    fld w 26 6 = op ∧ ofBSv w = f ∧ (zeroBSv w) = true := by
  refine ⟨?_, ?_, ?_⟩
  · simp (disch := decide) only [cut_high, fld_all, Nat.reduceSub]
  · simp (disch := decide) only [ofBSv, cut_low, cut_high, fld_all, Nat.reduceSub]
  · simp (disch := decide) only [zeroBSv, cut_low, cut_high]; rfl

theorem wordBLg (op : BitVec 6) (f : BLg) :
    let w := op ++ f.gp ++ f.gn ++ f.va ++ f.vb ++ f.vd ++ 0#5 ++ f.tt
    fld w 26 6 = op ∧ ofBLg w = f ∧ (zeroBLg w) = true := by
  refine ⟨?_, ?_, ?_⟩
  · simp (disch := decide) only [cut_high, fld_all, Nat.reduceSub]
  · simp (disch := decide) only [ofBLg, cut_low, cut_high, fld_all, Nat.reduceSub]
  · simp (disch := decide) only [zeroBLg, cut_low, cut_high]; rfl

theorem wordBLc (op : BitVec 6) (f : BLc) :
    let w := op ++ f.lc ++ f.cnt ++ 0#12
    fld w 26 6 = op ∧ ofBLc w f.ext = f ∧ (zeroBLc w) = true := by
  refine ⟨?_, ?_, ?_⟩
  · simp (disch := decide) only [cut_high, fld_all, Nat.reduceSub]
  · simp (disch := decide) only [ofBLc, cut_low, cut_high, fld_all, Nat.reduceSub]
  · simp (disch := decide) only [zeroBLc, cut_low, cut_high]; rfl

theorem wordBX (op : BitVec 6) (f : BX) :
    let w := op ++ f.dk ++ f.dst ++ f.sf ++ f.src ++ f.ty ++ 0#6
    fld w 26 6 = op ∧ ofBX w = f ∧ (zeroBX w) = true := by
  refine ⟨?_, ?_, ?_⟩
  · simp (disch := decide) only [cut_high, fld_all, Nat.reduceSub]
  · simp (disch := decide) only [ofBX, cut_low, cut_high, fld_all, Nat.reduceSub]
  · simp (disch := decide) only [zeroBX, cut_low, cut_high]; rfl

theorem wordVR (op : BitVec 8) (f : VR) :
    let w := op ++ f.vd ++ f.va ++ f.vb ++ f.vc ++ f.vm ++ f.ty ++ f.rm ++ f.sm ++ f.fn ++ 0#2
    fld w 56 8 = op ∧ ofVR w f.ext = f ∧ (zeroVR w) = true := by
  refine ⟨?_, ?_, ?_⟩
  · simp (disch := decide) only [cut_high, fld_all, Nat.reduceSub]
  · simp (disch := decide) only [ofVR, cut_low, cut_high, fld_all, Nat.reduceSub]
  · simp (disch := decide) only [zeroVR, cut_low, cut_high]; rfl

theorem wordVL (op : BitVec 8) (f : VL) :
    let w := op ++ f.vd ++ f.va ++ f.vb ++ f.ofs ++ f.vm ++ f.ty ++ f.rm ++ f.sm ++ f.step ++ f.q
    fld w 56 8 = op ∧ ofVL w f.ext = f := by
  refine ⟨?_, ?_⟩
  · simp (disch := decide) only [cut_high, fld_all, Nat.reduceSub]
  · simp (disch := decide) only [ofVL, cut_low, cut_high, fld_all, Nat.reduceSub]

theorem wordVX (op : BitVec 8) (f : VX) :
    let w := op ++ f.vd ++ f.src ++ f.lane ++ f.bc ++ 0#15 ++ f.vm ++ f.ty ++ 0#12
    fld w 56 8 = op ∧ ofVX w = f ∧ (zeroVX w) = true := by
  refine ⟨?_, ?_, ?_⟩
  · simp (disch := decide) only [cut_high, fld_all, Nat.reduceSub]
  · simp (disch := decide) only [ofVX, cut_low, cut_high, fld_all, Nat.reduceSub]
  · simp (disch := decide) only [zeroVX, cut_low, cut_high]; rfl

theorem wordMR (op : BitVec 8) (f : MR) :
    let w := op ++ f.md ++ f.ma ++ f.mb ++ f.fn ++ f.gp ++ 0#15 ++ f.imm
    fld w 56 8 = op ∧ ofMR w f.ext = f ∧ (zeroMR w) = true ∧ fld w 35 1 = fld f.fn 0 1 ∧ fld w 37 1 = fld f.fn 2 1 := by
  refine ⟨?_, ?_, ?_, ?_, ?_⟩
  · simp (disch := decide) only [cut_high, fld_all, Nat.reduceSub]
  · simp (disch := decide) only [ofMR, cut_low, cut_high, fld_all, Nat.reduceSub]
  · simp (disch := decide) only [zeroMR, cut_low, cut_high]; rfl
  · simp (disch := decide) only [cut_low, cut_high]
  · simp (disch := decide) only [cut_low, cut_high]

theorem wordMX (op : BitVec 8) (f : MX) :
    let w := op ++ f.md ++ f.src ++ 0#4 ++ 0#6 ++ f.gp ++ 0#15 ++ 0#16
    fld w 56 8 = op ∧ ofMX w f.ext = f ∧ (zeroMX w) = true := by
  refine ⟨?_, ?_, ?_⟩
  · simp (disch := decide) only [cut_high, fld_all, Nat.reduceSub]
  · simp (disch := decide) only [ofMX, cut_low, cut_high, fld_all, Nat.reduceSub]
  · simp (disch := decide) only [zeroMX, cut_low, cut_high]; rfl

theorem wordMS (op : BitVec 8) (f : MS) :
    let w := op ++ f.mp ++ f.mb ++ f.sh ++ f.port ++ f.step ++ f.gp ++ f.fn ++ f.follow ++ f.imm
    fld w 56 8 = op ∧ ofMS w f.ext = f := by
  refine ⟨?_, ?_⟩
  · simp (disch := decide) only [cut_high, fld_all, Nat.reduceSub]
  · simp (disch := decide) only [ofMS, cut_low, cut_high, fld_all, Nat.reduceSub]

theorem and_true' {a b : Bool} (ha : a = true) (hb : b = true) : (a && b) = true := by rw [ha, hb]; rfl

theorem first {a b : Bool} (h : (a && b) = true) : a = true := by cases a <;> simp_all

theorem ne_true {a : Bool} (h : a = false) : ¬ a = true := by rw [h]; decide

/-! ### Per instruction -/

theorem bundleIssue : Statement .bundleIssue := by intro _ _ _ _ h; cases h

theorem resultArrives : Statement .resultArrives := by intro _ _ _ _ h; cases h

theorem yieldEnd : Statement .yieldEnd := by intro _ _ _ _ h; cases h

theorem feTimeout : Statement .feTimeout := by intro _ _ _ _ h; cases h

theorem trapEntry (t : TrapInfo) : Statement (.trapEntry t) := by intro _ _ _ _ h; cases h

theorem stepEntry : Statement .stepEntry := by intro _ _ _ _ h; cases h

theorem stepRetire : Statement .stepRetire := by intro _ _ _ _ h; cases h

theorem stepPark : Statement .stepPark := by intro _ _ _ _ h; cases h

theorem queueReaderCopy : Statement .queueReaderCopy := by intro _ _ _ _ h; cases h

theorem launchRecordCheck : Statement .launchRecordCheck := by intro _ _ _ _ h; cases h

theorem quantumGrant : Statement .quantumGrant := by intro _ _ _ _ h; cases h

theorem stepPlace : Statement .stepPlace := by intro _ _ _ _ h; cases h

theorem teamRelease : Statement .teamRelease := by intro _ _ _ _ h; cases h

theorem launchComplete : Statement .launchComplete := by intro _ _ _ _ h; cases h

theorem qcmdEnable : Statement .qcmdEnable := by intro _ _ _ _ h; cases h

theorem qcmdHalt : Statement .qcmdHalt := by intro _ _ _ _ h; cases h

theorem qcmdResume : Statement .qcmdResume := by intro _ _ _ _ h; cases h

theorem qcmdDestroy : Statement .qcmdDestroy := by intro _ _ _ _ h; cases h

theorem qcmdDoorbell : Statement .qcmdDoorbell := by intro _ _ _ _ h; cases h

theorem queueDestroyed : Statement .queueDestroyed := by intro _ _ _ _ h; cases h

theorem launchEnqueue : Statement .launchEnqueue := by intro _ _ _ _ h; cases h

theorem streamStart : Statement .streamStart := by intro _ _ _ _ h; cases h

theorem elementBlockTransfer : Statement .elementBlockTransfer := by intro _ _ _ _ h; cases h

theorem streamComplete : Statement .streamComplete := by intro _ _ _ _ h; cases h

theorem temitSend : Statement .temitSend := by intro _ _ _ _ h; cases h

theorem circuitTransfer : Statement .circuitTransfer := by intro _ _ _ _ h; cases h

theorem followOnArm : Statement .followOnArm := by intro _ _ _ _ h; cases h

theorem publishCounterWrite : Statement .publishCounterWrite := by intro _ _ _ _ h; cases h

theorem sfpendWrite (v : W64) : Statement (.sfpendWrite v) := by intro _ _ _ _ h; cases h

theorem operatorFire : Statement .operatorFire := by intro _ _ _ _ h; cases h

theorem tokenArrive : Statement .tokenArrive := by intro _ _ _ _ h; cases h

theorem runStart : Statement .runStart := by intro _ _ _ _ h; cases h

theorem peSwitch : Statement .peSwitch := by intro _ _ _ _ h; cases h

theorem cfgImageLanded : Statement .cfgImageLanded := by intro _ _ _ _ h; cases h

theorem edgeDepthChange : Statement .edgeDepthChange := by intro _ _ _ _ h; cases h

theorem aflushNulEnter : Statement .aflushNulEnter := by intro _ _ _ _ h; cases h

theorem saveDrainQuiet : Statement .saveDrainQuiet := by intro _ _ _ _ h; cases h

theorem mnFeedArrive : Statement .mnFeedArrive := by intro _ _ _ _ h; cases h

theorem mnReady : Statement .mnReady := by intro _ _ _ _ h; cases h

theorem mnDrainRun : Statement .mnDrainRun := by intro _ _ _ _ h; cases h

theorem mnAutoclose : Statement .mnAutoclose := by intro _ _ _ _ h; cases h

theorem syncOperation : Statement .syncOperation := by intro _ _ _ _ h; cases h

theorem remoteWaiterRetry : Statement .remoteWaiterRetry := by intro _ _ _ _ h; cases h

theorem jobStart (v : W64) : Statement (.jobStart v) := by intro _ _ _ _ h; cases h

theorem jobComplete : Statement .jobComplete := by intro _ _ _ _ h; cases h

theorem packetComplete : Statement .packetComplete := by intro _ _ _ _ h; cases h

theorem handoffTake : Statement .handoffTake := by intro _ _ _ _ h; cases h

theorem dramRequest (r : DramReq) : Statement (.dramRequest r) := by intro _ _ _ _ h; cases h

theorem riserStart : Statement .riserStart := by intro _ _ _ _ h; cases h

theorem landingStart : Statement .landingStart := by intro _ _ _ _ h; cases h

theorem landingEnd : Statement .landingEnd := by intro _ _ _ _ h; cases h

theorem maintOverrun : Statement .maintOverrun := by intro _ _ _ _ h; cases h

theorem correctableError (u : ErrSite) : Statement (.correctableError u) := by intro _ _ _ _ h; cases h

theorem freezeEnd : Statement .freezeEnd := by intro _ _ _ _ h; cases h

theorem uncorrectableError (u : ErrSite) : Statement (.uncorrectableError u) := by intro _ _ _ _ h; cases h

theorem fatalError (kind : Nat) (d : Nat) (idx : Nat) : Statement (.fatalError kind d idx) := by intro _ _ _ _ h; cases h

theorem pgrantArrive : Statement .pgrantArrive := by intro _ _ _ _ h; cases h

theorem preemptSave : Statement .preemptSave := by intro _ _ _ _ h; cases h

theorem saveComplete : Statement .saveComplete := by intro _ _ _ _ h; cases h

theorem saveDeadlineExpire : Statement .saveDeadlineExpire := by intro _ _ _ _ h; cases h

theorem stepRestore : Statement .stepRestore := by intro _ _ _ _ h; cases h

theorem shootdownDone : Statement .shootdownDone := by intro _ _ _ _ h; cases h

theorem linkDown (l : LinkId) : Statement (.linkDown l) := by intro _ _ _ _ h; cases h

theorem linkLossTimeout : Statement .linkLossTimeout := by intro _ _ _ _ h; cases h

theorem peerAccess (r : PeerReq) : Statement (.peerAccess r) := by intro _ _ _ _ h; cases h

theorem hostWindowWrite (pa : Nat) (data : List Byte) : Statement (.hostWindowWrite pa data) := by intro _ _ _ _ h; cases h

theorem tlbinvAll : Statement .tlbinvAll := by intro _ _ _ _ h; cases h

theorem tlbinvAsid (asid : Nat) : Statement (.tlbinvAsid asid) := by intro _ _ _ _ h; cases h

theorem tlbinvRange (asid : Nat) (npage : Nat) : Statement (.tlbinvRange asid npage) := by intro _ _ _ _ h; cases h

theorem tlbinvKind3 : Statement .tlbinvKind3 := by intro _ _ _ _ h; cases h

theorem pctlContext : Statement .pctlContext := by intro _ _ _ _ h; cases h

theorem pctlQueue : Statement .pctlQueue := by intro _ _ _ _ h; cases h

theorem pctlPackageSave : Statement .pctlPackageSave := by intro _ _ _ _ h; cases h

theorem ownset (v : W64) : Statement (.ownset v) := by intro _ _ _ _ h; cases h

theorem synchostAdd : Statement .synchostAdd := by intro _ _ _ _ h; cases h

theorem synchostAnd : Statement .synchostAnd := by intro _ _ _ _ h; cases h

theorem synchostOr : Statement .synchostOr := by intro _ _ _ _ h; cases h

theorem synchostXor : Statement .synchostXor := by intro _ _ _ _ h; cases h

theorem synchostMinu : Statement .synchostMinu := by intro _ _ _ _ h; cases h

theorem synchostMaxu : Statement .synchostMaxu := by intro _ _ _ _ h; cases h

theorem synchostMini : Statement .synchostMini := by intro _ _ _ _ h; cases h

theorem synchostMaxi : Statement .synchostMaxi := by intro _ _ _ _ h; cases h

theorem synchostSwap : Statement .synchostSwap := by intro _ _ _ _ h; cases h

theorem synchostRead : Statement .synchostRead := by intro _ _ _ _ h; cases h

theorem packageResume : Statement .packageResume := by intro _ _ _ _ h; cases h

theorem debugResume : Statement .debugResume := by intro _ _ _ _ h; cases h

theorem mailboxExtend (r : Nat) (digest : BitVec 256) : Statement (.mailboxExtend r digest) := by intro _ _ _ _ h; cases h

theorem mailboxQuote (nonce : BitVec 256) : Statement (.mailboxQuote nonce) := by intro _ _ _ _ h; cases h

theorem mailboxCommit : Statement .mailboxCommit := by intro _ _ _ _ h; cases h

theorem mailboxExportKey : Statement .mailboxExportKey := by intro _ _ _ _ h; cases h

theorem mgmtRegWrite (off : Nat) (v : W64) : Statement (.mgmtRegWrite off v) := by intro _ _ _ _ h; cases h

theorem coldReset : Statement .coldReset := by intro _ _ _ _ h; cases h

theorem warmReset : Statement .warmReset := by intro _ _ _ _ h; cases h

theorem bringup (img : FwImage) : Statement (.bringup img) := by intro _ _ _ _ h; cases h

theorem anop : Statement .anop := by rintro _ _ _ _ ⟨⟩; rfl

theorem add (f : AR) : Statement (.add f) := by
  rintro _ _ _ hw ⟨⟩
  obtain ⟨h1, h2, h3⟩ := wordAR 0x01#6 f
  refine (slot_a _ _).trans ?_
  unfold decodeA
  rw [show (fld (encodeA (.add f)) 26 6).toNat = 0x01 from congrArg BitVec.toNat h1]
  exact accepted (h3) (congrArg _ h2) hw

theorem sub (f : AR) : Statement (.sub f) := by
  rintro _ _ _ hw ⟨⟩
  obtain ⟨h1, h2, h3⟩ := wordAR 0x02#6 f
  refine (slot_a _ _).trans ?_
  unfold decodeA
  rw [show (fld (encodeA (.sub f)) 26 6).toNat = 0x02 from congrArg BitVec.toNat h1]
  exact accepted (h3) (congrArg _ h2) hw

theorem and (f : AR) : Statement (.and f) := by
  rintro _ _ _ hw ⟨⟩
  obtain ⟨h1, h2, h3⟩ := wordAR 0x03#6 f
  refine (slot_a _ _).trans ?_
  unfold decodeA
  rw [show (fld (encodeA (.and f)) 26 6).toNat = 0x03 from congrArg BitVec.toNat h1]
  exact accepted (h3) (congrArg _ h2) hw

theorem or (f : AR) : Statement (.or f) := by
  rintro _ _ _ hw ⟨⟩
  obtain ⟨h1, h2, h3⟩ := wordAR 0x04#6 f
  refine (slot_a _ _).trans ?_
  unfold decodeA
  rw [show (fld (encodeA (.or f)) 26 6).toNat = 0x04 from congrArg BitVec.toNat h1]
  exact accepted (h3) (congrArg _ h2) hw

theorem xor (f : AR) : Statement (.xor f) := by
  rintro _ _ _ hw ⟨⟩
  obtain ⟨h1, h2, h3⟩ := wordAR 0x05#6 f
  refine (slot_a _ _).trans ?_
  unfold decodeA
  rw [show (fld (encodeA (.xor f)) 26 6).toNat = 0x05 from congrArg BitVec.toNat h1]
  exact accepted (h3) (congrArg _ h2) hw

theorem andn (f : AR) : Statement (.andn f) := by
  rintro _ _ _ hw ⟨⟩
  obtain ⟨h1, h2, h3⟩ := wordAR 0x06#6 f
  refine (slot_a _ _).trans ?_
  unfold decodeA
  rw [show (fld (encodeA (.andn f)) 26 6).toNat = 0x06 from congrArg BitVec.toNat h1]
  exact accepted (h3) (congrArg _ h2) hw

theorem shl (f : AR) : Statement (.shl f) := by
  rintro _ _ _ hw ⟨⟩
  obtain ⟨h1, h2, h3⟩ := wordAR 0x07#6 f
  refine (slot_a _ _).trans ?_
  unfold decodeA
  rw [show (fld (encodeA (.shl f)) 26 6).toNat = 0x07 from congrArg BitVec.toNat h1]
  exact accepted (h3) (congrArg _ h2) hw

theorem shr (f : AR) : Statement (.shr f) := by
  rintro _ _ _ hw ⟨⟩
  obtain ⟨h1, h2, h3⟩ := wordAR 0x08#6 f
  refine (slot_a _ _).trans ?_
  unfold decodeA
  rw [show (fld (encodeA (.shr f)) 26 6).toNat = 0x08 from congrArg BitVec.toNat h1]
  exact accepted (h3) (congrArg _ h2) hw

theorem sra (f : AR) : Statement (.sra f) := by
  rintro _ _ _ hw ⟨⟩
  obtain ⟨h1, h2, h3⟩ := wordAR 0x09#6 f
  refine (slot_a _ _).trans ?_
  unfold decodeA
  rw [show (fld (encodeA (.sra f)) 26 6).toNat = 0x09 from congrArg BitVec.toNat h1]
  exact accepted (h3) (congrArg _ h2) hw

theorem min (f : AR) : Statement (.min f) := by
  rintro _ _ _ hw ⟨⟩
  obtain ⟨h1, h2, h3⟩ := wordAR 0x0A#6 f
  refine (slot_a _ _).trans ?_
  unfold decodeA
  rw [show (fld (encodeA (.min f)) 26 6).toNat = 0x0A from congrArg BitVec.toNat h1]
  exact (if_pos h3).trans (accepted (h3) (congrArg _ h2) hw)

theorem minu (f : AR) : Statement (.minu f) := by
  rintro _ _ _ hw ⟨⟩
  obtain ⟨h1, h2, h3, h4⟩ := wordAR2 0x0A#6 f
  refine (slot_a _ _).trans ?_
  unfold decodeA
  rw [show (fld (encodeA (.minu f)) 26 6).toNat = 0x0A from congrArg BitVec.toNat h1]
  exact (if_neg (ne_true h4)).trans (accepted (h3) (congrArg _ h2) hw)

theorem max (f : AR) : Statement (.max f) := by
  rintro _ _ _ hw ⟨⟩
  obtain ⟨h1, h2, h3⟩ := wordAR 0x0B#6 f
  refine (slot_a _ _).trans ?_
  unfold decodeA
  rw [show (fld (encodeA (.max f)) 26 6).toNat = 0x0B from congrArg BitVec.toNat h1]
  exact (if_pos h3).trans (accepted (h3) (congrArg _ h2) hw)

theorem maxu (f : AR) : Statement (.maxu f) := by
  rintro _ _ _ hw ⟨⟩
  obtain ⟨h1, h2, h3, h4⟩ := wordAR2 0x0B#6 f
  refine (slot_a _ _).trans ?_
  unfold decodeA
  rw [show (fld (encodeA (.maxu f)) 26 6).toNat = 0x0B from congrArg BitVec.toNat h1]
  exact (if_neg (ne_true h4)).trans (accepted (h3) (congrArg _ h2) hw)

theorem abs (f : AR1) : Statement (.abs f) := by
  rintro _ _ _ hw ⟨⟩
  obtain ⟨h1, h2, h3, h4⟩ := wordAR1 0x0C#6 f
  refine (slot_a _ _).trans ?_
  unfold decodeA
  rw [show (fld (encodeA (.abs f)) 26 6).toNat = 0x0C from congrArg BitVec.toNat h1]
  exact accepted (and_true' h3 h4) (congrArg _ h2) hw

theorem clz (f : AR1) : Statement (.clz f) := by
  rintro _ _ _ hw ⟨⟩
  obtain ⟨h1, h2, h3, h4⟩ := wordAR1 0x0D#6 f
  refine (slot_a _ _).trans ?_
  unfold decodeA
  rw [show (fld (encodeA (.clz f)) 26 6).toNat = 0x0D from congrArg BitVec.toNat h1]
  exact accepted (and_true' h3 h4) (congrArg _ h2) hw

theorem popc (f : AR1) : Statement (.popc f) := by
  rintro _ _ _ hw ⟨⟩
  obtain ⟨h1, h2, h3, h4⟩ := wordAR1 0x0E#6 f
  refine (slot_a _ _).trans ?_
  unfold decodeA
  rw [show (fld (encodeA (.popc f)) 26 6).toNat = 0x0E from congrArg BitVec.toNat h1]
  exact accepted (and_true' h3 h4) (congrArg _ h2) hw

theorem cmp (f : ARn) : Statement (.cmp f) := by
  rintro _ _ _ hw ⟨⟩
  obtain ⟨h1, h2⟩ := wordARn 0x0F#6 f
  refine (slot_a _ _).trans ?_
  unfold decodeA
  rw [show (fld (encodeA (.cmp f)) 26 6).toNat = 0x0F from congrArg BitVec.toNat h1]
  exact accepted (rfl) (congrArg _ h2) hw

theorem addi (f : AI) : Statement (.addi f) := by
  rintro _ _ _ hw ⟨⟩
  obtain ⟨h1, h2⟩ := wordAI 0x10#6 f
  refine (slot_a _ _).trans ?_
  unfold decodeA
  rw [show (fld (encodeA (.addi f)) 26 6).toNat = 0x10 from congrArg BitVec.toNat h1]
  exact accepted (rfl) (congrArg _ h2) hw

theorem andi (f : AI) : Statement (.andi f) := by
  rintro _ _ _ hw ⟨⟩
  obtain ⟨h1, h2⟩ := wordAI 0x11#6 f
  refine (slot_a _ _).trans ?_
  unfold decodeA
  rw [show (fld (encodeA (.andi f)) 26 6).toNat = 0x11 from congrArg BitVec.toNat h1]
  exact accepted (rfl) (congrArg _ h2) hw

theorem ori (f : AI) : Statement (.ori f) := by
  rintro _ _ _ hw ⟨⟩
  obtain ⟨h1, h2⟩ := wordAI 0x12#6 f
  refine (slot_a _ _).trans ?_
  unfold decodeA
  rw [show (fld (encodeA (.ori f)) 26 6).toNat = 0x12 from congrArg BitVec.toNat h1]
  exact accepted (rfl) (congrArg _ h2) hw

theorem xori (f : AI) : Statement (.xori f) := by
  rintro _ _ _ hw ⟨⟩
  obtain ⟨h1, h2⟩ := wordAI 0x13#6 f
  refine (slot_a _ _).trans ?_
  unfold decodeA
  rw [show (fld (encodeA (.xori f)) 26 6).toNat = 0x13 from congrArg BitVec.toNat h1]
  exact accepted (rfl) (congrArg _ h2) hw

theorem shli (f : AI) : Statement (.shli f) := by
  rintro _ _ _ hw ⟨⟩
  obtain ⟨h1, h2⟩ := wordAI 0x14#6 f
  refine (slot_a _ _).trans ?_
  unfold decodeA
  rw [show (fld (encodeA (.shli f)) 26 6).toNat = 0x14 from congrArg BitVec.toNat h1]
  exact accepted (rfl) (congrArg _ h2) hw

theorem shri (f : AI) : Statement (.shri f) := by
  rintro _ _ _ hw ⟨⟩
  obtain ⟨h1, h2⟩ := wordAI 0x15#6 f
  refine (slot_a _ _).trans ?_
  unfold decodeA
  rw [show (fld (encodeA (.shri f)) 26 6).toNat = 0x15 from congrArg BitVec.toNat h1]
  exact accepted (rfl) (congrArg _ h2) hw

theorem srai (f : AI) : Statement (.srai f) := by
  rintro _ _ _ hw ⟨⟩
  obtain ⟨h1, h2⟩ := wordAI 0x16#6 f
  refine (slot_a _ _).trans ?_
  unfold decodeA
  rw [show (fld (encodeA (.srai f)) 26 6).toNat = 0x16 from congrArg BitVec.toNat h1]
  exact accepted (rfl) (congrArg _ h2) hw

theorem movi (f : AI0) : Statement (.movi f) := by
  rintro _ _ _ hw ⟨⟩
  obtain ⟨h1, h2, h3⟩ := wordAI0 0x17#6 f
  refine (slot_a _ _).trans ?_
  unfold decodeA
  rw [show (fld (encodeA (.movi f)) 26 6).toNat = 0x17 from congrArg BitVec.toNat h1]
  exact accepted (h3) (congrArg _ h2) hw

theorem movhi (f : AI) : Statement (.movhi f) := by
  rintro _ _ _ hw ⟨⟩
  obtain ⟨h1, h2⟩ := wordAI 0x18#6 f
  refine (slot_a _ _).trans ?_
  unfold decodeA
  rw [show (fld (encodeA (.movhi f)) 26 6).toNat = 0x18 from congrArg BitVec.toNat h1]
  exact accepted (rfl) (congrArg _ h2) hw

theorem mul (f : AR) : Statement (.mul f) := by
  rintro _ _ _ hw ⟨⟩
  obtain ⟨h1, h2, h3⟩ := wordAR 0x19#6 f
  refine (slot_a _ _).trans ?_
  unfold decodeA
  rw [show (fld (encodeA (.mul f)) 26 6).toNat = 0x19 from congrArg BitVec.toNat h1]
  exact accepted (h3) (congrArg _ h2) hw

theorem mulh (f : AR) : Statement (.mulh f) := by
  rintro _ _ _ hw ⟨⟩
  obtain ⟨h1, h2, h3⟩ := wordAR 0x1A#6 f
  refine (slot_a _ _).trans ?_
  unfold decodeA
  rw [show (fld (encodeA (.mulh f)) 26 6).toNat = 0x1A from congrArg BitVec.toNat h1]
  exact (if_pos h3).trans (accepted (h3) (congrArg _ h2) hw)

theorem mulhu (f : AR) : Statement (.mulhu f) := by
  rintro _ _ _ hw ⟨⟩
  obtain ⟨h1, h2, h3, h4⟩ := wordAR2 0x1A#6 f
  refine (slot_a _ _).trans ?_
  unfold decodeA
  rw [show (fld (encodeA (.mulhu f)) 26 6).toNat = 0x1A from congrArg BitVec.toNat h1]
  exact (if_neg (ne_true h4)).trans ((if_pos h3).trans (accepted (h3) (congrArg _ h2) hw))

theorem mulhsu (f : AR) : Statement (.mulhsu f) := by
  rintro _ _ _ hw ⟨⟩
  obtain ⟨h1, h2, h3, h4, h5⟩ := wordAR3 0x1A#6 f
  refine (slot_a _ _).trans ?_
  unfold decodeA
  rw [show (fld (encodeA (.mulhsu f)) 26 6).toNat = 0x1A from congrArg BitVec.toNat h1]
  exact (if_neg (ne_true h4)).trans ((if_neg (ne_true h5)).trans (accepted (h3) (congrArg _ h2) hw))

theorem madd (f : AR) : Statement (.madd f) := by
  rintro _ _ _ hw ⟨⟩
  obtain ⟨h1, h2, h3⟩ := wordAR 0x1B#6 f
  refine (slot_a _ _).trans ?_
  unfold decodeA
  rw [show (fld (encodeA (.madd f)) 26 6).toNat = 0x1B from congrArg BitVec.toNat h1]
  exact accepted (h3) (congrArg _ h2) hw

theorem sel (f : AR) : Statement (.sel f) := by
  rintro _ _ _ hw ⟨⟩
  obtain ⟨h1, h2, h3⟩ := wordAR 0x1C#6 f
  refine (slot_a _ _).trans ?_
  unfold decodeA
  rw [show (fld (encodeA (.sel f)) 26 6).toNat = 0x1C from congrArg BitVec.toNat h1]
  exact accepted (h3) (congrArg _ h2) hw

theorem bfx (f : AR) : Statement (.bfx f) := by
  rintro _ _ _ hw ⟨⟩
  obtain ⟨h1, h2, h3⟩ := wordAR 0x1D#6 f
  refine (slot_a _ _).trans ?_
  unfold decodeA
  rw [show (fld (encodeA (.bfx f)) 26 6).toNat = 0x1D from congrArg BitVec.toNat h1]
  exact (if_pos h3).trans (accepted (h3) (congrArg _ h2) hw)

theorem bfxs (f : AR) : Statement (.bfxs f) := by
  rintro _ _ _ hw ⟨⟩
  obtain ⟨h1, h2, h3, h4⟩ := wordAR2 0x1D#6 f
  refine (slot_a _ _).trans ?_
  unfold decodeA
  rw [show (fld (encodeA (.bfxs f)) 26 6).toNat = 0x1D from congrArg BitVec.toNat h1]
  exact (if_neg (ne_true h4)).trans (accepted (h3) (congrArg _ h2) hw)

theorem bfi (f : AR) : Statement (.bfi f) := by
  rintro _ _ _ hw ⟨⟩
  obtain ⟨h1, h2, h3⟩ := wordAR 0x1E#6 f
  refine (slot_a _ _).trans ?_
  unfold decodeA
  rw [show (fld (encodeA (.bfi f)) 26 6).toNat = 0x1E from congrArg BitVec.toNat h1]
  exact accepted (h3) (congrArg _ h2) hw

theorem lea (f : ARn) : Statement (.lea f) := by
  rintro _ _ _ hw ⟨⟩
  obtain ⟨h1, h2⟩ := wordARn 0x1F#6 f
  refine (slot_a _ _).trans ?_
  unfold decodeA
  rw [show (fld (encodeA (.lea f)) 26 6).toNat = 0x1F from congrArg BitVec.toNat h1]
  exact accepted (rfl) (congrArg _ h2) hw

theorem ld (f : AM) : Statement (.ld f) := by
  rintro _ _ _ hw ⟨⟩
  obtain ⟨h1, h2⟩ := wordAM 0x20#6 f
  refine (slot_a _ _).trans ?_
  unfold decodeA
  rw [show (fld (encodeA (.ld f)) 26 6).toNat = 0x20 from congrArg BitVec.toNat h1]
  exact accepted (rfl) (congrArg _ h2) hw

theorem lds (f : AM) : Statement (.lds f) := by
  rintro _ _ _ hw ⟨⟩
  obtain ⟨h1, h2⟩ := wordAM 0x21#6 f
  refine (slot_a _ _).trans ?_
  unfold decodeA
  rw [show (fld (encodeA (.lds f)) 26 6).toNat = 0x21 from congrArg BitVec.toNat h1]
  exact accepted (rfl) (congrArg _ h2) hw

theorem st (f : AM) : Statement (.st f) := by
  rintro _ _ _ hw ⟨⟩
  obtain ⟨h1, h2⟩ := wordAM 0x22#6 f
  refine (slot_a _ _).trans ?_
  unfold decodeA
  rw [show (fld (encodeA (.st f)) 26 6).toNat = 0x22 from congrArg BitVec.toNat h1]
  exact accepted (rfl) (congrArg _ h2) hw

theorem ldx (f : AX) : Statement (.ldx f) := by
  rintro _ _ _ hw ⟨⟩
  obtain ⟨h1, h2⟩ := wordAX 0x23#6 f
  refine (slot_a _ _).trans ?_
  unfold decodeA
  rw [show (fld (encodeA (.ldx f)) 26 6).toNat = 0x23 from congrArg BitVec.toNat h1]
  exact accepted (rfl) (congrArg _ h2) hw

theorem ldxs (f : AX) : Statement (.ldxs f) := by
  rintro _ _ _ hw ⟨⟩
  obtain ⟨h1, h2⟩ := wordAX 0x24#6 f
  refine (slot_a _ _).trans ?_
  unfold decodeA
  rw [show (fld (encodeA (.ldxs f)) 26 6).toNat = 0x24 from congrArg BitVec.toNat h1]
  exact accepted (rfl) (congrArg _ h2) hw

theorem stx (f : AX) : Statement (.stx f) := by
  rintro _ _ _ hw ⟨⟩
  obtain ⟨h1, h2⟩ := wordAX 0x25#6 f
  refine (slot_a _ _).trans ?_
  unfold decodeA
  rw [show (fld (encodeA (.stx f)) 26 6).toNat = 0x25 from congrArg BitVec.toNat h1]
  exact accepted (rfl) (congrArg _ h2) hw

theorem aspq (f : AR) : Statement (.aspq f) := by
  rintro _ _ _ hw ⟨⟩
  obtain ⟨h1, h2, h3⟩ := wordAR 0x26#6 f
  refine (slot_a _ _).trans ?_
  unfold decodeA
  rw [show (fld (encodeA (.aspq f)) 26 6).toNat = 0x26 from congrArg BitVec.toNat h1]
  exact accepted (h3) (congrArg _ h2) hw

theorem aspc (f : AR1n) : Statement (.aspc f) := by
  rintro _ _ _ hw ⟨⟩
  obtain ⟨h1, h2, h3⟩ := wordAR1n 0x27#6 f
  refine (slot_a _ _).trans ?_
  unfold decodeA
  rw [show (fld (encodeA (.aspc f)) 26 6).toNat = 0x27 from congrArg BitVec.toNat h1]
  exact accepted (h3) (congrArg _ h2) hw

theorem xfera (f : AT) : Statement (.xfera f) := by
  rintro _ _ _ hw ⟨⟩
  obtain ⟨h1, h2⟩ := wordAT 0x28#6 f
  refine (slot_a _ _).trans ?_
  unfold decodeA
  rw [show (fld (encodeA (.xfera f)) 26 6).toNat = 0x28 from congrArg BitVec.toNat h1]
  exact accepted (rfl) (congrArg _ h2) hw

theorem rdcr (f : ACR) : Statement (.rdcr f) := by
  rintro _ _ _ hw ⟨⟩
  obtain ⟨h1, h2, h3⟩ := wordACRr 0x29#6 f
  refine (slot_a _ _).trans ?_
  unfold decodeA
  rw [show (fld (encodeA (.rdcr f)) 26 6).toNat = 0x29 from congrArg BitVec.toNat h1]
  exact accepted (h3) (congrArg _ h2) hw

theorem wrcr (f : ACR) : Statement (.wrcr f) := by
  rintro _ _ _ hw ⟨⟩
  obtain ⟨h1, h2, h3⟩ := wordACRw 0x2A#6 f
  refine (slot_a _ _).trans ?_
  unfold decodeA
  rw [show (fld (encodeA (.wrcr f)) 26 6).toNat = 0x2A from congrArg BitVec.toNat h1]
  exact accepted (h3) (congrArg _ h2) hw

theorem setcr (f : ACR) : Statement (.setcr f) := by
  rintro _ _ _ hw ⟨⟩
  obtain ⟨h1, h2, h3⟩ := wordACRw 0x2B#6 f
  refine (slot_a _ _).trans ?_
  unfold decodeA
  rw [show (fld (encodeA (.setcr f)) 26 6).toNat = 0x2B from congrArg BitVec.toNat h1]
  exact accepted (h3) (congrArg _ h2) hw

theorem clrcr (f : ACR) : Statement (.clrcr f) := by
  rintro _ _ _ hw ⟨⟩
  obtain ⟨h1, h2, h3⟩ := wordACRw 0x2C#6 f
  refine (slot_a _ _).trans ?_
  unfold decodeA
  rw [show (fld (encodeA (.clrcr f)) 26 6).toNat = 0x2C from congrArg BitVec.toNat h1]
  exact accepted (h3) (congrArg _ h2) hw

theorem addpc (f : AI0) : Statement (.addpc f) := by
  rintro _ _ _ hw ⟨⟩
  obtain ⟨h1, h2, h3⟩ := wordAI0 0x2D#6 f
  refine (slot_a _ _).trans ?_
  unfold decodeA
  rw [show (fld (encodeA (.addpc f)) 26 6).toNat = 0x2D from congrArg BitVec.toNat h1]
  exact accepted (h3) (congrArg _ h2) hw

theorem muli (f : AI) : Statement (.muli f) := by
  rintro _ _ _ hw ⟨⟩
  obtain ⟨h1, h2⟩ := wordAI 0x2E#6 f
  refine (slot_a _ _).trans ?_
  unfold decodeA
  rw [show (fld (encodeA (.muli f)) 26 6).toNat = 0x2E from congrArg BitVec.toNat h1]
  exact accepted (rfl) (congrArg _ h2) hw

theorem ext (f : AR1n) : Statement (.ext f) := by
  rintro _ _ _ hw ⟨⟩
  obtain ⟨h1, h2, h3⟩ := wordAR1n 0x2F#6 f
  refine (slot_a _ _).trans ?_
  unfold decodeA
  rw [show (fld (encodeA (.ext f)) 26 6).toNat = 0x2F from congrArg BitVec.toNat h1]
  exact accepted (h3) (congrArg _ h2) hw

theorem greq (f : ARn) : Statement (.greq f) := by
  rintro _ _ _ hw ⟨⟩
  obtain ⟨h1, h2⟩ := wordARn 0x30#6 f
  refine (slot_a _ _).trans ?_
  unfold decodeA
  rw [show (fld (encodeA (.greq f)) 26 6).toNat = 0x30 from congrArg BitVec.toNat h1]
  exact accepted (rfl) (congrArg _ h2) hw

theorem gwr (f : ARn) : Statement (.gwr f) := by
  rintro _ _ _ hw ⟨⟩
  obtain ⟨h1, h2⟩ := wordARn 0x31#6 f
  refine (slot_a _ _).trans ?_
  unfold decodeA
  rw [show (fld (encodeA (.gwr f)) 26 6).toNat = 0x31 from congrArg BitVec.toNat h1]
  exact accepted (rfl) (congrArg _ h2) hw

theorem gwrm (f : ARn) : Statement (.gwrm f) := by
  rintro _ _ _ hw ⟨⟩
  obtain ⟨h1, h2⟩ := wordARn 0x32#6 f
  refine (slot_a _ _).trans ?_
  unfold decodeA
  rw [show (fld (encodeA (.gwrm f)) 26 6).toNat = 0x32 from congrArg BitVec.toNat h1]
  exact accepted (rfl) (congrArg _ h2) hw

theorem gtagwT (f : AR1) : Statement (.gtagwT f) := by
  rintro _ _ _ hw ⟨⟩
  obtain ⟨h1, h2, h3, h4⟩ := wordAR1 0x33#6 f
  refine (slot_a _ _).trans ?_
  unfold decodeA
  rw [show (fld (encodeA (.gtagwT f)) 26 6).toNat = 0x33 from congrArg BitVec.toNat h1]
  exact (if_pos h4).trans (accepted (and_true' h3 h4) (congrArg _ h2) hw)

theorem gtagwC (f : AR1) : Statement (.gtagwC f) := by
  rintro _ _ _ hw ⟨⟩
  obtain ⟨h1, h2, h3, h4, h5⟩ := wordAR12 0x33#6 f
  refine (slot_a _ _).trans ?_
  unfold decodeA
  rw [show (fld (encodeA (.gtagwC f)) 26 6).toNat = 0x33 from congrArg BitVec.toNat h1]
  exact (if_neg (ne_true h5)).trans (accepted (and_true' h3 h4) (congrArg _ h2) hw)

theorem gtagq (f : AR1) : Statement (.gtagq f) := by
  rintro _ _ _ hw ⟨⟩
  obtain ⟨h1, h2, h3, h4⟩ := wordAR1 0x34#6 f
  refine (slot_a _ _).trans ?_
  unfold decodeA
  rw [show (fld (encodeA (.gtagq f)) 26 6).toNat = 0x34 from congrArg BitVec.toNat h1]
  exact accepted (and_true' h3 h4) (congrArg _ h2) hw

theorem gbin (f : AR) : Statement (.gbin f) := by
  rintro _ _ _ hw ⟨⟩
  obtain ⟨h1, h2, h3⟩ := wordAR 0x35#6 f
  refine (slot_a _ _).trans ?_
  unfold decodeA
  rw [show (fld (encodeA (.gbin f)) 26 6).toNat = 0x35 from congrArg BitVec.toNat h1]
  exact accepted (h3) (congrArg _ h2) hw

theorem gbdrain (f : AD) : Statement (.gbdrain f) := by
  rintro _ _ _ hw ⟨⟩
  obtain ⟨h1, h2, h3, h4⟩ := wordAD 0x36#6 f
  refine (slot_a _ _).trans ?_
  unfold decodeA
  rw [show (fld (encodeA (.gbdrain f)) 26 6).toNat = 0x36 from congrArg BitVec.toNat h1]
  exact (if_pos h4).trans (accepted (and_true' h3 h4) (congrArg _ h2) hw)

theorem gbdrainClr (f : AD) : Statement (.gbdrainClr f) := by
  rintro _ _ _ hw ⟨⟩
  obtain ⟨h1, h2, h3, h4, h5⟩ := wordAD2 0x36#6 f
  refine (slot_a _ _).trans ?_
  unfold decodeA
  rw [show (fld (encodeA (.gbdrainClr f)) 26 6).toNat = 0x36 from congrArg BitVec.toNat h1]
  exact (if_neg (ne_true h5)).trans (accepted (and_true' h3 h4) (congrArg _ h2) hw)

theorem gdedup (f : AR1) : Statement (.gdedup f) := by
  rintro _ _ _ hw ⟨⟩
  obtain ⟨h1, h2, h3, h4⟩ := wordAR1 0x37#6 f
  refine (slot_a _ _).trans ?_
  unfold decodeA
  rw [show (fld (encodeA (.gdedup f)) 26 6).toNat = 0x37 from congrArg BitVec.toNat h1]
  exact (if_pos h4).trans (accepted (and_true' h3 h4) (congrArg _ h2) hw)

theorem gdedupClr (f : AD) : Statement (.gdedupClr f) := by
  rintro _ _ _ hw ⟨⟩
  obtain ⟨h1, h2, h3, h4, h5⟩ := wordAD2 0x37#6 f
  refine (slot_a _ _).trans ?_
  unfold decodeA
  rw [show (fld (encodeA (.gdedupClr f)) 26 6).toNat = 0x37 from congrArg BitVec.toNat h1]
  exact (if_neg (ne_true h5)).trans (accepted (and_true' h3 h4) (congrArg _ h2) hw)

theorem gpool (f : ASn) : Statement (.gpool f) := by
  rintro _ _ _ hw ⟨⟩
  obtain ⟨h1, h2, h3⟩ := wordASn 0x38#6 f
  refine (slot_a _ _).trans ?_
  unfold decodeA
  rw [show (fld (encodeA (.gpool f)) 26 6).toNat = 0x38 from congrArg BitVec.toNat h1]
  exact accepted (h3) (congrArg _ h2) hw

theorem gprnd (f : ASn) : Statement (.gprnd f) := by
  rintro _ _ _ hw ⟨⟩
  obtain ⟨h1, h2, h3⟩ := wordASn 0x39#6 f
  refine (slot_a _ _).trans ?_
  unfold decodeA
  rw [show (fld (encodeA (.gprnd f)) 26 6).toNat = 0x39 from congrArg BitVec.toNat h1]
  exact accepted (h3) (congrArg _ h2) hw

theorem ghand (f : ARn) : Statement (.ghand f) := by
  rintro _ _ _ hw ⟨⟩
  obtain ⟨h1, h2⟩ := wordARn 0x3A#6 f
  refine (slot_a _ _).trans ?_
  unfold decodeA
  rw [show (fld (encodeA (.ghand f)) 26 6).toNat = 0x3A from congrArg BitVec.toNat h1]
  exact accepted (rfl) (congrArg _ h2) hw

theorem gfence (f : AS1) : Statement (.gfence f) := by
  rintro _ _ _ hw ⟨⟩
  obtain ⟨h1, h2, h3⟩ := wordAS1 0x3B#6 f
  refine (slot_a _ _).trans ?_
  unfold decodeA
  rw [show (fld (encodeA (.gfence f)) 26 6).toNat = 0x3B from congrArg BitVec.toNat h1]
  exact accepted (h3) (congrArg _ h2) hw

theorem bnop : Statement .bnop := by rintro _ _ _ _ ⟨⟩; rfl

theorem br (f : BJ) : Statement (.br f) := by
  rintro _ _ _ hw ⟨⟩
  obtain ⟨h1, h2⟩ := wordBJ 0x01#6 f
  refine (slot_b _ _).trans ?_
  unfold decodeB
  rw [show (fld (encodeB (.br f)) 26 6).toNat = 0x01 from congrArg BitVec.toNat h1]
  exact accepted (rfl) (congrArg _ h2) hw

theorem call (f : BJ) : Statement (.call f) := by
  rintro _ _ _ hw ⟨⟩
  obtain ⟨h1, h2⟩ := wordBJ 0x02#6 f
  refine (slot_b _ _).trans ?_
  unfold decodeB
  rw [show (fld (encodeB (.call f)) 26 6).toNat = 0x02 from congrArg BitVec.toNat h1]
  exact accepted (rfl) (congrArg _ h2) hw

theorem ret (f : BG) : Statement (.ret f) := by
  rintro _ _ _ hw ⟨⟩
  obtain ⟨h1, h2, h3, h4⟩ := wordBG 0x03#6 f
  refine (slot_b _ _).trans ?_
  unfold decodeB
  rw [show (fld (encodeB (.ret f)) 26 6).toNat = 0x03 from congrArg BitVec.toNat h1]
  exact accepted (and_true' h3 h4) (congrArg _ h2) hw

theorem brx (f : BG) : Statement (.brx f) := by
  rintro _ _ _ hw ⟨⟩
  obtain ⟨h1, h2, h3, h4⟩ := wordBG 0x04#6 f
  refine (slot_b _ _).trans ?_
  unfold decodeB
  rw [show (fld (encodeB (.brx f)) 26 6).toNat = 0x04 from congrArg BitVec.toNat h1]
  exact accepted (and_true' h3 h4) (congrArg _ h2) hw

theorem loop (f : BL) : Statement (.loop f) := by
  rintro _ _ _ hw ⟨⟩
  obtain ⟨h1, h2⟩ := wordBL 0x05#6 f
  refine (slot_b _ _).trans ?_
  unfold decodeB
  rw [show (fld (encodeB (.loop f)) 26 6).toNat = 0x05 from congrArg BitVec.toNat h1]
  exact accepted (rfl) (congrArg _ h2) hw

theorem loopr (f : BLr) : Statement (.loopr f) := by
  rintro _ _ _ hw ⟨⟩
  obtain ⟨h1, h2, h3⟩ := wordBLr 0x06#6 f
  refine (slot_b _ _).trans ?_
  unfold decodeB
  rw [show (fld (encodeB (.loopr f)) 26 6).toNat = 0x06 from congrArg BitVec.toNat h1]
  exact accepted (h3) (congrArg _ h2) hw

theorem loops (f : BLs) : Statement (.loops f) := by
  rintro _ _ _ hw ⟨⟩
  obtain ⟨h1, h2, h3⟩ := wordBLs 0x07#6 f
  refine (slot_b _ _).trans ?_
  unfold decodeB
  rw [show (fld (encodeB (.loops f)) 26 6).toNat = 0x07 from congrArg BitVec.toNat h1]
  exact accepted (h3) (congrArg _ h2) hw

theorem waitc (f : BW) : Statement (.waitc f) := by
  rintro _ _ _ hw ⟨⟩
  obtain ⟨h1, h2, h3⟩ := wordBW 0x08#6 f
  refine (slot_b _ _).trans ?_
  unfold decodeB
  rw [show (fld (encodeB (.waitc f)) 26 6).toNat = 0x08 from congrArg BitVec.toNat h1]
  exact accepted (h3) (congrArg _ h2) hw

theorem wait (f : BSy) : Statement (.wait f) := by
  rintro _ _ _ hw ⟨⟩
  obtain ⟨h1, h2, h3, _⟩ := wordBSy 0x09#6 f
  refine (slot_b _ _).trans ?_
  unfold decodeB
  rw [show (fld (encodeB (.wait f)) 26 6).toNat = 0x09 from congrArg BitVec.toNat h1]
  exact accepted (h3) (congrArg _ h2) hw

theorem fence (f : BFe) : Statement (.fence f) := by
  rintro _ _ _ hw ⟨⟩
  obtain ⟨h1, h2, h3⟩ := wordBFe 0x0A#6 f
  refine (slot_b _ _).trans ?_
  unfold decodeB
  rw [show (fld (encodeB (.fence f)) 26 6).toNat = 0x0A from congrArg BitVec.toNat h1]
  exact accepted (h3) (congrArg _ h2) hw

theorem acquire (f : BSy) : Statement (.acquire f) := by
  rintro _ _ _ hw ⟨⟩
  obtain ⟨h1, h2, h3, g1⟩ := wordBSy 0x0B#6 f
  refine (slot_b _ _).trans ?_
  unfold decodeB
  rw [show (fld (encodeB (.acquire f)) 26 6).toNat = 0x0B from congrArg BitVec.toNat h1]
  have h : ∀ n : BitVec 4, decide (n.toNat ≤ 1) = true → ¬ (n == 2) = true := by decide
  refine (if_neg ?_).trans (accepted (h3) (congrArg _ h2) hw)
  rw [show fld (encodeB (.acquire f)) 0 4 = f.fn from g1]; exact h _ (first hw)

theorem acquireX (f : BPt) : Statement (.acquireX f) := by
  rintro _ _ _ hw ⟨⟩
  obtain ⟨h1, h2, h3, h4, h5⟩ := wordBPt 0x0B#6 f
  refine (slot_b _ _).trans ?_
  unfold decodeB
  rw [show (fld (encodeB (.acquireX f)) 26 6).toNat = 0x0B from congrArg BitVec.toNat h1]
  exact (if_pos h5).trans (accepted (and_true' h3 h4) (congrArg _ h2) hw)

theorem release (f : BSn) : Statement (.release f) := by
  rintro _ _ _ hw ⟨⟩
  obtain ⟨h1, h2, h3, g1⟩ := wordBSn 0x0C#6 f
  refine (slot_b _ _).trans ?_
  unfold decodeB
  rw [show (fld (encodeB (.release f)) 26 6).toNat = 0x0C from congrArg BitVec.toNat h1]
  have h : ∀ n : BitVec 4, decide (n.toNat ≤ 1) = true → ¬ (n == 2) = true := by decide
  refine (if_neg ?_).trans (accepted (h3) (congrArg _ h2) hw)
  rw [show fld (encodeB (.release f)) 0 4 = f.fn from g1]; exact h _ (first hw)

theorem releaseX (f : BPt) : Statement (.releaseX f) := by
  rintro _ _ _ hw ⟨⟩
  obtain ⟨h1, h2, h3, h4, h5⟩ := wordBPt 0x0C#6 f
  refine (slot_b _ _).trans ?_
  unfold decodeB
  rw [show (fld (encodeB (.releaseX f)) 26 6).toNat = 0x0C from congrArg BitVec.toNat h1]
  exact (if_pos h5).trans (accepted (and_true' h3 h4) (congrArg _ h2) hw)

theorem bind (f : BBi) : Statement (.bind f) := by
  rintro _ _ _ hw ⟨⟩
  obtain ⟨h1, h2, h3⟩ := wordBBi 0x0D#6 f
  refine (slot_b _ _).trans ?_
  unfold decodeB
  rw [show (fld (encodeB (.bind f)) 26 6).toNat = 0x0D from congrArg BitVec.toNat h1]
  exact accepted (h3) (congrArg _ h2) hw

theorem unbind (f : BPt) : Statement (.unbind f) := by
  rintro _ _ _ hw ⟨⟩
  obtain ⟨h1, h2, h3, h4, h5⟩ := wordBPt2 0x0E#6 f
  refine (slot_b _ _).trans ?_
  unfold decodeB
  rw [show (fld (encodeB (.unbind f)) 26 6).toNat = 0x0E from congrArg BitVec.toNat h1]
  exact (if_neg (ne_true h5)).trans (accepted (and_true' h3 h4) (congrArg _ h2) hw)

theorem unbindAll (f : BG) : Statement (.unbindAll f) := by
  rintro _ _ _ hw ⟨⟩
  obtain ⟨h1, h2, h3, h4, h5⟩ := wordBG2 0x0E#6 f
  refine (slot_b _ _).trans ?_
  unfold decodeB
  rw [show (fld (encodeB (.unbindAll f)) 26 6).toNat = 0x0E from congrArg BitVec.toNat h1]
  exact (if_pos h5).trans (accepted (and_true' h3 h4) (congrArg _ h2) hw)

theorem atom (f : BSy) : Statement (.atom f) := by
  rintro _ _ _ hw ⟨⟩
  obtain ⟨h1, h2, h3, _⟩ := wordBSy 0x0F#6 f
  refine (slot_b _ _).trans ?_
  unfold decodeB
  rw [show (fld (encodeB (.atom f)) 26 6).toNat = 0x0F from congrArg BitVec.toNat h1]
  exact accepted (h3) (congrArg _ h2) hw

theorem atomnr (f : BSn) : Statement (.atomnr f) := by
  rintro _ _ _ hw ⟨⟩
  obtain ⟨h1, h2, h3, _⟩ := wordBSn 0x10#6 f
  refine (slot_b _ _).trans ?_
  unfold decodeB
  rw [show (fld (encodeB (.atomnr f)) 26 6).toNat = 0x10 from congrArg BitVec.toNat h1]
  exact accepted (h3) (congrArg _ h2) hw

theorem atomcas (f : BCa) : Statement (.atomcas f) := by
  rintro _ _ _ hw ⟨⟩
  obtain ⟨h1, h2, h3⟩ := wordBCa 0x11#6 f
  refine (slot_b _ _).trans ?_
  unfold decodeB
  rw [show (fld (encodeB (.atomcas f)) 26 6).toNat = 0x11 from congrArg BitVec.toNat h1]
  exact accepted (h3) (congrArg _ h2) hw

theorem join (f : BG) : Statement (.join f) := by
  rintro _ _ _ hw ⟨⟩
  obtain ⟨h1, h2, h3, h4⟩ := wordBG 0x12#6 f
  refine (slot_b _ _).trans ?_
  unfold decodeB
  rw [show (fld (encodeB (.join f)) 26 6).toNat = 0x12 from congrArg BitVec.toNat h1]
  exact accepted (and_true' h3 h4) (congrArg _ h2) hw

theorem pwait (f : BPo) : Statement (.pwait f) := by
  rintro _ _ _ hw ⟨⟩
  obtain ⟨h1, h2, h3⟩ := wordBPo 0x13#6 f
  refine (slot_b _ _).trans ?_
  unfold decodeB
  rw [show (fld (encodeB (.pwait f)) 26 6).toNat = 0x13 from congrArg BitVec.toNat h1]
  exact accepted (h3) (congrArg _ h2) hw

theorem evwait (f : BMa) : Statement (.evwait f) := by
  rintro _ _ _ hw ⟨⟩
  obtain ⟨h1, h2, h3⟩ := wordBMa 0x14#6 f
  refine (slot_b _ _).trans ?_
  unfold decodeB
  rw [show (fld (encodeB (.evwait f)) 26 6).toNat = 0x14 from congrArg BitVec.toNat h1]
  exact accepted (h3) (congrArg _ h2) hw

theorem yield (f : BNx) : Statement (.yield f) := by
  rintro _ _ _ hw ⟨⟩
  obtain ⟨h1, h2, h3⟩ := wordBNx 0x15#6 f
  refine (slot_b _ _).trans ?_
  unfold decodeB
  rw [show (fld (encodeB (.yield f)) 26 6).toNat = 0x15 from congrArg BitVec.toNat h1]
  exact accepted (h3) (congrArg _ h2) hw

theorem exit (f : BN) : Statement (.exit f) := by
  rintro _ _ _ hw ⟨⟩
  obtain ⟨h1, h2, h3⟩ := wordBN 0x16#6 f
  refine (slot_b _ _).trans ?_
  unfold decodeB
  rw [show (fld (encodeB (.exit f)) 26 6).toNat = 0x16 from congrArg BitVec.toNat h1]
  exact accepted (h3) (congrArg _ h2) hw

theorem trap (f : BN) : Statement (.trap f) := by
  rintro _ _ _ hw ⟨⟩
  obtain ⟨h1, h2, h3⟩ := wordBN 0x17#6 f
  refine (slot_b _ _).trans ?_
  unfold decodeB
  rw [show (fld (encodeB (.trap f)) 26 6).toNat = 0x17 from congrArg BitVec.toNat h1]
  exact accepted (h3) (congrArg _ h2) hw

theorem eret (f : BEr) : Statement (.eret f) := by
  rintro _ _ _ hw ⟨⟩
  obtain ⟨h1, h2, h3⟩ := wordBEr 0x18#6 f
  refine (slot_b _ _).trans ?_
  unfold decodeB
  rw [show (fld (encodeB (.eret f)) 26 6).toNat = 0x18 from congrArg BitVec.toNat h1]
  exact accepted (h3) (congrArg _ h2) hw

theorem svc (f : BSv) : Statement (.svc f) := by
  rintro _ _ _ hw ⟨⟩
  obtain ⟨h1, h2, h3⟩ := wordBSv 0x19#6 f
  refine (slot_b _ _).trans ?_
  unfold decodeB
  rw [show (fld (encodeB (.svc f)) 26 6).toNat = 0x19 from congrArg BitVec.toNat h1]
  exact accepted (h3) (congrArg _ h2) hw

theorem bkpt (f : BN) : Statement (.bkpt f) := by
  rintro _ _ _ hw ⟨⟩
  obtain ⟨h1, h2, h3⟩ := wordBN 0x1A#6 f
  refine (slot_b _ _).trans ?_
  unfold decodeB
  rw [show (fld (encodeB (.bkpt f)) 26 6).toNat = 0x1A from congrArg BitVec.toNat h1]
  exact accepted (h3) (congrArg _ h2) hw

theorem plog (f : BLg) : Statement (.plog f) := by
  rintro _ _ _ hw ⟨⟩
  obtain ⟨h1, h2, h3⟩ := wordBLg 0x1B#6 f
  refine (slot_b _ _).trans ?_
  unfold decodeB
  rw [show (fld (encodeB (.plog f)) 26 6).toNat = 0x1B from congrArg BitVec.toNat h1]
  exact accepted (h3) (congrArg _ h2) hw

theorem vmlog (f : BLg) : Statement (.vmlog f) := by
  rintro _ _ _ hw ⟨⟩
  obtain ⟨h1, h2, h3⟩ := wordBLg 0x1C#6 f
  refine (slot_b _ _).trans ?_
  unfold decodeB
  rw [show (fld (encodeB (.vmlog f)) 26 6).toNat = 0x1C from congrArg BitVec.toNat h1]
  exact accepted (h3) (congrArg _ h2) hw

theorem lci (f : BLc) : Statement (.lci f) := by
  rintro _ _ _ hw ⟨⟩
  obtain ⟨h1, h2, h3⟩ := wordBLc 0x1D#6 f
  refine (slot_b _ _).trans ?_
  unfold decodeB
  rw [show (fld (encodeB (.lci f)) 26 6).toNat = 0x1D from congrArg BitVec.toNat h1]
  exact accepted (h3) (congrArg _ h2) hw

theorem xferb (f : BX) : Statement (.xferb f) := by
  rintro _ _ _ hw ⟨⟩
  obtain ⟨h1, h2, h3⟩ := wordBX 0x1E#6 f
  refine (slot_b _ _).trans ?_
  unfold decodeB
  rw [show (fld (encodeB (.xferb f)) 26 6).toNat = 0x1E from congrArg BitVec.toNat h1]
  exact accepted (h3) (congrArg _ h2) hw

theorem stkclr (f : BG) : Statement (.stkclr f) := by
  rintro _ _ _ hw ⟨⟩
  obtain ⟨h1, h2, h3, h4⟩ := wordBG 0x1F#6 f
  refine (slot_b _ _).trans ?_
  unfold decodeB
  rw [show (fld (encodeB (.stkclr f)) 26 6).toNat = 0x1F from congrArg BitVec.toNat h1]
  exact accepted (and_true' h3 h4) (congrArg _ h2) hw

theorem ifence (f : BG) : Statement (.ifence f) := by
  rintro _ _ _ hw ⟨⟩
  obtain ⟨h1, h2, h3, h4⟩ := wordBG 0x20#6 f
  refine (slot_b _ _).trans ?_
  unfold decodeB
  rw [show (fld (encodeB (.ifence f)) 26 6).toNat = 0x20 from congrArg BitVec.toNat h1]
  exact accepted (and_true' h3 h4) (congrArg _ h2) hw

theorem calwait (f : BNx) : Statement (.calwait f) := by
  rintro _ _ _ hw ⟨⟩
  obtain ⟨h1, h2, h3⟩ := wordBNx 0x21#6 f
  refine (slot_b _ _).trans ?_
  unfold decodeB
  rw [show (fld (encodeB (.calwait f)) 26 6).toNat = 0x21 from congrArg BitVec.toNat h1]
  exact accepted (h3) (congrArg _ h2) hw

theorem vnop : Statement .vnop := by rintro _ _ _ _ ⟨⟩; rfl

theorem vadd (f : VR) : Statement (.vadd f) := by
  rintro _ _ _ hw ⟨⟩
  obtain ⟨h1, h2, h3⟩ := wordVR 0x01#8 f
  unfold decodeSlot decodeV
  rw [show (fld (encodeV (.vadd f)) 56 8).toNat = 0x01 from congrArg BitVec.toNat h1]
  exact accepted (h3) (congrArg _ h2) hw

theorem vsub (f : VR) : Statement (.vsub f) := by
  rintro _ _ _ hw ⟨⟩
  obtain ⟨h1, h2, h3⟩ := wordVR 0x02#8 f
  unfold decodeSlot decodeV
  rw [show (fld (encodeV (.vsub f)) 56 8).toNat = 0x02 from congrArg BitVec.toNat h1]
  exact accepted (h3) (congrArg _ h2) hw

theorem vmul (f : VR) : Statement (.vmul f) := by
  rintro _ _ _ hw ⟨⟩
  obtain ⟨h1, h2, h3⟩ := wordVR 0x03#8 f
  unfold decodeSlot decodeV
  rw [show (fld (encodeV (.vmul f)) 56 8).toNat = 0x03 from congrArg BitVec.toNat h1]
  exact accepted (h3) (congrArg _ h2) hw

theorem vfma (f : VR) : Statement (.vfma f) := by
  rintro _ _ _ hw ⟨⟩
  obtain ⟨h1, h2, h3⟩ := wordVR 0x04#8 f
  unfold decodeSlot decodeV
  rw [show (fld (encodeV (.vfma f)) 56 8).toNat = 0x04 from congrArg BitVec.toNat h1]
  exact accepted (h3) (congrArg _ h2) hw

theorem vfms (f : VR) : Statement (.vfms f) := by
  rintro _ _ _ hw ⟨⟩
  obtain ⟨h1, h2, h3⟩ := wordVR 0x05#8 f
  unfold decodeSlot decodeV
  rw [show (fld (encodeV (.vfms f)) 56 8).toNat = 0x05 from congrArg BitVec.toNat h1]
  exact accepted (h3) (congrArg _ h2) hw

theorem vfnma (f : VR) : Statement (.vfnma f) := by
  rintro _ _ _ hw ⟨⟩
  obtain ⟨h1, h2, h3⟩ := wordVR 0x06#8 f
  unfold decodeSlot decodeV
  rw [show (fld (encodeV (.vfnma f)) 56 8).toNat = 0x06 from congrArg BitVec.toNat h1]
  exact accepted (h3) (congrArg _ h2) hw

theorem vmin (f : VR) : Statement (.vmin f) := by
  rintro _ _ _ hw ⟨⟩
  obtain ⟨h1, h2, h3⟩ := wordVR 0x07#8 f
  unfold decodeSlot decodeV
  rw [show (fld (encodeV (.vmin f)) 56 8).toNat = 0x07 from congrArg BitVec.toNat h1]
  exact accepted (h3) (congrArg _ h2) hw

theorem vmax (f : VR) : Statement (.vmax f) := by
  rintro _ _ _ hw ⟨⟩
  obtain ⟨h1, h2, h3⟩ := wordVR 0x08#8 f
  unfold decodeSlot decodeV
  rw [show (fld (encodeV (.vmax f)) 56 8).toNat = 0x08 from congrArg BitVec.toNat h1]
  exact accepted (h3) (congrArg _ h2) hw

theorem vabs (f : VR) : Statement (.vabs f) := by
  rintro _ _ _ hw ⟨⟩
  obtain ⟨h1, h2, h3⟩ := wordVR 0x09#8 f
  unfold decodeSlot decodeV
  rw [show (fld (encodeV (.vabs f)) 56 8).toNat = 0x09 from congrArg BitVec.toNat h1]
  exact accepted (h3) (congrArg _ h2) hw

theorem vneg (f : VR) : Statement (.vneg f) := by
  rintro _ _ _ hw ⟨⟩
  obtain ⟨h1, h2, h3⟩ := wordVR 0x0A#8 f
  unfold decodeSlot decodeV
  rw [show (fld (encodeV (.vneg f)) 56 8).toNat = 0x0A from congrArg BitVec.toNat h1]
  exact accepted (h3) (congrArg _ h2) hw

theorem vand (f : VR) : Statement (.vand f) := by
  rintro _ _ _ hw ⟨⟩
  obtain ⟨h1, h2, h3⟩ := wordVR 0x0B#8 f
  unfold decodeSlot decodeV
  rw [show (fld (encodeV (.vand f)) 56 8).toNat = 0x0B from congrArg BitVec.toNat h1]
  exact accepted (h3) (congrArg _ h2) hw

theorem vor (f : VR) : Statement (.vor f) := by
  rintro _ _ _ hw ⟨⟩
  obtain ⟨h1, h2, h3⟩ := wordVR 0x0C#8 f
  unfold decodeSlot decodeV
  rw [show (fld (encodeV (.vor f)) 56 8).toNat = 0x0C from congrArg BitVec.toNat h1]
  exact accepted (h3) (congrArg _ h2) hw

theorem vxor (f : VR) : Statement (.vxor f) := by
  rintro _ _ _ hw ⟨⟩
  obtain ⟨h1, h2, h3⟩ := wordVR 0x0D#8 f
  unfold decodeSlot decodeV
  rw [show (fld (encodeV (.vxor f)) 56 8).toNat = 0x0D from congrArg BitVec.toNat h1]
  exact accepted (h3) (congrArg _ h2) hw

theorem vandn (f : VR) : Statement (.vandn f) := by
  rintro _ _ _ hw ⟨⟩
  obtain ⟨h1, h2, h3⟩ := wordVR 0x0E#8 f
  unfold decodeSlot decodeV
  rw [show (fld (encodeV (.vandn f)) 56 8).toNat = 0x0E from congrArg BitVec.toNat h1]
  exact accepted (h3) (congrArg _ h2) hw

theorem vshl (f : VR) : Statement (.vshl f) := by
  rintro _ _ _ hw ⟨⟩
  obtain ⟨h1, h2, h3⟩ := wordVR 0x0F#8 f
  unfold decodeSlot decodeV
  rw [show (fld (encodeV (.vshl f)) 56 8).toNat = 0x0F from congrArg BitVec.toNat h1]
  exact accepted (h3) (congrArg _ h2) hw

theorem vshr (f : VR) : Statement (.vshr f) := by
  rintro _ _ _ hw ⟨⟩
  obtain ⟨h1, h2, h3⟩ := wordVR 0x10#8 f
  unfold decodeSlot decodeV
  rw [show (fld (encodeV (.vshr f)) 56 8).toNat = 0x10 from congrArg BitVec.toNat h1]
  exact accepted (h3) (congrArg _ h2) hw

theorem vsra (f : VR) : Statement (.vsra f) := by
  rintro _ _ _ hw ⟨⟩
  obtain ⟨h1, h2, h3⟩ := wordVR 0x11#8 f
  unfold decodeSlot decodeV
  rw [show (fld (encodeV (.vsra f)) 56 8).toNat = 0x11 from congrArg BitVec.toNat h1]
  exact accepted (h3) (congrArg _ h2) hw

theorem vcmp (f : VR) : Statement (.vcmp f) := by
  rintro _ _ _ hw ⟨⟩
  obtain ⟨h1, h2, h3⟩ := wordVR 0x12#8 f
  unfold decodeSlot decodeV
  rw [show (fld (encodeV (.vcmp f)) 56 8).toNat = 0x12 from congrArg BitVec.toNat h1]
  exact accepted (h3) (congrArg _ h2) hw

theorem vsel (f : VR) : Statement (.vsel f) := by
  rintro _ _ _ hw ⟨⟩
  obtain ⟨h1, h2, h3⟩ := wordVR 0x13#8 f
  unfold decodeSlot decodeV
  rw [show (fld (encodeV (.vsel f)) 56 8).toNat = 0x13 from congrArg BitVec.toNat h1]
  exact accepted (h3) (congrArg _ h2) hw

theorem vmov (f : VR) : Statement (.vmov f) := by
  rintro _ _ _ hw ⟨⟩
  obtain ⟨h1, h2, h3⟩ := wordVR 0x14#8 f
  unfold decodeSlot decodeV
  rw [show (fld (encodeV (.vmov f)) 56 8).toNat = 0x14 from congrArg BitVec.toNat h1]
  exact accepted (h3) (congrArg _ h2) hw

theorem vbcst (f : VR) : Statement (.vbcst f) := by
  rintro _ _ _ hw ⟨⟩
  obtain ⟨h1, h2, h3⟩ := wordVR 0x15#8 f
  unfold decodeSlot decodeV
  rw [show (fld (encodeV (.vbcst f)) 56 8).toNat = 0x15 from congrArg BitVec.toNat h1]
  exact accepted (h3) (congrArg _ h2) hw

theorem vperm (f : VR) : Statement (.vperm f) := by
  rintro _ _ _ hw ⟨⟩
  obtain ⟨h1, h2, h3⟩ := wordVR 0x16#8 f
  unfold decodeSlot decodeV
  rw [show (fld (encodeV (.vperm f)) 56 8).toNat = 0x16 from congrArg BitVec.toNat h1]
  exact accepted (h3) (congrArg _ h2) hw

theorem vslide (f : VR) : Statement (.vslide f) := by
  rintro _ _ _ hw ⟨⟩
  obtain ⟨h1, h2, h3⟩ := wordVR 0x17#8 f
  unfold decodeSlot decodeV
  rw [show (fld (encodeV (.vslide f)) 56 8).toNat = 0x17 from congrArg BitVec.toNat h1]
  exact accepted (h3) (congrArg _ h2) hw

theorem vzip (f : VR) : Statement (.vzip f) := by
  rintro _ _ _ hw ⟨⟩
  obtain ⟨h1, h2, h3⟩ := wordVR 0x18#8 f
  unfold decodeSlot decodeV
  rw [show (fld (encodeV (.vzip f)) 56 8).toNat = 0x18 from congrArg BitVec.toNat h1]
  exact accepted (h3) (congrArg _ h2) hw

theorem vunzip (f : VR) : Statement (.vunzip f) := by
  rintro _ _ _ hw ⟨⟩
  obtain ⟨h1, h2, h3⟩ := wordVR 0x19#8 f
  unfold decodeSlot decodeV
  rw [show (fld (encodeV (.vunzip f)) 56 8).toNat = 0x19 from congrArg BitVec.toNat h1]
  exact accepted (h3) (congrArg _ h2) hw

theorem vcvt (f : VR) : Statement (.vcvt f) := by
  rintro _ _ _ hw ⟨⟩
  obtain ⟨h1, h2, h3⟩ := wordVR 0x1A#8 f
  unfold decodeSlot decodeV
  rw [show (fld (encodeV (.vcvt f)) 56 8).toNat = 0x1A from congrArg BitVec.toNat h1]
  exact accepted (h3) (congrArg _ h2) hw

theorem vpack (f : VR) : Statement (.vpack f) := by
  rintro _ _ _ hw ⟨⟩
  obtain ⟨h1, h2, h3⟩ := wordVR 0x1B#8 f
  unfold decodeSlot decodeV
  rw [show (fld (encodeV (.vpack f)) 56 8).toNat = 0x1B from congrArg BitVec.toNat h1]
  exact accepted (h3) (congrArg _ h2) hw

theorem vwiden (f : VR) : Statement (.vwiden f) := by
  rintro _ _ _ hw ⟨⟩
  obtain ⟨h1, h2, h3⟩ := wordVR 0x1C#8 f
  unfold decodeSlot decodeV
  rw [show (fld (encodeV (.vwiden f)) 56 8).toNat = 0x1C from congrArg BitVec.toNat h1]
  exact accepted (h3) (congrArg _ h2) hw

theorem vqnt (f : VR) : Statement (.vqnt f) := by
  rintro _ _ _ hw ⟨⟩
  obtain ⟨h1, h2, h3⟩ := wordVR 0x1D#8 f
  unfold decodeSlot decodeV
  rw [show (fld (encodeV (.vqnt f)) 56 8).toNat = 0x1D from congrArg BitVec.toNat h1]
  exact accepted (h3) (congrArg _ h2) hw

theorem vdqnt (f : VR) : Statement (.vdqnt f) := by
  rintro _ _ _ hw ⟨⟩
  obtain ⟨h1, h2, h3⟩ := wordVR 0x1E#8 f
  unfold decodeSlot decodeV
  rw [show (fld (encodeV (.vdqnt f)) 56 8).toNat = 0x1E from congrArg BitVec.toNat h1]
  exact accepted (h3) (congrArg _ h2) hw

theorem vamax (f : VR) : Statement (.vamax f) := by
  rintro _ _ _ hw ⟨⟩
  obtain ⟨h1, h2, h3⟩ := wordVR 0x1F#8 f
  unfold decodeSlot decodeV
  rw [show (fld (encodeV (.vamax f)) 56 8).toNat = 0x1F from congrArg BitVec.toNat h1]
  exact accepted (h3) (congrArg _ h2) hw

theorem vscale (f : VR) : Statement (.vscale f) := by
  rintro _ _ _ hw ⟨⟩
  obtain ⟨h1, h2, h3⟩ := wordVR 0x20#8 f
  unfold decodeSlot decodeV
  rw [show (fld (encodeV (.vscale f)) 56 8).toNat = 0x20 from congrArg BitVec.toNat h1]
  exact accepted (h3) (congrArg _ h2) hw

theorem vrsum (f : VR) : Statement (.vrsum f) := by
  rintro _ _ _ hw ⟨⟩
  obtain ⟨h1, h2, h3⟩ := wordVR 0x21#8 f
  unfold decodeSlot decodeV
  rw [show (fld (encodeV (.vrsum f)) 56 8).toNat = 0x21 from congrArg BitVec.toNat h1]
  exact accepted (h3) (congrArg _ h2) hw

theorem vrmax (f : VR) : Statement (.vrmax f) := by
  rintro _ _ _ hw ⟨⟩
  obtain ⟨h1, h2, h3⟩ := wordVR 0x22#8 f
  unfold decodeSlot decodeV
  rw [show (fld (encodeV (.vrmax f)) 56 8).toNat = 0x22 from congrArg BitVec.toNat h1]
  exact accepted (h3) (congrArg _ h2) hw

theorem vrmin (f : VR) : Statement (.vrmin f) := by
  rintro _ _ _ hw ⟨⟩
  obtain ⟨h1, h2, h3⟩ := wordVR 0x23#8 f
  unfold decodeSlot decodeV
  rw [show (fld (encodeV (.vrmin f)) 56 8).toNat = 0x23 from congrArg BitVec.toNat h1]
  exact accepted (h3) (congrArg _ h2) hw

theorem vrdot (f : VR) : Statement (.vrdot f) := by
  rintro _ _ _ hw ⟨⟩
  obtain ⟨h1, h2, h3⟩ := wordVR 0x24#8 f
  unfold decodeSlot decodeV
  rw [show (fld (encodeV (.vrdot f)) 56 8).toNat = 0x24 from congrArg BitVec.toNat h1]
  exact accepted (h3) (congrArg _ h2) hw

theorem vlacc (f : VR) : Statement (.vlacc f) := by
  rintro _ _ _ hw ⟨⟩
  obtain ⟨h1, h2, h3⟩ := wordVR 0x25#8 f
  unfold decodeSlot decodeV
  rw [show (fld (encodeV (.vlacc f)) 56 8).toNat = 0x25 from congrArg BitVec.toNat h1]
  exact accepted (h3) (congrArg _ h2) hw

theorem vlarnd (f : VR) : Statement (.vlarnd f) := by
  rintro _ _ _ hw ⟨⟩
  obtain ⟨h1, h2, h3⟩ := wordVR 0x26#8 f
  unfold decodeSlot decodeV
  rw [show (fld (encodeV (.vlarnd f)) 56 8).toNat = 0x26 from congrArg BitVec.toNat h1]
  exact accepted (h3) (congrArg _ h2) hw

theorem vclass (f : VR) : Statement (.vclass f) := by
  rintro _ _ _ hw ⟨⟩
  obtain ⟨h1, h2, h3⟩ := wordVR 0x27#8 f
  unfold decodeSlot decodeV
  rw [show (fld (encodeV (.vclass f)) 56 8).toNat = 0x27 from congrArg BitVec.toNat h1]
  exact accepted (h3) (congrArg _ h2) hw

theorem vpopc (f : VR) : Statement (.vpopc f) := by
  rintro _ _ _ hw ⟨⟩
  obtain ⟨h1, h2, h3⟩ := wordVR 0x28#8 f
  unfold decodeSlot decodeV
  rw [show (fld (encodeV (.vpopc f)) 56 8).toNat = 0x28 from congrArg BitVec.toNat h1]
  exact accepted (h3) (congrArg _ h2) hw

theorem vclz (f : VR) : Statement (.vclz f) := by
  rintro _ _ _ hw ⟨⟩
  obtain ⟨h1, h2, h3⟩ := wordVR 0x29#8 f
  unfold decodeSlot decodeV
  rw [show (fld (encodeV (.vclz f)) 56 8).toNat = 0x29 from congrArg BitVec.toNat h1]
  exact accepted (h3) (congrArg _ h2) hw

theorem vmaddi (f : VR) : Statement (.vmaddi f) := by
  rintro _ _ _ hw ⟨⟩
  obtain ⟨h1, h2, h3⟩ := wordVR 0x2A#8 f
  unfold decodeSlot decodeV
  rw [show (fld (encodeV (.vmaddi f)) 56 8).toNat = 0x2A from congrArg BitVec.toNat h1]
  exact accepted (h3) (congrArg _ h2) hw

theorem vabsd (f : VR) : Statement (.vabsd f) := by
  rintro _ _ _ hw ⟨⟩
  obtain ⟨h1, h2, h3⟩ := wordVR 0x2B#8 f
  unfold decodeSlot decodeV
  rw [show (fld (encodeV (.vabsd f)) 56 8).toNat = 0x2B from congrArg BitVec.toNat h1]
  exact accepted (h3) (congrArg _ h2) hw

theorem vrcp (f : VR) : Statement (.vrcp f) := by
  rintro _ _ _ hw ⟨⟩
  obtain ⟨h1, h2, h3⟩ := wordVR 0x2C#8 f
  unfold decodeSlot decodeV
  rw [show (fld (encodeV (.vrcp f)) 56 8).toNat = 0x2C from congrArg BitVec.toNat h1]
  exact accepted (h3) (congrArg _ h2) hw

theorem vrsq (f : VR) : Statement (.vrsq f) := by
  rintro _ _ _ hw ⟨⟩
  obtain ⟨h1, h2, h3⟩ := wordVR 0x2D#8 f
  unfold decodeSlot decodeV
  rw [show (fld (encodeV (.vrsq f)) 56 8).toNat = 0x2D from congrArg BitVec.toNat h1]
  exact accepted (h3) (congrArg _ h2) hw

theorem vld (f : VL) : Statement (.vld f) := by
  rintro _ _ _ hw ⟨⟩
  obtain ⟨h1, h2⟩ := wordVL 0x2E#8 f
  unfold decodeSlot decodeV
  rw [show (fld (encodeV (.vld f)) 56 8).toNat = 0x2E from congrArg BitVec.toNat h1]
  exact accepted (rfl) (congrArg _ h2) hw

theorem vst (f : VL) : Statement (.vst f) := by
  rintro _ _ _ hw ⟨⟩
  obtain ⟨h1, h2⟩ := wordVL 0x2F#8 f
  unfold decodeSlot decodeV
  rw [show (fld (encodeV (.vst f)) 56 8).toNat = 0x2F from congrArg BitVec.toNat h1]
  exact accepted (rfl) (congrArg _ h2) hw

theorem vldx (f : VL) : Statement (.vldx f) := by
  rintro _ _ _ hw ⟨⟩
  obtain ⟨h1, h2⟩ := wordVL 0x30#8 f
  unfold decodeSlot decodeV
  rw [show (fld (encodeV (.vldx f)) 56 8).toNat = 0x30 from congrArg BitVec.toNat h1]
  exact accepted (rfl) (congrArg _ h2) hw

theorem vstx (f : VL) : Statement (.vstx f) := by
  rintro _ _ _ hw ⟨⟩
  obtain ⟨h1, h2⟩ := wordVL 0x31#8 f
  unfold decodeSlot decodeV
  rw [show (fld (encodeV (.vstx f)) 56 8).toNat = 0x31 from congrArg BitVec.toNat h1]
  exact accepted (rfl) (congrArg _ h2) hw

theorem vldb (f : VL) : Statement (.vldb f) := by
  rintro _ _ _ hw ⟨⟩
  obtain ⟨h1, h2⟩ := wordVL 0x32#8 f
  unfold decodeSlot decodeV
  rw [show (fld (encodeV (.vldb f)) 56 8).toNat = 0x32 from congrArg BitVec.toNat h1]
  exact accepted (rfl) (congrArg _ h2) hw

theorem vlscale (f : VR) : Statement (.vlscale f) := by
  rintro _ _ _ hw ⟨⟩
  obtain ⟨h1, h2, h3⟩ := wordVR 0x33#8 f
  unfold decodeSlot decodeV
  rw [show (fld (encodeV (.vlscale f)) 56 8).toNat = 0x33 from congrArg BitVec.toNat h1]
  exact accepted (h3) (congrArg _ h2) hw

theorem xferv (f : VX) : Statement (.xferv f) := by
  rintro _ _ _ hw ⟨⟩
  obtain ⟨h1, h2, h3⟩ := wordVX 0x34#8 f
  unfold decodeSlot decodeV
  rw [show (fld (encodeV (.xferv f)) 56 8).toNat = 0x34 from congrArg BitVec.toNat h1]
  exact accepted (h3) (congrArg _ h2) hw

theorem viota (f : VR) : Statement (.viota f) := by
  rintro _ _ _ hw ⟨⟩
  obtain ⟨h1, h2, h3⟩ := wordVR 0x35#8 f
  unfold decodeSlot decodeV
  rw [show (fld (encodeV (.viota f)) 56 8).toNat = 0x35 from congrArg BitVec.toNat h1]
  exact accepted (h3) (congrArg _ h2) hw

theorem vcpsgn (f : VR) : Statement (.vcpsgn f) := by
  rintro _ _ _ hw ⟨⟩
  obtain ⟨h1, h2, h3⟩ := wordVR 0x36#8 f
  unfold decodeSlot decodeV
  rw [show (fld (encodeV (.vcpsgn f)) 56 8).toNat = 0x36 from congrArg BitVec.toNat h1]
  exact accepted (h3) (congrArg _ h2) hw

theorem vrint (f : VR) : Statement (.vrint f) := by
  rintro _ _ _ hw ⟨⟩
  obtain ⟨h1, h2, h3⟩ := wordVR 0x37#8 f
  unfold decodeSlot decodeV
  rw [show (fld (encodeV (.vrint f)) 56 8).toNat = 0x37 from congrArg BitVec.toNat h1]
  exact accepted (h3) (congrArg _ h2) hw

theorem mnop : Statement .mnop := by rintro _ _ _ _ ⟨⟩; rfl

theorem mset (f : MR) : Statement (.mset f) := by
  rintro _ _ _ hw ⟨⟩
  obtain ⟨h1, h2, h3, g1, _⟩ := wordMR 0x01#8 f
  unfold decodeSlot decodeM
  rw [show (fld (encodeM (.mset f)) 56 8).toNat = 0x01 from congrArg BitVec.toNat h1]
  have h : f.fn = 0 := eq_of_beq (first hw)
  refine (if_neg ?_).trans (accepted (h3) (congrArg _ h2) hw)
  rw [show fld (encodeM (.mset f)) 35 1 = fld f.fn 0 1 from g1, h]; decide

theorem msetHi (f : MR) : Statement (.msetHi f) := by
  rintro _ _ _ hw ⟨⟩
  obtain ⟨h1, h2, h3, g1, _⟩ := wordMR 0x01#8 f
  unfold decodeSlot decodeM
  rw [show (fld (encodeM (.msetHi f)) 56 8).toNat = 0x01 from congrArg BitVec.toNat h1]
  have h : f.fn = 1 := eq_of_beq (first hw)
  refine (if_pos ?_).trans (accepted (h3) (congrArg _ h2) hw)
  rw [show fld (encodeM (.msetHi f)) 35 1 = fld f.fn 0 1 from g1, h]; decide

theorem maddM (f : MR) : Statement (.maddM f) := by
  rintro _ _ _ hw ⟨⟩
  obtain ⟨h1, h2, h3, _, _⟩ := wordMR 0x02#8 f
  unfold decodeSlot decodeM
  rw [show (fld (encodeM (.maddM f)) 56 8).toNat = 0x02 from congrArg BitVec.toNat h1]
  exact accepted (h3) (congrArg _ h2) hw

theorem mmov (f : MR) : Statement (.mmov f) := by
  rintro _ _ _ hw ⟨⟩
  obtain ⟨h1, h2, h3, _, _⟩ := wordMR 0x03#8 f
  unfold decodeSlot decodeM
  rw [show (fld (encodeM (.mmov f)) 56 8).toNat = 0x03 from congrArg BitVec.toNat h1]
  exact accepted (h3) (congrArg _ h2) hw

theorem xferm (f : MX) : Statement (.xferm f) := by
  rintro _ _ _ hw ⟨⟩
  obtain ⟨h1, h2, h3⟩ := wordMX 0x04#8 f
  unfold decodeSlot decodeM
  rw [show (fld (encodeM (.xferm f)) 56 8).toNat = 0x04 from congrArg BitVec.toNat h1]
  exact accepted (h3) (congrArg _ h2) hw

theorem saff (f : MS) : Statement (.saff f) := by
  rintro _ _ _ hw ⟨⟩
  obtain ⟨h1, h2⟩ := wordMS 0x05#8 f
  unfold decodeSlot decodeM
  rw [show (fld (encodeM (.saff f)) 56 8).toNat = 0x05 from congrArg BitVec.toNat h1]
  exact accepted (rfl) (congrArg _ h2) hw

theorem saffw (f : MS) : Statement (.saffw f) := by
  rintro _ _ _ hw ⟨⟩
  obtain ⟨h1, h2⟩ := wordMS 0x06#8 f
  unfold decodeSlot decodeM
  rw [show (fld (encodeM (.saffw f)) 56 8).toNat = 0x06 from congrArg BitVec.toNat h1]
  exact accepted (rfl) (congrArg _ h2) hw

theorem sind (f : MS) : Statement (.sind f) := by
  rintro _ _ _ hw ⟨⟩
  obtain ⟨h1, h2⟩ := wordMS 0x07#8 f
  unfold decodeSlot decodeM
  rw [show (fld (encodeM (.sind f)) 56 8).toNat = 0x07 from congrArg BitVec.toNat h1]
  exact accepted (rfl) (congrArg _ h2) hw

theorem sindw (f : MS) : Statement (.sindw f) := by
  rintro _ _ _ hw ⟨⟩
  obtain ⟨h1, h2⟩ := wordMS 0x08#8 f
  unfold decodeSlot decodeM
  rw [show (fld (encodeM (.sindw f)) 56 8).toNat = 0x08 from congrArg BitVec.toNat h1]
  exact accepted (rfl) (congrArg _ h2) hw

theorem srec (f : MS) : Statement (.srec f) := by
  rintro _ _ _ hw ⟨⟩
  obtain ⟨h1, h2⟩ := wordMS 0x09#8 f
  unfold decodeSlot decodeM
  rw [show (fld (encodeM (.srec f)) 56 8).toNat = 0x09 from congrArg BitVec.toNat h1]
  exact accepted (rfl) (congrArg _ h2) hw

theorem swin (f : MS) : Statement (.swin f) := by
  rintro _ _ _ hw ⟨⟩
  obtain ⟨h1, h2⟩ := wordMS 0x0A#8 f
  unfold decodeSlot decodeM
  rw [show (fld (encodeM (.swin f)) 56 8).toNat = 0x0A from congrArg BitVec.toNat h1]
  exact accepted (rfl) (congrArg _ h2) hw

theorem smcast (f : MS) : Statement (.smcast f) := by
  rintro _ _ _ hw ⟨⟩
  obtain ⟨h1, h2⟩ := wordMS 0x0B#8 f
  unfold decodeSlot decodeM
  rw [show (fld (encodeM (.smcast f)) 56 8).toNat = 0x0B from congrArg BitVec.toNat h1]
  exact accepted (rfl) (congrArg _ h2) hw

theorem temit (f : MS) : Statement (.temit f) := by
  rintro _ _ _ hw ⟨⟩
  obtain ⟨h1, h2⟩ := wordMS 0x0C#8 f
  unfold decodeSlot decodeM
  rw [show (fld (encodeM (.temit f)) 56 8).toNat = 0x0C from congrArg BitVec.toNat h1]
  exact accepted (rfl) (congrArg _ h2) hw

theorem tcons (f : MS) : Statement (.tcons f) := by
  rintro _ _ _ hw ⟨⟩
  obtain ⟨h1, h2⟩ := wordMS 0x0D#8 f
  unfold decodeSlot decodeM
  rw [show (fld (encodeM (.tcons f)) 56 8).toNat = 0x0D from congrArg BitVec.toNat h1]
  exact accepted (rfl) (congrArg _ h2) hw

theorem scopy (f : MS) : Statement (.scopy f) := by
  rintro _ _ _ hw ⟨⟩
  obtain ⟨h1, h2⟩ := wordMS 0x0E#8 f
  unfold decodeSlot decodeM
  rw [show (fld (encodeM (.scopy f)) 56 8).toNat = 0x0E from congrArg BitVec.toNat h1]
  exact accepted (rfl) (congrArg _ h2) hw

theorem sfill (f : MS) : Statement (.sfill f) := by
  rintro _ _ _ hw ⟨⟩
  obtain ⟨h1, h2⟩ := wordMS 0x0F#8 f
  unfold decodeSlot decodeM
  rw [show (fld (encodeM (.sfill f)) 56 8).toNat = 0x0F from congrArg BitVec.toNat h1]
  exact accepted (rfl) (congrArg _ h2) hw

theorem scancel (f : MS) : Statement (.scancel f) := by
  rintro _ _ _ hw ⟨⟩
  obtain ⟨h1, h2⟩ := wordMS 0x10#8 f
  unfold decodeSlot decodeM
  rw [show (fld (encodeM (.scancel f)) 56 8).toNat = 0x10 from congrArg BitVec.toNat h1]
  exact accepted (rfl) (congrArg _ h2) hw

theorem sbar (f : MR) : Statement (.sbar f) := by
  rintro _ _ _ hw ⟨⟩
  obtain ⟨h1, h2, h3, _, _⟩ := wordMR 0x11#8 f
  unfold decodeSlot decodeM
  rw [show (fld (encodeM (.sbar f)) 56 8).toNat = 0x11 from congrArg BitVec.toNat h1]
  exact accepted (h3) (congrArg _ h2) hw

theorem swload (f : MR) : Statement (.swload f) := by
  rintro _ _ _ hw ⟨⟩
  obtain ⟨h1, h2, h3, _, _⟩ := wordMR 0x12#8 f
  unfold decodeSlot decodeM
  rw [show (fld (encodeM (.swload f)) 56 8).toNat = 0x12 from congrArg BitVec.toNat h1]
  exact accepted (h3) (congrArg _ h2) hw

theorem swact (f : MR) : Statement (.swact f) := by
  rintro _ _ _ hw ⟨⟩
  obtain ⟨h1, h2, h3, _, _⟩ := wordMR 0x13#8 f
  unfold decodeSlot decodeM
  rw [show (fld (encodeM (.swact f)) 56 8).toNat = 0x13 from congrArg BitVec.toNat h1]
  exact accepted (h3) (congrArg _ h2) hw

theorem cfgload (f : MR) : Statement (.cfgload f) := by
  rintro _ _ _ hw ⟨⟩
  obtain ⟨h1, h2, h3, _, _⟩ := wordMR 0x14#8 f
  unfold decodeSlot decodeM
  rw [show (fld (encodeM (.cfgload f)) 56 8).toNat = 0x14 from congrArg BitVec.toNat h1]
  exact accepted (h3) (congrArg _ h2) hw

theorem cfgact (f : MR) : Statement (.cfgact f) := by
  rintro _ _ _ hw ⟨⟩
  obtain ⟨h1, h2, h3, _, _⟩ := wordMR 0x15#8 f
  unfold decodeSlot decodeM
  rw [show (fld (encodeM (.cfgact f)) 56 8).toNat = 0x15 from congrArg BitVec.toNat h1]
  exact accepted (h3) (congrArg _ h2) hw

theorem afire (f : MR) : Statement (.afire f) := by
  rintro _ _ _ hw ⟨⟩
  obtain ⟨h1, h2, h3, _, _⟩ := wordMR 0x16#8 f
  unfold decodeSlot decodeM
  rw [show (fld (encodeM (.afire f)) 56 8).toNat = 0x16 from congrArg BitVec.toNat h1]
  exact accepted (h3) (congrArg _ h2) hw

theorem aflush (f : MR) : Statement (.aflush f) := by
  rintro _ _ _ hw ⟨⟩
  obtain ⟨h1, h2, h3, _, _⟩ := wordMR 0x17#8 f
  unfold decodeSlot decodeM
  rw [show (fld (encodeM (.aflush f)) 56 8).toNat = 0x17 from congrArg BitVec.toNat h1]
  exact accepted (h3) (congrArg _ h2) hw

theorem adepth (f : MR) : Statement (.adepth f) := by
  rintro _ _ _ hw ⟨⟩
  obtain ⟨h1, h2, h3, _, _⟩ := wordMR 0x18#8 f
  unfold decodeSlot decodeM
  rw [show (fld (encodeM (.adepth f)) 56 8).toNat = 0x18 from congrArg BitVec.toNat h1]
  exact accepted (h3) (congrArg _ h2) hw

theorem mnopen (f : MR) : Statement (.mnopen f) := by
  rintro _ _ _ hw ⟨⟩
  obtain ⟨h1, h2, h3, _, _⟩ := wordMR 0x19#8 f
  unfold decodeSlot decodeM
  rw [show (fld (encodeM (.mnopen f)) 56 8).toNat = 0x19 from congrArg BitVec.toNat h1]
  exact accepted (h3) (congrArg _ h2) hw

theorem mnfeed (f : MS) : Statement (.mnfeed f) := by
  rintro _ _ _ hw ⟨⟩
  obtain ⟨h1, h2⟩ := wordMS 0x1A#8 f
  unfold decodeSlot decodeM
  rw [show (fld (encodeM (.mnfeed f)) 56 8).toNat = 0x1A from congrArg BitVec.toNat h1]
  exact accepted (rfl) (congrArg _ h2) hw

theorem mnflush (f : MR) : Statement (.mnflush f) := by
  rintro _ _ _ hw ⟨⟩
  obtain ⟨h1, h2, h3, _, _⟩ := wordMR 0x1B#8 f
  unfold decodeSlot decodeM
  rw [show (fld (encodeM (.mnflush f)) 56 8).toNat = 0x1B from congrArg BitVec.toNat h1]
  exact accepted (h3) (congrArg _ h2) hw

theorem mndrain (f : MS) : Statement (.mndrain f) := by
  rintro _ _ _ hw ⟨⟩
  obtain ⟨h1, h2⟩ := wordMS 0x1C#8 f
  unfold decodeSlot decodeM
  rw [show (fld (encodeM (.mndrain f)) 56 8).toNat = 0x1C from congrArg BitVec.toNat h1]
  exact accepted (rfl) (congrArg _ h2) hw

theorem mnclose (f : MR) : Statement (.mnclose f) := by
  rintro _ _ _ hw ⟨⟩
  obtain ⟨h1, h2, h3, g1, _⟩ := wordMR 0x1D#8 f
  unfold decodeSlot decodeM
  rw [show (fld (encodeM (.mnclose f)) 56 8).toNat = 0x1D from congrArg BitVec.toNat h1]
  have h : f.fn = 0 := eq_of_beq (first hw)
  refine (if_neg ?_).trans (accepted (h3) (congrArg _ h2) hw)
  rw [show fld (encodeM (.mnclose f)) 35 1 = fld f.fn 0 1 from g1, h]; decide

theorem mncloseA (f : MR) : Statement (.mncloseA f) := by
  rintro _ _ _ hw ⟨⟩
  obtain ⟨h1, h2, h3, g1, _⟩ := wordMR 0x1D#8 f
  unfold decodeSlot decodeM
  rw [show (fld (encodeM (.mncloseA f)) 56 8).toNat = 0x1D from congrArg BitVec.toNat h1]
  have h : f.fn = 1 := eq_of_beq (first hw)
  refine (if_pos ?_).trans (accepted (h3) (congrArg _ h2) hw)
  rw [show fld (encodeM (.mncloseA f)) 35 1 = fld f.fn 0 1 from g1, h]; decide

theorem nsdot (f : MS) : Statement (.nsdot f) := by
  rintro _ _ _ hw ⟨⟩
  obtain ⟨h1, h2⟩ := wordMS 0x1E#8 f
  unfold decodeSlot decodeM
  rw [show (fld (encodeM (.nsdot f)) 56 8).toNat = 0x1E from congrArg BitVec.toNat h1]
  exact accepted (rfl) (congrArg _ h2) hw

theorem launch (f : MR) : Statement (.launch f) := by
  rintro _ _ _ hw ⟨⟩
  obtain ⟨h1, h2, h3, _, _⟩ := wordMR 0x1F#8 f
  unfold decodeSlot decodeM
  rw [show (fld (encodeM (.launch f)) 56 8).toNat = 0x1F from congrArg BitVec.toNat h1]
  exact accepted (h3) (congrArg _ h2) hw

theorem spawn (f : MR) : Statement (.spawn f) := by
  rintro _ _ _ hw ⟨⟩
  obtain ⟨h1, h2, h3, _, _⟩ := wordMR 0x20#8 f
  unfold decodeSlot decodeM
  rw [show (fld (encodeM (.spawn f)) 56 8).toNat = 0x20 from congrArg BitVec.toNat h1]
  exact accepted (h3) (congrArg _ h2) hw

theorem jinit (f : MR) : Statement (.jinit f) := by
  rintro _ _ _ hw ⟨⟩
  obtain ⟨h1, h2, h3, _, _⟩ := wordMR 0x21#8 f
  unfold decodeSlot decodeM
  rw [show (fld (encodeM (.jinit f)) 56 8).toNat = 0x21 from congrArg BitVec.toNat h1]
  exact accepted (h3) (congrArg _ h2) hw

theorem pgreq (f : MR) : Statement (.pgreq f) := by
  rintro _ _ _ hw ⟨⟩
  obtain ⟨h1, h2, h3, _, g2⟩ := wordMR 0x22#8 f
  unfold decodeSlot decodeM
  rw [show (fld (encodeM (.pgreq f)) 56 8).toNat = 0x22 from congrArg BitVec.toNat h1]
  have h : ∀ n : BitVec 6, decide (n.toNat < 3) = true → ¬ (fld n 2 1 == 1) = true := by decide
  refine (if_neg ?_).trans (accepted (h3) (congrArg _ h2) hw)
  rw [show fld (encodeM (.pgreq f)) 37 1 = fld f.fn 2 1 from g2]; exact h _ (first hw)

theorem pgreqRel (f : MR) : Statement (.pgreqRel f) := by
  rintro _ _ _ hw ⟨⟩
  obtain ⟨h1, h2, h3, _, g2⟩ := wordMR 0x22#8 f
  unfold decodeSlot decodeM
  rw [show (fld (encodeM (.pgreqRel f)) 56 8).toNat = 0x22 from congrArg BitVec.toNat h1]
  have h : ∀ n : BitVec 6, (decide (4 ≤ n.toNat) && decide (n.toNat < 7)) = true → (fld n 2 1 == 1) = true := by decide
  refine (if_pos ?_).trans (accepted (h3) (congrArg _ h2) hw)
  rw [show fld (encodeM (.pgreqRel f)) 37 1 = fld f.fn 2 1 from g2]; exact h _ (first hw)

theorem spref (f : MS) : Statement (.spref f) := by
  rintro _ _ _ hw ⟨⟩
  obtain ⟨h1, h2⟩ := wordMS 0x23#8 f
  unfold decodeSlot decodeM
  rw [show (fld (encodeM (.spref f)) 56 8).toNat = 0x23 from congrArg BitVec.toNat h1]
  exact accepted (rfl) (congrArg _ h2) hw

theorem grecv (f : MS) : Statement (.grecv f) := by
  rintro _ _ _ hw ⟨⟩
  obtain ⟨h1, h2⟩ := wordMS 0x24#8 f
  unfold decodeSlot decodeM
  rw [show (fld (encodeM (.grecv f)) 56 8).toNat = 0x24 from congrArg BitVec.toNat h1]
  exact accepted (rfl) (congrArg _ h2) hw

theorem sdual (f : MS) : Statement (.sdual f) := by
  rintro _ _ _ hw ⟨⟩
  obtain ⟨h1, h2⟩ := wordMS 0x25#8 f
  unfold decodeSlot decodeM
  rw [show (fld (encodeM (.sdual f)) 56 8).toNat = 0x25 from congrArg BitVec.toNat h1]
  exact accepted (rfl) (congrArg _ h2) hw

theorem sstat (f : MR) : Statement (.sstat f) := by
  rintro _ _ _ hw ⟨⟩
  obtain ⟨h1, h2, h3, _, _⟩ := wordMR 0x26#8 f
  unfold decodeSlot decodeM
  rw [show (fld (encodeM (.sstat f)) 56 8).toNat = 0x26 from congrArg BitVec.toNat h1]
  exact accepted (h3) (congrArg _ h2) hw

theorem lapin (f : MR) : Statement (.lapin f) := by
  rintro _ _ _ hw ⟨⟩
  obtain ⟨h1, h2, h3, g1, _⟩ := wordMR 0x27#8 f
  unfold decodeSlot decodeM
  rw [show (fld (encodeM (.lapin f)) 56 8).toNat = 0x27 from congrArg BitVec.toNat h1]
  have h : f.fn = 0 := eq_of_beq (first hw)
  refine (if_neg ?_).trans (accepted (h3) (congrArg _ h2) hw)
  rw [show fld (encodeM (.lapin f)) 35 1 = fld f.fn 0 1 from g1, h]; decide

theorem lapinRel (f : MR) : Statement (.lapinRel f) := by
  rintro _ _ _ hw ⟨⟩
  obtain ⟨h1, h2, h3, g1, _⟩ := wordMR 0x27#8 f
  unfold decodeSlot decodeM
  rw [show (fld (encodeM (.lapinRel f)) 56 8).toNat = 0x27 from congrArg BitVec.toNat h1]
  have h : f.fn = 1 := eq_of_beq (first hw)
  refine (if_pos ?_).trans (accepted (h3) (congrArg _ h2) hw)
  rw [show fld (encodeM (.lapinRel f)) 35 1 = fld f.fn 0 1 from g1, h]; decide

theorem publish (f : MR) : Statement (.publish f) := by
  rintro _ _ _ hw ⟨⟩
  obtain ⟨h1, h2, h3, _, _⟩ := wordMR 0x28#8 f
  unfold decodeSlot decodeM
  rw [show (fld (encodeM (.publish f)) 56 8).toNat = 0x28 from congrArg BitVec.toNat h1]
  exact accepted (h3) (congrArg _ h2) hw

theorem cfgpref (f : MR) : Statement (.cfgpref f) := by
  rintro _ _ _ hw ⟨⟩
  obtain ⟨h1, h2, h3, _, _⟩ := wordMR 0x29#8 f
  unfold decodeSlot decodeM
  rw [show (fld (encodeM (.cfgpref f)) 56 8).toNat = 0x29 from congrArg BitVec.toNat h1]
  exact accepted (h3) (congrArg _ h2) hw

theorem parkedSyncComplete : Statement .parkedSyncComplete := by intro _ _ _ _ h; cases h

theorem linkUp (l : LinkId) : Statement (.linkUp l) := by intro _ _ _ _ h; cases h

theorem qcmdInvalidCommand (cmd : Nat) : Statement (.qcmdInvalidCommand cmd) := by intro _ _ _ _ h; cases h

theorem pctlInvalidCommand (cmd : Nat) : Statement (.pctlInvalidCommand cmd) := by intro _ _ _ _ h; cases h

theorem synchostRefused : Statement .synchostRefused := by intro _ _ _ _ h; cases h

theorem enginePauseEnd : Statement .enginePauseEnd := by intro _ _ _ _ h; cases h

end Sys2Proof.Laws.RoundTrip
end

