-- ==== Sys2Proof/Certificates/Slice0/Obligations.lean ====
section
/-! DEFINITION. What is stated of this model, for the provers: rules of the spec, and what the model's own log entries
say where a docstring names one. -/

namespace Sys2Proof


/-! ### What the statements are written with -/

/-- What a machine operation answers. -/
abbrev Answer := Host.Outcome Machine.State Machine.Fault Machine.Refusal

/-- The answer of an operation of the current context whose one effect is a result `v` for A register `rd`, delivered L
positions later (R7, R13). -/
def deliversA (s : Machine.State) (rd : BitVec 6) (v : W64) (L : Nat) : Answer := .next (s.setCx (s.cx.deliverA rd v L))

/-- The same for an M register. -/
def deliversM (s : Machine.State) (md : BitVec 5) (v : W64) (L : Nat) : Answer := .next (s.setCx (s.cx.deliverM md v L))

/-- A context whose issue has ended, which the model counts (R20, log entry 24); the count is no state of the spec. -/
def issued (c : Machine.Ctx) : Machine.Ctx := { c with iss := c.iss + 1 }

/-! ### A-slot arithmetic -/

/-- R95: the results of the register operations of the A slot, where the guard holds. -/
def RegisterArithmeticResults : Prop :=
  ∀ (s : Machine.State) (rd ra rb : BitVec 6) (gp : BitVec 4), s.cx.guard gp = true →
    let f : AR := { rd := rd, ra := ra, rb := rb, gp := gp }
    let f1 : AR1 := { rd := rd, ra := ra, gp := gp }
    let a := s.cx.ra ra
    let b := s.cx.ra rb
    let d := s.cx.ra rd
    let sh := b.toNat % 64
    Machine.exec (.add f) s = deliversA s rd (BitVec.ofNat 64 (a.toNat + b.toNat)) 1 ∧
    Machine.exec (.sub f) s = deliversA s rd (BitVec.ofInt 64 (a.toInt - b.toInt)) 1 ∧
    Machine.exec (.and f) s = deliversA s rd (a &&& b) 1 ∧
    Machine.exec (.or f) s = deliversA s rd (a ||| b) 1 ∧
    Machine.exec (.xor f) s = deliversA s rd (a ^^^ b) 1 ∧
    Machine.exec (.andn f) s = deliversA s rd (a &&& ~~~b) 1 ∧
    Machine.exec (.shl f) s = deliversA s rd (BitVec.ofNat 64 (a.toNat * 2 ^ sh)) 1 ∧
    Machine.exec (.shr f) s = deliversA s rd (BitVec.ofNat 64 (a.toNat / 2 ^ sh)) 1 ∧
    Machine.exec (.sra f) s = deliversA s rd (BitVec.ofInt 64 (a.toInt / 2 ^ sh)) 1 ∧
    Machine.exec (.min f) s = deliversA s rd (BitVec.ofInt 64 (min a.toInt b.toInt)) 1 ∧
    Machine.exec (.minu f) s = deliversA s rd (BitVec.ofNat 64 (min a.toNat b.toNat)) 1 ∧
    Machine.exec (.max f) s = deliversA s rd (BitVec.ofInt 64 (max a.toInt b.toInt)) 1 ∧
    Machine.exec (.maxu f) s = deliversA s rd (BitVec.ofNat 64 (max a.toNat b.toNat)) 1 ∧
    Machine.exec (.abs f1) s = deliversA s rd (BitVec.ofNat 64 a.toInt.natAbs) 1 ∧
    Machine.exec (.clz f1) s = deliversA s rd (BitVec.ofNat 64 (if a = 0 then 64 else 63 - Nat.log2 a.toNat)) 1 ∧
    Machine.exec (.popc f1) s = deliversA s rd (BitVec.ofNat 64 ((List.range 64).countP (fun i => a.getLsbD i))) 1 ∧
    Machine.exec (.mul f) s = deliversA s rd (BitVec.ofNat 64 (a.toNat * b.toNat)) 3 ∧
    Machine.exec (.mulh f) s = deliversA s rd (BitVec.ofInt 64 (a.toInt * b.toInt / 2 ^ 64)) 3 ∧
    Machine.exec (.mulhu f) s = deliversA s rd (BitVec.ofNat 64 (a.toNat * b.toNat / 2 ^ 64)) 3 ∧
    Machine.exec (.mulhsu f) s = deliversA s rd (BitVec.ofInt 64 (a.toInt * (b.toNat : Int) / 2 ^ 64)) 3 ∧
    Machine.exec (.madd f) s = deliversA s rd (BitVec.ofNat 64 (d.toNat + a.toNat * b.toNat)) 3

/-- R95: CMP, LEA and EXT for every FN the table lists, and SEL, which is never guarded. -/
def CompareSelectExtendResults : Prop :=
  ∀ (s : Machine.State) (rd ra rb : BitVec 6) (gp : BitVec 4),
    let cmp : BitVec 4 → Answer := fun fn => Machine.exec (.cmp { rd := rd, ra := ra, rb := rb, fn := fn, gp := gp }) s
    let lea : BitVec 4 → Answer := fun fn => Machine.exec (.lea { rd := rd, ra := ra, rb := rb, fn := fn, gp := gp }) s
    let ext : BitVec 4 → Answer := fun fn => Machine.exec (.ext { rd := rd, ra := ra, fn := fn, gp := gp }) s
    let a := s.cx.ra ra
    let b := s.cx.ra rb
    let truth : Bool → Answer := fun p => deliversA s rd (if p then 1 else 0) 1
    (s.cx.guard gp = true →
      cmp 0 = truth (decide (a = b)) ∧ cmp 1 = truth (decide (a ≠ b)) ∧
      cmp 2 = truth (decide (a.toInt < b.toInt)) ∧ cmp 3 = truth (decide (a.toInt ≥ b.toInt)) ∧
      cmp 4 = truth (decide (a.toNat < b.toNat)) ∧ cmp 5 = truth (decide (a.toNat ≥ b.toNat)) ∧
      (∀ k : BitVec 4, k.toNat ≤ 6 → lea k = deliversA s rd (BitVec.ofNat 64 (a.toNat + b.toNat * 2 ^ k.toNat)) 1) ∧
      ext 0 = deliversA s rd ((a.setWidth 8).signExtend 64) 1 ∧ ext 1 = deliversA s rd ((a.setWidth 16).signExtend 64) 1 ∧
      ext 2 = deliversA s rd ((a.setWidth 32).signExtend 64) 1 ∧ ext 4 = deliversA s rd ((a.setWidth 8).setWidth 64) 1 ∧
      ext 5 = deliversA s rd ((a.setWidth 16).setWidth 64) 1 ∧ ext 6 = deliversA s rd ((a.setWidth 32).setWidth 64) 1) ∧
    Machine.exec (.sel { rd := rd, ra := ra, rb := rb, gp := gp }) s =
      deliversA s rd (if s.cx.guard gp = true then a else b) 1

/-- R96: BFX, BFXS and BFI, with the position and length that RB gives. -/
def BitFieldResults : Prop :=
  ∀ (s : Machine.State) (f : AR), s.cx.guard f.gp = true →
    let a := s.cx.ra f.ra
    let b := s.cx.ra f.rb
    let d := s.cx.ra f.rd
    let pos := b.toNat % 64
    let len := min (b.toNat / 256 % 128) (64 - pos)
    let bits := a.toNat / 2 ^ pos % 2 ^ len
    let m : W64 := BitVec.ofNat 64 ((2 ^ len - 1) * 2 ^ pos)
    Machine.exec (.bfx f) s = deliversA s f.rd (BitVec.ofNat 64 bits) 1 ∧
    Machine.exec (.bfxs f) s = deliversA s f.rd
      (if len = 0 then 0 else if bits < 2 ^ (len - 1) then BitVec.ofNat 64 bits else BitVec.ofInt 64 ((bits : Int) - 2 ^ len)) 1 ∧
    Machine.exec (.bfi f) s = deliversA s f.rd
      (if len = 0 then d else (d &&& ~~~m) ||| (BitVec.ofNat 64 (a.toNat % 2 ^ len * 2 ^ pos) &&& m)) 1

/-- R97: the immediate operations; `imm` is the 10-bit immediate, or the extension, sign-extended. -/
def ImmediateResults : Prop :=
  ∀ (s : Machine.State) (f : AI), s.cx.guard f.gp = true →
    let f0 : AI0 := { rd := f.rd, imm := f.imm, gp := f.gp, ext := f.ext }
    let a := s.cx.ra f.ra
    let imm : W64 := match f.ext with | none => f.imm.signExtend 64 | some e => e.signExtend 64
    Machine.exec (.addi f) s = deliversA s f.rd (BitVec.ofNat 64 (a.toNat + imm.toNat)) 1 ∧
    Machine.exec (.andi f) s = deliversA s f.rd (a &&& imm) 1 ∧
    Machine.exec (.ori f) s = deliversA s f.rd (a ||| imm) 1 ∧
    Machine.exec (.xori f) s = deliversA s f.rd (a ^^^ imm) 1 ∧
    (imm.toNat < 64 →
      Machine.exec (.shli f) s = deliversA s f.rd (BitVec.ofNat 64 (a.toNat * 2 ^ imm.toNat)) 1 ∧
      Machine.exec (.shri f) s = deliversA s f.rd (BitVec.ofNat 64 (a.toNat / 2 ^ imm.toNat)) 1 ∧
      Machine.exec (.srai f) s = deliversA s f.rd (BitVec.ofInt 64 (a.toInt / 2 ^ imm.toNat)) 1) ∧
    Machine.exec (.movi f0) s = deliversA s f.rd imm 1 ∧
    Machine.exec (.movhi f) s = deliversA s f.rd (BitVec.ofNat 64 (a.toNat % 2 ^ 32 + imm.toNat % 2 ^ 32 * 2 ^ 32)) 1 ∧
    Machine.exec (.addpc f0) s = deliversA s f.rd (BitVec.ofInt 64 (s.cx.pc.toNat + imm.toInt * 4)) 1 ∧
    Machine.exec (.muli f) s = deliversA s f.rd (BitVec.ofInt 64 (a.toInt * imm.toInt)) 3

/-! ### Scalar accesses -/

/-- The n bytes from offset a of a memory, little-endian (R2). -/
def little (m : Machine.Mem) (a n : Nat) : Nat := ((List.range n).map (fun i => (m.read (a + i)).toNat * 2 ^ (8 * i))).sum

/-- What a scalar load leaves pending for register rd (R98, R16, R19): `v` at the load's delivery position, with the data
present after 6 cycles, or 14 from a cluster scratchpad. -/
def loaded (s : Machine.State) (rd : BitVec 6) (l : Machine.PadLoc) (v : W64) : Machine.Pend :=
  { dst := .a rd.toNat, val := v.setWidth 512, mask := BitVec.allOnes 512
    pos := s.cx.now + (if s.cx.cr 1 = 1 then 4 else 6), slot := 0, arrived := false
    ready := s.tick + (match l.pad with | .cluster _ => 14 | _ => 6), load := true }

/-- R98 to R102, R20 and R293 of one load `i` of register rd and size code sz at address p: what it does when its address
passes the checks of R100 and its bytes have no uncorrectable error. Behind a full/empty load or a store of an earlier bundle
that waits, its bundle issues and its read stays pending (log entry 24, the model's reading of R20 and R293); a qualified one waits
until its granules are full and its bank grants it (R267). -/
def LoadsScalar (s : Machine.State) (i : Instr) (rd : BitVec 6) (sz q : BitVec 2) (p : W64) (signed : Bool) : Prop :=
  let n := 2 ^ sz.toNat
  ∀ l : Machine.PadLoc, s.localLoc p n = .ok l → p.toNat % n = 0 → (s.pad l.pad).bad = [] →
    let x := little (s.pad l.pad).mem l.off n
    let e := loaded s rd l (if signed ∧ 2 ^ (8 * n - 1) ≤ x then BitVec.ofInt 64 ((x : Int) - 2 ^ (8 * n)) else BitVec.ofNat 64 x)
    let after := fun (e : Machine.Pend) => issued { s.cx.push e with ld := s.cx.ld + 1 }
    let behind := s.cx.feBefore s.cx.iss = true ∨ s.cx.storeBefore s.cx.iss = true
    let granted := (∀ k < n, (s.pad l.pad).isFull (l.off + k) = true) ∧
      s.beaten { tile := s.cur / 2, at_ := s.tick, ctx := s.cur, seq := s.cx.seq, take := q == 2, fill := false
                 cells := [⟨l.pad, l.off, n, 0⟩] } = false
    (¬ behind ∧ q = 0 → Machine.exec i s = .next (s.setCx (after e))) ∧
    (¬ behind ∧ q ≠ 0 ∧ granted → ∃ P : Machine.Pad, Machine.exec i s = .next ((s.setPad l.pad P).setCx (after e)) ∧
      P.mem = (s.pad l.pad).mem ∧
      ∀ g, P.full.has g = ((s.pad l.pad).full.has g && (q != 2 || decide (∀ k < n, g ≠ (l.off + k) / 16)))) ∧
    (behind ∨ (q ≠ 0 ∧ ¬ granted) → ∃ w : Machine.FeWait,
      Machine.exec i s = .next (s.setCx (after { e with val := 0, fe := some w })) ∧
      w.cells = [⟨l.pad, l.off, n, 0⟩] ∧ w.need = (q != 0) ∧ w.clear = (q == 2) ∧ w.signed = signed ∧ w.conv = none)

/-- R98 to R102, R20 and R267 of one store `i` of register rd: the bytes it writes, the granules it makes full, and that
nothing else changes; behind a load that waits a plain one is kept, unperformed, with its bytes, while its bundle issues (R20; log
entry 24, the model's reading), and an `.EF` one holds its bundle, as it does where a granule is full or its turn has not come. -/
def StoresScalar (s : Machine.State) (i : Instr) (rd : BitVec 6) (sz q : BitVec 2) (p : W64) : Prop :=
  let n := 2 ^ sz.toNat
  ∀ l : Machine.PadLoc, s.localLoc p n = .ok l → p.toNat % n = 0 → (s.pad l.pad).bad = [] → s.cx.stq = [] →
    let since := match s.cx.fehOf 0 p with | some h => h.at_ | none => s.tick
    let blocked := (∃ k < n, (s.pad l.pad).isFull (l.off + k) = true) ∨
      s.beaten { tile := s.cur / 2, at_ := since, ctx := s.cur, seq := 0, take := true, fill := true
                 cells := [⟨l.pad, l.off, n, 0⟩] } = true
    (s.cx.loadUpTo s.cx.iss = false →
     (q = 1 → ¬ blocked) →
     ∃ P : Machine.Pad, Machine.exec i s = .next ((s.setPad l.pad P).setCx (issued { s.cx with st := s.cx.st + 1 })) ∧
      (∀ a, P.mem.read a = if l.off ≤ a ∧ a < l.off + n then BitVec.ofNat 8 ((s.cx.ra rd).toNat / 2 ^ (8 * (a - l.off)))
        else (s.pad l.pad).mem.read a) ∧
      (∀ g, P.full.has g = ((s.pad l.pad).full.has g || (q == 1 && decide (∃ k < n, g = (l.off + k) / 16)))) ∧
      (∀ b, P.dirty.has b = ((s.pad l.pad).dirty.has b || decide (∃ k < n, b = (l.off + k) / 1024))) ∧ P.bad = []) ∧
    (s.cx.loadUpTo s.cx.iss = true ∧ q ≠ 1 → ∃ o : Machine.StoreOp,
      Machine.exec i s = .next (s.setCx (issued { s.cx with st := s.cx.st + 1, stq := [o] })) ∧
      o.pad = l.pad ∧ o.off = l.off ∧ o.iss = s.cx.iss ∧ o.setFull = false ∧
      o.bytes = (List.range n).map (fun k => some (BitVec.ofNat 8 ((s.cx.ra rd).toNat / 2 ^ (8 * k))))) ∧
    (q = 1 → s.cx.feBefore s.cx.iss = true ∨ blocked → ∃ h : Machine.FeHold,
      Machine.exec i s = .next (s.setCx { s.cx with feh := h :: s.cx.feh.filter (fun o => o.slot != 0) }) ∧
      h.slot = 0 ∧ h.addr = p ∧ h.cells = [⟨l.pad, l.off, n, 0⟩] ∧ h.at_ = since ∧ h.hit = true)

/-- R100: a scalar access whose checks fail traps precisely at its bundle, with the first failing cause: where the pointer
lies, then its alignment. -/
def ScalarAccessTraps : Prop :=
  ∀ (s : Machine.State) (f : AM) (x : AX), s.cx.ld < 4095 → s.cx.st < 4095 → s.cur < 512 →
    let p := s.cx.ra f.ra + (match f.ext with | some e => e.signExtend 64 | none => 0)
    let px := s.cx.ra x.ra + s.cx.ra x.rb * BitVec.ofNat 64 (2 ^ x.sz.toNat)
    let traps := fun (i : Instr) (a : W64) (sz : BitVec 2) =>
      (∀ c, s.localLoc a (2 ^ sz.toNat) = .error c →
        Machine.exec i s = .next (Machine.takeTrap { cause := c, slot := 0, addr := a } s)) ∧
      (∀ l, s.localLoc a (2 ^ sz.toNat) = .ok l → a.toNat % 2 ^ sz.toNat ≠ 0 →
        Machine.exec i s = .next (Machine.takeTrap { cause := .misaligned, slot := 0, addr := a } s))
    (s.cx.guard f.gp = true → traps (.ld f) p f.sz ∧ traps (.lds f) p f.sz ∧ traps (.st f) p f.sz) ∧
    (s.cx.guard x.gp = true → traps (.ldx x) px x.sz ∧ traps (.ldxs x) px x.sz ∧ traps (.stx x) px x.sz)

/-- R100 causes 1 to 3, R257, R259, R262: where the bytes of a local pointer lie, for a context of a tile: the private window, the
tile's shared area and the step's own allocation in its pool, the cluster's shared area and the team's allocation; a shared area
whose owner does not match, another space, tile or cluster, bits that must be zero, and bytes out of reach trap with their causes. A
gallery core reaches its store alone. -/
def LocalPointersReach : Prop :=
  ∀ (s : Machine.State) (p : W64) (n : Nat),
    let t := s.cur / 2
    let c := s.cx
    let T := s.tile t
    let K := s.cluster (t / 8)
    let base := (c.cr 0x34).toNat % 2 ^ 18
    let size := (c.cr 0x34).toNat / 2 ^ 32 % 256 * 1024
    let code := p.toNat / 2 ^ 60
    let o := p.toNat % 2 ^ 48
    let cbase := (c.cr 0x35).toNat % 2 ^ 23
    let csize := (c.cr 0x35).toNat / 2 ^ 32 % 2 ^ 13 * 1024
    let id := p.toNat / 2 ^ 48
    let gives := fun (r : Except Cause Machine.PadLoc) => s.localLoc p n = r
    let within := fun (owned : Bool) (floor bytes b len : Nat) (l : Machine.PadLoc) =>
      gives (if o < floor ∧ owned = false then .error .spaceForeign
        else if o + n ≤ bytes ∧ (o + n ≤ floor ∨ (b ≤ max o floor ∧ o + n ≤ b + len)) then .ok l else .error .spaceRange)
    (s.cur < 512 →
      (code ≠ 8 → code ≠ 9 → code ≠ 10 → gives (.error .spaceForeign)) ∧
      (code = 8 ∨ code = 9 ∨ code = 10 → Machine.ptrWf p = false → gives (.error .spaceRange)) ∧
      (Machine.ptrWf p = true →
        (code = 8 → gives (if o + n ≤ size then .ok ⟨.tile t, base + o⟩ else .error .spaceRange)) ∧
        (code = 9 → id % 256 ≠ t → gives (.error .spaceForeign)) ∧
        (code = 9 → id % 256 = t → within (T.owns c.asid) T.floor (2 ^ 18) base size ⟨.tile t, o⟩) ∧
        (code = 10 → id % 32 ≠ t / 8 → gives (.error .spaceForeign)) ∧
        (code = 10 → id % 32 = t / 8 → within (K.owns c.asid) K.floor 0x600000 cbase csize ⟨.cluster (t / 8), o⟩))) ∧
    (512 ≤ s.cur → s.cur < 2 ^ 32 →
      (code ≠ 8 → gives (.error .spaceForeign)) ∧
      (code = 8 → Machine.ptrWf p = false → gives (.error .spaceRange)) ∧
      (code = 8 → Machine.ptrWf p = true → gives (if o + n ≤ 131072 then .ok ⟨.gal (s.cur - 512), o⟩ else .error .spaceRange)))

/-! ### Queries, transfers and control registers -/

/-- The answer of an operation that ends its issue and leaves all else as it is. -/
def passes (s : Machine.State) : Answer := .next (s.setCx (issued s.cx))

/-- R263: what ASPQ delivers, field by field; STREAM for a context of a tile. -/
def SpaceQueryResult : Prop :=
  ∀ (s : Machine.State) (f : AR), s.cx.guard f.gp = true → s.cur < 512 →
    let a := s.cx.ra f.ra
    let c := a.toNat / 2 ^ 60
    let n := max ((s.cx.ra f.rb).toNat % 2 ^ 32) 1
    let t := s.cur / 2
    let k := t / 8
    let wf := Machine.ptrWf a
    let id := a.toNat / 2 ^ 48 % 256
    ∃ loc str : Bool,
      Machine.exec (.aspq f) s = deliversA s f.rd (BitVec.ofNat 64
        ((if c = 9 ∨ c = 10 then id else if c = 8 then t else 0) * 256 + (if a.toNat % n = 0 then 128 else 0) +
          (if str then 64 else 0) + (if loc then 32 else 0) + (if wf then 16 else 0) + c)) 1 ∧
      (loc = true ↔ wf = true ∧ (c = 8 ∨ c = 9 ∨ c = 10) ∧ ∃ l, s.localLoc a n = .ok l) ∧
      (str = true ↔ wf = true ∧ (c = 0 ∨ c = 8 ∨ c = 14 ∨
        (c = 9 ∧ id / 8 = k ∧ ((s.tile id).floor ≤ a.toNat % 2 ^ 18 ∨ (s.tile id).owns s.cx.asid = true)) ∨
        (c = 10 ∧ id = k ∧ ((s.cluster k).floor ≤ a.toNat % 2 ^ 23 ∨ (s.cluster k).owns s.cx.asid = true))))

/-- R264: what ASPC delivers. -/
def SpaceCastResult : Prop :=
  ∀ (s : Machine.State) (f : AR1n), s.cx.guard f.gp = true →
    let a := s.cx.ra f.ra
    let c := a.toNat / 2 ^ 60
    let t := s.cur / 2
    let base := (s.cx.cr 0x34).toNat % 2 ^ 18
    let size := (s.cx.cr 0x34).toNat / 2 ^ 32 % 256 * 1024
    let o8 := a.toNat % 2 ^ 17
    let o9 := a.toNat % 2 ^ 18
    ∃ v : W64, Machine.exec (.aspc f) s = deliversA s f.rd v 1 ∧
      (Machine.ptrWf a = false → v = 0) ∧
      (Machine.ptrWf a = true →
        (c = f.fn.toNat → v = a) ∧
        (f.fn = 9 ∧ c = 8 → v = if o8 < size then BitVec.ofNat 64 (9 * 2 ^ 60 + t * 2 ^ 48 + (base + o8)) else 0) ∧
        (f.fn = 8 ∧ c = 9 → v = if a.toNat / 2 ^ 48 % 256 = t ∧ base ≤ o9 ∧ o9 < base + size
          then BitVec.ofNat 64 (8 * 2 ^ 60 + (o9 - base)) else 0) ∧
        (c ≠ f.fn.toNat ∧ ¬ (f.fn = 9 ∧ c = 8) ∧ ¬ (f.fn = 8 ∧ c = 9) → v = 0))

/-- R103: XFERA from each file, and its trap on a gallery core, which has neither V nor M file (R349). -/
def TransferToAResults : Prop :=
  ∀ (s : Machine.State) (f : AT),
    let src := f.src.toNat
    let k := f.sel.toNat
    (512 ≤ s.cur ∧ s.cur < 2 ^ 32 ∧ f.sf.toNat < 2 →
      Machine.exec (.xfera f) s = .next (Machine.takeTrap { cause := .illegalOp, slot := 0 } s)) ∧
    (s.cx.guard f.gp = true ∧ s.cur < 512 →
      (f.sf = 0 ∧ k < 8 →
        Machine.exec (.xfera f) s = deliversA s f.rd (BitVec.ofNat 64 ((s.cx.rv src).toNat / 2 ^ (64 * k))) 2) ∧
      (f.sf = 0 ∧ 16 ≤ k →
        Machine.exec (.xfera f) s = deliversA s f.rd (BitVec.ofNat 64 ((s.cx.rv src).toNat / 2 ^ (32 * (k - 16)) % 2 ^ 32)) 2) ∧
      (f.sf = 1 → Machine.exec (.xfera f) s = deliversA s f.rd (s.cx.rm (src % 32)) 2) ∧
      (f.sf = 2 ∧ src < 16 → Machine.exec (.xfera f) s = deliversA s f.rd (if s.cx.rp src then 1 else 0) 2) ∧
      (f.sf = 2 ∧ 128 ≤ src ∧ src < 144 → Machine.exec (.xfera f) s = deliversA s f.rd (s.cx.rvm (src - 128)) 2) ∧
      (f.sf = 2 ∧ 256 ≤ src ∧ src < 260 →
        Machine.exec (.xfera f) s = deliversA s f.rd (BitVec.ofNat 64 (s.cx.rlc (src - 256)).toNat) 2))

/-- R106, R107, R109: RDCR, WRCR, SETCR and CLRCR on the address registers LINK, TGT, LOOPB0 to LOOPB3 and LOOPE0 to
LOOPE3, on any context; the write is seen from the next position. RDCR of CTIME, of OCNT (R110), whose LD and ST read no more than
4,095 (log entry 99, the model's choice), and of CYCLE, which is the calendar's tick (R112; log entry 3, the model's choice: one
tile cycle is one tick); the W1C field of ASTAT. -/
def ControlRegisterResults : Prop :=
  ∀ (s : Machine.State) (f : ACR), s.cx.guard f.gp = true →
    let n := f.num.toNat
    let a := s.cx.ra f.reg
    let old := s.cx.cr n
    let becomes := fun (v : W64) => (.next (s.setCx (issued { s.cx with crs := s.cx.crs.write n v })) : Answer)
    (n = 4 ∨ n = 5 ∨ (8 ≤ n ∧ n ≤ 15) →
      Machine.exec (.rdcr f) s = deliversA s f.reg old 2 ∧
      (s.cx.buf = {} →
        Machine.exec (.wrcr f) s = becomes a ∧ Machine.exec (.setcr f) s = becomes (old ||| a) ∧
        Machine.exec (.clrcr f) s = becomes (old &&& ~~~a))) ∧
    (n = 0 → Machine.exec (.rdcr f) s = deliversA s f.reg (BitVec.ofNat 64 s.cx.ctime) 2) ∧
    (n = 0x21 → Machine.exec (.rdcr f) s = deliversA s f.reg (BitVec.ofNat 64 s.tick) 2) ∧
    (n = 6 → Machine.exec (.rdcr f) s = deliversA s f.reg (BitVec.ofNat 64
      (s.cx.sync * 2 ^ 48 + s.cx.arr * 2 ^ 36 + s.cx.str * 2 ^ 24 + min 4095 s.cx.st * 2 ^ 12 + min 4095 s.cx.ld)) 2) ∧
    (n = 2 ∧ a.toNat < 64 ∧ s.cx.buf = {} → Machine.exec (.wrcr f) s = becomes (old &&& ~~~a))

/-- R106, R108: a number that no register has traps `ILLEGAL_OP` in all four operations, and so does a write of a register
with no writable field, whatever the guard (R38). -/
def ControlRegisterTraps : Prop :=
  ∀ (s : Machine.State) (f : ACR), s.cur < 512 →
    let n := f.num.toNat
    let traps := fun (i : Instr) => Machine.exec i s = .next (Machine.takeTrap { cause := .illegalOp, slot := 0 } s)
    (Machine.crInfo n = none → traps (.rdcr f) ∧ traps (.wrcr f) ∧ traps (.setcr f) ∧ traps (.clrcr f)) ∧
    (n = 0 ∨ n = 1 ∨ n = 3 ∨ n = 6 ∨ n = 0x1A ∨ n = 0x20 ∨ n = 0x21 ∨ n = 0x34 ∨ n = 0x35 ∨ n = 0x36 ∨ n = 0x37 →
      traps (.wrcr f) ∧ traps (.setcr f) ∧ traps (.clrcr f)) ∧
    (n = 2 ∨ n = 7 ∨ n = 0x90 → traps (.setcr f) ∧ traps (.clrcr f))

/-! ### The gallery -/

/-- Core g holds packet p under tag i, and its context gets the tag's id (R353, R356). -/
def tagTaken (s : Machine.State) (g i : Nat) (rd : BitVec 6) (p : Machine.Packet) : Answer :=
  let G := s.gal g
  .next ((s.setGal g { G with tags := Machine.mapPut i { state := 1, pkt := some { p with seq := G.count, at_ := s.tick } } G.tags
                              count := G.count + 1 }).setCx (issued (s.cx.deliverA rd (BitVec.ofNat 64 i) 1)))

/-- R353, R356, R363: GREQ, GWR, GWRM and GHAND on a gallery core with a FREE tag, for operands in their limits: the lowest
FREE tag of the channel is taken for the packet, and its id delivered. -/
def PacketRequests : Prop :=
  ∀ (s : Machine.State) (f : ARn) (g j : Nat), s.cur = 512 + g → g < 64 → s.cx.guard f.gp = true → s.cx.buf = {} →
    j < 8 → ((s.gal g).tag (f.fn.toNat * 8 + j)).state = 0 → (∀ k < j, ((s.gal g).tag (f.fn.toNat * 8 + k)).state ≠ 0) →
    let i := f.fn.toNat * 8 + j
    let a := s.cx.ra f.ra
    let b := s.cx.ra f.rb
    let off := b.toNat % 2 ^ 17
    let ng := b.toNat / 2 ^ 32 % 16 + 1
    let S := (s.gal g).store
    let far := Machine.ptrWf a = true ∧ (a.toNat / 2 ^ 60 = 0 ∨ a.toNat / 2 ^ 60 = 14) ∧ a.toNat % 32 = 0 ∧ off % 32 = 0
    (far ∧ b.toNat = off + (ng - 1) * 2 ^ 32 ∧ a.toNat % 512 + 32 * ng ≤ 512 ∧ off + 32 * ng ≤ 131072 →
      Machine.exec (.greq f) s = tagTaken s g i f.rd { kind := 0, addr := a, off := off, len := 32 * ng } ∧
      (S.bad = [] → Machine.exec (.gwr f) s = tagTaken s g i f.rd
        { kind := 1, addr := a, off := off, len := 32 * ng, data := (S.mem.readBytes off (32 * ng)).map some })) ∧
    (far ∧ b.toNat / 2 ^ 17 % 2 ^ 15 = 0 ∧ off + 32 ≤ 131072 ∧ b.toNat / 2 ^ 32 ≠ 0 ∧ S.bad = [] →
      Machine.exec (.gwrm f) s = tagTaken s g i f.rd
        { kind := 1, addr := a, off := off, len := 32
          data := (List.range 32).map (fun k => if b.toNat / 2 ^ (32 + k) % 2 = 1 then some (S.mem.read (off + k)) else none) }) ∧
    (far ∧ b.toNat = off ∧ off + 32 ≤ 131072 →
      ∃ G, Machine.exec (.gwrm f) s = .next ((s.setGal g G).setCx (issued (s.cx.deliverA f.rd (BitVec.ofNat 64 i) 1))) ∧
        (G.tag i).state = 2 ∧ (G.tag i).status = 0 ∧ (G.tag i).pkt = none ∧ ∀ k, k ≠ i → G.tag k = (s.gal g).tag k) ∧
    (let o := a.toNat % 2 ^ 17
     let n := a.toNat / 2 ^ 32
     a.toNat % 2 ^ 32 = o ∧ 1 ≤ n ∧ n ≤ 1024 ∧ b.toNat < 1024 ∧ o + 64 * n ≤ 131072 ∧ o % 64 = 0 →
      Machine.exec (.ghand f) s = tagTaken s g i f.rd
        { kind := 2, off := o, len := 64 * n, tile := b.toNat % 256, chan := b.toNat / 256 })

/-- R357, R358, R445: GTAGW takes a DONE tag and frees it; status 0 or 3 is delivered, 1, 2 and the model's 4 (log entry 66), of a
packet that another package refused, trap with the tag freed. GTAGQ
delivers the masks of its channel, and GFENCE passes when no tag of its channels is BUSY. -/
def TagResults : Prop :=
  ∀ (s : Machine.State) (f : AR1) (w : AS1) (g i : Nat), s.cur = 512 + g → g < 64 → s.cx.buf = {} →
    let G := s.gal g
    let a := s.cx.ra f.ra
    let freed := s.setGal g { G with tags := Machine.mapPut i {} G.tags }
    let outcome := fun (x : Answer) =>
      ((G.tag i).status = 0 ∨ (G.tag i).status = 3 →
        x = .next (freed.setCx (issued (s.cx.deliverA f.rd (BitVec.ofNat 64 ((G.tag i).status * 2 ^ 56 + i)) 1)))) ∧
      ((G.tag i).status = 1 → x = .next (Machine.takeTrap
        { cause := .streamXlate, sub := (G.tag i).sub, slot := 0, addr := (G.tag i).va } freed)) ∧
      ((G.tag i).status = 2 → x = .next (Machine.takeTrap { cause := .dataLost, slot := 0, addr := (G.tag i).va } freed)) ∧
      ((G.tag i).status = 4 → x = .next (Machine.takeTrap { cause := .spaceRange, slot := 0, addr := (G.tag i).va } freed))
    (s.cx.guard f.gp = true →
      (a.toNat = i ∧ i < 128 ∧ (G.tag i).state = 2 → outcome (Machine.exec (.gtagwT f) s)) ∧
      (a.toNat = i / 8 ∧ i < 128 ∧ (G.tag i).state = 2 ∧
        (∀ k, k / 8 = i / 8 → k ≠ i → (G.tag k).state = 2 → (G.tag i).order < (G.tag k).order) →
        outcome (Machine.exec (.gtagwC f) s)) ∧
      (a.toNat < 16 → ∃ v : W64, Machine.exec (.gtagq f) s = deliversA s f.rd v 1 ∧
        ∀ k < 8, v.getLsbD k = ((G.tag (a.toNat * 8 + k)).state == 2) ∧
          v.getLsbD (8 + k) = ((G.tag (a.toNat * 8 + k)).state == 1))) ∧
    ((s.cx.ra w.ra).toNat < 2 ^ 16 →
      (∀ ch < 16, (s.cx.ra w.ra).getLsbD ch = true → ∀ k < 8, (G.tag (ch * 8 + k)).state ≠ 1) →
      Machine.exec (.gfence w) s = passes s)

/-- R359, R360: the bin buffer and the dedup table; GBIN outside landings, which may keep its translation waiting (R409). -/
def BinAndDedupResults : Prop :=
  ∀ (s : Machine.State) (f : AR) (x : AR1) (d : AD) (g : Nat), s.cur = 512 + g → g < 64 → s.cx.buf = {} → s.landing = none →
    let G := s.gal g
    let a := s.cx.ra f.ra
    let b := s.cx.ra f.rb
    let key := s.cx.ra x.ra
    let gets := fun (G' : Machine.Gal) (rd : BitVec 6) (v : Nat) (L : Nat) =>
      (.next ((s.setGal g G').setCx (s.cx.deliverA rd (BitVec.ofNat 64 v) L)) : Answer)
    (s.cx.guard f.gp = true ∧ Machine.ptrWf a = true ∧ (a.toNat / 2 ^ 60 = 0 ∨ a.toNat / 2 ^ 60 = 14) ∧ b.toNat < 2 ^ 32 →
      (64 ≤ G.bins.length → Machine.exec (.gbin f) s = .next (s.setCx (issued (s.cx.deliverA f.rd 1 1)))) ∧
      (G.bins.length < 64 → ∃ t k, Machine.exec (.gbin f) s = .next t ∧ t.cx = issued (s.cx.deliverA f.rd 0 1) ∧
        (t.gal g).bins = G.bins ++ [(k, b.toNat)] ∧ (t.gal g).dedup = G.dedup ∧ (t.gal g).pool = G.pool ∧
        (t.gal g).tags = G.tags ∧ (t.gal g).store = G.store ∧ t.mem = s.mem)) ∧
    (s.cx.guard d.gp = true →
      (G.bins = [] → Machine.exec (.gbdrain d) s = deliversA s d.rd (BitVec.ofNat 64 (2 ^ 63)) 2) ∧
      (∀ l r k c, G.bins = l ++ (k, c) :: r → (∀ e ∈ l, k < e.1) → (∀ e ∈ r, k ≤ e.1) →
        Machine.exec (.gbdrain d) s = gets { G with bins := l ++ r } d.rd c 2) ∧
      Machine.exec (.gbdrainClr d) s = gets { G with bins := [] } d.rd G.bins.length 2 ∧
      Machine.exec (.gdedupClr d) s = gets { G with dedup := [] } d.rd G.dedup.length 2) ∧
    (s.cx.guard x.gp = true →
      (∀ i < G.dedup.length, G.dedup[i]? = some key → (∀ j < i, G.dedup[j]? ≠ some key) →
        Machine.exec (.gdedup x) s = gets G x.rd (2 ^ 63 + i) 2) ∧
      (key ∉ G.dedup → 256 ≤ G.dedup.length → Machine.exec (.gdedup x) s = gets G x.rd (2 ^ 62) 2) ∧
      (key ∉ G.dedup → G.dedup.length < 256 →
        Machine.exec (.gdedup x) s = gets { G with dedup := G.dedup ++ [key] } x.rd G.dedup.length 2))

/-- R361, R362: GPOOL adds the exact value of each element times the weight into its accumulator; GPRND stores the
read-outs and, with CLR, empties the accumulators. -/
def PoolResults : Prop :=
  ∀ (s : Machine.State) (f : ASn) (g : Nat), s.cur = 512 + g → g < 64 → s.cx.guard f.gp = true → s.cx.buf = {} →
    s.cx.stq = [] → s.cx.loadUpTo s.cx.iss = false →
    let G := s.gal g
    let ty := f.fn.toNat
    let n := tyWidth ty / 8
    let off := (s.cx.ra f.ra).toNat
    let b := (s.cx.ra f.rb).toNat
    let first := b % 512
    let count := b / 512 % 512 + 1
    (ty = tyF32 ∨ ty = tyF16 ∨ ty = tyB16 ∨ ty = tyE4 ∨ ty = tyE5 ∨ ty = tyI32) →
    first + count ≤ 512 → off + count * n ≤ 131072 → off % n = 0 → G.store.bad = [] → G.poolBad = [] →
    (ty ≠ tyI32 → b / 2 ^ 18 % 2 ^ 14 = 0 → b / 2 ^ 48 = 0 →
      ∃ t, Machine.exec (.gpool f) s = .next t ∧
        (∀ i, Machine.mapGet Machine.laEmpty (t.gal g).pool i =
          if first ≤ i ∧ i < first + count then
            (Machine.poolAdd (G.acc i) (Machine.decodeFloat ty (little G.store.mem (off + (i - first) * n) n))
              (Machine.decodeFloat tyB16 (b / 2 ^ 32 % 2 ^ 16))).1.encode
          else Machine.mapGet Machine.laEmpty G.pool i) ∧
        (t.gal g).store = G.store ∧ t.cx.a = s.cx.a ∧ t.cx.crs = s.cx.crs ∧ t.mem = s.mem) ∧
    (b / 2 ^ 18 % 8 ≤ 3 → b / 2 ^ 23 = 0 → (b / 2 ^ 21 % 2 = 1 → ty = tyE4) →
      ∃ t, Machine.exec (.gprnd f) s = .next t ∧ t.cx = issued s.cx ∧ t.mem = s.mem ∧
        (∀ j < count, little (t.gal g).store.mem (off + j * n) n =
          ((G.acc (first + j)).read ty { rm := b / 2 ^ 18 % 8, sm := b / 2 ^ 21 % 2, u := 0 }).1 % 2 ^ (8 * n)) ∧
        (∀ a, a < off ∨ off + count * n ≤ a → (t.gal g).store.mem.read a = G.store.mem.read a) ∧
        (∀ i, Machine.mapGet Machine.laEmpty (t.gal g).pool i =
          if b / 2 ^ 22 % 2 = 1 ∧ first ≤ i ∧ i < first + count then Machine.laEmpty
          else Machine.mapGet Machine.laEmpty G.pool i))

/-- R54, R355: on a tile every gallery extension traps `ILLEGAL_OP`. -/
def GalleryOnlyOnCores : Prop :=
  ∀ (s : Machine.State), s.cur < 512 →
    let t : Answer := .next (Machine.takeTrap { cause := .illegalOp, slot := 0 } s)
    (∀ f : ARn, Machine.exec (.greq f) s = t ∧ Machine.exec (.gwr f) s = t ∧ Machine.exec (.gwrm f) s = t ∧
      Machine.exec (.ghand f) s = t) ∧
    (∀ f : AR1, Machine.exec (.gtagwT f) s = t ∧ Machine.exec (.gtagwC f) s = t ∧ Machine.exec (.gtagq f) s = t ∧
      Machine.exec (.gdedup f) s = t) ∧
    (∀ f : AD, Machine.exec (.gbdrain f) s = t ∧ Machine.exec (.gbdrainClr f) s = t ∧ Machine.exec (.gdedupClr f) s = t) ∧
    (∀ f : AR, Machine.exec (.gbin f) s = t) ∧ (∀ f : AS1, Machine.exec (.gfence f) s = t) ∧
    (∀ f : ASn, Machine.exec (.gpool f) s = t ∧ Machine.exec (.gprnd f) s = t)

/-! ### B-slot operations -/

/-- R113, R114, R107: the branches. The PC takes the target, LINK of a CALL the address after the bundle, and the context
stalls for the cycles lost; a RET or BRX target that is no multiple of 4 traps; a branch whose guard fails does nothing. -/
def BranchResults : Prop :=
  ∀ (s : Machine.State) (j : BJ) (g : BG), s.cx.buf = {} →
    let c := s.cx
    let target : W64 := BitVec.ofInt 64 (c.pc.toNat + 4 * (match j.ext with | some e => e.toInt | none => j.ofs.toInt))
    let goes := fun (c : Machine.Ctx) (pc : W64) (lost : Nat) =>
      (.next (s.setCx (issued { c with pc := pc, stall := max c.stall (s.tick + 1 + lost) })) : Answer)
    let link := { c with crs := c.crs.write 4 (c.pc + BitVec.ofNat 64 c.len) }
    let through := fun (x : Answer) (a : W64) =>
      (a.toNat % 4 = 0 → x = goes c a 2) ∧
      (a.toNat % 4 ≠ 0 → x = .next (Machine.takeTrap { cause := .illegalBundle, whole := true } s))
    (c.guardB j.gp j.gn = true →
      Machine.exec (.br j) s = goes c target 1 ∧ Machine.exec (.call j) s = goes link target 1) ∧
    (c.guardB j.gp j.gn = false →
      Machine.exec (.br j) s = passes s ∧ Machine.exec (.call j) s = passes s) ∧
    (c.guardB g.gp g.gn = true →
      through (Machine.exec (.ret g) s) (c.cr 4) ∧ through (Machine.exec (.brx g) s) (c.cr 5)) ∧
    (c.guardB g.gp g.gn = false →
      Machine.exec (.ret g) s = passes s ∧ Machine.exec (.brx g) s = passes s)

/-- R115, R117: the loop operations. A loop with a nonzero count sets LOOPB, LOOPE and its counter; with a count of 0 it
also continues after the bundle at E, which the text kept for it then holds (R42), and waits while a landing keeps the header at
E from it (R409). LOOPS takes the oldest count of its stream's queue; while the queue is empty and the stream runs, or another
consumer asked before it (R233), it holds and asks for its turn; it traps when the stream has ended. LCI sets a counter. -/
def LoopResults : Prop :=
  ∀ (s : Machine.State) (f : BL) (r : BLr) (q : BLs) (i : BLc), s.cx.buf = {} → s.cur < 512 →
    let starts := fun (x : Answer) (c : Machine.Ctx) (n : BitVec 2) (cnt : BitVec 32) (last : BitVec 12) =>
      let e := c.pc + BitVec.ofNat 64 (4 * last.toNat)
      let c' := { c.deliver (.lc n.toNat) (cnt.setWidth 512) 1 3 with
                  crs := (c.crs.write (8 + n.toNat) (c.pc + BitVec.ofNat 64 c.len)).write (12 + n.toNat) e }
      (cnt ≠ 0 → x = .next (s.setCx (issued c'))) ∧
      (cnt = 0 → ∀ pc h s1, s.seekAt e = (.header pc h, s1) → headerOk h = true →
        ∃ t, x = .next t ∧ t.cx = issued { c' with
          pc := pc + BitVec.ofNat 64 (bundleBytes h), stall := max c.stall (s.tick + 2), text := s1.cx.text }) ∧
      (cnt = 0 → ∀ s1, s.seekAt e = (.wait, s1) → x = .next s)
    let k := match q.ext with | some e => e.toNat % 16 | none => q.hnd.toNat
    let H : Machine.Handle := Machine.mapGet {} s.cx.handles k
    starts (Machine.exec (.loop f) s) s.cx f.lc (match f.ext with | some e => e | none => f.cnt.setWidth 32) f.last ∧
    starts (Machine.exec (.loopr r) s) s.cx r.lc (s.cx.rlc r.lc.toNat) r.last ∧
    let first := s.cx.asking k = [] ∨ (s.cx.asking k).head? = some 0
    let asks := if 0 ∈ s.cx.asking k then s.cx.asking k else s.cx.asking k ++ [0]
    let waits := Machine.exec (.loops q) s =
      .next (s.setCx { s.cx with handles := Machine.mapPut k { H with asks := asks } s.cx.handles })
    (∀ w rest, H.queue = w :: rest → first → starts (Machine.exec (.loops q) s)
      { s.cx with handles := Machine.mapPut k { H with queue := rest, asks := H.asks.filter (· != 0) } s.cx.handles }
      q.lc (w.setWidth 32) q.last) ∧
    (H.queue ≠ [] → ¬ first → waits) ∧
    (H.queue = [] → H.cmds.any (·.queueing) = true → waits) ∧
    (H.queue = [] → H.cmds.any (·.queueing) = false →
      Machine.exec (.loops q) s = .next (Machine.takeTrap { cause := .streamHandle, slot := 3 } s)) ∧
    Machine.exec (.lci i) s = .next (s.setCx (issued (s.cx.deliver (.lc i.lc.toNat)
      ((match i.ext with | some e => e | none => i.cnt.setWidth 32 : BitVec 32).setWidth 512) 1 3)))

/-- R119, R120, R121: WAITC, JOIN, EVWAIT and PWAIT hold their bundle, changing nothing, until what they wait for stands;
then they leave everything as it is. No GRECV of the context has completed unobserved. -/
def WaitResults : Prop :=
  ∀ (s : Machine.State) (w : BW) (j : BG) (e : BMa) (p : BPo), s.cx.buf = {} → s.cx.grecvd = [] → s.cur < 512 →
    let c := s.cx
    let within := fun (n : Nat) (lim : BitVec 4) => lim = 15 ∨ n ≤ lim.toNat
    let quiet := within c.ld w.nld ∧ within c.st w.nst ∧ within c.str w.nstr ∧ within c.arr w.narr ∧ within c.sync w.nsync
    (c.guard w.gp = true →
      (quiet → Machine.exec (.waitc w) s = passes s) ∧ (¬ quiet → Machine.exec (.waitc w) s = .next s)) ∧
    (c.guardB j.gp j.gn = true →
      (c.jcnt = 0 → Machine.exec (.join j) s = passes s) ∧ (c.jcnt ≠ 0 → Machine.exec (.join j) s = .next s)) ∧
    (c.guardB e.gp e.gn = true →
      ((∃ k < 8, e.mask.getLsbD k = true ∧ (c.cr 7).getLsbD k = true) → Machine.exec (.evwait e) s = passes s) ∧
      ((∀ k < 8, e.mask.getLsbD k = true → (c.cr 7).getLsbD k = false) → Machine.exec (.evwait e) s = .next s)) ∧
    (c.guardB p.gp p.gn = true →
      (s.portBound p = true → s.portReady p = true → Machine.exec (.pwait p) s = passes s) ∧
      (s.portBound p = true → s.portReady p = false → Machine.exec (.pwait p) s = .next s) ∧
      (s.portBound p = false →
        Machine.exec (.pwait p) s = .next (Machine.takeTrap { cause := .portUnbound, slot := 3 } s)))

/-- R122, R124, R315, R410: YIELD stalls its context; CALWAIT holds until a tick outside every riser and landing with the
next riser at least w ticks later, and traps beyond 7,520; FENCE holds for the earlier accesses of its step that wait, those
of a handler's program too (log entry 24, the model's reading), and at DIE scope and above drops the read-buffer lines; IFENCE
discards the text fetched ahead. -/
def YieldFenceCalwaitResults : Prop :=
  ∀ (s : Machine.State) (y : BNx) (f : BFe) (i : BG), s.cx.buf = {} →
    let c := s.cx
    let w := match y.ext with | some e => e.toNat | none => 16 * y.n.toNat
    (c.guardB y.gp y.gn = true →
      Machine.exec (.yield y) s = .next (s.setCx (issued { c with
        stall := max c.stall (s.tick + 1 + (match y.ext with | some e => e.toNat | none => y.n.toNat)) })) ∧
      (w ≤ 7520 →
        (s.landing = none → 256 < s.calDist → w + 256 ≤ s.calDist → Machine.exec (.calwait y) s = passes s) ∧
        (s.landing ≠ none ∨ s.calDist ≤ 256 ∨ s.calDist < w + 256 → Machine.exec (.calwait y) s = .next s)) ∧
      (7520 < w → Machine.exec (.calwait y) s = .next (Machine.takeTrap { cause := .paramRange, slot := 3 } s))) ∧
    (let done := (∀ e, e ∈ c.pend ∨ (∃ h, c.shadow = some h ∧ e ∈ h.pend) → e.fe = none ∨ e.arrived = true) ∧ c.stq = []
     c.guardB f.gp f.gn = true →
      (done → f.scope.toNat < 3 → Machine.exec (.fence f) s = passes s) ∧
      (done → 3 ≤ f.scope.toNat → Machine.exec (.fence f) s =
        .next (s.setCx (issued { c with handles := c.handles.map (fun h => (h.1, { h.2 with lines := [] })) }))) ∧
      (¬ done → Machine.exec (.fence f) s = .next s)) ∧
    (c.guardB i.gp i.gn = true → Machine.exec (.ifence i) s = .next (s.setCx (issued { c with text := [] }))) ∧
    (c.guardB i.gp i.gn = false → Machine.exec (.ifence i) s = passes s)

/-- R118, R104: PLOG and VMLOG combine by their truth table, position by position; XFERB tests or copies an A register, or
tests the lanes of a V register. -/
def MaskLogicResults : Prop :=
  ∀ (s : Machine.State) (f : BLg) (x : BX), s.cx.buf = {} → s.cur < 512 →
    let c := s.cx
    let gives := fun (d : Machine.Dst) (v : W64) (L : Nat) => (.next (s.setCx (c.deliver d (v.setWidth 512) L 3)) : Answer)
    let logic := fun (d : Machine.Dst) (v : W64) => (.next (s.setCx (issued (c.deliver d (v.setWidth 512) 1 3))) : Answer)
    (c.guardB f.gp f.gn = true →
      Machine.exec (.plog f) s = logic (.p f.vd.toNat)
        (if f.tt.getLsbD ((if c.rp f.va.toNat then 2 else 0) + (if c.rp f.vb.toNat then 1 else 0)) then 1 else 0) ∧
      ∃ v : W64, Machine.exec (.vmlog f) s = logic (.vm f.vd.toNat) v ∧ ∀ k < 64, v.getLsbD k =
        f.tt.getLsbD ((if (c.rvm f.va.toNat).getLsbD k then 2 else 0) + (if (c.rvm f.vb.toNat).getLsbD k then 1 else 0))) ∧
    (let a := c.ra (x.src.setWidth 6)
     (x.dk = 0 → Machine.exec (.xferb x) s = gives (.p x.dst.toNat) (if a = 0 then 0 else 1) 2) ∧
     (x.dk = 1 → x.sf = 0 → Machine.exec (.xferb x) s = gives (.vm x.dst.toNat) a 2) ∧
     (x.dk = 1 → x.sf = 1 → ∃ v : W64, Machine.exec (.xferb x) s = gives (.vm x.dst.toNat) v 2 ∧
       ∀ k < 64, v.getLsbD k = (decide (k < 512 / tyWidth x.ty.toNat) &&
         Machine.laneNonzero x.ty.toNat (Machine.lane (tyWidth x.ty.toNat) k (c.rv x.src.toNat)))) ∧
     (x.dk = 2 → Machine.exec (.xferb x) s = gives (.lc (x.dst.toNat % 4)) (BitVec.ofNat 64 (a.toNat % 2 ^ 32)) 2))

/-! ### Synchronisation -/

/-- The request of the current context to the engine of object p, with its issue tick (R309); to another package by the port
that the hash of its object takes (R444). Behind an access of an earlier bundle that waits, or a request that does, it is kept
(R293; log entry 24, the model's reading). -/
def asks (s : Machine.State) (p : W64) (op : Machine.SyncOp) (v : W64) (tag : Nat) (ret : Bool) (c : Machine.Ctx) : Answer :=
  let d := s.engineOf p
  let D := s.die d
  let r : Machine.SyncReq :=
    { who := .ctx s.cur, asid := s.cx.asid, ptr := p, op := op, v := v, tag := tag, ret := ret, at_ := s.tick, port := 12 }
  if s.cx.feBefore s.cx.iss = true ∨ s.cx.storeBefore s.cx.iss = true ∨ s.cx.syq ≠ [] then
    .next (s.setCx { c with syq := s.cx.syq ++ [(s.cx.iss, r)] })
  else .next ((s.setDie d { D with queue := D.queue ++
    [{ r with port := if d = 2 then s.portTo (p.toNat / 2 ^ 32 % 256) 1 (p.toNat / 8 % 2 ^ 29) else 12 }] }).setCx c)

/-- The operand of a sync operation (R309): vmB, the VB field, or the extension. -/
def operand (s : Machine.State) (imm : BitVec 1) (vb : BitVec 4) (e : Option W32) : W64 :=
  if imm = 0 then s.cx.rvm vb.toNat else match e with | some x => x.signExtend 64 | none => vb.setWidth 64

/-- R313, R316, R293: RELEASE, RELEASE.X, ATOM, ATOMNR and ATOMCAS issue, send their request, kept behind an access that waits
(log entry 24), and count one in the sync class; ATOM and ATOMCAS leave a pending result for vmD at the next position. -/
def SyncRequestResults : Prop :=
  ∀ (s : Machine.State) (f : BSy) (n : BSn) (x : BPt) (k : BCa), s.cx.buf = {} → s.cx.sync ≠ 4095 → s.cur < 512 →
    let c := s.cx
    let counted := issued { c with sync := c.sync + 1 }
    let waits := fun (p : W64) (vd : BitVec 4) =>
      let e : Machine.Pend := { dst := .vm vd.toNat, val := 0, mask := BitVec.allOnes 512, pos := c.now + 1, slot := 3, arrived := false
                                tag := c.reqs + 2, ready := s.tick + (if s.engineOf p = s.cur / 256 then 48 else 88) }
      issued { c.push e with sync := c.sync + 1, reqs := c.reqs + 1 }
    let pn := c.rvm n.va.toNat
    let px := c.rvm x.va.toNat
    let pf := c.rvm f.va.toNat
    let pk := c.rvm k.va.toNat
    (c.guardB n.gp n.gn = true → s.checkObj pn = none →
      Machine.exec (.release n) s =
        asks s pn (if n.fn = 0 then .relAdd else .relSet) (operand s n.imm n.vb n.ext) 0 false counted ∧
      Machine.exec (.atomnr n) s = asks s pn (.atom n.fn.toNat) (operand s n.imm n.vb n.ext) 0 false counted) ∧
    (c.guardB x.gp x.gn = true → s.checkObj px = none →
      Machine.exec (.releaseX x) s = asks s px .relX (c.cr 0x53) 0 false counted) ∧
    (c.guardB f.gp f.gn = true → s.checkObj pf = none →
      Machine.exec (.atom f) s = asks s pf (.atom f.fn.toNat) (operand s f.imm f.vb f.ext) (c.reqs + 1) true (waits pf f.vd)) ∧
    (c.guardB k.gp k.gn = true → s.checkObj pk = none →
      Machine.exec (.atomcas k) s = asks s pk (.cas (c.rvm k.vd.toNat)) (c.rvm k.vb.toNat) (c.reqs + 1) true (waits pk k.vd))

/-- R110, R309, R312, R314, R324: WAIT, ACQUIRE and ACQUIRE.X send their request once, when their class has room, count in it
and hold; an answer of a lost link traps (R446); when the engine has granted, WAIT and
ACQUIRE deliver the satisfying value, and the ACQUIREs drop the read-buffer lines that hold bytes of the regions bound to the
object, whatever address they were filled by (R288, R295). -/
def WaitingSyncResults : Prop :=
  ∀ (s : Machine.State) (f : BSy) (x : BPt) (o : W64) (by_ : Option W64), s.cx.buf = {} → s.cur < 512 →
    let c := s.cx
    let p := c.rvm f.va.toNat
    let v := operand s f.imm f.vb f.ext
    let px := c.rvm x.va.toNat
    let sends := fun (q : W64) (kind : Nat) (v : W64) => asks s q (.wait kind) v 0 false { c with hold := .wait q kind v, sync := c.sync + 1 }
    let got := ({ c with hold := .none } : Machine.Ctx).deliver (.vm f.vd.toNat) (o.setWidth 512) 1 3
    let lost := fun (e : Cause) (q : W64) => (.next (Machine.takeTrap { cause := e, slot := 3, addr := q } s) : Answer)
    let dropping := fun (q : W64) (c : Machine.Ctx) => let s' := s.setCx c
      (.next (s'.setCx (issued { c with handles := c.handles.map (fun h => (h.1, { h.2 with lines := h.2.lines.filter (fun l =>
        !c.binds.any (fun b => b.obj == q && s'.boundLine b l)) })) })) : Answer)
    let acq := if f.fn = 0 then 6 else 7
    (c.guardB f.gp f.gn = true → s.checkObj p = none →
      (c.hold = .none → c.sync ≠ 4095 →
        Machine.exec (.wait f) s = sends p f.fn.toNat v ∧ Machine.exec (.acquire f) s = sends p acq v) ∧
      (c.hold = .none → c.sync = 4095 → Machine.exec (.wait f) s = .next s ∧ Machine.exec (.acquire f) s = .next s) ∧
      (∀ e, c.hold = .failed e → Machine.exec (.wait f) s = lost e p ∧ Machine.exec (.acquire f) s = lost e p) ∧
      (c.hold = .wait p f.fn.toNat v → Machine.exec (.wait f) s = .next s) ∧
      (c.hold = .wait p acq v → Machine.exec (.acquire f) s = .next s) ∧
      (c.hold = .granted o by_ → Machine.exec (.wait f) s = .next (s.setCx (issued got)) ∧
        Machine.exec (.acquire f) s = dropping p got)) ∧
    (c.guardB x.gp x.gn = true → s.checkObj px = none →
      (c.hold = .none → c.sync ≠ 4095 → Machine.exec (.acquireX x) s = sends px 5 (c.cr 0x53)) ∧
      (∀ e, c.hold = .failed e → Machine.exec (.acquireX x) s = lost e px) ∧
      (c.hold = .wait px 5 (c.cr 0x53) → Machine.exec (.acquireX x) s = .next s) ∧
      (c.hold = .granted o by_ → Machine.exec (.acquireX x) s = dropping px { c with hold := .none }))

/-- R310, R311: BIND appends its entry to the binding table when its checks pass: for a global or pool base they are the
alignment, the length and room in the table. UNBIND removes every entry of an object, UNBIND.ALL every entry. -/
def BindingTableResults : Prop :=
  ∀ (s : Machine.State) (f : BBi) (u : BPt) (g : BG), s.cx.buf = {} →
    let c := s.cx
    let o := c.rvm f.va.toNat
    let base := c.rvm f.vb.toNat
    let len := c.rvm f.vd.toNat
    let code := base.toNat / 2 ^ 60
    let table := fun (l : List Machine.Binding) => (.next (s.setCx (issued { c with binds := l })) : Answer)
    let trap := fun (e : Cause) (a : W64) => (.next (Machine.takeTrap { cause := e, slot := 3, addr := a } s) : Answer)
    (c.guardB f.gp f.gn = true → s.checkObj o = none →
      (s.checkBind base len = none → Machine.exec (.bind f) s =
        table (c.binds ++ [{ obj := o, base := base, len := len, scope := f.scope.toNat }])) ∧
      (code = 0 ∨ code = 14 → Machine.ptrWf base = true →
        (base.toNat % 64 = 0 → len.toNat ≠ 0 → len.toNat % 64 = 0 → len.toNat ≤ 2 ^ 40 → c.binds.length < 16 →
          Machine.exec (.bind f) s = table (c.binds ++ [{ obj := o, base := base, len := len, scope := f.scope.toNat }])) ∧
        (base.toNat % 64 ≠ 0 → Machine.exec (.bind f) s = trap .misaligned base) ∧
        (base.toNat % 64 = 0 → (len.toNat = 0 ∨ len.toNat % 64 ≠ 0 ∨ 2 ^ 40 < len.toNat) →
          Machine.exec (.bind f) s = trap .paramRange 0) ∧
        (base.toNat % 64 = 0 → len.toNat ≠ 0 → len.toNat % 64 = 0 → len.toNat ≤ 2 ^ 40 → 16 ≤ c.binds.length →
          Machine.exec (.bind f) s = trap .bindFull 0)) ∧
      (code ≠ 0 → code ≠ 10 → code ≠ 14 → Machine.exec (.bind f) s = trap .spaceForeign base)) ∧
    (c.guardB u.gp u.gn = true → s.checkObj (c.rvm u.va.toNat) = none →
      Machine.exec (.unbind u) s = table (c.binds.filter (fun b => decide (b.obj ≠ c.rvm u.va.toNat)))) ∧
    (c.guardB g.gp g.gn = true → Machine.exec (.unbindAll g) s = table [])

/-! ### System operations -/

/-- R123, R384, R51, R50: EXIT ends the step, and what is still pending delivers nothing; TRAP raises SOFTWARE; BKPT halts
where the debug control allows it and else raises BREAKPOINT; SVC sends its request once, then delivers the reply; STKCLR
clears the sticky records; the four NOPs do nothing. -/
def SystemOperationResults : Prop :=
  ∀ (s : Machine.State) (f : BN) (v : BSv) (g : BG), s.cx.buf = {} →
    let c := s.cx
    let soft := fun (e : Cause) => (.next (Machine.takeTrapAt
      { cause := e, slot := 3, soft := true, arg := f.n.toNat } c.pc c.pc (s.setCx (issued c))) : Answer)
    (c.guardB f.gp f.gn = true →
      (c.shadow = none → c.deferred = [] → (∀ e ∈ c.pend, e.lost = none ∧ e.trapped = none) →
        ∃ c', Machine.exec (.exit f) s = .next (s.setCx c') ∧ c'.life = .ended f.n.toNat none c.pc ∧
          (∀ e ∈ c'.pend, e.dst = .none ∧ e.flags = 0 ∧ e.load = true) ∧ c'.a = c.a ∧ c'.v = c.v ∧ c'.m = c.m ∧
          c'.p = c.p ∧ c'.vm = c.vm ∧ c'.lc = c.lc ∧ c'.crs = c.crs ∧ c'.handles = c.handles ∧ c'.str = c.str) ∧
      Machine.exec (.trap f) s = soft .software ∧
      (s.haltable = false → Machine.exec (.bkpt f) s = soft .breakpoint) ∧
      (s.haltable = true → Machine.exec (.bkpt f) s = .next (s.setCx (issued { c with halted := true })))) ∧
    (c.guardB v.gp v.gn = true →
      (c.hold = .none → Machine.exec (.svc v) s = .next ({ s with free := s.free + 1 }.setCx { c with
        hold := .reply (Config.svcReply v.n.toNat (c.rvm v.va.toNat) s.free) })) ∧
      (∀ r, c.hold = .reply r → Machine.exec (.svc v) s =
        .next (s.setCx (issued { c.deliver (.vm v.vd.toNat) (r.setWidth 512) 1 3 with hold := .none })))) ∧
    (c.guardB g.gp g.gn = true → Machine.exec (.stkclr g) s = .next (s.setCx (issued { c with
      recA := { op := .anop }, recV := { op := .vnop }, recM := { op := .mnop } }))) ∧
    Machine.exec .anop s = .next s ∧ Machine.exec .vnop s = .next s ∧ Machine.exec .mnop s = .next s ∧
    Machine.exec .bnop s = .next s

/-! ### V-slot operations -/

/-- Lane k of width w of a register (R127). -/
def laneOf (x : W512) (w k : Nat) : Nat := x.toNat / 2 ^ (w * k) % 2 ^ w

/-- Lane k of the VB operand: the register, or the extension broadcast, sign-extended to 64 bits and cut to others (R37). -/
def vbOf (f : VR) (c : Machine.Ctx) (w k : Nat) : Nat :=
  match f.ext with
  | some e => (e.signExtend 64).toNat % 2 ^ w
  | none => laneOf (c.rv f.vb.toNat) w k

/-- R127, R91, R13: operation `i` delivers `val k` in each lane k of width w of register vd that `act` names, L positions
later, the bits of `flag` of those lanes with them, and nothing where `act` names no lane. -/
def DeliversLanes (s : Machine.State) (i : Instr) (vd : BitVec 9) (w L : Nat) (act : Nat → Bool) (val flag : Nat → Nat) :
    Prop :=
  let n := 512 / w
  ((∀ k < n, act k = false) → Machine.exec i s = .next s) ∧
  ((∃ k < n, act k = true) → ∃ e : Machine.Pend, Machine.exec i s = .next (s.setCx (s.cx.push e)) ∧
    e.dst = .v vd.toNat ∧ e.pos = s.cx.now + L ∧ e.slot = 1 ∧ e.arrived = true ∧ e.load = false ∧ e.fe = none ∧ e.lost = none ∧
    (∀ k < n, act k = true → laneOf e.val w k = val k % 2 ^ w) ∧
    (∀ b < 512, e.mask.getLsbD b = act (b / w)) ∧
    (∀ j, e.flags.testBit j = decide (∃ k < n, act k = true ∧ (flag k).testBit j = true)))

/-- R127: a whole operation delivers `val` as the whole of register vd, with flags. -/
def deliversWhole (s : Machine.State) (vd : BitVec 9) (L : Nat) (val flags : Nat) : Answer :=
  .next (s.setCx (s.cx.push { dst := .v vd.toNat, val := BitVec.ofNat 512 val, mask := BitVec.allOnes 512
                              pos := s.cx.now + L, slot := 1, flags := flags }))

/-- R130 to R132: the lane results on integer types, exact and wrapped, or saturated; and the bitwise operations. `iv` reads
a lane as its type does, signed for I types. -/
def VectorIntegerResults : Prop :=
  ∀ (s : Machine.State) (f : VR), 6 ≤ f.ty.toNat → f.ty.toNat ≤ 13 →
    let c := s.cx
    let w := tyWidth f.ty.toNat
    let iv : Nat → Int := fun x => if f.ty.toNat ≤ 9 then sext x w else (x : Int)
    let lo : Int := if f.ty.toNat ≤ 9 then -2 ^ (w - 1) else 0
    let hi : Int := if f.ty.toNat ≤ 9 then 2 ^ (w - 1) - 1 else 2 ^ w - 1
    let sat : Int → Int := fun v => max lo (min hi v)
    let a := fun k => laneOf (c.rv f.va.toNat) w k
    let b := fun k => vbOf f c w k
    let x := fun k => laneOf (c.rv f.vc.toNat) w k
    let on := fun k => (c.rvm f.vm.toNat).getLsbD k
    let lanes := fun (i : Instr) (L : Nat) (v : Nat → Nat) => DeliversLanes s i f.vd w L on v (fun _ => 0)
    let out := fun (v : Int) => wrapInt v w
    lanes (.vadd f) 4 (fun k => out (if f.fn = 1 then sat (iv (a k) + iv (b k)) else iv (a k) + iv (b k))) ∧
    lanes (.vsub f) 4 (fun k => out (if f.fn = 1 then sat (iv (a k) - iv (b k)) else iv (a k) - iv (b k))) ∧
    lanes (.vmul f) 5 (fun k => out (iv (a k) * iv (b k))) ∧
    lanes (.vmaddi f) 5 (fun k => out (iv (x k) + iv (a k) * iv (b k))) ∧
    lanes (.vmin f) 4 (fun k => out (min (iv (a k)) (iv (b k)))) ∧
    lanes (.vmax f) 4 (fun k => out (max (iv (a k)) (iv (b k)))) ∧
    lanes (.vabs f) 4 (fun k => out (iv (a k)).natAbs) ∧
    lanes (.vneg f) 4 (fun k => out (-iv (a k))) ∧
    lanes (.vabsd f) 4 (fun k => out (iv (a k) - iv (b k)).natAbs) ∧
    lanes (.vand f) 4 (fun k => a k &&& b k) ∧ lanes (.vor f) 4 (fun k => a k ||| b k) ∧
    lanes (.vxor f) 4 (fun k => a k ^^^ b k) ∧ lanes (.vandn f) 4 (fun k => a k &&& (2 ^ w - 1 - b k)) ∧
    lanes (.vshl f) 4 (fun k => if w ≤ b k then 0 else a k * 2 ^ b k) ∧
    lanes (.vshr f) 4 (fun k => if w ≤ b k then 0 else a k / 2 ^ b k) ∧
    lanes (.vsra f) 4 (fun k => out (sext (a k) w / 2 ^ (min (b k) (w - 1)))) ∧
    lanes (.vpopc f) 4 (fun k => (List.range w).countP (fun j => (a k).testBit j)) ∧
    lanes (.vclz f) 4 (fun k => if a k = 0 then w else w - 1 - Nat.log2 (a k)) ∧
    lanes (.vcmp f) 4 (fun k =>
      if (match f.fn.toNat with
          | 0 => decide (iv (a k) = iv (b k)) | 1 => decide (iv (a k) ≠ iv (b k)) | 2 => decide (iv (a k) < iv (b k))
          | 3 => decide (iv (a k) ≤ iv (b k)) | 4 => decide (iv (a k) > iv (b k)) | 5 => decide (iv (a k) ≥ iv (b k))
          | _ => false) = true then 2 ^ w - 1 else 0) ∧
    lanes (.vsel f) 4 (fun k => if x k ≠ 0 then a k else b k) ∧ lanes (.vmov f) 4 a ∧ lanes (.viota f) 4 (fun k => k)

/-- R130 to R132, R69, R79: the lane results on F32, F16 and B16: the operations on exact values, rounded once by the
model's number functions, each with its flags; the sign operations, which set none. -/
def VectorFloatResults : Prop :=
  ∀ (s : Machine.State) (f : VR), f.ty.toNat ≤ 2 →
    let c := s.cx
    let t := f.ty.toNat
    let w := tyWidth t
    let a := fun k => laneOf (c.rv f.va.toNat) w k
    let b := fun k => vbOf f c w k
    let A := fun k => Machine.decodeFloat t (a k)
    let B := fun k => Machine.decodeFloat t (b k)
    let X := fun k => Machine.decodeFloat t (laneOf (c.rv f.vc.toNat) w k)
    let r := fun k => c.rnd f.rm.toNat f.sm.toNat k
    let on := fun k => (c.rvm f.vm.toNat).getLsbD k
    let sgn := 2 ^ (w - 1)
    let lanes := fun (i : Instr) (L : Nat) (v : Nat → Nat × Nat) =>
      DeliversLanes s i f.vd w L on (fun k => (v k).1) (fun k => (v k).2)
    lanes (.vadd f) 4 (fun k => Machine.fAdd t (r k) (A k) (B k)) ∧
    lanes (.vsub f) 4 (fun k => Machine.fAdd t (r k) (A k) (B k).flip) ∧
    lanes (.vmul f) 5 (fun k => Machine.fMul t (r k) (A k) (B k)) ∧
    lanes (.vfma f) 5 (fun k => Machine.fFma t (r k) false false (A k) (B k) (X k)) ∧
    lanes (.vfms f) 5 (fun k => Machine.fFma t (r k) false true (A k) (B k) (X k)) ∧
    lanes (.vfnma f) 5 (fun k => Machine.fFma t (r k) true false (A k) (B k) (X k)) ∧
    lanes (.vrcp f) 5 (fun k => Machine.fRcp t (r k) (A k)) ∧ lanes (.vrsq f) 5 (fun k => Machine.fRsqrt t (r k) (A k)) ∧
    lanes (.vscale f) 4 (fun k => Machine.lScale t (r k) (a k) (b k)) ∧
    lanes (.vabsd f) 4 (fun k => Machine.lAbsd t (r k) (a k) (b k)) ∧
    lanes (.vrint f) 4 (fun k => Machine.lRint t (r k) (a k)) ∧
    lanes (.vmin f) 4 (fun k => Machine.lMinMax false t (a k) (b k)) ∧
    lanes (.vmax f) 4 (fun k => Machine.lMinMax true t (a k) (b k)) ∧
    lanes (.vcmp f) 4 (fun k => Machine.lCmp t f.fn.toNat (a k) (b k)) ∧
    lanes (.vabs f) 4 (fun k => (a k % sgn, 0)) ∧
    lanes (.vneg f) 4 (fun k => (if a k < sgn then a k + sgn else a k - sgn, 0)) ∧
    lanes (.vcpsgn f) 4 (fun k => (a k % sgn + b k / sgn * sgn, 0)) ∧
    lanes (.vclass f) 4 (fun k =>
      let E := a k / 2 ^ Machine.manW t % 2 ^ Machine.expW t
      let M := a k % 2 ^ Machine.manW t
      let neg := decide (sgn ≤ a k)
      (if E = Machine.eMax t then (if M = 0 then (if neg then 1 else 2 ^ 7) else if M < 2 ^ (Machine.manW t - 1) then 2 ^ 8 else 2 ^ 9)
       else if E = 0 then (if M = 0 then (if neg then 2 ^ 3 else 2 ^ 4) else if neg then 2 ^ 2 else 2 ^ 5)
       else if neg then 2 else 2 ^ 6, 0))

/-- R132, on every type they take: VBCST, VPERM, VSLIDE, VZIP, VUNZIP, and VSEL and VMOV on any width. `q` is the sequence
Q. -/
def VectorRearrangeResults : Prop :=
  ∀ (s : Machine.State) (f : VR), f.ty.toNat ≤ 13 →
    let c := s.cx
    let w := tyWidth f.ty.toNat
    let n := 512 / w
    let a := fun k => laneOf (c.rv f.va.toNat) w k
    let b := fun k => vbOf f c w k
    let x := fun k => laneOf (c.rv f.vc.toNat) w k
    let q := fun j => if j < n then a j else b (j - n)
    let on := fun k => (c.rvm f.vm.toNat).getLsbD k
    let h := f.fn.toNat
    let lanes := fun (i : Instr) (v : Nat → Nat) => DeliversLanes s i f.vd w 4 on v (fun _ => 0)
    lanes (.vbcst f) (fun _ => a h) ∧ lanes (.vperm f) (fun k => q (x k % (2 * n))) ∧ lanes (.vslide f) (fun k => q (k + h)) ∧
    lanes (.vzip f) (fun k => if k % 2 = 0 then a (h * (n / 2) + k / 2) else b (h * (n / 2) + k / 2)) ∧
    lanes (.vunzip f) (fun k => if k < n / 2 then a (2 * k + h) else b (2 * (k - n / 2) + h)) ∧
    lanes (.vsel f) (fun k => if x k ≠ 0 then a k else b k) ∧ lanes (.vmov f) a

/-- Element j of 512-bit registers run on from v (R128). -/
def runOf (c : Machine.Ctx) (v w j : Nat) : Nat := laneOf (c.rv (v + j / (512 / w))) w (j % (512 / w))

/-- R133 to R136: which elements the conversions and the quantisers read and write, each converted once; VAMAX's scale code
is whole. Formats are those of the entries. -/
def VectorConvertResults : Prop :=
  ∀ (s : Machine.State) (f : VR),
    let c := s.cx
    let t := f.ty.toNat
    let S := f.fn.toNat % 16
    let Q := f.fn.toNat / 16
    let wd := tyWidth t
    let ws := tyWidth S
    let on := fun k => (c.rvm f.vm.toNat).getLsbD k
    let src := fun j => laneOf (c.rv f.va.toNat) ws j
    let r := fun k => c.rnd f.rm.toNat f.sm.toNat k
    let cv := fun j k => Machine.convert (Machine.decodeVal S (src j)) t (r k)
    let lanes := fun (i : Instr) (w : Nat) (act : Nat → Bool) (v : Nat → Nat × Nat) =>
      DeliversLanes s i f.vd w 4 act (fun k => (v k).1) (fun k => (v k).2)
    let code := vbOf f c 8 0
    (t ≤ 13 → S ≤ 13 →
      lanes (.vcvt f) wd (fun k => if k < 512 / max ws wd then on k else true)
        (fun k => if k < 512 / max ws wd then cv k k else (0, 0)) ∧
      (ws < wd → lanes (.vwiden f) wd on (fun k => cv (512 / wd * Q + k) k)) ∧
      (wd < ws → Q < ws / wd → lanes (.vpack f) wd
        (fun k => decide (512 / ws * Q ≤ k ∧ k < 512 / ws * Q + 512 / ws) && on k) (fun k => cv (k - 512 / ws * Q) k))) ∧
    (t ≤ 2 → 3 ≤ S → S ≤ 6 →
      Machine.exec (.vamax f) s = deliversWhole s f.vd 6 (Machine.blockScale S
        ((List.range 128).map (fun j => Machine.decodeFloat t (runOf c f.va.toNat wd j)))).1 0 ∧
      lanes (.vdqnt f) wd on (fun k => Machine.dequantElem S (laneOf (c.rv f.va.toNat) 8 (512 / wd * Q + k)) code t
        (c.rnd f.rm.toNat 0 k))) ∧
    (3 ≤ t → t ≤ 6 → S ≤ 2 → lanes (.vqnt f) 8 on (fun k =>
      let v := Machine.decodeFloat S (runOf c f.va.toNat ws k)
      if code = 0 then (if t = tyT8 then 8 else 0,
        Machine.fBZ + (if v.isNan then Machine.fNV else if v.isInf then Machine.fOF else if v.isZero then 0 else Machine.fNX))
      else Machine.quantElem t code (r k) v))

/-- R138, R139, R145, R147: VLACC adds the exact sum of a lane's elements, or of their products, into each active
accumulator; VLARND reads the accumulators out and writes zero above; XFERV copies an A register into one lane or all;
VLSCALE writes bits [255:0] alone. -/
def VectorAccumulatorResults : Prop :=
  ∀ (s : Machine.State) (f : VR) (x : VX),
    let c := s.cx
    let t := f.ty.toNat
    let S := f.fn.toNat % 16
    let ws := tyWidth S
    let g := 512 / ws / 4
    let on := fun (m : BitVec 4) k => (c.rvm m.toNat).getLsbD k
    let el := fun j => Machine.decodeFloat S (laneOf (c.rv f.va.toNat) ws j)
    let acc := fun k => if f.fn.toNat / 32 = 1 then Machine.LA.empty
      else Machine.LA.decode (BitVec.ofNat 128 (laneOf (c.rv f.vd.toNat) 128 k))
    (S ≤ 4 → f.fn.toNat / 16 % 2 = 0 → DeliversLanes s (.vlacc f) f.vd 128 6 (on f.vm)
      (fun k => (Machine.laAddSum (acc k) ((List.range g).map (fun i => el (g * k + i))) false).1.encode.toNat)
      (fun k => (Machine.laAddSum (acc k) ((List.range g).map (fun i => el (g * k + i))) false).2)) ∧
    (S ≤ 4 → f.fn.toNat / 16 % 2 = 1 → ∃ v fl : Nat → Nat, DeliversLanes s (.vlacc f) f.vd 128 6 (on f.vm) v fl ∧
      ∀ k, (∀ i < g, (el (g * k + i)).isNan = false ∧
          (Machine.decodeFloat S (vbOf f c ws (g * k + i))).isNan = false) →
        ∀ ps, (List.range g).map (fun i =>
            Machine.prodVal (el (g * k + i)) (Machine.decodeFloat S (vbOf f c ws (g * k + i)))) = ps.map some →
          v k = (Machine.laAddSum (acc k) ps false).1.encode.toNat ∧ fl k = (Machine.laAddSum (acc k) ps false).2) ∧
    (t ≤ 13 → DeliversLanes s (.vlarnd f) f.vd (tyWidth t) 4 (fun k => if k < 4 then on f.vm k else true)
      (fun k => if k < 4 then ((Machine.LA.decode (BitVec.ofNat 128 (laneOf (c.rv f.va.toNat) 128 k))).read t
        (c.rnd f.rm.toNat f.sm.toNat k)).1 else 0)
      (fun k => if k < 4 then ((Machine.LA.decode (BitVec.ofNat 128 (laneOf (c.rv f.va.toNat) 128 k))).read t
        (c.rnd f.rm.toNat f.sm.toNat k)).2 else 0)) ∧
    (x.ty.toNat ≤ 13 → (x.bc = 0 → x.lane.toNat < 512 / tyWidth x.ty.toNat) →
      DeliversLanes s (.xferv x) x.vd (tyWidth x.ty.toNat) 2 (fun k => (x.bc == 1 || k == x.lane.toNat) && on x.vm k)
        (fun _ => (c.ra x.src).toNat) (fun _ => 0)) ∧
    (∃ e : Machine.Pend, Machine.exec (.vlscale f) s = .next (s.setCx (c.push e)) ∧ e.dst = .v f.vd.toNat ∧
      e.pos = c.now + 4 ∧ (∀ b < 512, e.mask.getLsbD b = decide (b < 256)) ∧
      e.val.toNat = (Machine.lossUpdate (c.rv f.vd.toNat) (decide ((c.rv f.va.toNat).toNat % 2 ^ 64 ≠ 0))).1 ∧
      e.flags = (Machine.lossUpdate (c.rv f.vd.toNat) (decide ((c.rv f.va.toNat).toNat % 2 ^ 64 ≠ 0))).2)

/-- R146, R147: what one update of the loss-scale state does to every field: E, the counts, SCALEF as the FP32 code of 2^E, HELD
and FLOOR, which a change of E clears, ERR, and bits [223:195], which it writes zero. Illegal bounds set ERR and NV and leave the
other fields. -/
def LossScaleUpdate : Prop :=
  ∀ (v : W512) (ovf : Bool),
    let field := fun (x k : Nat) => x / 2 ^ (32 * k) % 2 ^ 32
    let signed := fun (k : Nat) => sext (field v.toNat k) 32
    let x := (Machine.lossUpdate v ovf).1
    let flags := (Machine.lossUpdate v ovf).2
    let E := signed 0
    let lo := signed 1
    let hi := signed 2
    let bad := hi < lo ∨ lo < -126 ∨ 127 < lo ∨ hi < -126 ∨ 127 < hi
    let e := min (max E lo) hi
    let clean := min (field v.toNat 4 + 1) (2 ^ 32 - 1)
    let reached := max (field v.toNat 3) 1 ≤ clean
    let e' := if ovf = true then (if lo < e then e - 1 else e) else if reached ∧ e < hi then e + 1 else e
    x < 2 ^ 256 ∧ x / 2 ^ 195 % 2 ^ 29 = 0 ∧
    (bad → flags = Machine.fNV ∧ x / 2 ^ 194 % 2 = 1 ∧ x % 2 ^ 194 = v.toNat % 2 ^ 194 ∧ field x 7 = field v.toNat 7) ∧
    (¬ bad → flags = 0 ∧ x / 2 ^ 194 % 2 = 0 ∧ (∀ k, 1 ≤ k → k ≤ 3 → field x k = field v.toNat k) ∧
      field x 0 = wrapInt e' 32 ∧ (field x 7 : Int) = (e' + 127) * 2 ^ 23 ∧
      field x 4 = (if ovf = true ∨ reached then 0 else clean) ∧
      field x 5 = (if ovf = true ∧ e ≤ lo then min (field v.toNat 5 + 1) (2 ^ 32 - 1) else field v.toNat 5) ∧
      (x / 2 ^ 192 % 2 = 1 ↔ (e' = E ∧ v.toNat / 2 ^ 192 % 2 = 1) ∨ (ovf = false ∧ reached ∧ hi ≤ e)) ∧
      (x / 2 ^ 193 % 2 = 1 ↔ (e' = E ∧ v.toNat / 2 ^ 193 % 2 = 1) ∨ (ovf = true ∧ e ≤ lo)))

/-- R141, R142: the cells of a vector access that passes its checks: one for each active lane, in ascending order, each at
its element's pointer, and the memory format: the bank's, or the operation's own over a raw bank and for LA. -/
def VectorAccessCells : Prop :=
  ∀ (s : Machine.State) (f : VL) (store : Bool) (p : W64) (cs : List Machine.Cell) (mf : Nat),
    let c := s.cx
    let ty := f.ty.toNat
    let wd := tyWidth ty
    let active := (List.range (512 / wd)).filter (fun k => (c.rvm f.vm.toNat).getLsbD k)
    let wm := tyWidth mf
    let cellsAt := fun (ptr : Nat → W64) => cs.length = active.length ∧ ∀ (i : Nat) (x : Machine.Cell), cs[i]? = some x →
      active[i]? = some x.lane ∧ x.n = wm / 8 ∧ s.localLoc (ptr x.lane) (wm / 8) = .ok ⟨x.pad, x.off⟩
    active ≠ [] →
    (s.vlCells .contig f store p = .ok (cs, mf) →
      cellsAt (fun k => p + BitVec.ofNat 64 (k * (wm / 8))) ∧ p.toNat % (512 / wd * wm / 8) = 0 ∧ (ty = tyLA → mf = ty) ∧
      (∀ l, s.baseLoc p = .ok l → s.fmtAt l ≠ 0xF → ty ≠ tyLA → mf = s.fmtAt l) ∧
      (∀ l, s.baseLoc p = .ok l → s.fmtAt l = 0xF → mf = ty)) ∧
    (s.vlCells .indexed f store p = .ok (cs, mf) →
      cellsAt (fun k => p + BitVec.ofInt 64 (sext (laneOf (c.rv f.vb.toNat) wd k) wd * (wm / 8 : Nat)))) ∧
    (s.vlCells .single f store p = .ok (cs, mf) →
      ∃ k rest x, active = k :: rest ∧ cs = [x] ∧ x.lane = k ∧ x.n = wm / 8 ∧ s.localLoc p (wm / 8) = .ok ⟨x.pad, x.off⟩)

/-- Base of a vector access (R141): bits [63:0] of VA plus 64 times OFS9, or the extension. -/
def vectorBase (f : VL) (c : Machine.Ctx) : W64 :=
  BitVec.ofNat 64 (c.rv f.va.toNat).toNat + (match f.ext with | some e => e.signExtend 64 | none => f.ofs.signExtend 64 * 64)

/-- R141, R142: where the base of a vector access lies, or what it traps with: its space code and tile or cluster id, bits that must
be zero, and an offset beyond every bank. -/
def VectorBases : Prop :=
  ∀ (s : Machine.State) (p : W64),
    let t := s.cur / 2
    let code := p.toNat / 2 ^ 60
    let id := p.toNat / 2 ^ 48
    let o := p.toNat % 2 ^ 48
    let within := fun (pad : Machine.PadId) (a size : Nat) =>
      s.baseLoc p = if a < size then .ok ⟨pad, a⟩ else .error .spaceRange
    (code ≠ 8 → code ≠ 9 → code ≠ 10 → s.baseLoc p = .error .spaceForeign) ∧
    (code = 8 ∨ code = 9 ∨ code = 10 → Machine.ptrWf p = false → s.baseLoc p = .error .spaceRange) ∧
    (Machine.ptrWf p = true →
      (code = 8 → within (.tile t) ((s.cx.cr 0x34).toNat % 2 ^ 18 + o) (2 ^ 18)) ∧
      (code = 9 → id % 256 ≠ t → s.baseLoc p = .error .spaceForeign) ∧
      (code = 9 → id % 256 = t → within (.tile t) o (2 ^ 18)) ∧
      (code = 10 → id % 32 ≠ t / 8 → s.baseLoc p = .error .spaceForeign) ∧
      (code = 10 → id % 32 = t / 8 → within (.cluster (t / 8)) o 0x600000))

/-- The active elements of a vector access at p in ascending order, with their pointers, in a memory format of wm bits (R141). -/
def vectorElements (kind : Machine.VKind) (f : VL) (c : Machine.Ctx) (p : W64) (wm : Nat) : List (Nat × W64) :=
  let wd := tyWidth f.ty.toNat
  let active := (List.range (512 / wd)).filter (fun k => (c.rvm f.vm.toNat).getLsbD k)
  match kind with
  | .contig => active.map (fun k => (k, p + BitVec.ofNat 64 (k * (wm / 8))))
  | .indexed => active.map (fun k => (k, p + BitVec.ofInt 64 (sext (laneOf (c.rv f.vb.toNat) wd k) wd * (wm / 8 : Nat))))
  | .single => active.head?.toList.map (fun k => (k, p))

/-- The first failing cause of one element of wm bits at q, of an access of bank format fmt (R142 check 4): R100 on its bytes, its
alignment where the access is not contiguous, and the formats of the banks that its bytes lie in. -/
def elementFails (s : Machine.State) (kind : Machine.VKind) (ty fmt wm : Nat) (q : W64) : Option Cause :=
  match s.localLoc q (wm / 8) with
  | .error e => some e
  | .ok l =>
    if kind ≠ .contig ∧ q.toNat % (wm / 8) ≠ 0 then some .misaligned
    else if ty ≠ tyLA ∧ (s.fmtAt l ≠ fmt ∨ s.fmtAt { l with off := l.off + wm / 8 - 1 } ≠ fmt) then some .bankFormat
    else none

/-- R142 of one access with an active lane, in R142's order: the base, the alignment of the whole access where it is contiguous, the
format written under SM = 1, then each element. Each traps precisely, with the pointer at fault; where none fails the access has its
cells. -/
def ChecksInOrder (s : Machine.State) (i : Instr) (kind : Machine.VKind) (f : VL) (store : Bool) : Prop :=
  let p := vectorBase f s.cx
  let wd := tyWidth f.ty.toNat
  let traps := fun (e : Cause) (a : W64) => Machine.exec i s = .next (Machine.takeTrap { cause := e, slot := 1, addr := a } s)
  (∃ k < 512 / wd, (s.cx.rvm f.vm.toNat).getLsbD k = true) →
    (∀ e, s.baseLoc p = .error e → traps e p) ∧
    (∀ l, s.baseLoc p = .ok l →
      let fmt := s.fmtAt l
      let mf := if fmt = 0xF ∨ f.ty.toNat = tyLA then f.ty.toNat else fmt
      let wm := tyWidth mf
      let whole := kind = .contig ∧ p.toNat % (512 / wd * wm / 8) ≠ 0
      let sub := store = true ∧ f.sm = 1 ∧ mf ≠ tyE4
      let fails := elementFails s kind f.ty.toNat fmt wm
      (whole → traps .misaligned p) ∧
      (¬ whole → sub → traps .illegalOp 0) ∧
      (¬ whole → ¬ sub → ∀ before k q after e, vectorElements kind f s.cx p wm = before ++ (k, q) :: after →
        (∀ x ∈ before, fails x.2 = none) → fails q = some e → traps e q) ∧
      (¬ whole → ¬ sub → (∀ x ∈ vectorElements kind f s.cx p wm, fails x.2 = none) →
        ∃ cs, s.vlCells kind f store p = .ok (cs, mf)))

/-- R142, R129, R265: each vector access checks in the order of R142. -/
def VectorAccessTraps : Prop :=
  ∀ (s : Machine.State) (f : VL), s.cx.ld < 4095 → s.cx.st < 4095 →
    ChecksInOrder s (.vld f) .contig f false ∧ ChecksInOrder s (.vldx f) .indexed f false ∧
    ChecksInOrder s (.vldb f) .single f false ∧ ChecksInOrder s (.vst f) .contig f true ∧
    ChecksInOrder s (.vstx f) .indexed f true

/-! ### The M slot: registers and bookkeeping -/

/-- The immediate of an M register operation: 16 bits, or the extension, sign-extended (R37). -/
def immM (f : MR) : W64 := match f.ext with | none => f.imm.signExtend 64 | some e => e.signExtend 64

/-- The same read without a sign. -/
def immUM (imm : BitVec 16) (ext : Option (BitVec 32)) : Nat := match ext with | none => imm.toNat | some e => e.toNat

/-- R220, R105, R253, R235, R293, R429: the M operations on registers, JCNT, token channels and the pin register. TCONS also holds
behind a full/empty load or a store that waits (log entry 24, the model's reading of R293). -/
def MRegisterResults : Prop :=
  ∀ (s : Machine.State) (f : MR) (x : MX) (t : MS), s.cx.buf = {} →
    let c := s.cx
    let T := s.tile (s.cur / 2)
    let a := c.rm f.ma.toNat
    let pin := T.crs.read 0xC2
    let setPin := fun (v : W64) => (.next (s.setTile (s.cur / 2) { T with crs := T.crs.write 0xC2 v }) : Answer)
    let trap := fun (e : Cause) => (.next (Machine.takeTrap { cause := e, slot := 2 } s) : Answer)
    let ch := immUM t.imm t.ext % 16
    (c.guard f.gp = true →
      Machine.exec (.mset f) s = deliversM s f.md (immM f) 1 ∧
      Machine.exec (.msetHi f) s = deliversM s f.md
        (BitVec.ofNat 64 ((c.rm f.md.toNat).toNat % 2 ^ 32 + (immM f).toNat % 2 ^ 32 * 2 ^ 32)) 1 ∧
      (f.fn = 0 → Machine.exec (.maddM f) s = deliversM s f.md (BitVec.ofNat 64 (a.toNat + (immM f).toNat)) 1) ∧
      (f.fn ≠ 0 → Machine.exec (.maddM f) s = deliversM s f.md (BitVec.ofNat 64 (a.toNat + (c.rm f.mb.toNat).toNat)) 1) ∧
      Machine.exec (.mmov f) s = deliversM s f.md a 1 ∧
      (c.jcnt + immUM f.imm f.ext ≤ 65535 →
        Machine.exec (.jinit f) s = .next (s.setCx { c with jcnt := c.jcnt + immUM f.imm f.ext })) ∧
      (65535 < c.jcnt + immUM f.imm f.ext → Machine.exec (.jinit f) s = trap .paramRange) ∧
      (2 ^ 32 ≤ a.toNat → Machine.exec (.lapin f) s = trap .paramRange) ∧
      (a.toNat < 2 ^ 32 → pin.getLsbD 48 = true → pin.toNat / 2 ^ 32 % 2 ^ 16 ≠ c.asid →
        Machine.exec (.lapin f) s = trap .spaceForeign) ∧
      (a.toNat < 2 ^ 32 → c.asid < 2 ^ 16 → pin.getLsbD 48 = false ∨ pin.toNat / 2 ^ 32 % 2 ^ 16 = c.asid →
        Machine.exec (.lapin f) s = setPin (BitVec.ofNat 64 (2 ^ 48 + c.asid * 2 ^ 32 + a.toNat))) ∧
      Machine.exec (.lapinRel f) s = setPin 0) ∧
    (c.guard x.gp = true → Machine.exec (.xferm x) s = deliversM s x.md (c.ra x.src) 2) ∧
    (c.guard t.gp = true →
      (T.chan ch = [] ∨ s.behind s.cur c.iss = true → Machine.exec (.tcons t) s = .next s) ∧
      (∀ v rest, T.chan ch = v :: rest → s.behind s.cur c.iss = false → Machine.exec (.tcons t) s =
        .next ((s.setTile (s.cur / 2) { T with chans := Machine.mapPut ch rest T.chans }).setCx
          (issued (c.deliverM t.mp v 1).dropLines))))

/-- R244, R196: SSTAT delivers the status of a handle, and reading it clears its flags; source 16 is the array's. For a
handle without a command STATE is 4 after a cancellation and 0 otherwise; with a faulted one at its head it is 3, and with
one that has not started 1 (log entry 83). -/
def StatusReads : Prop :=
  ∀ (s : Machine.State) (f : MR), s.cx.guard f.gp = true →
    let c := s.cx
    let h := f.fn.toNat
    let H := c.handle h
    let T := s.tile (s.cur / 2)
    (h ≠ 16 → ∃ st : Nat, Machine.exec (.sstat f) s = .next (s.setCx ((c.deliverM f.md (BitVec.ofNat 64
        (st * 2 ^ 61 + H.op % 256 * 2 ^ 53 + H.queue.length % 128 * 2 ^ 46 + H.flags % 64 * 2 ^ 40 + H.done % 2 ^ 40)) 2).setHandle h
          { H with flags := 0 })) ∧
      (H.cmds = [] → st = if H.cancelled then 4 else 0) ∧
      (∀ k rest, H.cmds = k :: rest → (k.faulted = true → st = 3) ∧ (k.faulted = false → k.started = false → st = 1) ∧
        (k.faulted = false → k.started = true → st = 1 ∨ st = 2))) ∧
    (h = 16 → T.arr.act ∈ [none, some 0, some 1] → ∃ v : W64,
      Machine.exec (.sstat f) s = .next ((s.setCx (c.deliverM f.md v 2)).setTile (s.cur / 2) { T with arr := { T.arr with flags := 0 } }) ∧
      v.toNat % 64 = T.arr.flags % 64 ∧ (v.getLsbD 17 = true ↔ T.arr.target.isSome = true) ∧
      (T.arr.act = some 1 → v.getLsbD 16 = true) ∧ (T.arr.act = none → v.getLsbD 16 = false))

/-! ### Stream commands -/

/-- A failed check of a command, taken as a trap of the M slot. -/
def trapsM (s : Machine.State) (x : Machine.Chk) : Answer :=
  .next (Machine.takeTrap { cause := x.cause, slot := 2, addr := x.addr } s)

/-- The context after command `k` joins the handle that `f` names: last in its queue, with the position and the program
counter of its bundle, its issue tick, its place in the order of issues (R293) and the barriers that do not hold yet, counted in the stream class if `counted`, and in the array
class if a follow-on is attached. -/
def joined (s : Machine.State) (f : MS) (counted : Bool) (k : Machine.Cmd) : Machine.Ctx :=
  let c := s.cx
  let H := c.handle f.sh.toNat
  let k := { k with seq := (s.tile (s.cur / 2)).seq, ctime := c.ctime, pc := c.pc, iat := s.tick, iss := c.iss
                    bars := c.sbars.filter (fun b => !c.barMet b)
                    follow := if f.follow.toNat / 16 = 1 then some (f.follow.toNat % 16) else none }
  { c.setHandle f.sh.toNat { H with cmds := H.cmds ++ [k], cancelled := false } with
    str := c.str + (if counted then 1 else 0), arr := c.arr + (if f.follow.toNat / 16 = 1 then 1 else 0) }

/-- An answer in which command `k` has joined its handle and memory is as it was. -/
def Joins (s : Machine.State) (f : MS) (counted : Bool) (k : Machine.Cmd) (r : Answer) : Prop :=
  ∃ s', r = .next s' ∧ s'.cx = issued (joined s f counted k) ∧
    s'.tile (s.cur / 2) = { s.tile (s.cur / 2) with seq := (s.tile (s.cur / 2)).seq + 1 } ∧ s'.mem = s.mem ∧ s'.tick = s.tick

/-- The handle and the classes have room for a command (R218). -/
def Room (s : Machine.State) (f : MS) (counted : Bool) : Prop :=
  (s.cx.handle f.sh.toNat).cmds.length < 4 ∧ (counted = true → s.cx.str ≠ 4095) ∧
    (f.follow.toNat / 16 = 1 → s.cx.arr ≠ 4095)

/-- A command with room: it joins its handle if no check fails, and else traps by the first check that fails. -/
def JoinsOrTraps (s : Machine.State) (f : MS) (counted : Bool) (cs : List Machine.Chk) (k : Machine.Cmd) (r : Answer) : Prop :=
  (cs = [] → Joins s f counted k r) ∧ (∀ x, Machine.firstChk cs = some x → r = trapsM s x)

/-- The command an operation makes: its opcode, FN, port, base and parameters. -/
def command (op : Nat) (f : MS) (p : W64) (ps : List W64) : Machine.Cmd :=
  { op := op, fn := f.fn.toNat, port := f.port.toNat % 16, base := p, ps := ps, seq := 0, ctime := 0, pc := 0 }

/-- The base of a command: mB plus the immediate (R221). -/
def baseOf (s : Machine.State) (f : MS) : W64 :=
  s.cx.rm f.mb.toNat + (match f.ext with | none => f.imm.signExtend 64 | some e => e.signExtend 64)

/-- R215, R216, R218, R219, R222, R227 to R230, R232, R234, R281, R364: a stream command with room joins its handle when
every check passes and else traps; MNFEED and MNDRAIN do the same outside the stream class (R217, R335, R340). -/
def StreamCommandsJoin : Prop :=
  ∀ (s : Machine.State) (f : MS), s.cx.buf = {} → s.cx.guard f.gp = true →
    let p := baseOf s f
    let c := s.cx
    let mps := Machine.movePs f c
    let ps4 := c.params f 4
    let ps5 := c.params f 5
    let all := fun (n : Nat) => some n
    (Room s f true →
      JoinsOrTraps s f true (s.moveChk false false f p) { command 0x05 f p mps with total := all (Machine.affTotal mps) }
        (Machine.exec (.saff f) s) ∧
      JoinsOrTraps s f true (s.moveChk true false f p) { command 0x06 f p mps with total := all (Machine.affTotal mps) }
        (Machine.exec (.saffw f) s) ∧
      JoinsOrTraps s f true (s.moveChk false true f p)
        { command 0x07 f p mps with
          total := if Machine.ixSrc mps = 0 ∨ Machine.ixN mps = 0 then all (Machine.ixN mps * Machine.ixRow mps) else none }
        (Machine.exec (.sind f) s) ∧
      JoinsOrTraps s f true (s.moveChk true true f p)
        { command 0x08 f p mps with
          total := if Machine.ixSrc mps = 0 ∨ Machine.ixN mps = 0 then all (Machine.ixN mps * Machine.ixRow mps) else none }
        (Machine.exec (.sindw f) s) ∧
      JoinsOrTraps s f true (s.srecChk f)
        { command 0x09 f 0 (c.params f 1) with
          aux := immUM f.imm f.ext % 16, total := all ((c.rm f.mp.toNat).toNat % 2 ^ 32) } (Machine.exec (.srec f) s) ∧
      JoinsOrTraps s f true (s.swinAllChk f p) { command 0x0A f p ps4 with total := all (Machine.swTotal ps4) }
        (Machine.exec (.swin f) s) ∧
      JoinsOrTraps s f true (s.scopyChk f p) { command 0x0E f p ps5 with total := all (Machine.affTotal ps5) }
        (Machine.exec (.scopy f) s) ∧
      JoinsOrTraps s f true (s.boxCmdChk true f p) { command 0x0F f p ps5 with total := all (Machine.affTotal ps5) }
        (Machine.exec (.sfill f) s) ∧
      JoinsOrTraps s f true (s.boxCmdChk false f p) { command 0x23 f p ps4 with total := all (Machine.affTotal ps4) }
        (Machine.exec (.spref f) s) ∧
      JoinsOrTraps s f true (s.sdualChk f p)
        { command 0x25 f p ps5 with total := all (Machine.sdRows ps5 * Machine.sdCols ps5) } (Machine.exec (.sdual f) s) ∧
      JoinsOrTraps s f true (s.grecvChk f p) (command 0x24 f p (c.params f 1)) (Machine.exec (.grecv f) s) ∧
      Joins s f true { command 0x0C f 0 [] with aux := immUM f.imm f.ext, val := c.rm f.mb.toNat } (Machine.exec (.temit f) s)) ∧
    (Room s f false →
      JoinsOrTraps s f false (s.mnfeedChk f p)
        { command 0x1A f p (c.params f 3) with
          port := f.fn.toNat % 8, total := all ((c.rm f.mp.toNat).toNat % 2 ^ 32) } (Machine.exec (.mnfeed f) s) ∧
      (∀ x, Machine.firstChk (s.mndrainChk f p) = some x → Machine.exec (.mndrain f) s = trapsM s x) ∧
      (s.mndrainChk f p = [] → (s.cluster (s.cur / 2 / 8)).mn.asid = c.asid →
        (s.cluster (s.cur / 2 / 8)).mn.state ∈ [2, 3, 4] →
        Joins s f false { command 0x1C f p (Machine.mndrainPs f c) with aux := f.fn.toNat % 2 } (Machine.exec (.mndrain f) s)))

/-- R218: a stream command without room holds its bundle; a guard that fails leaves everything as it is. -/
def StreamCommandsHold : Prop :=
  ∀ (s : Machine.State) (f : MS), s.cx.guard f.gp = true →
    (¬ Room s f true → ∀ i ∈ [Instr.saff f, .saffw f, .sind f, .sindw f, .srec f, .swin f, .smcast f, .scopy f, .sfill f,
      .spref f, .sdual f, .grecv f, .temit f, .nsdot f], Machine.exec i s = .next s) ∧
    (¬ Room s f false → ∀ i ∈ [Instr.mnfeed f, .mndrain f], Machine.exec i s = .next s)

/-- R219: of the checks that fail, the trap is the one that comes first in the order of R219, and of two that stand in one
place of that order the one checked first (log entry 33, the model's reading). -/
def FirstFailedCheckTraps : Prop :=
  ∀ (l : List Machine.Chk),
    (Machine.firstChk l = none ↔ l = []) ∧
    (∀ x, Machine.firstChk l = some x → ∃ a b, l = a ++ x :: b ∧ (∀ y ∈ a, x.rank < y.rank) ∧ (∀ y ∈ b, x.rank ≤ y.rank))

/-- R219, R257: the place that each failed check of a command takes in the order of R219, by its cause: an encoding of R52 before
all, then PARAM_RANGE, a space code (2) and must-be-zero bits (3) before the ids and owners (4) and the reach (5) of R262, then
MISALIGNED, PORT_CIRCUIT, PORT_SHAPE and STREAM_HANDLE (log entry 33, the model's reading within one place). -/
def CheckPlaces : Prop :=
  ∀ (s : Machine.State) (f : MS) (p : W64) (n al : Nat) (pads : Bool),
    let place := fun (x : Machine.Chk) => match x.rank with
      | 0 => x.cause = .illegalOp
      | 1 => x.cause = .paramRange
      | 2 => x.cause = .spaceForeign
      | 3 => x.cause = .spaceRange
      | 4 => x.cause = .spaceForeign
      | 5 => x.cause = .spaceRange
      | 6 => x.cause = .misaligned
      | 7 => x.cause = .portCircuit
      | 8 => x.cause = .portShape
      | 9 => x.cause = .streamHandle
      | _ => False
    ∀ l ∈ [s.moveChk false false f p, s.moveChk true false f p, s.moveChk false true f p, s.moveChk true true f p, s.srecChk f,
        s.swinAllChk f p, s.mcastChk f p (s.cx.params f 5), s.scopyChk f p, s.boxCmdChk true f p, s.boxCmdChk false f p,
        s.sdualChk f p, s.grecvChk f p, s.nsdotChk f p (Machine.nsdotPs f s.cx), s.mnfeedChk f p, s.mndrainChk f p,
        s.blobChk p n al pads],
      ∀ x ∈ l, place x

/-- R219, R222, R223, R227, R256, R257: which parameters of SAFF fail which check: the shape word, the group of its follow-on and the
counts; the space of its base where the base is no scratchpad pointer and has no scales; the alignment of the base and of the
strides that are used, in the memory format at the base; and its port. -/
def AffineReadChecks : Prop :=
  ∀ (s : Machine.State) (f : MS) (p : W64),
    let c := s.cx
    let par := fun (i : Nat) => (c.rm (f.mp.toNat + i)).toNat
    let bits := fun (hi lo : Nat) => par 0 / 2 ^ lo % 2 ^ (hi + 1 - lo)
    let mty := bits 63 60
    let tty := bits 59 56
    let lanes := bits 55 50 + 1
    let scal := bits 45 45 = 1
    let queued := f.fn.toNat / 8 % 4 ≠ 0
    let count := fun (i : Nat) => par 1 / 2 ^ (16 * i) % 2 ^ 16
    let stride := fun (i : Nat) => sext (par (2 + i / 2) / 2 ^ (32 * (i % 2)) % 2 ^ 32) 32
    let n := tyWidth (s.mfAt s.cur p mty) / 8
    let port := f.port.toNat % 16
    let d := (s.arr (s.cur / 2)).port port
    let code := p.toNat / 2 ^ 60
    let fails := fun (e : Cause) => ∃ x ∈ s.moveChk false false f p, x.cause = e
    (fails .illegalOp ↔ scal ∧ 32 < f.mp.toNat + 5) ∧
    (fails .paramRange ↔ mty = 15 ∨ tty = 15 ∨ (mty = 14 ∧ tty ≠ 14) ∨ (mty ≠ 14 ∧ tty = 14) ∨ 512 < lanes * tyWidth tty ∨
      bits 44 0 ≠ 0 ∨ 4 < bits 49 47 ∨ (bits 46 46 = 1 ∧ tty ≠ tyE4) ∨ (queued ∧ (lanes ≠ 1 ∨ tty < 6 ∨ 13 < tty)) ∨
      (f.follow.toNat / 16 = 1 ∧ s.groupOk (f.follow.toNat % 16) = false) ∨
      (n ≠ 0 ∧ 2 ^ 40 < count 0 * count 1 * count 2 * count 3)) ∧
    (n ≠ 0 → ¬ scal → code ≠ 8 → code ≠ 9 → code ≠ 10 →
      (fails .spaceForeign ↔ code ≠ 0 ∧ code ≠ 14) ∧
      (fails .spaceRange ↔ (code = 0 ∨ code = 12 ∨ code = 14) ∧ Machine.ptrWf p = false)) ∧
    (fails .misaligned ↔ n ≠ 0 ∧ (p.toNat % n ≠ 0 ∨ ∃ i < 4, count i ≠ 0 ∧ stride i % (n : Int) ≠ 0)) ∧
    (fails .portCircuit ↔ ¬ queued ∧ s.bound (s.cur / 2) false port = true) ∧
    (fails .portShape ↔ ¬ queued ∧ Machine.poUsed d = true ∧
      (Machine.poTy d ≠ tty ∨ Machine.poLanes d ≠ lanes ∨ (Machine.poScaled d = true ↔ ¬ scal))) ∧
    ¬ fails .streamHandle

/-- A command of the power class `cls`: with `need` false it joins as any other does; else it joins once it holds a grant
or a reserve, takes a grant from the arbiter where the budget has room, waits where PGRANT.WAIT is set, and else counts
a denial and traps at its next attempt. -/
def PoweredRule (s : Machine.State) (f : MS) (need : Bool) (cls : Nat) (cs : List Machine.Chk) (k : Machine.Cmd) (r : Answer) : Prop :=
  let c := s.cx
  let t := s.cur / 2
  let units := Machine.powerCost cls
  let budget := (s.win.read Machine.wPWRBUD).toNat
  let stat := (s.tile t).crs.read 0x44
  (∀ x, Machine.firstChk cs = some x → r = trapsM s x) ∧
  (cs = [] →
    (need = false → c.pwr = .none → Joins s f true k r) ∧
    (need = true →
      (c.pwr = .power cls true → Joins (s.setCx { c with pwr := .none }) f true { k with cost := units } r) ∧
      (c.pwr = .none →
        (stat.getLsbD (4 + cls) = true → Joins (s.dropReserve t cls) f true { k with cost := units } r) ∧
        (stat.getLsbD (4 + cls) = false →
          (s.waits = [] → s.drawn + units ≤ budget →
            r = .next ({ s with drawn := s.drawn + units }.setCx { c with pwr := .power cls true })) ∧
          ((s.waits ≠ [] ∨ budget < s.drawn + units) → stat.getLsbD 0 = true →
            r = .next (({ s with
              waits := s.waits ++ [{ tile := t, cls := cls, ctx := s.cur, implicit := true }] } : Machine.State).setCx { c with pwr := .power cls false })) ∧
          ((s.waits ≠ [] ∨ budget < s.drawn + units) → stat.getLsbD 0 = false →
            r = .next ((s.countDeny t).setCx { c with pwr := .failed .pgrantDeny }))))) ∧
    (c.pwr = .failed .pgrantDeny → r = trapsM s { rank := 0, cause := .pgrantDeny }))

/-- R231, R370, R371, R414, R415: SMCAST, which needs a grant of class 2 when the bytes of its box, each counted once (log entry 37,
the model's reading of R231), pass 256 KiB, and NSDOT, which needs one of class 1. -/
def PoweredCommandsJoin : Prop :=
  ∀ (s : Machine.State) (f : MS), s.cx.buf = {} → s.cx.guard f.gp = true → Room s f true →
    let p := baseOf s f
    let ps := s.cx.params f 5
    let nps := Machine.nsdotPs f s.cx
    let heavy := s.mcastHeavy f p
    PoweredRule s f heavy 2 (s.mcastChk f p ps) { command 0x0B f p ps with total := some (Machine.affTotal ps) }
      (Machine.exec (.smcast f) s) ∧
    PoweredRule s f true 1 (s.nsdotChk f p nps) { command 0x1E f p nps with total := some (Machine.ndRows nps) }
      (Machine.exec (.nsdot f) s)

/-- R242: SCANCEL drops the commands behind the head of its handle, and the head too where it has faulted, or has not started or
waits for a place among the 16 that run (log entry 36, the model's reading: R242 speaks of the running and the faulted command); a
running head is marked to end at its next block. What goes leaves its classes and returns its power units. -/
def CancelResults : Prop :=
  ∀ (s : Machine.State) (f : MS), s.cx.guard f.gp = true →
    let c := s.cx
    let h := f.sh.toNat
    let H := c.handle h
    (H.cmds = [] → Machine.exec (.scancel f) s = .next s) ∧
    (∀ k rest, H.cmds = k :: rest →
      let dead := k.faulted = true ∨ k.started = false ∨ k.idle = true
      let gone := if k.faulted = true ∨ k.started = false ∨ k.idle = true then k :: rest else rest
      ∃ s', Machine.exec (.scancel f) s = .next s' ∧ s'.mem = s.mem ∧
        (dead → s'.cx.handle h = { H with cmds := [], queue := [], cancelled := true }) ∧
        (¬ dead → s'.cx.handle h = { H with cmds := [{ k with cancel := true }], queue := [] }) ∧
        s'.cx.str = c.str - (gone.filter (fun x => decide (x.op ≠ 0x1A ∧ x.op ≠ 0x1C))).length ∧
        s'.cx.arr = c.arr - (gone.filter (fun x => x.follow.isSome)).length ∧
        s'.drawn = s.drawn - (gone.map (fun x => x.cost)).sum)

/-- R240: SBAR leaves a barrier over the commands issued so far on the handles its mask names; the form that holds does so
until the barrier is met. -/
def BarrierResults : Prop :=
  ∀ (s : Machine.State) (f : MR), s.cx.buf = {} → s.cx.guard f.gp = true →
    let c := s.cx
    let b : Machine.Bar := { upto := (s.tile (s.cur / 2)).seq, mask := immUM f.imm f.ext, r := f.fn.getLsbD 0, w := f.fn.getLsbD 1 }
    let left := fun (c : Machine.Ctx) => (.next (s.setCx (issued { c with sbars := c.sbars.filter (fun x => !c.barMet x) ++ [b] })) : Answer)
    (f.fn.getLsbD 2 = false → Machine.exec (.sbar f) s = left c) ∧
    (f.fn.getLsbD 2 = true → c.barMet b = false → Machine.exec (.sbar f) s = .next s) ∧
    (f.fn.getLsbD 2 = true → c.barMet b = true →
      Machine.exec (.sbar f) s = left (c.observe (fun h => b.mask.testBit h)))

/-! ### Loads and switches of the array and the ports -/

/-- R237, R219, R245, R246: SWLOAD, CFGLOAD and CFGPREF queue a load of a switch table or a configuration image where the pointer
passes its checks, and else trap by the first that fails; CFGPREF loads slot 0 where no slot is active (log entry 20, the model's
reading). SWACT makes the pending table active; CFGACT begins a switch to a valid image. -/
def ConfigurationCommands : Prop :=
  ∀ (s : Machine.State) (f : MR), s.cx.buf = {} → s.cx.guard f.gp = true →
    let c := s.cx
    let t := s.cur / 2
    let T := s.tile t
    let p := c.rm f.ma.toNat
    let trap := fun (e : Cause) => (.next (Machine.takeTrap { cause := e, slot := 2 } s) : Answer)
    let load := fun (slot op : Nat) => ({ slot := slot, ctx := s.cur, ptr := p, op := op, ctime := c.ctime, pc := c.pc, at_ := s.tick, iss := c.iss } : Machine.CfgLoad)
    let queued := fun (slot op : Nat) => (.next ((s.setTile t { T with arr := { T.arr with
      loads := T.arr.loads ++ [load slot op], imgs := Machine.mapPut slot { T.arr.img slot with inv := 0xFF } T.arr.imgs } }).setCx
      (issued { c with str := c.str + 1 })) : Answer)
    let slot := f.fn.toNat % 2
    let free := if T.arr.act = some 0 then 1 else 0
    (c.str ≠ 4095 →
      (∀ x, Machine.firstChk (s.blobChk p 256 64 true) = some x → Machine.exec (.swload f) s = trapsM s x) ∧
      (∀ x, Machine.firstChk (s.blobChk p 2048 64 false) = some x →
        Machine.exec (.cfgload f) s = trapsM s x ∧ (T.arr.target = none → Machine.exec (.cfgpref f) s = trapsM s x)) ∧
      (s.blobChk p 256 64 true = [] → Machine.exec (.swload f) s =
        .next ((s.setTile t { T with tloads := T.tloads ++ [load 2 0x12] }).setCx (issued { c with str := c.str + 1 }))) ∧
      (s.blobChk p 2048 64 false = [] →
        (T.arr.act ≠ some slot → T.arr.target ≠ some slot → Machine.exec (.cfgload f) s = queued slot 0x14) ∧
        ((T.arr.act = some slot ∨ T.arr.target = some slot) → Machine.exec (.cfgload f) s = trap .cfgBusy) ∧
        (T.arr.target = none →
          ((T.arr.img free).src = some p → (T.arr.img free).inv = 0 → Machine.exec (.cfgpref f) s = passes s) ∧
          (¬ ((T.arr.img free).src = some p ∧ (T.arr.img free).inv = 0) → Machine.exec (.cfgpref f) s = queued free 0x29)))) ∧
    (Machine.holdSwact f s = none →
      (Machine.swTableOk T.pending = true →
        Machine.exec (.swact f) s = .next ((s.setTile t { T with table := some T.pending }).setCx (issued c))) ∧
      (Machine.swTableOk T.pending = false → Machine.exec (.swact f) s = trap .paramRange)) ∧
    (T.arr.target = none → (∀ l ∈ T.arr.loads, l.slot ≠ slot) → c.pwr = .none → s.actNeeds slot = false →
      ((T.arr.img slot).inv ≠ 0 → Machine.exec (.cfgact f) s = trap .illegalOp) ∧
      ((T.arr.img slot).inv = 0 →
        (T.arr.act = some slot → Machine.exec (.cfgact f) s = passes s) ∧
        (T.arr.act ≠ some slot → ∃ s', Machine.exec (.cfgact f) s = .next s' ∧ (s'.arr t).target = some slot ∧
          (s'.arr t).act = T.arr.act ∧ (s'.arr t).swAt = s.tick ∧ (s'.arr t).owner = some s.cur ∧ (s'.arr t).imgs = T.arr.imgs ∧
          s'.cx = issued c ∧ s'.mem = s.mem)))

/-- R247, R249, R250: AFIRE arms a group of the current image for one run; AFLUSH drops the group's runs that have not
begun, and traps on a group that AFIRE refuses (log entry 39, the model's reading); ADEPTH sends a new depth down an edge of the
active image. -/
def ArrayGroupCommands : Prop :=
  ∀ (s : Machine.State) (f : MR) (i : Nat), s.cx.buf = {} → s.cx.guard f.gp = true →
    let c := s.cx
    let t := s.cur / 2
    let a := (s.tile t).arr
    let g := f.fn.toNat % 16
    let trap := fun (e : Cause) => (.next (Machine.takeTrap { cause := e, slot := 2 } s) : Answer)
    let w := immUM f.imm f.ext
    let pe := w % 64
    let k := w / 64 % 4
    let d := w / 256 % 128
    (s.groupOk g = true → a.current = some i →
      ((a.runq i g).length < 15 → c.arr ≠ 4095 → ∃ s', Machine.exec (.afire f) s = .next s' ∧
        s'.cx = issued { c with arr := c.arr + 1 } ∧ s'.mem = s.mem ∧
        s'.arr t = a.setRuns i g (a.runq i g ++ [{ ctx := s.cur, op := 0x16, ctime := c.ctime, pc := c.pc, iss := c.iss, after := s.tick }])) ∧
      (15 ≤ (a.runq i g).length ∨ c.arr = 4095 → Machine.exec (.afire f) s = .next s) ∧
      ∃ s', Machine.exec (.aflush f) s = .next s' ∧ s'.mem = s.mem ∧
        (s'.arr t).runq i g = ((a.runq i g).filter (fun r => r.begun.isSome)).map (fun r => { r with lost := false, flushed := r.lost })) ∧
    (s.groupOk g = false →
      (c.arr ≠ 4095 → (∀ j, a.current = some j → (a.runq j g).length < 15) → Machine.exec (.afire f) s = trap .paramRange) ∧
      Machine.exec (.aflush f) s = trap .paramRange) ∧
    (a.target.isSome = true → Machine.exec (.adepth f) s = .next s) ∧
    (a.target = none →
      (a.act = none → Machine.exec (.adepth f) s = trap .paramRange) ∧
      (a.act = some i →
        let raw := (a.img i).raw
        let pool := ((List.range 4).map (fun j => if j = k then d else (a.edge i pe j).newest)).sum +
          (if Machine.opOP (Machine.imgOp raw pe) = Machine.oDELAY then Machine.opCNT (Machine.imgOp raw pe) else 0)
        let ok := Machine.edKind (Machine.imgEdge raw pe k) ≠ 0 ∧ 1 ≤ d ∧ d ≤ 64 ∧ pool ≤ 64
        (ok → ∃ s', Machine.exec (.adepth f) s = .next s' ∧ s'.cx = issued c ∧ s'.mem = s.mem ∧
          s'.arr t = a.setEdge i pe k { a.edge i pe k with
            q := (a.edge i pe k).q ++ [{ ready := s.tick, tok := none, img := i, depth := d }] }) ∧
        (¬ ok → Machine.exec (.adepth f) s = trap .paramRange)))

/-! ### The merge network's commands -/

/-! ### Launching, spawning, publishing, power -/

/-- R416: PGREQ takes a reserve where the budget has room and nothing waits, waits in turn otherwise, and does nothing for a
class the tile already holds or asks for; PGREQ.REL withdraws the tile's request of the class, whoever made it, and gives a
held reserve back. -/
def PowerReserveCommands : Prop :=
  ∀ (s : Machine.State) (f : MR), s.cx.buf = {} → s.cx.guard f.gp = true → f.fn.toNat % 4 < 3 →
    let t := s.cur / 2
    let cls := f.fn.toNat % 4
    let units := if cls = 0 then 4 else if cls = 1 then 24 else 3
    let stat := (s.tile t).crs.read 0x44
    let asked := stat.getLsbD (4 + cls) = true ∨ (∃ w ∈ s.waits, w.tile = t ∧ w.cls = cls) ∨ (cls = 0 ∧ stat.getLsbD 2 = true)
    let room := s.waits = [] ∧ s.drawn + units ≤ (s.win.read Machine.wPWRBUD).toNat
    (asked → Machine.exec (.pgreq f) s = passes s) ∧
    (¬ asked → ¬ room → Machine.exec (.pgreq f) s =
      .next (({ s with waits := s.waits ++ [{ tile := t, cls := cls, ctx := s.cur, implicit := false }] } : Machine.State).setCx
        (issued s.cx))) ∧
    (¬ asked → room → ∃ s', Machine.exec (.pgreq f) s = .next s' ∧ s'.drawn = s.drawn + units ∧ s'.waits = [] ∧
      s'.mem = s.mem ∧ ((s'.tile t).crs.read 0x44).getLsbD (4 + cls) = true ∧ (s'.cx.cr 7).getLsbD 2 = true) ∧
    ∃ s', Machine.exec (.pgreqRel f) s = .next s' ∧ s'.mem = s.mem ∧ s'.cx = { s.cx with pwr := if s.cx.pwr = .power cls false then .none else s.cx.pwr } ∧
      s'.waits = s.waits.filter (fun w => !(w.tile == t && w.cls == cls)) ∧
      ((s'.tile t).crs.read 0x44).getLsbD (4 + cls) = false ∧
      s'.drawn = s.drawn - (if stat.getLsbD (4 + cls) = true then units else 0)

/-! ### Events of a context -/

/-- R16, R18, R110: results whose data is present arrive, and leave their class; the others wait on. A load that waits for
full granules is performed once they are full and no access with a better claim is at its bank (R101, R267, R397). -/
def ResultsArrive : Prop :=
  ∀ (s : Machine.State), s.cx.shadow = none → s.cx.stq = [] → s.cx.syq = [] →
    let c := s.cx
    let now := fun (e : Machine.Pend) => !e.arrived && decide (e.ready ≤ s.tick) && (e.load || e.tag == 1)
    ((c.life = .live ∨ ∃ st pc, c.life = .ended st none pc ∧ ∀ e ∈ c.pend, e.lost = none) → (∀ e ∈ c.pend, e.fe = none) →
      ∃ s', Machine.exec .resultArrives s = .next s' ∧
      s'.cx.pend = c.pend.map (fun e => if now e then { e with arrived := true } else e) ∧
      s'.cx.ld = c.ld - (c.pend.filter (fun e => now e && e.load)).length ∧
      s'.cx.sync = c.sync - (c.pend.filter (fun e => now e && !e.load)).length ∧
      s'.cx.a = c.a ∧ s'.cx.pc = c.pc ∧ s'.cx.life = c.life ∧ s'.mem = s.mem ∧ (∀ p, s'.pad p = s.pad p)) ∧
    (∀ (e : Machine.Pend) st pc a, c.life = .ended st none pc → c.pend = [e] → e.fe = none → e.load = true → e.arrived = false →
      e.ready ≤ s.tick → e.lost = some a → s.launch? c.task.launch = none →
      ∃ s', Machine.exec .resultArrives s = .next s' ∧ s'.cx.life = .ended st (some .dataLost) pc ∧ s'.cx.ld = c.ld - 1) ∧
    (∀ (e : Machine.Pend) (w : Machine.FeWait) (k : Machine.Cell), c.life = .live → c.pend = [e] → e.fe = some w → w.need = true →
      w.cells = [k] → e.load = true → e.arrived = false → e.dst ≠ .none →
      let first := s.beaten { tile := s.cur / 2, at_ := w.at_, ctx := s.cur, seq := e.seq, take := w.clear, fill := false, cells := w.cells } = false
      (s.cellsFull w.cells = false ∨ ¬ first → ∃ s', Machine.exec .resultArrives s = .next s' ∧ s'.cx = c) ∧
      (s.cellsFull w.cells = true → first → e.ready ≤ s.tick → ∃ s' r, Machine.exec .resultArrives s = .next s' ∧ s'.cx.pend = [r] ∧
        r.val = (s.feValue w).1 ∧ r.arrived = true ∧ r.fe = none ∧ r.dst = e.dst ∧ r.pos = e.pos ∧ s'.cx.ld = c.ld - 1 ∧
        r.lost = (if s.cellsBad w.cells then some w.addr else none) ∧ (∀ p, (s'.pad p).mem = (s.pad p).mem) ∧
        (w.clear = true → ∀ i < k.n, (s'.pad k.pad).isFull (k.off + i) = false) ∧
        (w.clear = false → ∀ p, (s'.pad p).full = (s.pad p).full)))

/-- R293, R308 and log entry 24: a request kept behind an access that waits goes to the engine of its object, by which the requests
before it have gone, when no access before it waits any more; until then it is kept. -/
def KeptRequestsGo : Prop :=
  ∀ (s : Machine.State) (iss : Nat) (r : Machine.SyncReq), s.cx.shadow = none → s.cx.stq = [] → s.cx.life = .live →
    s.cx.syq = [(iss, r)] →
    let d := s.engineOf r.ptr
    ((∀ e ∈ s.cx.pend, e.fe = none) → d ≠ 2 → ∃ s', Machine.exec .resultArrives s = .next s' ∧ s'.cx.syq = [] ∧
      (s'.die d).queue = (s.die d).queue ++ [{ r with who := .ctx s.cur }] ∧ s'.mem = s.mem) ∧
    (∀ (e : Machine.Pend) (w : Machine.FeWait), s.cx.pend = [e] → e.fe = some w → e.arrived = false → w.need = true → w.iss < iss →
      s.cellsFull w.cells = false → ∃ s', Machine.exec .resultArrives s = .next s' ∧ s'.cx = s.cx ∧ ∀ d, s'.die d = s.die d)

/-- R122: a stall ends once its cycles have passed. -/
def YieldEnds : Prop :=
  ∀ (s : Machine.State),
    (s.cx.stall ≠ 0 → s.cx.stall ≤ s.tick → Machine.exec .yieldEnd s = .next (s.setCx { s.cx with stall := 0 })) ∧
    (s.tick < s.cx.stall → Machine.exec .yieldEnd s = .next s)

/-- R321: a full/empty access that has waited longer than the limit of FETMO ends: a load leaves its class and is taken as
a trap at a later bundle; a store's hold is taken as a trap of its bundle, which asks for no queue entry any more. A limit of 0 is
none, and the waits of a context that is being saved do not end. -/
def FullEmptyTimeouts : Prop :=
  ∀ (s : Machine.State), s.cx.shadow = none → s.cx.life = .live →
    let c := s.cx
    let limit := (c.cr 0x50).toNat % 2 ^ 32
    let saved := (s.tile (s.cur / 2)).saves.any (fun v => v.ctx == s.cur)
    (limit = 0 ∨ saved = true → Machine.exec .feTimeout s = .next s) ∧
    (∀ (e : Machine.Pend) (w : Machine.FeWait), limit ≠ 0 → saved = false → c.feh = [] → c.pend = [e] → e.fe = some w →
      w.need = true → e.arrived = false →
      (limit < w.tick → Machine.exec .feTimeout s = .next (s.setCx { c with
        pend := [], ld := c.ld - 1
        deferred := c.deferred ++ [{ cause := .feTimeout, whole := true, defer := true, addr := w.addr }] })) ∧
      (w.tick ≤ limit → Machine.exec .feTimeout s = .next (s.setCx c))) ∧
    (∀ h : Machine.FeHold, limit ≠ 0 → saved = false → c.pend = [] → c.feh = [h] → c.hold = .none → c.pwr = .none →
      (limit < h.tick → Machine.exec .feTimeout s =
        .next (Machine.takeTrap { cause := .feTimeout, slot := h.slot, addr := h.addr } (s.setCx c.unaskAll))) ∧
      (h.tick ≤ limit → Machine.exec .feTimeout s = .next (s.setCx c)))

/-- R382: entry into a handler of a live step whose handler is enabled and not running. The trap's cause, the resumed
bundle and its address are saved, the issue index, the records and the pending results of the program are kept for the
return, and the handler begins at TRVEC with empty records and index 0. A load that is due and has not arrived is waited
for: it stays with the handler, to be delivered before its first bundle. -/
def TrapEntry : Prop :=
  ∀ (s : Machine.State) (t : TrapInfo), t.cause.handleable = true → t.fatal = false →
    (s.cx.cr 0x80).getLsbD 0 = true → s.cx.shadow = none → s.cx.life = .live → s.cx.hold = .none → s.cx.pwr = .none →
    let c := s.cx
    let entered := fun (s' : Machine.State) => s'.mem = s.mem ∧
      s'.cx.pc = c.cr 0x80 &&& 0xFFFFFFFFFFFFFFFC ∧ s'.cx.cr 0x83 = c.pc ∧ s'.cx.cr 0x84 = t.addr ∧
      s'.cx.cr 0x82 = BitVec.ofNat 64 (t.cause.code * 2 ^ 56 + t.sub % 256 * 2 ^ 48 + c.k % 64 * 2 ^ 42 +
        (if t.whole then 0 else t.slot % 4) * 2 ^ 40 + (if t.soft then 2 ^ 39 else 0) + (if t.defer then 2 ^ 38 else 0) +
        (if t.whole then 2 ^ 37 else 0) + t.arg % 4096) ∧
      s'.cx.inh = true ∧ s'.cx.k = 0 ∧ s'.cx.recA.op = .anop ∧ s'.cx.recV.op = .vnop ∧ s'.cx.recM.op = .mnop ∧
      s'.cx.hpos = 0 ∧ s'.cx.ctime = c.ctime ∧ s.tick + 9 ≤ s'.cx.stall ∧
      ∃ h, s'.cx.shadow = some h ∧ h.recA = c.recA ∧ h.recV = c.recV ∧ h.recM = c.recM ∧ h.k = c.k ∧ h.ctime = c.ctime ∧
        h.pend = c.pend.filter (fun e => decide (c.ctime < e.pos))
    ((∀ e ∈ c.pend, e.arrived = true ∧ e.lost = none ∧ e.trapped = none) →
      ∃ s', Machine.exec (.trapEntry t) s = .next s' ∧ s'.cx.pend = [] ∧ entered s') ∧
    (∀ e, c.pend = [e] → e.pos ≤ c.ctime → e.arrived = false → e.lost = none → e.trapped = none →
      ∃ s', Machine.exec (.trapEntry t) s = .next s' ∧ s'.cx.pend = [{ e with pos := 0, tag := 1 }] ∧ entered s')

/-- R169, R383: a trap of a step whose handler is not enabled, or runs, or whose cause no handler takes, ends the step with
that cause and cancels its launch; what was pending delivers nothing. -/
def UnhandledTrapEndsStep : Prop :=
  ∀ (s : Machine.State) (t : TrapInfo), s.cx.life = .live → s.cx.hold = .none → s.cx.pwr = .none →
    (t.cause.handleable = false ∨ t.fatal = true ∨ (s.cx.cr 0x80).getLsbD 0 = false ∨ s.cx.shadow.isSome = true) →
    ∃ s', Machine.exec (.trapEntry t) s = .next s' ∧ s'.mem = s.mem ∧ s'.cx.life = .ended 0 (some t.cause) s.cx.pc ∧
      s'.cx.a = s.cx.a ∧ s'.cx.v = s.cx.v ∧ s'.cx.shadow = none ∧
      (∀ e ∈ s'.cx.pend, e.dst = .none ∧ e.flags = 0) ∧
      (∀ l, s.cur < 512 → s.launch? s.cx.task.launch = some l →
        ∃ l', s'.launch? s.cx.task.launch = some l' ∧ l'.cancel = true)

/-- R385: ERET gives back the program's records, context time and pending results, delivers every result of the handler,
clears TRCTL.INH and MOVED, and goes on at TRPC 9 cycles later. The issue index comes back too, unless TRPC was written or
the trap was a software one, where it is 0; ERET.SKIP then skips nothing. Outside a handler ERET traps, and so does a
written TRPC that is not a multiple of 4. -/
def TrapReturn : Prop :=
  ∀ (s : Machine.State) (f : BEr), s.cx.buf = {} → s.cx.guardB f.gp f.gn = true →
    let c := s.cx
    let moved := (c.cr 0x81).getLsbD 1
    let soft := (c.cr 0x82).getLsbD 39
    let odd := (c.cr 0x83).toNat % 4 ≠ 0
    (c.shadow = none → Machine.exec (.eret f) s = .next (Machine.takeTrap { cause := .illegalOp, slot := 3 } s)) ∧
    (∀ h, c.shadow = some h →
      (moved = true → odd → Machine.exec (.eret f) s = .next (Machine.takeTrap { cause := .illegalBundle, whole := true } s)) ∧
      (moved = false ∨ ¬ odd → (∀ e ∈ c.pend, e.arrived = true ∧ e.lost = none ∧ e.trapped = none) →
        ∃ s', Machine.exec (.eret f) s = .next s' ∧ s'.mem = s.mem ∧ s'.cx.pc = c.cr 0x83 ∧ s'.cx.recA = h.recA ∧
          s'.cx.recV = h.recV ∧ s'.cx.recM = h.recM ∧ s'.cx.k = (if moved || soft then 0 else h.k) ∧ s'.cx.ctime = h.ctime ∧
          s'.cx.pend = h.pend ∧ s'.cx.inh = false ∧ (s'.cx.cr 0x81).getLsbD 1 = false ∧
          s'.cx.a = (c.pend.foldl (fun c e => c.applyPend e) c).a ∧ s.tick + 9 ≤ s'.cx.stall ∧
          s'.cx.skip = (f.skip == 1 && !(moved || soft))))

/-- R387, R390: a write of ones to SFPEND clears those bits and the records of those sources, and lets a faulted command at
the head of such a handle, or a faulted load of an image or a table (source 16), be tried again. Of sources 17, 18 and 19 it only
clears: a faulted PUBLISH stays outstanding (log entry 49, the model's reading of R217 and R452). -/
def FaultRecordsClear : Prop :=
  ∀ (s : Machine.State) (v : W64), v.toNat < 2 ^ 21 →
    let T := s.tile (s.cur / 2)
    let again := fun (l : Machine.CfgLoad) => if l.ctx = s.cur then { l with faulted := false, retry := l.faulted } else l
    ∃ s', Machine.exec (.sfpendWrite v) s = .next s' ∧ s'.mem = s.mem ∧
      s'.cx.cr 0x90 = s.cx.cr 0x90 &&& ~~~v ∧
      s'.cx.sfrec = s.cx.sfrec.filter (fun r => !v.getLsbD r.1) ∧
      (∀ h, v.getLsbD h = false → s'.cx.handle h = s.cx.handle h) ∧
      (∀ h k rest, v.getLsbD h = true → (s.cx.handle h).cmds = k :: rest →
        (s'.cx.handle h).cmds = { k with faulted := false, retry := k.faulted } :: rest) ∧
      (v.getLsbD 16 = true → (s'.tile (s.cur / 2)).tloads = T.tloads.map again ∧ (s'.tile (s.cur / 2)).arr.loads = T.arr.loads.map again) ∧
      s'.pubs = s.pubs ∧ s'.cx.str = s.cx.str

/-! ### Steps -/

/-- R24, R42, R156, R157, R159: a free context takes the step at the head of its tile's dispatch lane, if the child lane and
the resume list are empty: its PC is the entry, its arguments stand in a1 onwards, and every other register is zero. -/
def StepEntersContext : Prop :=
  ∀ (s : Machine.State) (k : Machine.Task) (rest : List Machine.Task) (l : Machine.Launch) (s1 : Machine.State) (prof off len : Nat),
    s.cur < 512 → s.frozen = false → s.pctl ≠ 3 → s.ctxFree s.cur = true →
    let t := s.cur / 2
    let T := s.tile t
    T.freeze ≤ s.tick → T.resume = [] → T.child = [] → T.disp = k :: rest → k.parked = none → k.child = false → s.launch? k.launch = some l →
    s.readHeader s.cur l.asid l.gen l.code k.entry = (some (.ok (prof, off, len)), s1) →
    ∃ c, Machine.exec .stepEntry s = .next ((s1.setTile t { s1.tile t with disp := (s1.tile t).disp.drop 1 }).setCtx s.cur c) ∧ c.life = .live ∧ c.pc = k.entry ∧ c.task = k ∧
      c.asid = l.asid ∧ c.gen = l.gen ∧ c.code = l.code ∧ c.textOff = off ∧ c.textLen = len ∧ c.entryErr = none ∧
      (∀ i, i < k.args.length → c.a.read (i + 1) = (k.args[i]?).getD 0) ∧ c.v = [] ∧ c.m = [] ∧ c.p = [] ∧ c.vm = [] ∧
      c.lc = [] ∧ c.pend = [] ∧ c.ctime = 0 ∧ c.k = 0 ∧ c.jcnt = 0 ∧ c.binds = [] ∧ c.cr 1 = BitVec.ofNat 64 prof ∧
      c.cr 0x50 = 0x100000

/-- R166, R168: an ended step without faulted commands whose counts are all zero retires: its context is free, its private
allocation is released, and its launch counts it, as faulted when it ended with a cause. -/
def StepRetires : Prop :=
  ∀ (s : Machine.State) (l : Machine.Launch) (st : Nat) (cause : Option Cause) (pc : W64),
    let x := s.cur
    let c := s.cx
    x < 512 → s.saving x = false → s.frozen = false → c.life = .ended st cause pc → s.anyFaulted x = false →
    c.ld = 0 → c.st = 0 → c.str = 0 → c.arr = 0 → c.sync = 0 → c.jcnt = 0 → c.task.child = false →
    s.launch? c.task.launch = some l →
    ∃ s' l', Machine.exec .stepRetire s = .next s' ∧ s'.launch? c.task.launch = some l' ∧ s'.mem = s.mem ∧
      l'.retired = l.retired + 1 ∧ l'.nfault = l.nfault + (if cause.isSome then 1 else 0) ∧
      l'.live = l.live - 1 ∧ l'.cancel = l.cancel ∧ (s'.ctx x).life = .free ∧ (s'.ctx x).pend = [] ∧
      (s'.tile (x / 2)).allocs = (s.tile (x / 2)).allocs.filter (fun a => decide (a.owner ≠ c.task.sid))

/-- R166: an ended step with a class that is not zero stays. -/
def StepStaysWhileCounted : Prop :=
  ∀ (s : Machine.State), s.anyFaulted s.cur = false → s.cx.quiet = false → Machine.exec .stepRetire s = .next s

/-- R165, R421 to R424: a step that waits in JOIN beside a running one, with children that wait for a context, parks; a
step of lower priority than the head of the dispatch lane is pre-empted. Each takes the lowest free save slot, and its
save begins; where the array is used by both contexts, the other's begins too. -/
def SavesBegin : Prop :=
  ∀ (s : Machine.State) (slot : Nat),
    let x := s.cur
    let t := x / 2
    let y := if x % 2 = 0 then x + 1 else x - 1
    let begun := fun (r : Answer) (park : Bool) => ∃ s', r = .next s' ∧ s'.slots = Machine.NatSet.add slot s.slots ∧
      (s'.tile t).saves = (s.tile t).saves ++ [{ ctx := x, slot := slot, start := s.tick, quiet := s.tick, park := park
                                                 array := s.usesArray x }] ∧ s'.mem = s.mem
    x < 512 → s.frozen = false → s.pctl ≠ 3 → s.unsavable x = false → s.freeSlot [] = some slot →
    (s.usesArray x = false ∨ s.usesArray y = false) → s.exitNext x = false →
    ((s.ctx y).life ≠ .free → (s.tile t).child ≠ [] → s.joining x = true → begun (Machine.exec .stepPark s) true) ∧
    (s.savedHolder x = none → s.autoRequest x = true → begun (Machine.exec .preemptSave s) false)

/-- R423, R430: the drain of a save ends after 16 cycles in which the array did nothing, at once for a save without it (log entry 50,
the model's reading); a save that passes its deadline is marked late. -/
def SaveStages : Prop :=
  ∀ (s : Machine.State) (v : Machine.Save), s.saveOf s.cur = some v →
    let t := s.cur / 2
    let T := s.tile t
    let limit := (T.crs.read 0xC1).toNat % 2 ^ 32 + 65536 * v.ext
    let changed := fun (g : Machine.Save → Machine.Save) =>
      (.next (s.setTile t { T with saves := T.saves.map (fun w => if w.ctx = s.cur then g w else w) }) : Answer)
    (v.stage = 0 → s.frozen = false → T.freeze ≤ s.tick →
      ((v.array = false ∧ v.mate = none) ∨ v.quiet + 16 ≤ s.tick → Machine.exec .saveDrainQuiet s = changed (fun w => { w with stage := 1 })) ∧
      (v.array = true → s.tick < v.quiet + 16 → Machine.exec .saveDrainQuiet s = .next s)) ∧
    (v.late = false → v.start + limit < s.tick → Machine.exec .saveDeadlineExpire s = changed (fun w => { w with late := true })) ∧
    (s.tick ≤ v.start + limit → Machine.exec .saveDeadlineExpire s = .next s)

/-- R11, R321, R423, R425, R426, R427: a drained save of one context whose accesses are complete is written out: its bytes fill its
slot, its context is free, and a resume entry names the slot, which keeps the step, the counts of its full/empty waits and the
requests kept behind them. How the model keeps it is log entry 21, the model's choice. -/
def SaveCompletes : Prop :=
  ∀ (s : Machine.State) (v : Machine.Save), s.cur < 512 → s.saveOf s.cur = some v → v.ctx = s.cur → v.mate = none → v.stage = 1 →
    s.settled s.cur = true → s.landing = none → s.frozen = false → s.pctl = 0 →
    let t := s.cur / 2
    let T := s.tile t
    let c := s.cx
    T.freeze ≤ s.tick →
    ∃ s' e, Machine.exec .saveComplete s = .next s' ∧ (s'.ctx s.cur).life = .free ∧
      (s'.tile t).resume = T.resume ++ [e] ∧ e.slot = v.slot ∧ e.parked = v.park ∧
      (s'.tile t).saves = T.saves.filter (fun w => decide (w.ctx ≠ s.cur)) ∧
      (let d := s'.ctx (2 ^ 32 + v.slot)
       d.life = c.life ∧ d.pc = c.pc ∧ d.a = c.a ∧ d.v = c.v ∧ d.m = c.m ∧ d.p = c.p ∧ d.vm = c.vm ∧ d.lc = c.lc ∧ d.k = c.k ∧
         d.recA = c.recA ∧ d.recV = c.recV ∧ d.recM = c.recM ∧ d.ctime = c.ctime ∧ d.stq = c.stq ∧
         d.pend = c.pend ∧ d.syq = c.syq ∧ d.feh = c.feh.map (fun h => { h with hit := false, sole := false }) ∧
         ((∀ h ∈ c.handles, 0 ∉ h.2.asks ∧ ∀ k ∈ h.2.cmds, k.op ≠ 0x25 ∧ k.sent = none) → d.handles = c.handles)) ∧
      s'.mem = (s.mem.clear (s.slotPa v.slot) 0xC0000).writeCells (s.slotPa v.slot)
        (({ s with free := s.free + 1 } : Machine.State).slotBytes v (s.pstat v) s.free)

/-- R400, R427, R431, R433: a resume entry that has taken a context and needs neither its mate nor the array is refilled: the step
goes on in that context with the register files and control registers that its slot holds, event, fault and ownership bits that were set
meanwhile among them, STEPLIN as its resume entry keeps it, and in all else as it was saved (log entry 21, the model's choice); the
entry is gone and its slot is free. -/
def StepRestored : Prop :=
  ∀ (s s1 : Machine.State) (r : Machine.Resume), s.cur < 512 →
    let t := s.cur / 2
    let T := s.tile t
    let d := s.ctx (2 ^ 32 + r.slot)
    let keep : Machine.SlotKeep := Machine.mapGet {} s.slotKeep r.slot
    T.resume.find? (fun q => q.restoring == some s.cur) = some r → r.mate = none → keep.arr = none →
    T.allocs.any (fun a => a.owner == d.task.sid) = false → s.frozen = false →
    T.freeze ≤ s.tick → s.landing = none → Machine.refillPrivate s.cur r.slot s = some s1 →
    let slot := s.slotPa r.slot
    let saved := fun (off n : Nat) => s1.mem.readLE (slot + off) n
    ∃ s' c, Machine.exec .stepRestore s = .next s' ∧ s'.cx = c ∧ c.life = d.life ∧ c.pc = d.pc ∧
      (∀ i, i < 512 → c.rv i = BitVec.ofNat 512 (saved (0x1000 + 64 * i) 64)) ∧
      (∀ i : BitVec 6, i ≠ 0 → c.ra i = BitVec.ofNat 64 (saved (0x9000 + 8 * i.toNat) 8)) ∧
      (∀ i, i < 32 → c.rm i = BitVec.ofNat 64 (saved (0x9200 + 8 * i) 8)) ∧
      (∀ i, i < 4 → c.rlc i = BitVec.ofNat 32 (saved (0x9308 + 4 * i) 4)) ∧
      (∀ i, 1 ≤ i → i < 16 → c.rvm i = BitVec.ofNat 64 (saved (0x9320 + 8 * i) 8) ∧ c.rp i = (saved 0x9300 2).testBit i) ∧
      (∀ n ∈ [0x01, 0x02, 0x03, 0x04, 0x05, 0x08, 0x0F, 0x12, 0x19, 0x1B, 0x1C, 0x34, 0x35, 0x50, 0x53, 0x80, 0x82, 0x83, 0x84,
        0x85, 0x88, 0x91], c.cr n = BitVec.ofNat 64 (saved (0x9400 + 8 * n) 8)) ∧
      (∀ n ∈ [0x07, 0x52, 0x90], c.cr n = (BitVec.ofNat 64 (saved (0x9400 + 8 * n) 8) ||| d.crs.read n)) ∧
      c.cr 0x11 = d.crs.read 0x11 ∧ c.cr 0xC0 = BitVec.ofNat 64 (saved 0x38 8) ∧
      c.k = d.k ∧ c.recA = d.recA ∧ c.recV = d.recV ∧ c.recM = d.recM ∧
      c.ctime = d.ctime ∧ c.pend = d.pend ∧ c.stall = s.tick + 1 ∧ s'.mem = s.mem ∧
      (s'.tile t).resume = T.resume.filter (fun q => decide (q.slot ≠ r.slot)) ∧ s'.slots = s.slots.del r.slot

/-! ### Queues and launches -/

/-- R150, R172: an ACTIVE queue with a record to read and nothing of it in the way reads the record: a launch begins and
RDIDX advances. A queue whose WRIDX is ahead by more than its ring halts with OVERRUN; one whose record cannot be read
halts with QUEUE_FAULT and the address, at the end of the cycle, so that a DESTROY of the same cycle wins (R173). Memory that a
landing keeps is waited for. -/
def QueueReads : Prop :=
  ∀ (s : Machine.State),
    let q := s.unit
    let Q := s.queue q
    let rd := s.qRd q
    let n := 2 ^ s.qLog2n q
    (s.qHeld q = true → Machine.exec .queueReaderCopy s = .next s) ∧
    (∀ va, Q.fault = some va → Machine.exec .queueReaderCopy s = .next s) ∧
    (∀ (E : Machine.Queue) va, s.queues = [(q, E)] → E.fault = some va → Machine.settleFaults s =
      Machine.haltQueue q Cause.queueFault.code (({ s with queues := [(q, { E with fault := none })] } : Machine.State).qSet q 0x28 va)) ∧
    (s.frozen = false → s.qHeld q = false → s.qState q = 1 → Q.wr ≠ rd → Q.fault = none →
    (rd + n < Q.wr → Machine.exec .queueReaderCopy s = .next (Machine.haltQueue q 0x40 s)) ∧
    (Q.wr ≤ rd + n → s.mayStart q false = false → Machine.exec .queueReaderCopy s = .next s) ∧
    (Q.wr ≤ rd + n → s.mayStart q false = true →
      (s.readRecord q = .wait → Machine.exec .queueReaderCopy s = .next s) ∧
      (∀ va, s.readRecord q = .fault va → Machine.exec .queueReaderCopy s =
        .next { s with queues := Machine.mapPut q { Q with fault := some va } s.queues }) ∧
      (∀ r, s.readRecord q = .ok r → s.mayStart q (bitOf (r.readLE 0xE 1) 2) = true →
        ∃ s' l, Machine.exec .queueReaderCopy s = .next s' ∧ s'.launches = Machine.mapPut s.launchNo l s.launches ∧
          s'.launchNo = s.launchNo + 1 ∧ s'.mem = (s.qSet q 0x10 (rd + 1)).mem ∧
          (s'.queue q).launches = Q.launches ++ [s.launchNo] ∧ l.q = q ∧ l.asid = s.qAsid q ∧ l.gen = s.qGen q ∧
          l.record = r ∧ l.compl = BitVec.ofNat 64 (r.readLE 0x28 8) ∧ l.crec = BitVec.ofNat 64 (r.readLE 0x30 8) ∧
          l.checked = false ∧ l.live = 0 ∧ l.next = 0)))

/-- R152: a record with a bad format is rejected with LAUNCH_FORMAT, one with bad extents with LAUNCH_EXTENT; else its steps
are the product of its extents. -/
def LaunchRecordChecks : Prop :=
  ∀ (s : Machine.State) (l : Machine.Launch), s.launch? s.unit = some l → s.frozen = false → s.qHeld l.q = false →
    let becomes := fun (l' : Machine.Launch) =>
      Machine.exec .launchRecordCheck s = .next { s with launches := Machine.mapPut s.unit l' s.launches }
    (l.checked = true → Machine.exec .launchRecordCheck s = .next s) ∧
    (l.checked = false →
      (s.formatBad l = true → becomes { l with checked := true, reject := some .launchFormat, total := 0 }) ∧
      (s.formatBad l = false → l.extentBad = true → becomes { l with checked := true, reject := some .launchExtent, total := 0 }) ∧
      (s.formatBad l = false → l.extentBad = false →
        becomes { l with checked := true, reject := none, total := ((List.range l.nlev).map l.ext).prod }))

/-- R174: when no quantum stands, the backlogged queue of the smallest pass is granted one of its oldest launch with steps to
place: QSIZE steps, or what is left, and its pass grows by 2^20 / TICKETS for each. Passes count modulo 2^48: they are
compared from any point `g` that none of them lies half way round from; and a queue that was started stays backlogged while it is
halted. Both are log entry 84, the model's reading. -/
def QuantumGrants : Prop :=
  ∀ (s : Machine.State) (q i : Nat) (l : Machine.Launch),
    let s1 := Machine.rebacklog s
    let k := min l.qsize l.undispatched
    let from_ := fun (g p : Nat) => (s1.qPass p + 2 ^ 48 - g % 2 ^ 48) % 2 ^ 48
    s.frozen = false → s.pctl ≠ 3 → s.qHeld 0 = false → s1.quantum = none → s1.nextQueue = some q → s1.current q = some i →
    s1.launch? i = some l →
    (l.checked = true → ∃ s', Machine.exec .quantumGrant s = .next s' ∧ s'.quantum = some (i, k) ∧ s'.queues = s1.queues ∧
      s'.launches = s1.launches ∧
      s'.mem = (s1.qSet q 0x30 ((s1.qPass q + 2 ^ 20 / max 1 (s1.qTickets q) * k) % 2 ^ 48)).mem) ∧
    (l.checked = false → Machine.exec .quantumGrant s = .next s1) ∧
    (∀ g, (∀ p Q, (p, Q) ∈ s1.queues → Q.active = true → from_ g p < 2 ^ 47) →
      ∀ p Q, (p, Q) ∈ s1.queues → Q.active = true → from_ g q ≤ from_ g p)

/-- R153 to R156, R259: the next step of the quantum is placed on its tile when the lane has room and its spaces are free: it
joins the dispatch lane with its arguments, and the launch and the quantum count it. -/
def StepsArePlaced : Prop :=
  ∀ (s s1 s2 : Machine.State) (i n : Nat) (l : Machine.Launch),
    let t := l.tileOf l.next
    let m := l.teamOf l.next
    let sid := s.stepNo + 1
    s.quantum = some (i, n) → s.launch? i = some l → n ≠ 0 → l.undispatched ≠ 0 → s.frozen = false → s.pctl ≠ 3 →
    (s.tile t).disp.length < 48 → (l.next % l.extOf [0] = 0 ∨ s.stepLive i (BitVec.ofNat 64 (l.next - 1)) = false) →
    ((∃ tm, Machine.mapGet? m l.teams = some tm) ∧ s1 = s ∨
      Machine.mapGet? m l.teams = none ∧ ∃ s0, Machine.allocTeam (t / 8) (Machine.teamOwner i m) l.cspad s = some s0 ∧
        s1 = s0.modLaunch i (fun l => { l with teams := Machine.mapPut m { cluster := t / 8, live := 0, left := l.teamSize } l.teams })) →
    Machine.allocTile t sid l.tspad s1 = some s2 →
    ∃ s' k l', Machine.exec .stepPlace s = .next s' ∧ s'.mem = s.mem ∧ s'.stepNo = sid ∧
      s'.quantum = (if n = 1 then none else some (i, n - 1)) ∧
      (s'.tile t).disp = (s.tile t).disp ++ [k] ∧ k.launch = i ∧ k.sid = sid ∧ k.lin = BitVec.ofNat 64 l.next ∧ k.team = m ∧
      k.entry = BitVec.ofNat 64 l.entry ∧ k.args = (List.range 15).map l.arg ∧ k.child = false ∧ k.parked = none ∧
      k.pri = l.pri ∧ k.cap = l.pri ∧
      s'.launch? i = some l' ∧ l'.next = l.next + 1 ∧ l'.live = l.live + 1 ∧ l'.total = l.total

/-- R166: a team without steps to come, with none alive and without a merge session of its own gives its allocation back. -/
def TeamsRelease : Prop :=
  ∀ (s : Machine.State) (l : Machine.Launch) (m : Machine.Team), s.launch? s.unit = some l → Machine.mapGet? s.sub l.teams = some m →
    let K := s.cluster m.cluster
    let owner := Machine.teamOwner s.unit s.sub
    (m.live = 0 → m.left = 0 → (K.mn.state = 0 ∨ K.mn.launch ≠ s.unit ∨ K.mn.team ≠ s.sub) → Machine.exec .teamRelease s =
      .next { s.setCluster m.cluster { K with allocs := K.allocs.filter (fun a => decide (a.owner ≠ owner)) } with
        launches := Machine.mapPut s.unit { l with teams := Machine.mapDel s.sub l.teams } s.launches }) ∧
    (m.live ≠ 0 ∨ m.left ≠ 0 → Machine.exec .teamRelease s = .next s)

/-- R167, R168: a checked launch without steps to place, steps alive or teams completes: its record is written where CREC
points, and it leaves its queue. -/
def LaunchCompletes : Prop :=
  ∀ (s : Machine.State) (l : Machine.Launch), s.launch? s.unit = some l → s.frozen = false → l.checked = true →
    l.undispatched = 0 → l.live = 0 → l.teams = [] →
    let place := s.xlateQ l.asid l.gen false l.crec.toNat true
    let held := place = .wait ∨ ∃ pa, place = .ok pa ∧ s.waits? pa = true
    (held → Machine.exec .launchComplete s = .next s) ∧
    (¬ held →
      ∃ s', Machine.exec .launchComplete s = .next s' ∧ s'.launches = Machine.mapDel s.unit s.launches ∧
        (s'.queue l.q).launches = (s.queue l.q).launches.filter (fun i => decide (i ≠ s.unit)) ∧
        (∀ pa, place = .ok pa → Machine.inPeer pa = false → s.linked pa = true →
          s'.mem = (s.writePa pa ((l.summary.flatMap (fun v => Machine.natToBytes v 8)).map some)).mem) ∧
        ((∀ pa, place = .ok pa → s.linked pa = false) → s'.mem = s.mem))

/-- R168: the completion record: VALID, FAULT, CANCELLED, EXIT and the steps retired, the first fault, the first nonzero exit
status, the faults and the steps cancelled; for a rejected launch VALID, REJECT and the cause. -/
def CompletionRecord : Prop :=
  ∀ (l : Machine.Launch),
    (∀ c, l.reject = some c → l.summary = [2 ^ 63 + 2 ^ 61, 0, c.code * 2 ^ 56, 0, 0, 0, 0, 0]) ∧
    (l.reject = none →
      let bit := fun (b : Bool) (n : Nat) => if b then 2 ^ n else 0
      let w0 := 2 ^ 63 + bit l.fault.isSome 62 + bit (decide (l.ncancel ≠ 0)) 60 + bit l.exitst.isSome 59 + l.retired % 2 ^ 41
      let ex := match l.exitst with | some x => x.2 | none => 0
      (l.fault = none → l.summary = [w0, 0, 0, 0, ex, l.nfault, l.ncancel, 0]) ∧
      (∀ lin cause tile pc, l.fault = some (lin, cause, tile, pc) →
        l.summary = [w0, lin.toNat, cause * 2 ^ 56 + tile * 2 ^ 48, pc.toNat, ex, l.nfault, l.ncancel, 0]))

/-- R301: no earlier host write waits. -/
def NoneBefore (s : Machine.State) : Prop := s.cur < 2 ^ 40 ∧ s.held = [] ∧ s.hostq = [] ∧ ∀ d ∈ s.agenda, d.cur < 2 ^ 40

/-- R454, R458, R301: a write of a window register: it waits while an earlier host write does, is refused with ECODE 3
before READY and with ECODE 1 while the register is busy, and else acts. One whose turn has come (its `cur` counts from
2^40) does what it would do with nothing before it. -/
def WindowRule (s : Machine.State) (op : Instr) (off : Nat) (busy : Bool) (acts : Machine.State) (r : Answer) : Prop :=
  (s.cur < 2 ^ 40 → ¬ NoneBefore s → r = .next { s with hostq := s.hostq ++ [{ op := op, cur := 2 ^ 40 + s.cur, unit := s.unit, sub := s.sub }] }) ∧
  (NoneBefore s → s.ready = false → r = .next (s.mwErr off 3)) ∧
  (NoneBefore s → s.ready = true → busy = true → r = .next (s.mwErr off 1)) ∧
  (NoneBefore s → s.ready = true → busy = false → r = .next acts) ∧
  (NoneBefore s → Machine.exec op { s with cur := 2 ^ 40 + s.cur } = r)

/-- R454: MWSTAT after a refused write: ERR, the code, and the register's offset, with PHASE as it was. -/
def WindowErrors : Prop :=
  ∀ (s : Machine.State) (off code : Nat), off < 2 ^ 32 → code < 2 ^ 8 →
    let v := (s.mwErr off code).win.read Machine.wMWSTAT
    v.getLsbD 0 = true ∧ v.toNat / 2 ^ 8 % 2 ^ 8 = code ∧ v.toNat / 2 ^ 16 % 2 ^ 32 = off ∧
      v.toNat / 2 ^ 61 = (s.win.read Machine.wMWSTAT).toNat / 2 ^ 61 ∧ (s.mwErr off code).mem = s.mem

/-- R171, R173: the QCMD commands on queue `unit`. A command waits, with QCMD busy, while a landing keeps the descriptor. DESTROY
wins over a fault of the same cycle. -/
def QueueCommands : Prop :=
  ∀ (s : Machine.State), s.unit < 1024 →
    let q := s.unit
    let busy := (s.win.read Machine.wQCMD).getLsbD 63
    let s0 := s.setQcmd q false
    let rule := fun (op : Instr) (cmd : Nat) (acts : Machine.State) => WindowRule s op Machine.wQCMD busy
      (if s.qHeld q then { s.setQcmd q true with qpend := some cmd } else acts) (Machine.exec op s)
    let leaves := (s0.qSetState q 3).setQcmd q true
    let destroyed := if (s.queue q).fault.isSome = true then leaves.modQueue q (fun Q => { Q with fault := none }) else leaves
    let bad := s0.qTickets q = 0 ∨ 1024 < s0.qTickets q ∨ 16 < s0.qLog2n q
    (s0.qState q = 0 ∨ s0.qState q = 4 →
      (bad → rule .qcmdEnable 1 (s0.qSetCause q 0x41)) ∧
      (¬ bad → rule .qcmdEnable 1 ((s0.qSetState q 1).modQueue q (fun Q =>
        { Q with wr := s0.qGet q 0x18, active := false, notes := [] })))) ∧
    (s0.qState q ≠ 0 → s0.qState q ≠ 4 → rule .qcmdEnable 1 s0) ∧
    rule .qcmdHalt 2 (if s0.qState q = 1 then s0.qSetState q 2 else s0) ∧
    rule .qcmdResume 3 (if s0.qState q = 2 then s0.qSetState q 1 else s0) ∧
    rule .qcmdDoorbell 5 (s0.modQueue q (fun Q => { Q with wr := s0.qGet q 0x18 })) ∧
    ((s.queue q).launches = [] → rule .qcmdDestroy 4 destroyed) ∧
    (∀ i l, (s.queue q).launches = [i] → s.launch? i = some l → l.checked = true →
      rule .qcmdDestroy 4 (Machine.cancelUnplaced i destroyed)) ∧
    (∀ cmd, WindowRule s (.qcmdInvalidCommand cmd) Machine.wQCMD busy (s.mwErr Machine.wQCMD 4) (Machine.exec (.qcmdInvalidCommand cmd) s))

/-- R173: QCMD.DESTROY ends when the last launch of its queue has gone: the queue is DESTROYED and QCMD is free. -/
def QueueDestroyed : Prop :=
  ∀ (s : Machine.State), let q := s.unit
    (s.qHeld q = false → s.qState q = 3 → (s.queue q).launches = [] →
      ((s.qSetState q 4).win.read Machine.wQCMD).toNat / 2 ^ 32 % 2 ^ 10 = q →
        Machine.exec .queueDestroyed s = .next ((s.qSetState q 4).setQcmd q false)) ∧
    (s.qHeld q = true ∨ s.qState q ≠ 3 ∨ (s.queue q).launches ≠ [] → Machine.exec .queueDestroyed s = .next s)

/-- R251, R293: the request of a LAUNCH whose record has been read: it is written behind the queue's last record, WRIDX advances, and
the request leaves the stream class; with the ring full it waits, and behind an access of an earlier bundle that waits (log entry
24, the model's reading). -/
def LaunchEnqueues : Prop :=
  ∀ (s : Machine.State) (r : Machine.OutReq) (b : List Byte), s.reqs[s.sub]? = some r → r.buf = some b → s.frozen = false →
    s.qHeld r.q = false → (∀ e ∈ s.reqs.take s.sub, e.q ≠ r.q) →
    (s.behind r.ctx r.iss = true → Machine.exec .launchEnqueue s = .next s) ∧ (s.behind r.ctx r.iss = false →
    let q := r.q
    let wr := s.qGet q 0x18
    let n := 2 ^ s.qLog2n q
    let va := (s.qGet q 0 + 256 * (wr % n)) % 2 ^ 64
    (s.qRd q + n ≤ wr → ∃ s', Machine.exec .launchEnqueue s = .next s' ∧ s'.reqs = s.reqs.set s.sub r ∧ s'.mem = s.mem) ∧
    (∀ pa, wr < s.qRd q + n → va < 2 ^ 56 → s.xlateQ (s.qAsid q) (s.qGen q) false va true = .ok pa → s.linked pa = true →
      Machine.inPeer pa = false → s.waits? pa = false →
      ∃ s', Machine.exec .launchEnqueue s = .next s' ∧ (s'.queue q).wr = wr + 1 ∧
        s'.mem = ((s.writePa pa (b.map some)).qSet q 0x18 (wr + 1)).mem ∧ s'.reqs = s.reqs.eraseIdx s.sub ∧
        (s'.ctx r.ctx).str = (s.ctx r.ctx).str - 1 ∧ (s'.ctx r.ctx).cr 0x90 = (s.ctx r.ctx).cr 0x90))

/-- R217, R293, R452: a PUBLISH writes its counter when its page is in host memory, and leaves the stream class; one elsewhere faults
with PARAM_RANGE at source 19, and stays in its class (log entry 49, the model's reading). It waits behind an access of an earlier
bundle that waits (log entry 24). -/
def PublishWrites : Prop :=
  ∀ (s s1 : Machine.State) (r : Machine.OutReq) (pa : Nat), s.pubs[s.sub]? = some r → r.faulted = false → s.engineOn r.ctx = true →
    (∀ e ∈ s.pubs.take s.sub, e.ctx ≠ r.ctx ∨ e.faulted = true) →
    s.xlate r.ctx (s.ctx r.ctx).asid (s.ctx r.ctx).gen false (r.ptr.toNat % 2 ^ 56) true = (.ok pa, s1) →
    (s.behind r.ctx r.iss = true → Machine.exec .publishCounterWrite s = .next s) ∧ (s.behind r.ctx r.iss = false →
    (Machine.inHost pa = true → ∃ s', Machine.exec .publishCounterWrite s = .next s' ∧
      s'.mem = (s1.writePa pa ((Machine.natToBytes r.val.toNat 8).map some)).mem ∧ s'.pubs = s1.pubs.eraseIdx s1.sub ∧
      (s'.ctx r.ctx).str = (s1.ctx r.ctx).str - 1 ∧ (s'.ctx r.ctx).sfrec = (s1.ctx r.ctx).sfrec) ∧
    (Machine.inHost pa = false → ∃ s', Machine.exec .publishCounterWrite s = .next s' ∧ s'.mem = s1.mem ∧
      s'.pubs = s1.pubs.set s1.sub { r with faulted := true } ∧ (s'.ctx r.ctx).str = (s1.ctx r.ctx).str ∧
      ((s'.ctx r.ctx).cr 0x90).getLsbD 19 = true))

/-! ### Events of the stream engine -/

/-- R215, R293: of the commands that stand at the heads of their handles and whose earlier accesses have been performed, the
oldest starts when fewer than 16 of its tile run; one that has come back from a save goes on in the same way. One that an access
before it waits for does not start, and holds no other back: when that gate lifts is log entry 24, the model's reading. -/
def StreamsStart : Prop :=
  ∀ (s : Machine.State) (k : Machine.Cmd) (rest : List Machine.Cmd),
    let x := s.cur
    let H := s.cx.handle s.sub
    let hs := s.heads (x / 2)
    let busy := (hs.filter (fun e => e.2.2.started && !e.2.2.idle)).length
    H.cmds = k :: rest → k.faulted = false → k.fin = false → s.engineOn x = true →
    (s.behind x k.iss = false → busy < 16 →
      (∀ e ∈ hs, e.2.2.started = false ∨ e.2.2.idle = true → e.2.2.faulted = false → e.2.2.fin = false →
        s.engineOn e.1 = true → s.behind e.1 e.2.2.iss = false → k.seq ≤ e.2.2.seq) →
      (k.started = false → k.op ≠ 0x24 → ∃ s', Machine.exec .streamStart s = .next s' ∧ s'.mem = s.mem ∧
        s'.cx.handle s.sub =
          { H with cmds := { k with started := true, posted := none } :: rest, op := k.op, done := 0, cancelled := false }) ∧
      (k.started = true → k.idle = true → ∃ s', Machine.exec .streamStart s = .next s' ∧ s'.mem = s.mem ∧
        s'.cx.handle s.sub = { H with cmds := { k with idle := false } :: rest })) ∧
    (16 ≤ busy ∨ s.behind x k.iss = true → Machine.exec .streamStart s = .next s)

/-- What a block leaves of the command at the head of a handle: the command as it goes on, waiting for nothing, DONE, and flags
joined to those of the handle. -/
def Moved (s t : Machine.State) (h : Nat) (k' : Machine.Cmd) (flags : Nat) : Prop :=
  let H := s.cx.handle h
  (t.cx.handle h).cmds = { k' with few := [], sent := none } :: H.cmds.drop 1 ∧ (t.cx.handle h).done = k'.k ∧ (t.cx.handle h).flags = H.flags ||| flags

/-- R224 to R227, R229, R232, R242: one block of a running command: SAFF makes one token of the elements it reads, with the
scale of a block of 128 that begins in it, SAFFW writes the elements of one token, SREC moves one token from an output port to an
input port, SFILL writes up to 64 elements; a command marked by SCANCEL ends. DONE of an SREC grows by the lanes of each token it
moves: log entry 35, the model's reading. -/
def ElementBlocks : Prop :=
  ∀ (s : Machine.State) (k : Machine.Cmd) (rest : List Machine.Cmd),
    let x := s.cur
    let t := x / 2
    let h := s.sub
    let w := Machine.pw k.ps 0
    let T := k.total.getD 0
    (s.cx.handle h).cmds = k :: rest → k.started = true → k.idle = false → k.faulted = false → k.fin = false →
    s.engineOn x = true → k.op ≠ 0x1C →
    (k.cancel = true → ∃ s', Machine.exec .elementBlockTransfer s = .next s' ∧ (s'.cx.handle h).cmds = rest ∧
      (s'.cx.handle h).cancelled = true ∧ s'.mem = s.mem) ∧
    (k.cancel = false → k.bars = [] → k.retry = false →
      (∀ s1 l sc, k.op = 0x05 → k.fn / 8 % 4 = 0 → k.total = some T → k.k < T →
        (let n := min (Machine.shLanes w) (T - k.k)
         let bw := s.baseWidth x k
         let scales := if Machine.shScal w = true then ((List.range n).filter (fun i => (k.k + i) % 128 == 0)).map (fun i =>
           (k.ps[4]?).getD 0 + BitVec.ofNat 64 ((k.k + i) / 128)) else []
         Machine.readElems x h k.fe k.zskip (Machine.shMty w) ((Machine.span k.k n).map (k.ptr bw)) scales
           (Machine.setHead x h k s) = (.ok (l, sc), s1) →
         s1.cur = x → (s1.cx.handle h).cmds = k :: rest → (Machine.setHead x h k s).canPut k t (!scales.isEmpty) = true →
         let cs := Machine.toCodes k (s1.srkey x) (Machine.shTty w) k.k l
         let tok := Machine.mkTok (Machine.shTty w)
           (cs.map (·.1) ++ List.replicate (Machine.shLanes w - n) (Machine.padCode (Machine.shTty w)))
           (decide (k.k + n = T) && k.endMode == 1)
         ∃ s', Machine.exec .elementBlockTransfer s = .next s' ∧
           (s'.arr t).inq k.port = (s1.arr t).inq k.port ++ [(s1.arr t).written s1.tick tok] ∧
           (s'.arr t).bandq k.port = (s1.arr t).bandq k.port ++
             (match sc with | b :: _ => [(s1.arr t).written s1.tick (Machine.mkTok tyW8 [b] false)] | [] => []) ∧
           Moved s1 s' h { k with k := k.k + n, fin := decide (k.k + n = T) && k.endMode != 2, at_ := s1.tick + 2 }
             (Machine.flagsOf cs) ∧ s'.mem = s1.mem)) ∧
      (∀ tok, k.op = 0x09 → k.zskip = false → k.j < T → s.canPut k t false = true →
        s.outTurn k t k.aux = true → (s.arr t).outHead k.aux = some tok →
        ∃ s', Machine.exec .elementBlockTransfer s = .next s' ∧ s'.mem = s.mem ∧
          (s'.arr t).outq k.aux = ((s.arr t).outq k.aux).drop 1 ∧
          (s'.arr t).inq k.port = (s.arr t).inq k.port ++ [(s.arr t).written s.tick
            { tok with last := tok.last || (decide (k.j + 1 = T) && k.endMode == 1) }] ∧
          Moved s s' h { k with
            j := k.j + 1, k := k.k + tok.n, fin := decide (k.j + 1 = T) && k.endMode != 2, at_ := s.tick + 2 } 0) ∧
      (∀ s1 u tok, k.op = 0x06 → k.total = some T → k.k < T → s.outTurn k t k.port = true → s.arrFrozen t = false →
        (s.arr t).outHead k.port = some tok →
        (tok.nul = true → ∃ s', Machine.exec .elementBlockTransfer s = .next s' ∧ s'.mem = s.mem ∧
          (s'.arr t).outq k.port = ((s.arr t).outq k.port).drop 1 ∧
          (s'.cx.handle h).cmds = { k with fin := tok.last, at_ := s.tick } :: rest) ∧
        (let n := min (Machine.shLanes w) (T - k.k)
         let ws := (List.range n).map (fun i => Machine.writeElem s x (Machine.shMty w) (Machine.shTty w)
           (k.base + BitVec.ofInt 64 (Machine.affOff k.ps (k.k + i))) (k.rnd (s.srkey x) (k.k + i))
           (Machine.lane (tyWidth (Machine.shTty w)) i tok.data))
         let scales := if Machine.shScal w = true ∧ Machine.poScaled ((s.arr t).port (16 + k.port)) = true then
           ((List.range n).filter (fun i => (k.k + i) % 128 == 0)).map (fun i =>
             ((k.ps[4]?).getD 0 + BitVec.ofNat 64 ((k.k + i) / 128), [BitVec.ofNat 8 tok.sc])) else []
         tok.nul = false → n ≠ 0 → Machine.writeBlock x h k.fe (ws.map (·.1) ++ scales) s = (.ok u, s1) → s1.cur = x →
         (s1.cx.handle h).cmds = k :: rest →
         ∃ s', Machine.exec .elementBlockTransfer s = .next s' ∧ s'.mem = s1.mem ∧
           (s'.arr t).outq k.port = ((s1.arr t).outq k.port).drop 1 ∧
           Moved s1 s' h { k with k := k.k + n, fin := tok.last || decide (k.k + n = T), at_ := s1.tick }
             (ws.foldl (fun a e => a ||| e.2) 0))) ∧
      (∀ s1 u, k.op = 0x0F → k.total = some T → k.k + 64 < T →
        (let bw := s.baseWidth x k
         let ws := (Machine.span k.k 64).map (fun e =>
           let p := (k.ptr bw e).getD 0
           let mf := s.mfAt x p (Machine.shMty w)
           let c := Machine.fillCode k mf (k.rnd (s.srkey x) e)
           ((p, Machine.natToBytes c.1 (Machine.tyBytes mf)), c.2))
         Machine.writeBlock x h k.fe (ws.map (·.1)) s = (.ok u, s1) → s1.cur = x → (s1.cx.handle h).cmds = k :: rest →
         ∃ s', Machine.exec .elementBlockTransfer s = .next s' ∧ s'.mem = s1.mem ∧ (∀ p, s'.pad p = s1.pad p) ∧
           Moved s1 s' h { k with k := k.k + 64, at_ := s1.tick } (ws.foldl (fun a e => a ||| e.2) 0))))

/-- R217, R244, R248, R368: a finished command arms its follow-on group once, then leaves its handle and its classes; one that
SCANCEL has marked arms nothing, and it or one that was refused leaves the handle cancelled; a GRECV and a drain of the merge
network set their EVPEND bits. -/
def StreamsComplete : Prop :=
  ∀ (s : Machine.State) (k : Machine.Cmd) (rest : List Machine.Cmd),
    let x := s.cur
    let H := s.cx.handle s.sub
    let a := s.arr (x / 2)
    H.cmds = k :: rest → k.fin = true → k.at_ ≤ s.tick → s.engineOn x = true →
    (k.follow = none → ∃ s', Machine.exec .streamComplete s = .next s' ∧ s'.mem = s.mem ∧ (s'.cx.handle s.sub).cmds = rest ∧
      (s'.cx.handle s.sub).cancelled = (k.refused || k.cancel) ∧ s'.cx.str = s.cx.str - (if k.op = 0x1A ∨ k.op = 0x1C then 0 else 1) ∧ s'.cx.arr = s.cx.arr ∧ s'.drawn = s.drawn - k.cost ∧
      (k.op = 0x24 → (s'.cx.cr 7).getLsbD 4 = true) ∧ (k.op = 0x1C → (s'.cx.cr 7).getLsbD 3 = true)) ∧
    (∀ g i, k.follow = some g → k.refused = false → k.cancel = false → a.current = some i →
      ((a.runq i g).length < 15 → ∃ s', Machine.exec .followOnArm s = .next s' ∧ s'.mem = s.mem ∧
        (s'.cx.handle s.sub).cmds = { k with follow := none } :: rest ∧
        (s'.arr (x / 2)).runq i g =
          a.runq i g ++ [{ ctx := x, op := k.op, ctime := k.ctime, pc := k.pc, after := s.tick }]) ∧
      (15 ≤ (a.runq i g).length → Machine.exec .followOnArm s = .next s) ∧ Machine.exec .streamComplete s = .next s) ∧
    (∀ g, k.follow = some g → k.cancel = true → Machine.exec .followOnArm s = .next s ∧
      ∃ s', Machine.exec .streamComplete s = .next s' ∧ s'.mem = s.mem ∧ (s'.cx.handle s.sub).cmds = rest ∧
        (s'.cx.handle s.sub).cancelled = true ∧ ∀ p, s'.arr p = s.arr p)

/-- R234, R447: a TEMIT whose channel names no other package puts its token into the channel of its destination tile when fewer
than 8 stand there and no earlier TEMIT of its tile to that channel waits, and ends. -/
def TokensAreEmitted : Prop :=
  ∀ (s : Machine.State) (k : Machine.Cmd) (rest : List Machine.Cmd),
    let x := s.cur
    let u := k.aux % 256
    let ch := k.aux / 256 % 16
    let q := (s.tile u).chan ch
    (s.cx.handle s.sub).cmds = k :: rest → k.op = 0x0C → k.started = true → k.idle = false → k.faulted = false → k.fin = false →
    k.cancel = false → s.engineOn x = true → s.peerOf (x / 2) ch = none →
    (q.length < 8 → x / 256 = u / 128 ∨ s.bridge = true → s.temitBehind (x / 2) k = false → ∃ s', Machine.exec .temitSend s = .next s' ∧ s'.mem = s.mem ∧
      (s'.tile u).chan ch = q ++ [k.val] ∧ (s'.cx.handle s.sub).cmds = { k with fin := true, at_ := s.tick } :: rest) ∧
    (8 ≤ q.length ∨ s.temitBehind (x / 2) k = true → Machine.exec .temitSend s = .next s)

/-- R193, R238: the token at the head of an output port that the active switch table gives one destination goes there, if that
port names this source and has room. One that begins a block at a SCALED port takes its scale to the side band there, unless
that port is used without one. -/
def CircuitsTransfer : Prop :=
  ∀ (s : Machine.State) (m : Machine.Mem) (u p : Nat) (tok : Machine.Tok),
    let t := s.unit
    let k := s.sub
    let scaled := ((s.arr t).blockOf k tok).1 && (s.arr u).keepsScale p
    (s.tile t).table = some m → Machine.swOutEntry m k = some [(u, p)] → (s.arr t).outHead k = some tok → u ≠ t →
    let ok := (match (s.tile u).table with | some n => Machine.swInEntry n p == some (t, k) | none => false) &&
      (s.arr u).inRoom p scaled && !s.arrFrozen u && (t / 128 == u / 128 || s.bridge)
    let item := fun (y : Machine.Tok) =>
      ({ ready := s.tick + Machine.circuitCycles t u, tok := some y, img := (s.arr u).tag } : Machine.EItem)
    (ok = true → s.arrFrozen t = false → ∃ s', Machine.exec .circuitTransfer s = .next s' ∧ s'.mem = s.mem ∧
      (s'.arr t).outq k = ((s.arr t).outq k).drop 1 ∧
      (s'.arr u).inq p = (s.arr u).inq p ++ [item tok] ∧
      (s'.arr u).bandq p = (s.arr u).bandq p ++ (if scaled then [item (Machine.mkTok tyW8 [tok.sc] false)] else [])) ∧
    (ok = false → Machine.exec .circuitTransfer s = .next s)

/-! ### Events of the merge network -/

/-- R336, R338, R339, R345: a feed whose first block has been read takes its lane if that is free; a sealed session without
feeds becomes READY with its output sequence; a session whose opening team is gone is aborted. That the sequence comes from all
runs in the one event in which the session becomes READY, and that a run which cannot be read faults it there, is log entry 44, the
model's reading. -/
def MergeEvents : Prop :=
  ∀ (s : Machine.State),
    (∀ k k1 rest bs s1,
      let x := s.cur
      let c := x / 2 / 8
      let m := (s.cluster c).mn
      let acc := Machine.feedAcc s x k 0 (min 64 (k.total.getD 0))
      (s.cx.handle s.sub).cmds = k :: rest → k.op = 0x1A → k.started = true → k.idle = false → k.arrived = false →
      k.faulted = false → k.cancel = false → k.retry = false → k.bars = [] → s.engineOn x = true → k.total ≠ some 0 →
      (∀ e ∈ s.tileCmds (x / 2), e.2.2.op = 0x1A → e.2.2.arrived = false → k.seq ≤ e.2.2.seq) →
      Machine.readBlock x s.sub false false (acc.1 ++ acc.2.map (fun e => (e.2, Machine.tyBytes e.1))) s = (.ok bs, s1) →
      ((s1.ctx x).handle s.sub).cmds = k1 :: rest → k1.port = k.port → (s1.cluster c).mn = m →
      m.state = 1 → m.asid = (s1.ctx x).asid → Machine.mapGet? k.port m.lanes = none → m.waits = [] →
      ∃ s', Machine.exec .mnFeedArrive s = .next s' ∧ s'.mem = s1.mem ∧
        (s'.cluster c).mn.lanes = Machine.mapPut k.port (x * 16 + s.sub) m.lanes ∧
        ((s'.ctx x).handle s.sub).cmds = { k1 with arrived := true } :: rest) ∧
    (let K := s.cluster s.unit
     let m := K.mn
     m.state = 2 → m.lanes = [] → m.waits = [] → m.pause ≤ s.tick →
      (∀ l, Machine.readRuns s m = .inl l → Machine.exec .mnReady s =
        .next (s.setCluster s.unit { K with mn := { m with state := 3, seq := Machine.mergeAll m l } })) ∧
      (Machine.readRuns s m = .inr none → Machine.exec .mnReady s = .next s) ∧
      (∀ code f, Machine.readRuns s m = .inr (some (code, f)) → ∃ s', Machine.exec .mnReady s = .next s' ∧
        (s'.cluster s.unit).mn.state = 5 ∧ (s'.cluster s.unit).mn.fcause = code ∧ s'.mem = s.mem)) ∧
    (let m := (s.cluster s.unit).mn
     let team : Option Machine.Team := (s.launch? m.launch).bind (fun l => Machine.mapGet? m.team l.teams)
     m.state ≠ 0 →
      ((∀ t, team = some t → t.live = 0 ∧ t.left = 0) → ∃ s', Machine.exec .mnAutoclose s = .next s' ∧
        (s'.cluster s.unit).mn.state = 0 ∧ (s'.cluster s.unit).mn.lanes = [] ∧ s'.mem = s.mem) ∧
      (∀ t, team = some t → t.live ≠ 0 ∨ t.left ≠ 0 → Machine.exec .mnAutoclose s = .next s))

/-- R340 to R343: a drain that is first in the network of a READY session writes the next entries of the output sequence, and
ends when it has written its limit or the sequence is done; the session is EMPTY then. A drain whose session MNCLOSE has ended has
no entry left to write: log entry 93, the model's reading; the sequence itself is log entry 44. -/
def MergeDrains : Prop :=
  ∀ (s : Machine.State) (k : Machine.Cmd) (rest : List Machine.Cmd) (done : Bool) (k' : Machine.Cmd) (m' : Machine.Merge)
    (ws : List (Nat × Machine.Wr)) (fl : Nat) (s2 : Machine.State),
    let x := s.cur
    let c := x / 2 / 8
    let id := x * 16 + s.sub
    let m := (s.cluster c).mn
    let s1 := Machine.setHead x s.sub k (s.modMn c (fun m => m))
    (s.cx.handle s.sub).cmds = k :: rest → k.op = 0x1C → k.started = true → k.idle = false → k.faulted = false → k.fin = false →
    k.cancel = false → k.retry = false → k.bars = [] → s.engineOn x = true → s2.cur = x → (s2.cx.handle s.sub).cmds = k :: rest →
    (k.ended = false → k.arrived = true → m.state = 3 → m.drains.head? = some id → m.pause ≤ s.tick →
      Machine.drainSteps s1 x 64 k m [] 0 = (done, k', m', ws, fl) →
      Machine.writeBlock x s.sub false (ws.map (·.2)) s1 = (.ok (), s2) →
      ∃ s', Machine.exec .mnDrainRun s = .next s' ∧ s'.mem = s2.mem ∧ (s'.cluster c).mn.seq = m'.seq ∧
        (s'.cluster c).mn.state = (if done && (m'.skim m'.seq).2.isEmpty then 4 else m'.state) ∧
        Moved s2 s' s.sub { k' with fin := done, at_ := s2.tick } fl) ∧
    (k.ended = true → Machine.drainSteps s x 64 k { m with seq := [] } [] 0 = (done, k', m', ws, fl) →
      Machine.writeBlock x s.sub false (ws.map (·.2)) s = (.ok (), s2) →
      ∃ s', Machine.exec .mnDrainRun s = .next s' ∧ s'.mem = s2.mem ∧ (s'.cluster c).mn = (s2.cluster c).mn ∧
        Moved s2 s' s.sub { k' with fin := done, at_ := s2.tick } fl)

/-! ### Events of the array -/

/-- R183, R184, R212, R393: a PE whose inputs hold what its operator needs, and whose outputs have room, fires: its firings
are counted, its next one waits for the operator's interval, and the flags of its results join the array's. The weight tokens at a
block-dot operator pass into its free bank first. A firing that would use a word with an uncorrectable error does not happen: the
run is lost, and it is reported at the firing that uses it (log entry 40, the model's reading); a run that AFLUSH ends fires on
with such words (log entry 75, the model's choice). -/
def OperatorsFire : Prop :=
  ∀ (s : Machine.State) (i : Nat) (f : Machine.Firing),
    let t := s.unit
    let p := s.sub
    let before := s.arr t
    let a := before.absorbW s.tick i p
    let x := a.pe p
    let m := (a.img i).raw
    let g := Machine.imgGroup m p
    let fires := Machine.fireOp s.tick p x (Machine.edKind (Machine.imgEdge m p 1) != 0) (a.heads s.tick i p)
    let lost := f.lost || x.bad || f.take.any (fun e => ((a.heads s.tick i p e.1).take e.2).any (·.bad))
    (before.pe p).img = some i → s.arrFrozen t = false → before.running s.tick i g = true →
    (∀ k ∈ [1, 2, 3], ∀ y ∈ before.heads s.tick i p k, y.nul = false) → (before.pe p).emit = [] → x.busy ≤ s.tick →
    (Machine.opOP (before.pe p).op ≠ Machine.oBDOT → Machine.opOP (before.pe p).op ≠ Machine.oBDOTA → a = before) ∧
    (fires = none → (a = before → Machine.exec .operatorFire s = .next s) ∧
      ∃ s', Machine.exec .operatorFire s = .next s' ∧ s'.mem = s.mem ∧ s'.arr t = a) ∧
    (fires = some f → (∀ o ∈ [0, 1], a.fits s.tick i p o (f.out.filter (fun e => e.1 == o)).length = true) →
      (lost = true → a.flushing i g = false → Machine.exec .operatorFire s = .next (Machine.loseRun t i p s)) ∧
      (lost = false ∨ a.flushing i g = true → ∃ s', Machine.exec .operatorFire s = .next s' ∧ s'.mem = s.mem ∧
        ((s'.arr t).pe p).fires = x.fires + 1 ∧
        ((s'.arr t).pe p).busy = s.tick + Machine.oInterval (Machine.opOP x.op)
          (match a.heads s.tick i p 0 with | y :: _ => y.n | [] => 1) ∧
        (s'.arr t).flags = a.flags ||| f.flags ∧ (∀ q, q ≠ p → (s'.arr t).pe q = a.pe q)))

/-- R180, R182, R185: the oldest token on its way to an output port is there; when it ends the run of its group the run leaves
the group and its class; the head of an input FIFO moves onto the edge it feeds. -/
def TokensArrive : Prop :=
  ∀ (s : Machine.State) (k : Nat) (e : Machine.EItem) (rest : List Machine.EItem), s.arrFrozen s.unit = false →
    let t := s.unit
    let a := s.arr t
    (s.sub = 512 + k → k < 32 → a.outq k = e :: rest → e.depth = 0 → e.ready ≤ s.tick →
      (∀ y, e.tok = some y → y.last = false → Machine.exec .tokenArrive s =
        .next (s.modArr t (fun a => { a with out := Machine.mapPut k ({ e with depth := 1 } :: rest) a.out }))) ∧
      (∀ y r l, e.tok = some y → y.last = true →
        (let g := Machine.poGroup (Machine.imgPort (a.img e.img).raw (16 + k))
         a.runq e.img g = r :: l → Machine.groupOuts (a.img e.img).raw g = [k] →
         ∃ s', Machine.exec .tokenArrive s = .next s' ∧ s'.mem = s.mem ∧ ((s'.arr t).runq e.img g).length = l.length ∧
           (s'.ctx r.ctx).arr = (s.ctx r.ctx).arr - 1))) ∧
    (∀ p j, s.sub = 544 + k → k < 32 → a.inq k = e :: rest → Machine.imgFed (a.img e.img).raw 2 k = some (p, j) →
      (a.pe p).img = some e.img → 0 < a.edgeFree s.tick e.img p j →
      ∃ s', Machine.exec .tokenArrive s = .next s' ∧ s'.mem = s.mem ∧ (s'.arr t).inq k = rest ∧
        ((s'.arr t).edge e.img p j).q = (a.edge e.img p j).q ++ [e])

/-- R186, R198, R249, R200: the next run of a group begins, once the accesses before an AFIRE that armed it have been performed
(log entry 24, the model's reading); a PE switches to the image in progress, and with the last one that image is active; the oldest
of the NULs that wait at a full port enters its FIFO; a depth marker at the head of its edge takes effect, and one that comes to the
head with that waits one cycle more. -/
def ArrayEvents : Prop :=
  ∀ (s : Machine.State),
    let t := s.unit
    let a := s.arr t
    (∀ r rest, Machine.mapGet? s.sub a.runs = some (r :: rest) → r.begun = none → s.arrFrozen t = false → r.after ≤ s.tick →
      a.act = some (s.sub / 16) ∨ a.target = some (s.sub / 16) →
      (s.behind r.ctx r.iss = true → Machine.exec .runStart s = .next s) ∧
      (s.behind r.ctx r.iss = false → ∃ s', Machine.exec .runStart s = .next s' ∧ s'.mem = s.mem ∧
        Machine.mapGet? s.sub (s'.arr t).runs = some ({ r with begun := some s.tick } :: rest))) ∧
    (∀ i, a.target = some i → s.arrFrozen t = false → (a.pe s.sub).img ≠ some i → s.sub < 64 → a.maySwitch s.tick s.sub = true →
      ∃ s', Machine.exec .peSwitch s = .next s' ∧ s'.mem = s.mem ∧ ((s'.arr t).pe s.sub).img = some i ∧
        ((s'.arr t).pe s.sub).op = Machine.imgOp (a.img i).raw s.sub ∧ (∀ q, q ≠ s.sub → (s'.arr t).pe q = a.pe q) ∧
        ((∀ q < 64, q ≠ s.sub → (a.pe q).img = some i) → (s'.arr t).act = some i ∧ (s'.arr t).target = none) ∧
        ((∃ q < 64, q ≠ s.sub ∧ (a.pe q).img ≠ some i) → (s'.arr t).act = a.act ∧ (s'.arr t).target = some i)) ∧
    (∀ e later, Machine.mapGet? s.sub a.nuls = some (e :: later) → s.arrFrozen t = false →
      let ahead := (a.inq s.sub).takeWhile (fun x => x.tok.isSome || x.img != e.img)
      (Machine.tokCount (a.inq s.sub) < 8 → Machine.exec .aflushNulEnter s = .next (s.modArr t (fun a =>
        { a with nuls := Machine.putItems a.nuls s.sub later
                 inp := Machine.mapPut s.sub (ahead ++ { e with ready := s.tick + 2 } :: (a.inq s.sub).drop ahead.length) a.inp }))) ∧
      (8 ≤ Machine.tokCount (a.inq s.sub) → Machine.exec .aflushNulEnter s = .next s)) ∧
    (let i := s.sub / 256
     let p := s.sub % 256 / 4
     let k := s.sub % 4
     ∀ e rest, (a.edge i p k).q = e :: rest → e.tok = none → e.depth ≠ 0 → e.ready < s.tick → s.arrFrozen t = false →
      Machine.exec .edgeDepthChange s =
        .next (s.modArr t (fun a => a.setEdge i p k { a.edge i p k with
          q := (match rest with | d :: l => (if d.tok = none then { d with ready := max d.ready s.tick } else d) :: l | [] => [])
          depth := e.depth })))

/-- R195, R237, R245: a configuration image that has been read lands in its slot, checked; a switch table becomes pending.
Either leaves the stream class of the context that asked, and waits for the accesses before its issue (log entry 24, the model's
reading). -/
def ImagesLand : Prop :=
  ∀ (s s1 : Machine.State) (l : Machine.CfgLoad) (b : List Byte),
    let t := s.unit
    let a := s.arr t
    l.faulted = false → l.retry = false → s.frozen = false → s.arrFrozen t = false →
    (∀ rest, s.sub = 2 → (s.tile t).tloads = l :: rest → s.behind l.ctx l.iss = true →
      Machine.exec .cfgImageLanded s = .next s) ∧
    (s.sub < 2 → a.loads.find? (fun l => l.slot == s.sub) = some l → s.behind l.ctx l.iss = true →
      Machine.exec .cfgImageLanded s = .next s) ∧
    (∀ rest, s.behind l.ctx l.iss = false → s.sub = 2 → (s.tile t).tloads = l :: rest → Machine.readDirect l.ctx l.at_ (Machine.blocks64 l.ptr 4) s = (.ok b, s1) →
      ∃ s', Machine.exec .cfgImageLanded s = .next s' ∧ s'.mem = s1.mem ∧ (s'.tile t).tloads = rest ∧
        (s'.tile t).pending = Machine.Mem.writeBytes [] 0 b ∧ (s'.ctx l.ctx).str = (s1.ctx l.ctx).str - 1) ∧
    (s.behind l.ctx l.iss = false → s.sub < 2 → a.loads.find? (fun l => l.slot == s.sub) = some l →
      Machine.readDirect l.ctx l.at_ (Machine.blocks64 l.ptr 32) s = (.ok b, s1) → s1.arr t = a →
      ∃ s', Machine.exec .cfgImageLanded s = .next s' ∧ s'.mem = s1.mem ∧ (s'.arr t).loads = a.loads.erase l ∧
        ((s'.arr t).img s.sub).raw = Machine.Mem.writeBytes [] 0 b ∧ ((s'.arr t).img s.sub).src = some l.ptr ∧
        ((∀ k ∈ a.loads.erase l, k.slot ≠ s.sub) →
          ((s'.arr t).img s.sub).inv = Machine.checkImage (Machine.Mem.writeBytes [] 0 b)) ∧
        (s'.ctx l.ctx).str = (s1.ctx l.ctx).str - 1)

/-! ### Sync engines -/

/-- R313, R316, R352: the value that an operation leaves in an object that held `o`, by its operand `v`. -/
def newValue (op : Machine.SyncOp) (o v : W64) : W64 :=
  match op with
  | .atom fn =>
    if fn = 0 then o + v else if fn = 1 then o &&& v else if fn = 2 then o ||| v else if fn = 3 then o ^^^ v
    else if fn = 4 then BitVec.ofNat 64 (min o.toNat v.toNat) else if fn = 5 then BitVec.ofNat 64 (max o.toNat v.toNat)
    else if fn = 6 then BitVec.ofInt 64 (min o.toInt v.toInt) else if fn = 7 then BitVec.ofInt 64 (max o.toInt v.toInt)
    else v
  | .cas e => if o = e then v else o
  | .relAdd => o + v
  | .relX => if o = v then 0 else o
  | .relSet => v
  | .signal => v
  | .wait _ => o
  | .read => o

/-- R306, R309, R313, R316: what performing a request that does not wait leaves, for an object without waiters: the new value,
other objects as they were, and the issuer answered: the host reads the old value; a context's request leaves the sync
class, or, where it returns a value, that value is at hand. -/
def Performed (s s' : Machine.State) (d : Nat) (r : Machine.SyncReq) (o : Machine.SyncObj) : Prop :=
  let key := r.asid * 2 ^ 64 + r.ptr.toNat
  let obj := fun (t : Machine.State) (k : Nat) => (Machine.mapGet {} (t.die d).objs k : Machine.SyncObj)
  s'.mem = s.mem ∧ (obj s' key).val = newValue r.op o.val r.v ∧ (obj s' key).waiters = [] ∧
  (∀ k, k ≠ key → obj s' k = obj s k) ∧
  (∀ n, r.who = .ctx n →
    (s'.ctx n).a = (s.ctx n).a ∧ (s'.ctx n).pc = (s.ctx n).pc ∧
    (r.ret = false → (s'.ctx n).sync = (s.ctx n).sync - 1 ∧ (s'.ctx n).pend = (s.ctx n).pend ∧
      (r.op = .relX → o.val ≠ r.v → (s'.ctx n).cr 0x52 = 1)) ∧
    (∀ e, r.ret = true → (s.ctx n).pend = [e] → e.tag = r.tag + 1 → e.arrived = false →
      (s'.ctx n).pend = [{ e with val := o.val.setWidth 512, tag := 1 }])) ∧
  (r.who = .host → s'.win.read 0x1228 = o.val ∧ (s'.win.read 0x1220).getLsbD 63 = false)

/-- R299, R306, R308, R317: an engine performs the first request of its queue that can go and has none on its object before it,
when the object has or finds an entry and no parked request on it stands before; one that needs an entry while both stores are full
is parked and raises SYNC_EXHAUST; one that needs the overflow area waits in a landing (R409). PARKED_SYNC_COMPLETE performs the
oldest parked request. A request to another package's object goes by a port that is up; what its owner's operations have left there,
and whether that package refuses it, are free values (log entries 61 and 66). -/
def SyncEnginePerforms : Prop :=
  ∀ (s : Machine.State) (r : Machine.SyncReq) (ahead rest : List Machine.SyncReq),
    let d := s.unit
    let D := s.die d
    let key := r.asid * 2 ^ 64 + r.ptr.toNat
    let o : Machine.SyncObj := Machine.mapGet {} D.objs key
    (∀ k, r.op ≠ .wait k) → o.waiters = [] →
    (d < 2 → D.pause ≤ s.tick → s.landing = none ∨ D.usesArea r = false → D.queue = ahead ++ r :: rest →
      (∀ q ∈ ahead, s.landing ≠ none ∧ D.usesArea q = true ∧ Machine.objKey q.asid q.ptr ≠ key) →
      (∀ q ∈ D.parked, Machine.objKey q.asid q.ptr ≠ key) →
      (D.sram.length < 65536 ∨ newValue r.op o.val r.v = 0 →
        ∃ s', Machine.exec .syncOperation s = .next s' ∧ (s'.die d).queue = ahead ++ rest ∧ Performed s s' d r o) ∧
      (newValue r.op o.val r.v ≠ 0 → 65536 ≤ D.sram.length → s.overCap d ≤ D.ovfl.length → key ∉ D.sram → key ∉ D.ovfl →
        key ∉ D.virt → Machine.exec .syncOperation s = .next (s.setDie d { D with
          queue := ahead ++ rest, parked := D.parked ++ [r], events := D.events ++ [(0x30, r.asid, r.ptr)] }))) ∧
    (d < 2 → s.landing ≠ none → (∀ q ∈ D.queue, D.usesArea q = true) → Machine.exec .syncOperation s = .next s) ∧
    (d = 2 → D.pause ≤ s.tick → D.queue = r :: rest → s.peerUp (r.ptr.toNat / 2 ^ 32 % 2 ^ 8) = true → D.parked = [] →
      ∃ s', Machine.exec .syncOperation s = .next s' ∧ (s'.die d).queue = rest ∧
        ((∃ v, Performed s s' d r { o with val := v }) ∨ (s'.mem = s.mem ∧ (s'.win.read 8).getLsbD 6 = true))) ∧
    (D.parked = r :: rest → ∃ s', Machine.exec .parkedSyncComplete s = .next s' ∧ (s'.die d).parked = rest ∧ Performed s s' d r o)

/-- R309, R312, R314, R320: a waiting request whose condition holds is granted at once with the object's value, and leaves the
sync class; an ACQUIRE.X then
leaves its holder's id there. One whose condition does not hold becomes the object's last waiter, and its context holds on. A value
that satisfies the one waiter of the object grants it. -/
def SyncEngineGrants : Prop :=
  ∀ (s : Machine.State) (r : Machine.SyncReq) (rest : List Machine.SyncReq) (n : Nat),
    let d := s.unit
    let D := s.die d
    let key := r.asid * 2 ^ 64 + r.ptr.toNat
    let o : Machine.SyncObj := Machine.mapGet {} D.objs key
    let obj := fun (t : Machine.State) => (Machine.mapGet {} (t.die d).objs key : Machine.SyncObj)
    d < 2 → D.pause ≤ s.tick → s.landing = none ∨ D.usesArea r = false → D.queue = r :: rest → D.parked = [] → D.sram.length < 65536 →
    (∀ k, r.who = .ctx n → r.op = .wait k → o.waiters = [] → k ≠ 5 → k < 8 →
      let holds := (k = 0 ∧ o.val = r.v) ∨ (k = 1 ∧ o.val ≠ r.v) ∨ (k = 2 ∧ r.v.toNat ≤ o.val.toNat) ∨ (k = 3 ∧ o.val.toNat < r.v.toNat) ∨
        (k = 4 ∧ o.val &&& r.v ≠ 0) ∨ (k = 6 ∧ r.v.toNat ≤ o.val.toNat) ∨ (k = 7 ∧ o.val = r.v)
      ((s.ctx n).hold = .wait r.ptr k r.v → holds →
        ∃ s', Machine.exec .syncOperation s = .next s' ∧ (s'.ctx n).hold = .granted o.val none ∧
          (s'.ctx n).sync = (s.ctx n).sync - 1 ∧ (obj s').val = o.val ∧
          (obj s').waiters = []) ∧
      (¬ holds → ∃ s', Machine.exec .syncOperation s = .next s' ∧ (s'.ctx n).hold = (s.ctx n).hold ∧ (obj s').val = o.val ∧
          ∃ w, (obj s').waiters = [w] ∧ w.who = .ctx n ∧ w.cond = k ∧ w.v = r.v)) ∧
    (r.who = .ctx n → r.op = .wait 5 → o.waiters = [] → o.val = 0 → (s.ctx n).hold = .wait r.ptr 5 r.v →
      ∃ s', Machine.exec .syncOperation s = .next s' ∧ (s'.ctx n).hold = .granted 0 (some r.ptr) ∧ (obj s').val = r.v ∧
        (obj s').waiters = []) ∧
    (∀ w, (∀ k, r.op ≠ .wait k) → r.who = .engine → o.waiters = [w] → w.who = .ctx n → w.cond = 0 → (s.ctx n).hold = .wait r.ptr 0 w.v →
      (newValue r.op o.val r.v = w.v → ∃ s', Machine.exec .syncOperation s = .next s' ∧ (s'.ctx n).hold = .granted w.v none ∧
        (obj s').val = w.v ∧ (obj s').waiters = []) ∧
      (newValue r.op o.val r.v ≠ w.v → ∃ s', Machine.exec .syncOperation s = .next s' ∧ (s'.ctx n).hold = (s.ctx n).hold ∧
        (obj s').val = newValue r.op o.val r.v ∧ (obj s').waiters = [w]))

/-- R309, R318, R446: a refused remote wait is sent again when its 1,024 cycles have passed, and LINKTO counts on; a request to a package without a port
up that has waited LINKTO ticks is lost: a wait ends its hold with DATA_LOST, it and a request without a result leave
the sync class, and INTSTAT.LINK is set. -/
def RemoteSyncEvents : Prop :=
  ∀ (s : Machine.State),
    (∀ t r k, s.cx.hold = .retry t r → r.op = .wait k →
      let d := s.engineOf r.ptr
      let D := s.die d
      let port := if d = 2 then s.portTo (r.ptr.toNat / 2 ^ 32 % 256) 1 (r.ptr.toNat / 8 % 2 ^ 29) else 12
      (t ≤ s.tick → Machine.exec .remoteWaiterRetry s = .next
        ((s.setDie d { D with queue := D.queue ++ [{ r with port := port }] }).setCx { s.cx with hold := .wait r.ptr k r.v })) ∧
      (s.tick < t → Machine.exec .remoteWaiterRetry s = .next s)) ∧
    (s.unit < 256 → (s.unit = s.pkgnum ∨ s.peerUp s.unit = true) → Machine.exec .linkLossTimeout s = .next s) ∧
    (∀ r n, s.unit < 256 → s.unit ≠ s.pkgnum → s.peerUp s.unit = false → (s.die 2).queue = [r] → (s.die 2).parked = [] →
      (s.die 2).objs = [] → r.who = .ctx n → r.ptr.toNat / 2 ^ 32 % 2 ^ 8 = s.unit →
      let limit := (s.win.read 0x1410).toNat
      (r.at_ + limit ≤ s.tick → ∃ s', Machine.exec .linkLossTimeout s = .next s' ∧ (s'.die 2).queue = [] ∧
        (s'.win.read 8).getLsbD 6 = true ∧ s'.mem = s.mem ∧
        (∀ k, r.op = .wait k → (s'.ctx n).hold = .failed .dataLost ∧ (s'.ctx n).sync = (s.ctx n).sync - 1) ∧
        (r.ret = false → (∀ k, r.op ≠ .wait k) → (s'.ctx n).sync = (s.ctx n).sync - 1 ∧ (s'.ctx n).hold = (s.ctx n).hold)) ∧
      (s.tick < r.at_ + limit → ∃ s', Machine.exec .linkLossTimeout s = .next s' ∧ (s'.die 2).queue = [r] ∧
        (s'.ctx n).hold = (s.ctx n).hold ∧ (s'.ctx n).sync = (s.ctx n).sync))

/-- R456: the host's operation on a sync object: BUSY is set beside the code, and the request, with the value register as its
operand, goes to the object's engine. A pointer that fails R309, and SYNCHOST_REFUSED, are refused with ECODE 2. -/
def HostSyncRequests : Prop :=
  ∀ (s : Machine.State),
    let busy := (s.win.read 0x1220).getLsbD 63
    let p := s.win.read 0x1218
    let rule := fun (op : Instr) (n : Nat) (k : Machine.SyncOp) =>
      (s.checkObj p ≠ none → WindowRule s op 0x1220 busy (s.mwErr 0x1220 2) (Machine.exec op s)) ∧
      (s.checkObj p = none →
        let s1 : Machine.State := { s with win := s.win.write 0x1220 (BitVec.ofNat 64 (2 ^ 63 + n)) }
        let d := s.engineOf p
        let port := if d = 2 then s1.portTo (p.toNat / 2 ^ 32 % 256) 1 (p.toNat / 8 % 2 ^ 29) else 12
        WindowRule s op 0x1220 busy (s1.setDie d { s.die d with queue := (s.die d).queue ++
          [{ who := .host, asid := (s.win.read 0x1210).toNat % 2 ^ 16, ptr := p, op := k, v := s.win.read 0x1228, at_ := s.tick, port := port }] })
          (Machine.exec op s))
    rule .synchostAdd 0 (.atom 0) ∧ rule .synchostAnd 1 (.atom 1) ∧ rule .synchostOr 2 (.atom 2) ∧ rule .synchostXor 3 (.atom 3) ∧
    rule .synchostMinu 4 (.atom 4) ∧ rule .synchostMaxu 5 (.atom 5) ∧ rule .synchostMini 6 (.atom 6) ∧
    rule .synchostMaxi 7 (.atom 7) ∧ rule .synchostSwap 8 (.atom 8) ∧ rule .synchostRead 16 .read ∧
    WindowRule s .synchostRefused 0x1220 busy (s.mwErr 0x1220 2) (Machine.exec .synchostRefused s)

/-! ### Gallery jobs and packets -/

/-- R350, R351: a GO write starts an idle core's job: with a good descriptor the core runs at ENTRY with the arguments in a1
onwards and nothing of an earlier job; with a bad one the job ends at once with LAUNCH_FORMAT. A GO write to a core that is
not idle is refused with ECODE 3, a write without GO does nothing, and one made in a landing waits for its end. -/
def GalleryJobsStart : Prop :=
  ∀ (s : Machine.State) (v : W64), s.unit < 64 →
    let g := s.unit
    let x := 512 + g
    let G := s.gal g
    let pa := v.toNat / 2 ^ 6 % 2 ^ 46 * 64
    let f := fun (off n : Nat) => s.mem.readLE (pa + off) n
    let run := Machine.exec (.jobStart v) s
    let compl : W64 := BitVec.ofNat 64 (f 0x10 8)
    let code : W64 := BitVec.ofNat 64 (f 0 8)
    let G1 : Machine.Gal := { tlb := G.tlb, walks := G.walks, cause := G.cause, pc := G.pc, freeze := G.freeze, state := 1, compl := compl }
    let bad := f 0x0F 1 ≠ 0 ∨ f 0x18 8 ≠ 0 ∨ f 0x98 40 ≠ 0 ∨ f 8 4 % 4 ≠ 0 ∨ 2 ^ 56 ≤ code.toNat ∨ code.toNat % 64 ≠ 0 ∨
      compl.toNat / 2 ^ 60 ≠ 12 ∨ compl.toNat / 2 ^ 40 % 2 ^ 20 ≠ 0 ∨ compl.toNat % 8 ≠ 0
    (s.landing ≠ none → s.cur < 2 ^ 40 → ∃ e : Machine.Due, run = .next { s with hostq := s.hostq ++ [e] } ∧ e.op = .jobStart v ∧ e.unit = g) ∧
    (s.landing = none → v.getLsbD 0 = false → WindowRule s (.jobStart v) (0x30000 + 64 * g) false s run) ∧
    (s.landing = none → v.getLsbD 0 = true → G.state ≠ 0 →
      WindowRule s (.jobStart v) (0x30000 + 64 * g) false (s.mwErr (0x30000 + 64 * g) 3) run) ∧
    (s.landing = none → NoneBefore s → s.ready = true → v.getLsbD 0 = true → G.state = 0 → (s.ctx x).life = .free →
      s.frozen = false → s.badPa = [] →
      (bad → ∃ s', run = .next s' ∧ s'.gal g = G1 ∧ (s'.ctx x).life = .ended 0 (some .launchFormat) 0) ∧
      (∀ s1 prof off len, ¬ bad →
        (s.setGal g G1).readHeader x (f 0xC 2) (f 0xE 1) code (BitVec.ofNat 64 (f 8 4)) = (some (.ok (prof, off, len)), s1) →
        ∃ c, run = .next (s1.setCtx x c) ∧ c.life = .live ∧ c.pc = BitVec.ofNat 64 (f 8 4) ∧ c.asid = f 0xC 2 ∧ c.gen = f 0xE 1 ∧
          c.code = code ∧ c.textOff = off ∧ c.textLen = len ∧
          (∀ i, i < 15 → c.a.read (i + 1) = BitVec.ofNat 64 (f (0x20 + 8 * i) 8)) ∧
          c.m = [] ∧ c.p = [] ∧ c.vm = [] ∧ c.lc = [] ∧ c.pend = [] ∧ c.ctime = 0))

/-- R352: an ended job is ENDING while a tag is BUSY or a class is not 0; then it signals its COMPL with its status, sets
INTSTAT.GALDONE and the core is IDLE. -/
def GalleryJobsEnd : Prop :=
  ∀ (s : Machine.State) (st : Nat) (cause : Option Cause) (pc : W64), s.unit < 64 →
    let g := s.unit
    let x := 512 + g
    let c := s.ctx x
    let G := s.gal g
    let busy := (∃ e ∈ G.tags, e.2.state = 1) ∨ c.ld ≠ 0 ∨ c.st ≠ 0 ∨ c.sync ≠ 0
    let G2 : Machine.Gal := { G with state := 2, cause := (cause.map Cause.code).getD G.cause, pc := if cause.isSome then pc else G.pc }
    c.life = .ended st cause pc → s.frozen = false → G.freeze ≤ s.tick →
    (busy → Machine.exec .jobComplete s = .next (s.setGal g G2)) ∧
    (¬ busy → ∃ s', Machine.exec .jobComplete s = .next s' ∧ s'.gal g = { G2 with state := 0 } ∧ s'.ctx x = {} ∧ s'.mem = s.mem ∧
      (s'.win.read 8).getLsbD 5 = true ∧
      let good := G.compl.toNat / 2 ^ 60 = 12 ∧ G.compl.toNat / 2 ^ 40 % 2 ^ 20 = 0 ∧ G.compl.toNat % 8 = 0
      (good →
        let d := s.engineOf G.compl
        let port := if d = 2 then s.portTo (G.compl.toNat / 2 ^ 32 % 256) 1 (G.compl.toNat / 8 % 2 ^ 29) else 12
        let v := 2 ^ 63 + (if cause.isSome then 2 ^ 62 else 0) + ((cause.map Cause.code).getD 0) * 2 ^ 54 + st % 512
        (s'.die d).queue = (s.die d).queue ++
          [{ who := .engine, asid := c.asid, ptr := G.compl, op := .signal, v := BitVec.ofNat 64 v, at_ := s.tick, port := port }]) ∧
      (¬ good → s'.dies = s.dies))

/-- R353, R354, R366, R367, R444, R445, R450, R451: a packet whose translation fails ends as XLATE with its address and subcode; one
that may go ahead is performed, a read into the gallery store and a write into memory, and its tag is DONE with status 0. None goes
to HBM in a landing, or in a riser (log entry 56, the model's reading of R367). A read of the pool ends as LOST where its link is
down; a write there is performed, or ends as LOST and sets INTSTAT.LINK. A packet to another package takes its ports and is under
way for a cycle; then it is performed there, or that package refuses it and its tag is DONE with status 4, which number is log entry
66, the model's choice. -/
def PacketsComplete : Prop :=
  ∀ (s s1 : Machine.State) (p : Machine.Packet),
    let g := s.unit
    let t := (s.gal g).tag s.sub
    t.pkt = some p → t.state = 1 → p.kind ≠ 2 → s.frozen = false → (s.gal g).freeze ≤ s.tick →
    (∀ sub, s.pktXlate g p = (.fail sub, s1) →
      ∃ s', Machine.exec .packetComplete s = .next s' ∧ s'.mem = s1.mem ∧ (s'.gal g).store = (s1.gal g).store ∧
        (s'.gal g).tag s.sub = { state := 2, status := 1, order := (s1.gal g).count, va := s.pktVa g p, sub := sub }) ∧
    (∀ pa, s.pktXlate g p = (.ok pa, s1) →
      let hbm := pa < 2 ^ 39
      let pool := 2 ^ 50 ≤ pa ∧ pa < 2 ^ 50 + 2 ^ 45
      let ends := fun (t : Machine.State) (status : Nat) (va : W64) =>
        (t.gal g).tag s.sub = { state := 2, status := status, order := (s1.gal g).count, va := va } ∧ (t.gal g).store = (s1.gal g).store
      let wrote := fun (t : Machine.State) => t.mem = s1.mem.writeMasked pa p.data
      (hbm ∧ (s1.landing ≠ none ∨ s1.inRiser = true) ∨ s1.pktBlocked g p pa = true → Machine.exec .packetComplete s = .next s1) ∧
      ((hbm → s1.landing = none ∧ s1.inRiser = false) → s1.pktBlocked g p pa = false → s1.badPa = [] → Machine.inPeer pa = false →
        (p.kind = 1 → ¬ pool → ∃ s', Machine.exec .packetComplete s = .next s' ∧ wrote s' ∧ ends s' 0 0) ∧
        (p.kind = 1 → pool → ∃ s', Machine.exec .packetComplete s = .next s' ∧
          (wrote s' ∧ ends s' 0 0 ∧ s1.poolUp = true ∨
            (wrote s' ∨ s'.mem = s1.mem) ∧ ends s' 2 p.addr ∧ (s'.win.read 8).getLsbD 6 = true)) ∧
        (p.kind = 0 → pool → s1.poolUp = false →
          ∃ s', Machine.exec .packetComplete s = .next s' ∧ s'.mem = s1.mem ∧ ends s' 2 p.addr) ∧
        (∀ b s2, p.kind = 0 → (pool → s1.poolUp = true) → Machine.readGranules (512 + g) pa p.addr (p.len / 32) s1 = (.ok b, s2) →
          ∃ s', Machine.exec .packetComplete s = .next s' ∧ s'.mem = s2.mem ∧
            (s'.gal g).store = ((s2.gal g).store.write p.off (b.map some)).1 ∧
            (s'.gal g).tag s.sub = { state := 2, status := 0, order := (s2.gal g).count })) ∧
      (s1.pktBlocked g p pa = false → s1.badPa = [] → Machine.inPeer pa = true →
        (p.sent = none → (∀ e ∈ s1.pktPorts p pa, e.2 < 12) → Machine.exec .packetComplete s = .next (s1.setGal g
          ((s1.gal g).setTag s.sub { (s1.gal g).tag s.sub with pkt := some { p with sent := some (s1.tick, s1.pktPorts p pa) } }))) ∧
        (∀ u l, p.sent = some (u, l) → s1.tick ≤ u → Machine.exec .packetComplete s = .next s1) ∧
        (∀ u l, p.sent = some (u, l) → u < s1.tick → p.kind = 1 → ∃ s', Machine.exec .packetComplete s = .next s' ∧
          (wrote s' ∧ ends s' 0 0 ∨ s'.mem = s1.mem ∧ ends s' 4 p.addr))))

/-- R363: a hand-off waits for a posting; one longer than the posting takes is refused, another takes it; and it is refused
when its posting is cut afterwards. -/
def HandoffsTake : Prop :=
  ∀ (s : Machine.State) (p : Machine.Packet),
    let g := s.unit
    let G := s.gal g
    let t := G.tag s.sub
    let run := Machine.exec .handoffTake s
    let posted := s.posting p.tile p.chan (s.ctx (512 + g)).asid
    let refused := (.next (s.setGal g (G.done s.sub 3)) : Answer)
    t.pkt = some p → t.state = 1 → p.kind = 2 → s.frozen = false → G.freeze ≤ s.tick →
    (p.taken = none → posted = none → run = .next s) ∧
    (∀ x h k, p.taken = none → posted = some (x, h, k) →
      (Machine.grMax k.ps < p.len → run = refused) ∧
      (p.len ≤ Machine.grMax k.ps → ∃ s', run = .next s' ∧ s'.mem = s.mem ∧
        (s'.gal g).tag s.sub = { t with pkt := some { p with taken := some (x * 16 + h) } } ∧
        ((s'.ctx x).handle h).cmds = { k with taker := some (g * 128 + s.sub) } :: ((s.ctx x).handle h).cmds.drop 1)) ∧
    (∀ n, p.taken = some n → (s.taker (g * 128 + s.sub) = true → run = .next s) ∧ (s.taker (g * 128 + s.sub) = false → run = refused))

/-! ### Maintenance -/

/-- R393 to R395, R420: a correctable error of a tile's scratchpad is logged, counted in TERRSTAT, schedules one self-test of the bank
and freezes the tile for 32 cycles from the next one; a second one of a bank within 2^27 ticks is lasting, and the tile's spare takes its
place (R396); one of HBM is logged and stops nothing; one of a TLB drops the entry. No
data changes, whatever the error strikes. -/
def CorrectableErrors : Prop :=
  ∀ (s : Machine.State) (u : ErrSite) (t off pa : Nat),
    (∃ s', Machine.exec (.correctableError u) s = .next s' ∧ s'.mem = s.mem ∧ s'.ctxs = s.ctxs ∧ s'.badPa = s.badPa ∧
      s'.log.length = s.log.length + 1 ∧ (∀ p, s'.pad p = s.pad p)) ∧
    (∃ s', Machine.exec (.correctableError (.tileWord t off)) s = .next s' ∧
      (s'.tile t).freeze = max (s.tile t).freeze (s.tick + 33) ∧
      ((s.tile t).freeze ≤ s.tick → (s'.tile t).frz = s.tick + 1) ∧
      (Machine.mapGet? (2 ^ 40 + t * 64 + off / 0x4000) s.errs = none →
        s'.tests = if s.tests.any (fun v => Machine.siteKey v == 2 ^ 40 + t * 64 + off / 0x4000) then s.tests else s.tests ++ [.tileWord t off]) ∧
      (∀ n w, Machine.mapGet? (2 ^ 40 + t * 64 + off / 0x4000) s.errs = some (n, w) → s.tick ≤ w + 2 ^ 27 → off < 0x40000 →
        (s.tile t).retired = [] → (s'.tile t).retired = [off / 0x4000]) ∧
      (let v := (s.tile t).crs.read 0x46
       (s'.tile t).crs.read 0x46 = if v.toNat / 2 ^ 32 = 2 ^ 32 - 1 then v else v + BitVec.ofNat 64 (2 ^ 32)) ∧
      (∀ k, k ≠ t → s'.tile k = s.tile k)) ∧
    (∃ s', Machine.exec (.correctableError (.hbm pa)) s = .next s' ∧ s'.tiles = s.tiles ∧ s'.gals = s.gals ∧ s'.dies = s.dies ∧
      s'.tests = s.tests) ∧
    (t < 256 → ∃ s', Machine.exec (.correctableError (.tlb t)) s = .next s' ∧
      (s'.tile t).tlb = (s.tile t).tlb.eraseIdx s.sub ∧ (s'.tile t).freeze = (s.tile t).freeze ∧
      (s.sub < (s.tile t).tlb.length → (s'.tile t).walks = (s.tile t).walks) ∧
      (∀ i, s.sub = (s.tile t).tlb.length + i → (s'.tile t).walks = (s.tile t).walks.eraseIdx i)) ∧
    (∃ s', Machine.exec (.correctableError (.tlb (256 + t))) s = .next s' ∧
      (s'.gal t).tlb = (s.gal t).tlb.eraseIdx s.sub ∧ (s'.gal t).freeze = (s.gal t).freeze ∧ s'.tiles = s.tiles)

/-- R393, R397, R399: an uncorrectable error is logged and marks what it strikes: a register, a word of a scratchpad or store,
a granule of memory, a half of an accumulator; the bytes stay. One of a step's control state or text is a trap of its next
bundle; one of a sync engine is fatal. Which words of a PE and of a V register an error names is log entry 86, and that pool poison
marks its granule is log entry 52: the model's choices. -/
def UncorrectableErrors : Prop :=
  ∀ (s : Machine.State),
    let run := fun (u : ErrSite) (f : Machine.State → Prop) =>
      ∃ s', Machine.exec (.uncorrectableError u) s = .next s' ∧ s'.log.length = s.log.length + 1 ∧ s'.mem = s.mem ∧ f s'
    (∀ c f n, run (.ctxReg c f n) (fun t => (f, n) ∈ (t.ctx c).badRegs ∧ (t.ctx c).a = (s.ctx c).a ∧ (t.ctx c).v = (s.ctx c).v)) ∧
    (∀ t off, run (.tileWord t off) (fun u => off / 8 ∈ (u.tile t).pad.bad ∧ (u.tile t).pad.mem = (s.tile t).pad.mem)) ∧
    (∀ k off, run (.clusterWord k off) (fun u => off / 8 ∈ (u.cluster k).pad.bad ∧ (u.cluster k).pad.mem = (s.cluster k).pad.mem)) ∧
    (∀ g off, run (.galleryWord g off) (fun u => off / 8 ∈ (u.gal g).store.bad)) ∧
    (∀ g i, run (.galleryPool g i) (fun u => i ∈ (u.gal g).poolBad)) ∧
    (∀ pa, (s.die 0).ovfl = [] → (s.die 1).ovfl = [] → run (.hbm pa) (fun u => pa / 32 ∈ u.badPa)) ∧
    (∀ t p, s.sub < 128 → run (.array t p) (fun u => s.sub ∈ ((u.arr t).pe p).accBad ∧ ((u.arr t).pe p).acc = ((s.arr t).pe p).acc)) ∧
    (∀ pa, run (.pool pa) (fun u => pa / 32 ∈ u.badPa ∧ (u.win.read 8).getLsbD 6 = true)) ∧
    (∀ c, (s.ctx c).life = .live → run (.ctxState c) (fun u =>
      (u.ctx c).entryErr = some { cause := .dataLost, whole := true, fatal := true } ∧ (u.ctx c).life = .live)) ∧
    (∀ c, (s.ctx c).life = .live → run (.fetch c) (fun u => (u.ctx c).entryErr.isSome = true ∧ (u.ctx c).life = .live)) ∧
    (∀ d, s.frozen = false → s.dumpOn = false → s.queues = [] → run (.syncSram d) (fun u => u.frozen = true))

/-- R386, R399: a fatal error freezes the package for good, halts every ACTIVE queue, writes the dump where DUMPBASE.V is 1, and
sets INTSTAT.FATAL. A queue that it halts keeps the halt cause that it has (log entry 55, the model's reading). -/
def FatalErrors : Prop :=
  ∀ (s : Machine.State) (kind d idx : Nat),
    (s.frozen = true → Machine.exec (.fatalError kind d idx) s = .next s) ∧
    (s.frozen = false → ∃ s', Machine.exec (.fatalError kind d idx) s = .next s' ∧ s'.frozen = true ∧
      (s'.win.read 8).getLsbD 0 = true ∧ s'.ctxs = s.ctxs ∧ s'.tiles = s.tiles ∧
      (s.dumpOn = false → s.queues = [] → s'.mem = s.mem)) ∧
    (∀ q Q, s.frozen = false → s.dumpOn = false → s.queues = [(q, Q)] → q < 1024 → s.qState q = 1 →
      ∃ s', Machine.exec (.fatalError kind d idx) s = .next s' ∧ s'.qState q = 2 ∧ s'.qGet q 0x20 / 256 % 256 = s.qGet q 0x20 / 256 % 256)

/-- R393, R394: freezes and pauses end when their cycles have passed. -/
def FreezesEnd : Prop :=
  ∀ (s : Machine.State), let u := s.unit
    (u < 256 →
      ((s.tile u).freeze ≤ s.tick → (s.tile u).freeze ≠ 0 →
        Machine.exec .freezeEnd s = .next (s.setTile u { s.tile u with freeze := 0 })) ∧
      (s.tick < (s.tile u).freeze → Machine.exec .freezeEnd s = .next s)) ∧
    (256 ≤ u → (s.gal (u - 256)).freeze ≤ s.tick → (s.gal (u - 256)).freeze ≠ 0 →
      Machine.exec .freezeEnd s = .next (s.setGal (u - 256) { s.gal (u - 256) with freeze := 0 })) ∧
    (u < 2 →
      ((s.die u).pause ≤ s.tick → (s.die u).pause ≠ 0 →
        Machine.exec .enginePauseEnd s = .next (s.setDie u { s.die u with pause := 0 })) ∧
      (s.tick < (s.die u).pause → Machine.exec .enginePauseEnd s = .next s)) ∧
    (2 ≤ u → (s.mn (u - 2)).pause ≤ s.tick → (s.mn (u - 2)).pause ≠ 0 →
      ∃ s', Machine.exec .enginePauseEnd s = .next s' ∧ s'.mn (u - 2) = { s.mn (u - 2) with pause := 0 } ∧ s'.mem = s.mem)

/-- R414 to R416: the request at the head of the arbiter's queue is granted when the budget holds its cost; the context that
asked gets EVPEND.PGRANT. -/
def PowerGrants : Prop :=
  ∀ (s : Machine.State) (w : Machine.PwrReq) (rest : List Machine.PwrReq), s.waits = w :: rest →
    let budget := (s.win.read 0x1400).toNat
    let cost := s.drawn + Machine.powerCost w.cls
    (budget < cost → Machine.exec .pgrantArrive s = .next s) ∧
    (cost ≤ budget → ∃ s', Machine.exec .pgrantArrive s = .next s' ∧ s'.waits = rest ∧ s'.drawn = cost ∧ s'.mem = s.mem ∧
      ((s'.ctx w.ctx).cr 7).getLsbD 2 = true ∧
      (w.implicit = true → (s'.ctx w.ctx).pwr = .power w.cls true ∧ s'.tiles = s.tiles) ∧
      (w.implicit = false → w.cls < 3 → s'.hasReserve w.tile w.cls = true ∧ (s'.ctx w.ctx).pwr = (s.ctx w.ctx).pwr))

/-! ### The management window -/

/-- R277: a TLBINV write starts a shootdown of its kind and sets BUSY; KIND 3 is refused. The shootdown drops every matching
entry of every TLB and walk cache, and BUSY clears. -/
def Shootdowns : Prop :=
  ∀ (s : Machine.State) (asid n : Nat), asid < 2 ^ 16 → n < 2 ^ 20 →
    let busy := s.shoot.isSome
    let page := (s.win.read 0x1110).toNat / 2 ^ 16 % 2 ^ 40
    let began := fun (k a m : Nat) => { s with shoot := some (k, a, page, m), win := s.win.write 0x1108 (BitVec.ofNat 64 (2 ^ 63)) }
    WindowRule s .tlbinvAll 0x1108 busy (began 0 0 0) (Machine.exec .tlbinvAll s) ∧
    WindowRule s (.tlbinvAsid asid) 0x1108 busy (began 1 asid 0) (Machine.exec (.tlbinvAsid asid) s) ∧
    WindowRule s (.tlbinvRange asid n) 0x1108 busy (began 2 asid n) (Machine.exec (.tlbinvRange asid n) s) ∧
    WindowRule s .tlbinvKind3 0x1108 busy (s.mwErr 0x1108 2) (Machine.exec .tlbinvKind3 s) ∧
    (s.shoot = none → Machine.exec .shootdownDone s = .next s) ∧
    (∀ k a p m, s.shoot = some (k, a, p, m) →
      let hit := fun (e : Machine.TlbEntry) => k = 0 ∨ e.asid = a ∧ (k = 1 ∨
        (e.va * 2 ^ e.bits < (p + m) * 2 ^ 16 ∧ p * 2 ^ 16 < (e.va + 1) * 2 ^ e.bits))
      let bits : Machine.WalkEntry → Nat := fun w => match w.up with | 0 => 56 | 1 => 48 | 2 => 39 | 3 => 30 | _ => 21
      let hitW := fun (w : Machine.WalkEntry) => k = 0 ∨ w.asid = a ∧ (k = 1 ∨
        (w.pre * 2 ^ bits w < (p + m) * 2 ^ 16 ∧ p * 2 ^ 16 < (w.pre + 1) * 2 ^ bits w))
      ∃ s', Machine.exec .shootdownDone s = .next s' ∧ s'.shoot = none ∧ (s'.win.read 0x1108).getLsbD 63 = false ∧
        s'.mem = s.mem ∧ s'.ctxs = s.ctxs ∧
        (∀ t, (s'.tile t).tlb = (s.tile t).tlb.filter (fun e => decide (¬ hit e)) ∧
          (s'.tile t).walks = (s.tile t).walks.filter (fun w => decide (¬ hitW w)) ∧ (s'.tile t).pad = (s.tile t).pad) ∧
        (∀ g, (s'.gal g).tlb = (s.gal g).tlb.filter (fun e => decide (¬ hit e)) ∧
          (s'.gal g).walks = (s.gal g).walks.filter (fun w => decide (¬ hitW w))))

/-- R318, R441, R446, R455: a link that goes down sets INTSTAT.LINK and stays down until it comes up, and the requests in flight on
it are lost: sync requests, stream blocks, tokens and packets, and the records of the waits that came by it are free; loss of the
die bridge is fatal. Whether a lost write has been performed is a free value (log entry 66, the model's choice). -/
def Links : Prop :=
  ∀ (s : Machine.State) (p i : Nat),
    let down := fun (l : LinkId) (f : Machine.State → Prop) =>
      ∃ s', Machine.exec (.linkDown l) s = .next s' ∧ (s'.win.read 8).getLsbD 6 = true ∧ f s'
    down (.ualink p) (fun t => t.down = Machine.NatSet.add p s.down ∧
      (s.down.has p = true ∨ s.cmdsOn p = [] ∧ s.packetsOn p = [] → t.mem = s.mem ∧ t.tiles = s.tiles)) ∧
    (∀ g j q pa, s.down.has p = false → s.cmdsOn p = [] → s.packetsOn p = [(g, j, q, pa)] →
      down (.ualink p) (fun t => (t.gal g).tag j = { state := 2, status := 2, order := (s.gal g).count, va := q.addr } ∧
        (t.mem = s.mem ∨ q.kind = 1 ∧ t.mem = s.mem.writeMasked pa q.data))) ∧
    (∀ x h k rest at_ ports, s.down.has p = false → s.cmdsOn p = [(x, h, k)] → s.packetsOn p = [] → (s.die 2).queue = [] →
      (s.die 2).parked = [] → (s.die 2).objs = [] → ((s.ctx x).handle h).cmds = k :: rest → k.op ≠ 0x0C → k.sent = some (at_, ports) →
      down (.ualink p) (fun t => t.mem = s.mem ∧ ((t.ctx x).handle h).cmds =
        { k with sent := some (at_, ports.map (fun b => (b.1, if b.2 = p then Machine.portLost else b.2))) } :: rest)) ∧
    (∀ key w, s.down.has p = false → (s.die 0).objs = [(key, { val := 1, waiters := [w] })] →
      down (.ualink p) (fun t => (t.die 0).objs = [(key, { val := 1, waiters := if w.port = p then [] else [w] })])) ∧
    (∀ r n, s.down.has p = false → (s.die 2).queue = [r] → (s.die 2).parked = [] → (s.die 2).objs = [] → r.who = .ctx n →
      r.ret = false → (∀ k, r.op ≠ .wait k) →
      (r.port = p → down (.ualink p) (fun t => (t.die 2).queue = [] ∧ (t.ctx n).sync = (s.ctx n).sync - 1)) ∧
      (r.port ≠ p → down (.ualink p) (fun t => (t.die 2).queue = [r] ∧ (t.ctx n).sync = (s.ctx n).sync))) ∧
    down (.bridgeLane i) (fun t => t.down = s.down ∧ t.bridge = s.bridge ∧ t.ctxs = s.ctxs ∧ t.mem = s.mem) ∧
    down .pool (fun t => t.poolUp = false ∧ t.ctxs = s.ctxs ∧ t.mem = s.mem) ∧
    (s.frozen = false → down .bridge (fun t => t.bridge = false ∧ t.frozen = true)) ∧
    Machine.exec (.linkUp (.ualink p)) s = .next { s with down := s.down.del p } ∧
    Machine.exec (.linkUp (.bridgeLane i)) s = .next s ∧
    Machine.exec (.linkUp .bridge) s = .next { s with bridge := true } ∧
    Machine.exec (.linkUp .pool) s = .next { s with poolUp := true }

/-- R301, R443, R445, R447, R450: a host write inside the 64 GiB that BAR2 shows is performed in memory in its order, or held in
a landing; one beyond the physical space has no address. A peer's write is performed only with a length and address that the
links carry, inside an EXPOSE window that takes it; a token waits for room in its channel queue. The model's choices here: bytes
beyond 2^52 have no address (log entry 65), a peer's read returns nothing that the model shows (66), the codes of a peer's sync
operation (61), and where the aperture's register stands (87). -/
def OutsideWrites : Prop :=
  ∀ (s : Machine.State),
    let base := (s.win.read Machine.wAPERTURE).toNat / 2 ^ 12 % 2 ^ 40 * 4096
    (∀ pa d, (2 ^ 52 < pa + d.length → Machine.exec (.hostWindowWrite pa d) s = .fault .noPhysicalAddress) ∧
      (pa + d.length ≤ 2 ^ 39 → pa < base ∨ base + 2 ^ 36 < pa + d.length → Machine.exec (.hostWindowWrite pa d) s = .next s) ∧
      (pa + d.length ≤ 2 ^ 39 → d ≠ [] → base ≤ pa → pa + d.length ≤ base + 2 ^ 36 →
        (s.landing = none → s.held = [] → s.badPa = [] → Machine.exec (.hostWindowWrite pa d) s =
          .next { s with mem := s.mem.writeMasked pa (d.map some) }) ∧
        (s.landing ≠ none ∨ s.held ≠ [] → Machine.exec (.hostWindowWrite pa d) s =
          .next { s with held := s.held ++ [{ pa := pa, write := true, data := d.map some }] }))) ∧
    (∀ pkg pa d,
      let fits := d.length ∈ [32, 64, 128, 256] ∧ pa % d.length = 0
      (s.exposed pkg pa d.length true = false ∨ ¬ fits → Machine.exec (.peerAccess (.write pkg pa d)) s = .next s) ∧
      (s.exposed pkg pa d.length true = true → fits → pa + d.length ≤ 2 ^ 39 → s.landing = none → s.held = [] → s.badPa = [] →
        Machine.exec (.peerAccess (.write pkg pa d)) s = .next { s with mem := s.mem.writeMasked pa (d.map some) })) ∧
    (∀ pkg pa n, Machine.exec (.peerAccess (.read pkg pa n)) s = .next s) ∧
    (∀ pkg party asid p op v cmp port, s.peerNamed pkg = false → Machine.exec (.peerAccess (.sync pkg party asid p op v cmp port)) s = .next s) ∧
    (∀ pkg party asid p op v cmp port, s.peerNamed pkg = true → s.checkObj p = none → p.toNat / 2 ^ 32 % 2 ^ 8 = s.pkgnum → op ≤ 8 →
      let d := s.engineOf p
      Machine.exec (.peerAccess (.sync pkg party asid p op v cmp port)) s = .next (s.setDie d { s.die d with queue := (s.die d).queue ++
        [{ who := .peer pkg party, asid := asid, ptr := p, op := .atom op, v := v, at_ := s.tick, port := port }] })) ∧
    (∀ t ch v, t < 256 → ch < 16 →
      let q := (s.tile t).chan ch
      (8 ≤ q.length → Machine.exec (.peerAccess (.token t ch v)) s = .next s) ∧
      (q.length < 8 → ∃ s', Machine.exec (.peerAccess (.token t ch v)) s = .next s' ∧ (s'.tile t).chan ch = q ++ [v] ∧
        s'.mem = s.mem ∧ (s'.tile t).pad = (s.tile t).pad))

/-- R408, R421, R434: PCTL: a command sets BUSY and begins the saves it asks for; one whose save cannot begin sets ERR and ends;
a save of the package waits while a landing keeps memory, and its image is kept with what its open parts hold (log entry 51, the
model's reading); another command is refused with ECODE 4. -/
def SaveCommands : Prop :=
  ∀ (s : Machine.State) (cmd : Nat), s.cur < 512 → NoneBefore s → s.ready = true → s.pctlBusy = false → s.pctlAsk = [] →
    let x := s.cur
    let s1 : Machine.State := { s with win := s.win.write 0x1310 (BitVec.ofNat 64 (2 ^ 63)), pctl := 1 }
    (∀ slot, s1.saveOf x = none → s1.exitNext x = false → s1.unsavable x = false → s1.freeSlot [] = some slot →
      s1.usesArray x = false → (s.ctx x).hold = .none → (s.ctx x).pwr = .none →
      ∃ s', Machine.exec .pctlContext s = .next s' ∧ (s'.win.read 0x1310).getLsbD 63 = true ∧ s'.pctl = 1 ∧ s'.mem = s.mem ∧
        s'.slots = Machine.NatSet.add slot s.slots ∧
        (s'.tile (x / 2)).saves = (s.tile (x / 2)).saves ++ [{ ctx := x, slot := slot, start := s.tick, quiet := s.tick, cmd := true }]) ∧
    (s1.saveOf x = none → s1.exitNext x = false → s1.freeSlot [] = none → s1.usesArray x = false → s.tiles = [] →
      Machine.exec .pctlContext s = .next { s with win := s1.win.write 0x1310 (BitVec.ofNat 64 (2 ^ 62)), pctl := 0 }) ∧
    ((∀ y ∈ s.residents, ∀ l, s.launch? (s.ctx y).task.launch = some l → l.q ≠ s.unit % 1024) → s.tiles = [] →
      ∃ s', Machine.exec .pctlQueue s = .next s' ∧ s'.win.read 0x1310 = 0 ∧ s'.pctl = 0 ∧ s'.ctxs = s.ctxs ∧ s'.mem = s.mem) ∧
    (s.landing ≠ none → Machine.exec .pctlPackageSave s = .next { s with win := s1.win, pctl := 4 }) ∧
    (s.residents = [] → s.queues = [] → s.tiles = [] → s.landing = none →
      ∃ s' key k, Machine.exec .pctlPackageSave s = .next s' ∧ s'.pctl = 0 ∧ (s'.win.read 0x1310).getLsbD 63 = false ∧
        s'.pkg = Machine.mapPut key k s.pkg ∧ k.pkgnum = s.pkgnum ∧ k.svn = s.trust.svn ∧ k.launches = s.launches ∧ k.clusters = s.clusters ∧
        k.img = s'.cut s.pkgImg 0x21900000 0 ∧ s'.ctxs = s.ctxs) ∧
    Machine.exec (.pctlInvalidCommand cmd) s = .next (s.mwErr 0x1310 4)

/-- R260, R456: OWNSET sets the owner of a tile or cluster and, with SETF, its floor; a new owner finds the shared area zero.
A floor that is no multiple of 1,024 is refused with ECODE 2; a change of owner while a step of the old one is placed, and a
change of floor while an allocation stands, with ECODE 3. -/
def OwnerChanges : Prop :=
  ∀ (s : Machine.State) (v : W64), s.unit < 256 →
    let t := s.unit
    let T := s.tile t
    let off := 0x10000 + 256 * t
    let word := T.crs.read 0x36
    let old := if word.getLsbD 16 then 2 ^ 16 else word.toNat % 2 ^ 16
    let new := if v.getLsbD 62 then 2 ^ 16 else v.toNat % 2 ^ 16
    let floor := if v.getLsbD 16 then v.toNat / 2 ^ 32 % 2 ^ 23 else T.floor
    let rule := fun (acts : Machine.State) => WindowRule s (.ownset v) off false acts (Machine.exec (.ownset v) s)
    v.getLsbD 63 = false →
    (floor % 1024 ≠ 0 ∨ 0x40000 ≤ floor → rule (s.mwErr off 2)) ∧
    (floor % 1024 = 0 → floor < 0x40000 →
      ((new ≠ old ∧ old ∈ s.placedAsids t ∨ floor ≠ T.floor ∧ T.allocs ≠ [] → rule (s.mwErr off 3)) ∧
       (¬ (new ≠ old ∧ old ∈ s.placedAsids t ∨ floor ≠ T.floor ∧ T.allocs ≠ []) →
        ∃ s', rule s' ∧ s'.mem = s.mem ∧ s'.ctxs = s.ctxs ∧
          (s'.tile t).crs.read 0x36 = BitVec.ofNat 64 (floor * 2 ^ 32 + (if new = 2 ^ 16 then 2 ^ 16 else new % 2 ^ 16)) ∧
          (new = old → (s'.tile t).pad = T.pad) ∧
          (new ≠ old → ∀ a, (s'.tile t).pad.mem.read a = if a < floor then 0 else T.pad.mem.read a))))

/-- R460 to R462: the mailbox: an extend of MREG3 to MREG7 is the SHA-256 of the register and the digest, other registers are refused
with ECODE 2; a quote is refused with ECODE 3 after 1,024 or where the leaf counter did not advance, and else signs the SHA-256 of
the nonce, MREG0 to MREG7, PKGNUM and the leaf index with the boot's tree of level 2; a commit raises the fused minimum to the
running version. The byte order of PKGNUM and the leaf index is log entry 9, the model's choice. -/
def MailboxCommands : Prop :=
  ∀ (s : Machine.State) (r : Nat) (d n : BitVec 256),
    let T := s.trust
    let M : BitVec 256 := Machine.mapGet 0 T.mreg r
    let bytes := Machine.digestBytes
    let content := bytes n ++ (List.range 8).flatMap (fun j => bytes (Machine.mapGet 0 T.mreg j)) ++ Machine.beBytes 1 s.pkgnum ++
      Machine.beBytes 4 (T.leaf % 2 ^ 20)
    (3 ≤ r → r ≤ 7 → WindowRule s (.mailboxExtend r d) 0x50000 false
      { s with trust := { T with mreg := Machine.mapPut r (Machine.sha256 (bytes M ++ bytes d)) T.mreg } }
      (Machine.exec (.mailboxExtend r d) s)) ∧
    (r < 3 ∨ 7 < r → WindowRule s (.mailboxExtend r d) 0x50000 false (s.mwErr 0x50000 2) (Machine.exec (.mailboxExtend r d) s)) ∧
    (T.signer = false ∨ 1024 ≤ T.quotes → WindowRule s (.mailboxQuote n) 0x50000 false (s.mwErr 0x50000 3)
      (Machine.exec (.mailboxQuote n) s)) ∧
    (T.signer = true → T.quotes < 1024 → WindowRule s (.mailboxQuote n) 0x50000 false
      { s with trust := { T with quotes := T.quotes + 1,
                                 out := Machine.hssSign (T.leaf % 2 ^ 20) T.quotes (bytes (Machine.sha256 content)) } }
      (Machine.exec (.mailboxQuote n) s)) ∧
    WindowRule s .mailboxCommit 0x50000 false { s with trust := { T with minSvn := max T.minSvn T.svn } } (Machine.exec .mailboxCommit s) ∧
    WindowRule s .mailboxExportKey 0x50000 false { s with trust := { T with out := Machine.identityKey } }
      (Machine.exec .mailboxExportKey s)

/-- R457, R458, R460, R461: a cold reset keeps the fuses alone, a warm reset memory too; PHASE is then ROM. Bring-up advances PHASE by
one (one phase for each BRINGUP is log entry 59, the model's reading): the ROM takes an image that an unrevoked hash of its key, its
LMS signature and the version allow, and else PHASE is FAILED with ECODE 6; a ROM that does not run and firmware that does not train
the stacks fail too. The ROM extends MREG0 with the SHA-256 of the image's header and body, the firmware MREG1 with its
configuration and MREG2 with each code object it loads, in that phase and in READY (log entry 60, the model's choice). -/
def ResetAndBringup : Prop :=
  ∀ (s : Machine.State) (img : FwImage),
    let phase := fun (t : Machine.State) => (t.win.read 0).toNat / 2 ^ 61
    let m : Machine.State → Nat → BitVec 256 := fun t r => Machine.mapGet 0 t.trust.mreg r
    let more := fun (x d : BitVec 256) => (Machine.sha256 (Machine.digestBytes x ++ Machine.digestBytes d) : BitVec 256)
    let digest : BitVec 256 := Machine.sha256 ((img.header ++ img.body).take img.len)
    (∃ s', Machine.exec .coldReset s = .next s' ∧ phase s' = 0 ∧ s'.ctxs = [] ∧ s'.tiles = [] ∧ s'.clusters = [] ∧ s'.gals = [] ∧
      s'.dies = [] ∧ s'.launches = [] ∧ s'.queues = [] ∧ s'.tick = 0 ∧ s'.trust.minSvn = s.trust.minSvn ∧ s'.trust.mreg = [] ∧
      (∀ a, s'.mem.read a = if a < 2 ^ 39 then 0 else s.mem.read a)) ∧
    (∃ s', Machine.exec .warmReset s = .next s' ∧ phase s' = 0 ∧ s'.mem = s.mem ∧ s'.tiles = [] ∧ s'.clusters = [] ∧ s'.gals = [] ∧
      s'.dies = [] ∧ s'.launches = [] ∧ s'.queues = [] ∧ s'.tick = 0 ∧ s'.trust.minSvn = s.trust.minSvn ∧ s'.trust.mreg = [] ∧
      (∀ n, n < 2 ^ 32 → s'.ctx n = {})) ∧
    (phase s = 0 → ∃ s', Machine.exec (.bringup img) s = .next s' ∧ phase s' = (if img.romRuns then 1 else 7) ∧ s'.mem = s.mem ∧
      (img.romRuns = true → s'.trust.signer = img.leafAdvanced)) ∧
    (phase s = 1 →
      let admitted := (∃ i < 4, i ∉ s.trust.revoked ∧ Config.fuseKey i = Machine.sha256 img.key) ∧
        Machine.lmsVerify 20 img.key (Machine.digestBytes digest) img.sig = true ∧ s.trust.minSvn ≤ img.svn ∧ img.svn ≤ 64
      (admitted → ∃ s', Machine.exec (.bringup img) s = .next s' ∧ phase s' = 2 ∧ s'.mem = s.mem ∧ s'.trust.svn = img.svn ∧
        s'.trust.minSvn = s.trust.minSvn ∧ m s' 0 = more (m s 0) digest ∧ ∀ r, r ≠ 0 → m s' r = m s r) ∧
      (¬ admitted → ∃ s', Machine.exec (.bringup img) s = .next s' ∧ phase s' = 7 ∧ (s'.win.read 0).toNat / 2 ^ 8 % 2 ^ 8 = 6 ∧
        s'.trust = s.trust)) ∧
    (phase s = 2 → ∃ s', Machine.exec (.bringup img) s = .next s' ∧ phase s' = (if img.trained then 3 else 7) ∧ s'.mem = s.mem ∧
      (img.trained = true → m s' 1 = more (m s 1) img.config ∧ m s' 2 = img.codes.foldl more (m s 2) ∧
        ∀ r, r ≠ 1 → r ≠ 2 → m s' r = m s r)) ∧
    (phase s = 3 → ∃ s', Machine.exec (.bringup img) s = .next s' ∧ phase s' = 3 ∧ s'.mem = s.mem ∧
      m s' 2 = img.codes.foldl more (m s 2) ∧ ∀ r, r ≠ 2 → m s' r = m s r) ∧
    (4 ≤ phase s → Machine.exec (.bringup img) s = .next s)

/-- R453, R454, R455: a write of a plain register changes its writable fields and clears its write-one-to-clear ones; here the
interrupt mask, INTSTAT, the bases and LINKTO. A write of the mask sends one message for each bit that it unmasks (log entry 82, the
model's reading). One of an RO field's register or of an unassigned or misaligned offset is refused with
ECODE 5 (the offset of the BAR2 aperture, which the spec does not give, apart: log entry 87). WRESET bit 0 is a warm reset in every phase. A write of TLBINV is the operation that its value names. -/
def RegisterWrites : Prop :=
  ∀ (s : Machine.State) (off : Nat) (v : W64),
    let run := Machine.exec (.mgmtRegWrite off v) s
    let rule := fun (acts : Machine.State) => WindowRule s (.mgmtRegWrite off v) off false acts run
    let sets := fun (x : W64) => ({ s with win := s.win.write off x } : Machine.State)
    let old := s.win.read off
    (off = 0x10 → ∃ m, rule { sets ((old &&& ~~~(0x7F : W64)) ||| (v &&& 0x7F)) with msix := m } ∧
      ∀ i < 7, Machine.mapGet 0 m i = Machine.mapGet 0 s.msix i +
        (if (s.win.read 8).getLsbD i && old.getLsbD i && !v.getLsbD i then 1 else 0)) ∧
    (off = 8 → rule (sets (old &&& ~~~(v &&& 0x7F)))) ∧
    (off = 0x1000 ∨ off = 0x1100 → rule (sets ((old &&& ~~~(0xFFFFFFFFFF000 : W64)) ||| (v &&& 0xFFFFFFFFFF000)))) ∧
    (off = 0x1410 → rule (sets v)) ∧
    (off % 8 ≠ 0 → off < 0x1000 → rule (s.mwErr off 5)) ∧
    (off = 0x30 ∨ off = 0x30008 → off ≠ Config.apertureOffset → rule (s.mwErr off 5)) ∧
    (off = 0x20 → NoneBefore s → v.getLsbD 0 = true → run = Machine.exec .warmReset s) ∧
    (off = 0x1108 → v.getLsbD 63 = false → v.toNat / 2 ^ 60 % 4 = 0 → run = Machine.exec .tlbinvAll { s with unit := 0, cur := 0 }) ∧
    (off = 0x1008 → v.getLsbD 63 = false → v.toNat % 16 = 1 →
      run = Machine.exec .qcmdEnable { s with unit := v.toNat / 2 ^ 32 % 1024, cur := 0 })

/-- R384, R408, R434, R459: the debugger resumes a halted context at its next bundle, and is refused with ECODE 3 where none is
halted; a resume of the package waits for the end of a landing, and is refused with ECODE 3 where no image stands at PKGIMG, the last
reset was not a warm one, or the image's package number or version does not fit; else its resume entries come back from the image,
and the lanes, owners and launches from the record of an image with those bytes. That record, and what stands for an image without
one, are log entry 51, the model's reading. -/
def ResumeCommands : Prop :=
  ∀ (s : Machine.State), s.cur < 512 →
    let c := s.cx
    let off := 0x1000000 + 0x10000 * s.cur
    (c.halted = true → WindowRule s .debugResume off false
      (s.setCx { c with halted := false, stall := max c.stall (s.tick + 1) }) (Machine.exec .debugResume s)) ∧
    (c.halted = false → WindowRule s .debugResume off false (s.mwErr off 3) (Machine.exec .debugResume s)) ∧
    let record := (s.pkg.find? (fun e => e.2.img == s.cut s.pkgImg 0x21900000 0)).map (·.2)
    let good := s.warm = true ∧ s.mem.readLE s.pkgImg 4 = 0x4556535A
    (s.landing ≠ none → Machine.exec .packageResume s =
      .next { s with hostq := s.hostq ++ [{ op := .packageResume, cur := 2 ^ 40 + s.cur, unit := s.unit, sub := s.sub }] }) ∧
    (s.landing = none →
      (¬ good ∨ (∃ p, record = some p ∧ (p.pkgnum ≠ s.pkgnum ∨ s.trust.svn < p.svn)) →
        WindowRule s .packageResume 0x28 false { s.mwErr 0x28 3 with free := s.free + 1 } (Machine.exec .packageResume s)) ∧
      (∀ p t T, good → record = some p → p.pkgnum = s.pkgnum → p.svn ≤ s.trust.svn → p.tiles = [(t, T)] → p.clusters = [] →
        p.rds = [] → s.imageSlots = [] →
        ∃ s', WindowRule s .packageResume 0x28 false s' (Machine.exec .packageResume s) ∧ s'.mem = s.mem ∧
          s'.launches = Machine.overlay p.launches s.launches ∧ s'.queues = Machine.overlay p.queues s.queues ∧
          (s'.tile t).disp = T.disp ++ (s.tile t).disp ∧ (s'.tile t).child = T.child ++ (s.tile t).child ∧
          (s'.tile t).resume = (s.tile t).resume ∧ (s'.tile t).allocs = T.allocs ++ (s.tile t).allocs ∧
          (s'.tile t).crs.read 0x36 = T.crs.read 0x36 ∧ (s'.tile t).pad = (s.tile t).pad) ∧
      (∀ i, good → record = none → s.imagePasses = true → s.imageSlots = [i] → (s.ctx (2 ^ 32 + i)).life ≠ .free →
        let entry := fun (k : Nat) => s.mem.readLE (s.pkgImg + 0x21900000 + 32 * i + 8 * k) 8
        let t := entry 1 / 2 ^ 48 % 2 ^ 8
        ∃ s' r, WindowRule s .packageResume 0x28 false s' (Machine.exec .packageResume s) ∧ s'.mem = s.mem ∧
          (s'.tile t).resume = (s.tile t).resume ++ [r] ∧ r.slot = i ∧
          (entry 2 % 2 ^ 16 ≠ 0xFFFF → r.mate = some (entry 2 % 2 ^ 16)) ∧
          (s'.ctx (2 ^ 32 + i)).cr 0x11 = BitVec.ofNat 64 (entry 0) ∧ (s'.ctx (2 ^ 32 + i)).jcnt = entry 1 % 2 ^ 16 ∧
          s'.slots = Machine.NatSet.add i s.slots))

/-! ### The issue of a bundle -/

/-- In state `s` the PC of the current context is in its text, aligned, and the line of text fetched for it holds the header
`h` there, with the words `ws` behind it up to the end of the line. -/
def TextAt (s : Machine.State) (h : W32) (ws : List W32) : Prop :=
  let c := s.cx
  let pc := c.pc
  pc.toNat % 4 = 0 ∧ pc.toNat < c.textLen ∧ headerOk h = true ∧ ws.length = 15 - pc.toNat % 64 / 4 ∧
    ∃ before : List (Option W32), before.length = pc.toNat % 64 / 4 ∧
      Machine.mapGet [] c.text (pc.toNat / 64) = before ++ (h :: ws).map some

/-- R31 to R34, R42, R52, R124, R385: where the word at PC is a header that keeps its line and the text, and what follows decodes,
the fetch finds that bundle in the line fetched before, whatever memory holds now. Where it does not decode, or the bundle
leaves its line or the text, the fetch finds the trap; ERET.SKIP consumes one that does not decode (log entry 92, the model's
choice). A line that has not been fetched is read from memory, through the translation of PC in the text of the step, when no
landing closes its memory. That a line of 64 bytes is read whole and kept until IFENCE is log entry 70, the model's choice. -/
def FetchReadsTheText : Prop :=
  (∀ (s : Machine.State) (h : W32) (ws : List W32), TextAt s h ws →
    let pc := s.cx.pc
    let found := fun (r : Machine.Fetched) => s.fetch = (r, s)
    let illegal : Machine.Fetched := .trap pc { cause := .illegalBundle, whole := true }
    let words := ws.take (bundleBytes h / 4 - 1)
    (64 < pc.toNat % 64 + bundleBytes h ∨ s.cx.textLen < pc.toNat + bundleBytes h → found illegal) ∧
    (pc.toNat % 64 + bundleBytes h ≤ 64 → pc.toNat + bundleBytes h ≤ s.cx.textLen →
      (∀ b, decodeBundle (Machine.isGal s.cur) h words = .ok b → found (.bundle pc b)) ∧
      (∀ e, s.cx.skip = true → decodeBundle (Machine.isGal s.cur) h words = .error e →
        ∃ b, found (.bundle pc b) ∧ b.bytes = bundleBytes h ∧ b.rep = h.toNat / 2 ^ 21 % 2 ^ 6) ∧
      (s.cx.skip = false → decodeBundle (Machine.isGal s.cur) h words = .error .illegalBundle → found illegal) ∧
      (∀ sl, s.cx.skip = false → decodeBundle (Machine.isGal s.cur) h words = .error (.illegalOp sl) →
        found (.trap pc { cause := .illegalOp, slot := match sl with | .a => 0 | .v => 1 | .m => 2 | .b => 3 })))) ∧
  (∀ (s s1 : Machine.State) (pa : Nat),
    let c := s.cx
    let pc := c.pc
    pc.toNat % 4 = 0 → pc.toNat < c.textLen → Machine.mapGet [] c.text (pc.toNat / 64) = [] →
    s.xlate s.cur c.asid c.gen false ((c.code.toNat + c.textOff + pc.toNat) % 2 ^ 56) false = (.ok pa, s1) →
    s1.badPa = [] → pa % 64 = pc.toNat % 64 → s1.cx = c →
    let read := (s.readText pc).2
    (s1.landing = none →
      s.fetch = read.fetch ∧ read.mem = s1.mem ∧
      ∀ i, i < 16 - pc.toNat % 64 / 4 →
        read.cx.textWord (pc + BitVec.ofNat 64 (4 * i)) = some (BitVec.ofNat 32 (s1.mem.readLE (pa + 4 * i) 4))) ∧
    (s1.landing ≠ none → Machine.inHbm pa = true → s.fetch = (.wait, s1)))

/-- In state `s` the next event is the issue of context `x`, which issues; `s1` is the state in which its bundle is fetched. -/
def IssueAt (s s1 : Machine.State) (x : Nat) (rest : List Machine.Due) : Prop :=
  let s0 : Machine.State := { s with agenda := rest, cur := x, unit := 0, sub := 0 }
  s.agenda = { op := .bundleIssue, cur := x } :: rest ∧ s0.canIssue x = true ∧ s1 = s0.setCx s0.cx.settle ∧
    s1.cx.entryErr = none ∧ s1.cx.dueHold = false ∧ s1.cx.lateTrap = none

/-- A context at whose PC the header `h` stands, with words that begin with `ws` behind it, on a core of kind `gal`, takes the
trap `t` when it issues. -/
def IssueTraps (gal : Bool) (h : W32) (ws : List W32) (t : TrapInfo) : Prop :=
  ∀ (s s1 : Machine.State) (x : Nat) (rest : List Machine.Due) (more : List W32),
    IssueAt s s1 x rest → s1.cx.skip = false → TextAt s1 h (ws ++ more) → Machine.isGal x = gal →
    s1.cx.pc.toNat % 64 + bundleBytes h ≤ 64 → s1.cx.pc.toNat + bundleBytes h ≤ s1.cx.textLen →
    Machine.step s = .next (Machine.takeTrapHeld t (s1.setCx s1.cx))

/-- R12, R44, R52, R116, R378: a step of the machine whose next event is the issue of a context runs the bundle found at its
PC: the operations of its slots, then its B operation with the last issue, all of them or, where one traps, none. Where the
fetch finds a trap, the step takes it; where a read of text waits, or an operation holds, nothing issues. -/
def BundleIssueRunsTheBundle : Prop :=
  ∀ (s s1 sf s3 : Machine.State) (x : Nat) (rest : List Machine.Due) (pc : W64),
    IssueAt s s1 x rest →
    let run := Machine.exec .bundleIssue { s with agenda := rest, cur := x, unit := 0, sub := 0 }
    Machine.step s = run ∧
    (∀ b, s1.fetch = (.bundle pc b, sf) →
      let s2 := sf.setCx { sf.cx with pc := pc, len := b.bytes }
      let p := Machine.mkPlan (Machine.isGal s2.cur) pc b s2.cx
      let ran := Machine.runOps p.first s3 p.ops
      (Machine.prepHolds p s2 = (.go p, s3) →
        (∀ s4, ran = .ok s4 →
          run = .next (Machine.addWeight p.weight (Machine.commit (s4.setCx (Machine.endIssue p s4.cx))))) ∧
        (∀ t s4, ran = .error (t, s4) → run = .next (Machine.takeTrapHeld t s4))) ∧
      (Machine.prepHolds p s2 = (.idle, s3) → run = .next s3)) ∧
    (∀ t, s1.fetch = (.trap pc t, sf) → run = .next (Machine.takeTrapHeld t (sf.setCx { sf.cx with pc := pc }))) ∧
    (s1.fetch = (.wait, sf) → run = .next sf)

/-- R7: what an operation does in a bundle and alone: a slot operation that neither holds nor is one of a gallery core on a
tile leaves alone the state that it leaves in its bundle, at once or with the end of its issue; where it traps, the trap is
taken of the state before. -/
def OperationsAlone : Prop :=
  ∀ (i : Instr) (s t : Machine.State) (e : TrapInfo),
    let a := Machine.baseOf i s.cx
    i.slot.isSome = true → Machine.holdOp i a s = none → (galleryOp i = false ∨ Machine.isGal s.cur = true) →
    (Machine.runOp i a s = .ok t → Machine.exec i s = .next t ∨ Machine.exec i s = .next (Machine.commit t)) ∧
    (Machine.runOp i a s = .trap e → Machine.exec i s = .next (Machine.takeTrap e s)) ∧
    (Machine.runOp i a s = .trapIn e t → Machine.exec i s = .next (Machine.takeTrap e t))

/-- R45: the STEP field and the unit of an operation of the AM, VL or MS form. -/
def stepOf (i : Instr) : Option (BitVec 6 × Nat) :=
  match i with
  | .ld f => some (f.step, 2 ^ f.sz.toNat)
  | .lds f => some (f.step, 2 ^ f.sz.toNat)
  | .st f => some (f.step, 2 ^ f.sz.toNat)
  | .vld f => some (f.step, 64)
  | .vst f => some (f.step, 64)
  | .vldx f => some (f.step, 64)
  | .vstx f => some (f.step, 64)
  | .vldb f => some (f.step, 64)
  | .saff f => some (f.step, 64)
  | .saffw f => some (f.step, 64)
  | .sind f => some (f.step, 64)
  | .sindw f => some (f.step, 64)
  | .srec f => some (f.step, 64)
  | .swin f => some (f.step, 64)
  | .smcast f => some (f.step, 64)
  | .temit f => some (f.step, 64)
  | .tcons f => some (f.step, 64)
  | .scopy f => some (f.step, 64)
  | .sfill f => some (f.step, 64)
  | .scancel f => some (f.step, 64)
  | .mnfeed f => some (f.step, 64)
  | .mndrain f => some (f.step, 64)
  | .nsdot f => some (f.step, 64)
  | .spref f => some (f.step, 64)
  | .grecv f => some (f.step, 64)
  | .sdual f => some (f.step, 64)
  | _ => none

/-- R12, R34, R44, R45: at issue 0 a present operation becomes its slot's record, with the address it computes; else the record is
executed again with its address advanced by STEP times its unit: the access size for the AM form, 64 bytes for the VL and MS
forms; no other operation has an address that steps. The B operation runs with the last issue alone. -/
def StickyReissue : Prop :=
  ∀ (c : Machine.Ctx) (pc : W64) (b : Bundle),
    let p := Machine.mkPlan false pc b c
    let again := fun (r : Machine.StickyRec) => ({ r with addr := r.addr + Machine.strideOf r.op } : Machine.StickyRec)
    c.skip = false →
    (c.k = 0 → p.recA = (match b.a with | some i => { op := i, addr := Machine.baseOf i c } | none => again c.recA) ∧
      p.recV = (match b.v with | some i => { op := i, addr := Machine.baseOf i c } | none => again c.recV) ∧
      p.recM = (match b.m with | some i => { op := i, addr := Machine.baseOf i c } | none => again c.recM)) ∧
    (c.k ≠ 0 → p.recA = again c.recA ∧ p.recV = again c.recV ∧ p.recM = again c.recM) ∧
    p.ops = [(0, p.recA.op, p.recA.addr), (1, p.recV.op, p.recV.addr), (2, p.recM.op, p.recM.addr)] ++
      (if c.k = b.rep then b.b.toList.map (fun i => (3, i, 0)) else []) ∧
    p.first 0 = (decide (c.k = 0) && b.a.isSome) ∧ (∀ f : AM, Machine.readsOf (.ld f) false c = [Machine.rP f.gp]) ∧
    (∀ i, match stepOf i with
      | some (step, unit) => Machine.strideOf i = step.signExtend 64 * BitVec.ofNat 64 unit
      | none => Machine.strideOf i = 0)

/-- R44, R46, R116: the end of an issue: context time advances by one, the issue index too or back to 0 at the last issue, whose
next PC is what its branch or loop gives or the address after it; once-only records become NOPs. At a loop's end the counter
falls, and at a counter above 1 the PC goes back to LOOPB. -/
def IssueEnds : Prop :=
  ∀ (p : Machine.Plan) (c : Machine.Ctx) (n : Nat), c.shadow = none → c.buf = {} → n < 4 →
    let after := (Machine.endIssue p c)
    let loops := fun (m : Nat) => c.cr (12 + m) = p.pc ∧ c.rlc m ≠ 0
    after.ctime = c.ctime + 1 ∧
    after.recA = (if Machine.onceOnlyOp p.recA.op then { op := .anop } else p.recA) ∧
    after.recV = (if Machine.onceOnlyOp p.recV.op then { op := .vnop } else p.recV) ∧
    after.recM = (if Machine.onceOnlyOp p.recM.op then { op := .mnop } else p.recM) ∧
    (p.k ≠ p.b.rep → after.k = p.k + 1 ∧ after.buf.next = none ∧ after.pend = c.pend) ∧
    (p.k = p.b.rep → after.k = 0 ∧
      ((∀ m < 4, ¬ loops m) → after.buf.next = some c.after ∧ after.pend = c.pend) ∧
      ((∀ m < 4, m ≠ n → ¬ loops m) → loops n →
        after.pend = (c.deliver (.lc n) ((c.rlc n - 1).setWidth 512) 1 3).pend ∧
        after.buf.next = some (if c.rlc n = 1 then c.after else c.cr (8 + n))))

/-- R13, R14, R10: results due at a position take effect, in the order of their positions, and the others wait; one for a0, p0
or vm0 is discarded. -/
def DeliveriesTakeEffect : Prop :=
  ∀ (c : Machine.Ctx) (e f : Machine.Pend) (n : Nat) (v w : W64),
    let full := fun (e : Machine.Pend) (d : Machine.Dst) (v : W64) =>
      e.dst = d ∧ e.mask = BitVec.allOnes 512 ∧ e.val = v.setWidth 512 ∧ e.arrived = true ∧ e.lost = none ∧ e.trapped = none ∧ e.flags = 0
    n ≠ 0 → c.badRegs = [] →
    (c.pend = [e] → full e (.a n) v →
      (e.pos ≤ c.now → c.settle.a.read n = v ∧ c.settle.pend = [] ∧ (∀ k, k ≠ n → c.settle.a.read k = c.a.read k)) ∧
      (c.now < e.pos → c.settle.a = c.a ∧ c.settle.pend = [e])) ∧
    (c.pend = [e, f] → full e (.a n) v → full f (.a n) w → e.pos ≤ c.now → f.pos ≤ c.now → c.settle.a.read n = w ∧ c.settle.pend = []) ∧
    (c.pend = [e] → full e (.a 0) v → e.pos ≤ c.now → c.settle.a = c.a ∧ c.settle.ra 0 = 0 ∧ c.settle.pend = []) ∧
    (c.pend = [e] → full e (.p 0) v → e.pos ≤ c.now → c.settle.p = c.p ∧ c.settle.rp 0 = true) ∧
    (c.pend = [e] → full e (.vm 0) v → e.pos ≤ c.now → c.settle.vm = c.vm ∧ c.settle.rvm 0 = BitVec.allOnes 64) ∧
    (∀ L, 1 ≤ L → (c.deliverA 5 v L).settle.a.read 5 = c.settle.a.read 5)

/-- R16, R22, R52, R121, R385, R391: a bundle whose slot holds does not issue; with TRCTL.SFH and EVPEND.SFAULT set it takes
STREAM_PENDING at once, unless its ERET alone holds, which is no hold of R121 (log entry 27, the model's reading); one that no slot
holds, or none any more when asked again, issues. -/
def HeldBundles : Prop :=
  ∀ (p : Machine.Plan) (s s4 s5 : Machine.State) (n m : Nat),
    let c := s.cx
    p.skip = false → c.cr 1 = 0 →
    Machine.askHolds p.ops (s.setCx { c with feh := c.feh.map (fun h => { h with hit := false }) }) = (n, s4) →
    (n ≠ 0 → Machine.askHolds p.ops s4 = (m, s5)) →
    (n = 0 → ∃ t, Machine.prepHolds p s = (.go p, t) ∧ t.mem = s4.mem) ∧
    (n ≠ 0 → m = 0 → ∃ t, Machine.prepHolds p s = (.go p, t) ∧ t.mem = s5.mem) ∧
    (n ≠ 0 → m ≠ 0 →
      (m ≠ 1 ∨ (∀ o ∈ p.ops, ∀ f, o.2.1 = .eret f → Machine.holdEret f s5 = none) → (s5.cx.cr 0x81).getLsbD 2 = true → (s5.cx.cr 7).getLsbD 0 = true →
        ∃ t, Machine.prepHolds p s = (.trap p.pc { cause := .streamPending, whole := true } 0, t)) ∧
      ((s5.cx.cr 0x81).getLsbD 2 = false ∨ (s5.cx.cr 7).getLsbD 0 = false ∨ (∃ f, p.b.b = some (.eret f) ∧ m = 1 ∧ p.last = true ∧
          Machine.holdEret f s5 ≠ none) →
        ∃ t, Machine.prepHolds p s = (.idle, t) ∧ t.mem = s5.mem))

/-- R160, R161: of two contexts that offer, both issue where no slot is active in both; else one issues: that which has lost 64
collisions in a row, then the one of higher EFF, then the one that did not issue in the cycle before, then the one that did not
win the last collision. One that offers alone issues. -/
def MergeIssue : Prop :=
  ∀ (h : Machine.MergeHist) (e0 e1 : Nat) (a b : List Nat × Nat),
    let both := Machine.mergeTile h e0 e1 (some a) (some b)
    let first := both.1 = true ∧ both.2.1 = false ∧ both.2.2.now0 = true ∧ both.2.2.now1 = h.now1 ∧ both.2.2.lost0 = 0 ∧ both.2.2.lost1 = h.lost1 + 1 ∧ both.2.2.winner = some 0
    let second := both.1 = false ∧ both.2.1 = true ∧ both.2.2.now0 = h.now0 ∧ both.2.2.now1 = true ∧ both.2.2.lost0 = h.lost0 + 1 ∧ both.2.2.lost1 = 0 ∧ both.2.2.winner = some 1
    let meet := ∃ i, i ∈ a.1 ∧ i ∈ b.1
    (¬ meet → both.1 = true ∧ both.2.1 = true ∧ both.2.2.lost0 = 0 ∧ both.2.2.lost1 = 0 ∧ both.2.2.winner = h.winner ∧
      both.2.2.now0 = true ∧ both.2.2.now1 = true) ∧
    (meet → 64 ≤ h.lost0 → first) ∧
    (meet → h.lost0 < 64 → 64 ≤ h.lost1 → second) ∧
    (meet → h.lost0 < 64 → h.lost1 < 64 →
      (e1 < e0 → first) ∧ (e0 < e1 → second) ∧
      (e0 = e1 → h.prev0 = false → h.prev1 = true → first) ∧ (e0 = e1 → h.prev0 = true → h.prev1 = false → second) ∧
      (e0 = e1 → h.prev0 = h.prev1 → h.winner = some 1 → first) ∧ (e0 = e1 → h.prev0 = h.prev1 → h.winner = some 0 → second)) ∧
    (let one := Machine.mergeTile h e0 e1 (some a) none
     one.1 = true ∧ one.2.1 = false ∧ one.2.2.lost0 = 0 ∧ one.2.2.winner = h.winner) ∧
    (let none_ := Machine.mergeTile h e0 e1 none none
     none_.1 = false ∧ none_.2.1 = false ∧ none_.2.2.lost0 = h.lost0 ∧ none_.2.2.lost1 = h.lost1)

/-- Log entry 2: a step runs the next operation or event of the cycle, removed from the agenda. With none left the merge stages
decide, and after them a new cycle begins: the tick advances by one, the stores of the cycle before have been performed but for
those that wait, and each tile keeps which of its contexts issued (R161). -/
def CyclesAdvance : Prop :=
  ∀ (s : Machine.State),
    (∀ d rest, s.agenda = d :: rest →
      Machine.step s = Machine.exec d.op { s with agenda := rest, cur := d.cur, unit := d.unit, sub := d.sub }) ∧
    (s.agenda = [] → s.merged = false → ∃ s', Machine.step s = .next s' ∧ s'.merged = true ∧ s'.tick = s.tick ∧ s'.mem = s.mem) ∧
    (s.agenda = [] → s.merged = true → s.pctl = 0 → (∀ e ∈ s.queues, e.2.fault = none) → ∃ s', Machine.step s = .next s' ∧ s'.merged = false ∧ s'.tick = s.tick + 1 ∧
      s'.mem = s.mem ∧ (∀ n, n < 2 ^ 32 → ((s.ctx n).stq = [] → (s'.ctx n).st = 0) ∧ (s'.ctx n).pc = (s.ctx n).pc ∧
        (s'.ctx n).a = (s.ctx n).a) ∧
      (∀ t, (s'.tile t).hist.prev0 = (s.tile t).hist.now0 ∧ (s'.tile t).hist.prev1 = (s.tile t).hist.now1 ∧
        (s'.tile t).hist.now0 = false ∧ (s'.tile t).hist.now1 = false ∧ (s'.tile t).hist.winner = (s.tile t).hist.winner))

/-! ### The encoding -/

/-! ### The whole machine -/

/-- The predicate that guards an A or M operation (R38); SEL and the NOPs have none. -/
def guardOf (i : Instr) : Option (BitVec 4) :=
  match i with
  | .add f => some f.gp
  | .sub f => some f.gp
  | .and f => some f.gp
  | .or f => some f.gp
  | .xor f => some f.gp
  | .andn f => some f.gp
  | .shl f => some f.gp
  | .shr f => some f.gp
  | .sra f => some f.gp
  | .min f => some f.gp
  | .minu f => some f.gp
  | .max f => some f.gp
  | .maxu f => some f.gp
  | .abs f => some f.gp
  | .clz f => some f.gp
  | .popc f => some f.gp
  | .cmp f => some f.gp
  | .addi f => some f.gp
  | .andi f => some f.gp
  | .ori f => some f.gp
  | .xori f => some f.gp
  | .shli f => some f.gp
  | .shri f => some f.gp
  | .srai f => some f.gp
  | .movi f => some f.gp
  | .movhi f => some f.gp
  | .mul f => some f.gp
  | .mulh f => some f.gp
  | .mulhu f => some f.gp
  | .mulhsu f => some f.gp
  | .madd f => some f.gp
  | .bfx f => some f.gp
  | .bfxs f => some f.gp
  | .bfi f => some f.gp
  | .lea f => some f.gp
  | .ld f => some f.gp
  | .lds f => some f.gp
  | .st f => some f.gp
  | .ldx f => some f.gp
  | .ldxs f => some f.gp
  | .stx f => some f.gp
  | .aspq f => some f.gp
  | .aspc f => some f.gp
  | .xfera f => some f.gp
  | .rdcr f => some f.gp
  | .wrcr f => some f.gp
  | .setcr f => some f.gp
  | .clrcr f => some f.gp
  | .addpc f => some f.gp
  | .muli f => some f.gp
  | .ext f => some f.gp
  | .greq f => some f.gp
  | .gwr f => some f.gp
  | .gwrm f => some f.gp
  | .gtagwT f => some f.gp
  | .gtagwC f => some f.gp
  | .gtagq f => some f.gp
  | .gbin f => some f.gp
  | .gbdrain f => some f.gp
  | .gbdrainClr f => some f.gp
  | .gdedup f => some f.gp
  | .gdedupClr f => some f.gp
  | .gpool f => some f.gp
  | .gprnd f => some f.gp
  | .ghand f => some f.gp
  | .gfence f => some f.gp
  | .mset f => some f.gp
  | .msetHi f => some f.gp
  | .maddM f => some f.gp
  | .mmov f => some f.gp
  | .xferm f => some f.gp
  | .saff f => some f.gp
  | .saffw f => some f.gp
  | .sind f => some f.gp
  | .sindw f => some f.gp
  | .srec f => some f.gp
  | .swin f => some f.gp
  | .smcast f => some f.gp
  | .temit f => some f.gp
  | .tcons f => some f.gp
  | .scopy f => some f.gp
  | .sfill f => some f.gp
  | .scancel f => some f.gp
  | .sbar f => some f.gp
  | .swload f => some f.gp
  | .swact f => some f.gp
  | .cfgload f => some f.gp
  | .cfgact f => some f.gp
  | .afire f => some f.gp
  | .aflush f => some f.gp
  | .adepth f => some f.gp
  | .mnopen f => some f.gp
  | .mnfeed f => some f.gp
  | .mnflush f => some f.gp
  | .mndrain f => some f.gp
  | .mnclose f => some f.gp
  | .mncloseA f => some f.gp
  | .nsdot f => some f.gp
  | .launch f => some f.gp
  | .spawn f => some f.gp
  | .jinit f => some f.gp
  | .pgreq f => some f.gp
  | .pgreqRel f => some f.gp
  | .spref f => some f.gp
  | .grecv f => some f.gp
  | .sdual f => some f.gp
  | .sstat f => some f.gp
  | .lapin f => some f.gp
  | .lapinRel f => some f.gp
  | .publish f => some f.gp
  | .cfgpref f => some f.gp
  | _ => none

end Sys2Proof

open Sys2Proof

/-! ### The obligations -/

/-- What the register and immediate operations of the A slot deliver. -/
def Obligations.AluResults : Prop :=
  RegisterArithmeticResults ∧ CompareSelectExtendResults ∧ BitFieldResults ∧ ImmediateResults

/-- R98, R99, R101, R102, R267, R20, R293: the scalar loads, plain and qualified. Their address is RA plus the extension, or RA plus
RB times the size. One behind a full/empty access that waits issues with its read kept pending, and bundles go on (log entry 24, the
model's reading). -/
def Obligations.ScalarLoadResults : Prop :=
  ∀ (s : Machine.State) (f : AM) (x : AX), s.cx.buf = {} → s.cx.ld < 4095 → s.cur < 512 →
    let p := s.cx.ra f.ra + (match f.ext with | some e => e.signExtend 64 | none => 0)
    let px := s.cx.ra x.ra + s.cx.ra x.rb * BitVec.ofNat 64 (2 ^ x.sz.toNat)
    (s.cx.guard f.gp = true → LoadsScalar s (.ld f) f.rd f.sz f.q p false ∧ LoadsScalar s (.lds f) f.rd f.sz f.q p true) ∧
    (s.cx.guard x.gp = true → LoadsScalar s (.ldx x) x.rd x.sz x.q px false ∧ LoadsScalar s (.ldxs x) x.rd x.sz x.q px true)

/-- R98, R99, R101, R102, R20, R267, R268, R293: the scalar stores, plain and `.EF`; what one behind a waiting load does is log entry
24, the model's reading. -/
def Obligations.ScalarStoreResults : Prop :=
  ∀ (s : Machine.State) (f : AM) (x : AX), s.cx.buf = {} → s.cx.st < 4095 → s.cur < 512 →
    let p := s.cx.ra f.ra + (match f.ext with | some e => e.signExtend 64 | none => 0)
    let px := s.cx.ra x.ra + s.cx.ra x.rb * BitVec.ofNat 64 (2 ^ x.sz.toNat)
    (s.cx.guard f.gp = true → StoresScalar s (.st f) f.rd f.sz f.q p) ∧
    (s.cx.guard x.gp = true → StoresScalar s (.stx x) x.rd x.sz x.q px)

/-- Where local pointers reach, and which cause a refused scalar access traps with. -/
def Obligations.ScalarAccessChecks : Prop :=
  ScalarAccessTraps ∧ LocalPointersReach

/-- What ASPQ, ASPC, XFERA and the control-register operations deliver, write and trap on. -/
def Obligations.QueriesAndControlRegisters : Prop :=
  SpaceQueryResult ∧ SpaceCastResult ∧ TransferToAResults ∧ ControlRegisterResults ∧ ControlRegisterTraps

/-- What the operations of the gallery cores do, and that a tile has none of them. -/
def Obligations.GalleryOperations : Prop :=
  PacketRequests ∧ TagResults ∧ BinAndDedupResults ∧ PoolResults ∧ GalleryOnlyOnCores

/-- What branches, loops, the predicate and mask operations and the binding-table operations leave. -/
def Obligations.BranchesLoopsAndMasks : Prop :=
  BranchResults ∧ LoopResults ∧ MaskLogicResults ∧ BindingTableResults

/-- What WAITC, JOIN, PWAIT, EVWAIT, YIELD, CALWAIT and FENCE hold for, and what EXIT, TRAP, BKPT, SVC, STKCLR and
IFENCE leave. -/
def Obligations.WaitsAndSystemOperations : Prop :=
  WaitResults ∧ YieldFenceCalwaitResults ∧ SystemOperationResults

/-- Which request each synchronisation operation sends to which sync engine, and how it waits for its reply. -/
def Obligations.SynchronisationOperations : Prop :=
  SyncRequestResults ∧ WaitingSyncResults

/-- What the lane-wise integer and floating-point operations of the V slot deliver. -/
def Obligations.VectorLaneResults : Prop :=
  VectorIntegerResults ∧ VectorFloatResults

/-- Which elements the rearranging, converting and quantising operations read and write. -/
def Obligations.VectorRearrangeAndConvert : Prop :=
  VectorRearrangeResults ∧ VectorConvertResults

/-- R137: the reductions on integers, exact over the participants; on FP types they are the model's exact sums and
extremes of the participants, in ascending lane order. Every bit beyond element 0 is 0. -/
def Obligations.VectorReductionResults : Prop :=
  ∀ (s : Machine.State) (f : VR), f.ty.toNat ≤ 13 →
    let c := s.cx
    let t := f.ty.toNat
    let w := tyWidth t
    let part := (List.range (512 / w)).filter (fun k => (c.rvm f.vm.toNat).getLsbD k)
    let a := fun k => laneOf (c.rv f.va.toNat) w k
    let b := fun k => vbOf f c w k
    let r := c.rnd f.rm.toNat f.sm.toNat 0
    let iv : Nat → Int := fun x => if t ≤ 9 then sext x w else (x : Int)
    (6 ≤ t →
      Machine.exec (.vrsum f) s = deliversWhole s f.vd 6 (wrapInt (part.map (fun k => iv (a k))).sum 64) 0 ∧
      Machine.exec (.vrdot f) s = deliversWhole s f.vd 6 (wrapInt (part.map (fun k => iv (a k) * iv (b k))).sum 64) 0 ∧
      (∀ k ∈ part, (∀ j ∈ part, iv (a j) ≤ iv (a k)) → Machine.exec (.vrmax f) s = deliversWhole s f.vd 6 (a k) 0) ∧
      (∀ k ∈ part, (∀ j ∈ part, iv (a k) ≤ iv (a j)) → Machine.exec (.vrmin f) s = deliversWhole s f.vd 6 (a k) 0) ∧
      (part = [] →
        Machine.exec (.vrmax f) s = deliversWhole s f.vd 6 (if t ≤ 9 then 2 ^ (w - 1) else 0) 0 ∧
        Machine.exec (.vrmin f) s = deliversWhole s f.vd 6 (if t ≤ 9 then 2 ^ (w - 1) - 1 else 2 ^ w - 1) 0)) ∧
    (t ≤ 2 →
      (let x := Machine.redSum t r (part.map (fun k => Machine.decodeFloat t (a k)))
       Machine.exec (.vrsum f) s = deliversWhole s f.vd 6 x.1 x.2) ∧
      (let x := Machine.redDot r (part.map (fun k => (Machine.decodeFloat t (a k), Machine.decodeFloat t (b k))))
       Machine.exec (.vrdot f) s = deliversWhole s f.vd 6 x.1 x.2) ∧
      (let x := Machine.redMinMax true t (part.map a)
       Machine.exec (.vrmax f) s = deliversWhole s f.vd 6 x.1 x.2) ∧
      (let x := Machine.redMinMax false t (part.map a)
       Machine.exec (.vrmin f) s = deliversWhole s f.vd 6 x.1 x.2))

/-- What VLACC, VLARND, XFERV and VLSCALE deliver, and one update of the loss-scale state. -/
def Obligations.VectorAccumulators : Prop :=
  VectorAccumulatorResults ∧ LossScaleUpdate

/-- R140, R143, R144, R20: the vector loads whose checks pass, in the forms VLD, VLDX and VLDB: the elements are read before
the bundle's stores and converted once, delivered at the load position to the active lanes, and counted in the load class.
Behind a full/empty load or a store of an earlier bundle that waits, its bundle issues and its read stays pending (log entry 24, the
model's reading of R20 and R293), and a qualified one's until its granules are all full and its bank grants it (R267); `.FEC` clears
its granules; with no active lane nothing happens. -/
def Obligations.VectorLoadResults : Prop :=
  ∀ (s : Machine.State) (f : VL) (i : Instr) (kind : Machine.VKind),
    (i = .vld f ∧ kind = .contig ∨ i = .vldx f ∧ kind = .indexed ∨ i = .vldb f ∧ kind = .single) →
    s.cx.buf = {} → s.cx.ld < 4095 → (∀ j, (s.pad j).bad = []) →
    let c := s.cx
    let ty := f.ty.toNat
    let w := tyWidth ty
    let on := fun k => (c.rvm f.vm.toNat).getLsbD k
    ((∀ k < 512 / w, on k = false) → Machine.exec i s = passes s) ∧
    ((∃ k < 512 / w, on k = true) → ∀ cs mf, s.vlCells kind f false (vectorBase f c) = .ok (cs, mf) →
      let behind := c.feBefore c.iss = true ∨ c.storeBefore c.iss = true
      let granted := (∀ x ∈ cs, ∀ k < x.n, (s.pad x.pad).isFull (x.off + k) = true) ∧
        s.beaten { tile := s.cur / 2, at_ := s.tick, ctx := s.cur, seq := c.seq, take := f.q == 2, fill := false
                   cells := if kind = .single then cs.map (fun x => { x with lane := 0 }) else cs } = false
      let raw := fun (x : Machine.Cell) => little (s.pad x.pad).mem x.off x.n
      let code := fun (x : Machine.Cell) => if mf = ty then raw x
        else (Machine.convert (Machine.decodeVal mf (raw x)) ty
          { rm := f.rm.toNat, sm := f.sm.toNat
            u := if f.rm = 4 then Machine.stochU (c.cr 3) (if c.inh then 1 else 0) c.now (if kind = .single then 0 else x.lane)
                 else 0 }).1
      ∃ e : Machine.Pend, e.dst = .v f.vd.toNat ∧ e.pos = c.now + (if c.cr 1 = 1 then 4 else 6) ∧ e.load = true ∧
        e.arrived = false ∧ e.lost = none ∧ (∀ b < 512, e.mask.getLsbD b = on (b / w)) ∧
        (let after := issued { c.push e with ld := c.ld + 1 }
         (¬ behind ∧ f.q = 0 → Machine.exec i s = .next (s.setCx after)) ∧
         (¬ behind ∧ f.q ≠ 0 ∧ granted → ∃ t, Machine.exec i s = .next t ∧ t.cx = after ∧ t.mem = s.mem ∧
           ∀ j, (t.pad j).mem = (s.pad j).mem ∧ ∀ g, (t.pad j).full.has g = ((s.pad j).full.has g &&
             (f.q != 2 || decide (∀ x ∈ cs, x.pad = j → ∀ k < x.n, g ≠ (x.off + k) / 16)))) ∧
         (behind ∨ (f.q ≠ 0 ∧ ¬ granted) → e.fe ≠ none ∧ Machine.exec i s = .next (s.setCx after))) ∧
        (¬ behind ∧ (f.q = 0 ∨ granted) → e.fe = none ∧
          (kind ≠ .single → ∀ x ∈ cs, laneOf e.val w x.lane = code x % 2 ^ w) ∧
          (kind = .single → ∀ x ∈ cs, ∀ k < 512 / w, laneOf e.val w k = code x % 2 ^ w)))

/-- R140, R141, R143, R144, R268: the vector stores VST and VSTX whose checks pass: each active lane, converted once where
the bank's format is another, lies at its cell, the highest element last; the store is counted; nothing else of memory
changes. Behind a load that waits a plain store is kept, unperformed, while its bundle issues (R20; log entry 24, the model's
reading), and an `.EF` one holds its bundle, as it does while a granule is full or its turn has not come. With no active lane
nothing happens. -/
def Obligations.VectorStoreResults : Prop :=
  ∀ (s : Machine.State) (f : VL) (i : Instr) (kind : Machine.VKind),
    (i = .vst f ∧ kind = .contig ∨ i = .vstx f ∧ kind = .indexed) →
    s.cx.buf = {} → s.cx.st < 4095 → (∀ j, (s.pad j).bad = []) → s.cx.stq = [] →
    let c := s.cx
    let ty := f.ty.toNat
    let w := tyWidth ty
    let on := fun k => (c.rvm f.vm.toNat).getLsbD k
    ((∀ k < 512 / w, on k = false) → Machine.exec i s = passes s) ∧
    ((∃ k < 512 / w, on k = true) → ∀ cs mf, s.vlCells kind f true (vectorBase f c) = .ok (cs, mf) →
      let code := fun (x : Machine.Cell) =>
        let v := laneOf (c.rv f.vd.toNat) w x.lane
        if mf = ty then v else (Machine.convert (Machine.decodeVal ty v) mf (c.rnd f.rm.toNat f.sm.toNat x.lane)).1
      let since := match c.fehOf 1 (vectorBase f c) with | some h => h.at_ | none => s.tick
      let blocked := (∃ x ∈ cs, ∃ k < x.n, (s.pad x.pad).isFull (x.off + k) = true) ∨
        s.beaten { tile := s.cur / 2, at_ := since, ctx := s.cur, seq := 0, take := true, fill := true, cells := cs } = true
      (f.q = 1 → c.feBefore c.iss = true ∨ blocked → ∃ h : Machine.FeHold,
        Machine.exec i s = .next (s.setCx { c with feh := h :: c.feh.filter (fun o => o.slot != 1) }) ∧
        h.slot = 1 ∧ h.addr = vectorBase f c ∧ h.cells = cs ∧ h.at_ = since ∧ h.hit = true) ∧
      (c.loadUpTo c.iss = true ∧ f.q ≠ 1 → ∃ t, Machine.exec i s = .next t ∧ t.mem = s.mem ∧ (∀ j, t.pad j = s.pad j) ∧
        t.cx.st = c.st + 1 ∧ t.cx.stq.map (fun o => (o.pad, o.off, o.iss)) = cs.map (fun x => (x.pad, x.off, c.iss))) ∧
      (c.loadUpTo c.iss = false →
       (f.q = 1 → ¬ blocked) →
      ∃ t, Machine.exec i s = .next t ∧ t.mem = s.mem ∧ (∀ n, n ≠ s.cur → t.ctx n = s.ctx n) ∧
        (t.cx = issued { c with st := c.st + 1 } ∨ mf ≠ ty ∧
          ∃ e : Machine.Pend, e.dst = .none ∧ e.pos = c.now + 1 ∧ t.cx = issued { c.push e with st := c.st + 1 }) ∧
        (∀ j a, (t.pad j).mem.read a = cs.foldl (fun b x =>
          if x.pad = j ∧ x.off ≤ a ∧ a < x.off + x.n then BitVec.ofNat 8 (code x / 2 ^ (8 * (a - x.off))) else b)
          ((s.pad j).mem.read a)) ∧
        (∀ j g, (t.pad j).full.has g = ((s.pad j).full.has g ||
          (f.q == 1 && decide (∃ x ∈ cs, x.pad = j ∧ ∃ k < x.n, g = (x.off + k) / 16))))))

/-- Which cells a vector access names, and how a refused one traps. -/
def Obligations.VectorAccessChecks : Prop :=
  VectorAccessCells ∧ VectorBases ∧ VectorAccessTraps

/-- What the register, token, pin and status operations of the M slot leave. -/
def Obligations.MSlotRegisterResults : Prop :=
  MRegisterResults ∧ StatusReads

/-- Which stream commands join their handles, hold, or trap by the first check that fails. -/
def Obligations.StreamCommands : Prop :=
  StreamCommandsJoin ∧ StreamCommandsHold ∧ FirstFailedCheckTraps ∧ CheckPlaces ∧ AffineReadChecks

/-- How the commands that need a power grant join, wait or trap, and what PGREQ leaves. -/
def Obligations.PowerCommands : Prop :=
  PoweredCommandsJoin ∧ PowerReserveCommands

/-- What SCANCEL drops and what SBAR leaves. -/
def Obligations.CancelsAndBarriers : Prop :=
  CancelResults ∧ BarrierResults

/-- What the commands that load, switch and fire ports, images and groups leave. -/
def Obligations.ConfigurationAndArrayCommands : Prop :=
  ConfigurationCommands ∧ ArrayGroupCommands

/-- R334, R338, R341, R343: MNOPEN opens a session of an idle network and holds while there is one; MNFLUSH seals the
session, MNCLOSE closes an empty one and MNCLOSE.A any; in a state that does not allow them they trap. The drains of the session
that have not finished meet no later one (log entry 93, the model's reading for MNCLOSE). -/
def Obligations.MergeSessionCommands : Prop :=
  ∀ (s : Machine.State) (f : MR), s.cx.buf = {} → s.cx.guard f.gp = true →
    let c := s.cx
    let k := s.cur / 2 / 8
    let m := (s.cluster k).mn
    let w := c.rm f.ma.toNat
    let trap := fun (e : Cause) => (.next (Machine.takeTrap { cause := e, slot := 2 } s) : Answer)
    let wrong := if m.state = 5 ∧ m.asid = c.asid ∧ (m.fcause = 1 ∨ m.fcause = 2) then Cause.mnRunlimit else Cause.mnState
    (m.state ≠ 0 → Machine.exec (.mnopen f) s = .next s) ∧
    (m.state = 0 →
      (∀ x, Machine.firstChk (s.mnopenChk f) = some x → Machine.exec (.mnopen f) s = trapsM s x) ∧
      (s.mnopenChk f = [] → ∃ s', Machine.exec (.mnopen f) s = .next s' ∧ s'.cx = issued c ∧ s'.mem = s.mem ∧
        let n := (s'.cluster k).mn
        n.state = 1 ∧ n.ord = f.fn.getLsbD 0 ∧ n.dz = f.fn.getLsbD 1 ∧ n.vty = w.toNat / 2 ^ 60 ∧ n.oty = w.toNat / 2 ^ 56 % 16 ∧
        n.rm = w.toNat / 2 ^ 53 % 8 ∧ n.sm = w.toNat / 2 ^ 52 % 2 ∧ n.base = c.rm (f.ma.toNat + 1) ∧
        n.size = (c.rm (f.ma.toNat + 2)).toNat ∧ n.asid = c.asid ∧ n.late = 0 ∧ n.fcause = 0 ∧ n.drained = 0 ∧ n.buf = [] ∧ n.ctime = c.ctime ∧ n.key = c.cr 3 ∧
        n.runs = [] ∧ n.lanes = [] ∧ n.waits = [] ∧ n.seq = [] ∧ n.drains = [])) ∧
    (m.state = 1 → m.asid = c.asid → Machine.exec (.mnflush f) s =
      .next (s.setCluster k { s.cluster k with mn := { m with state := 2 } })) ∧
    (m.state ≠ 1 ∨ m.asid ≠ c.asid → Machine.exec (.mnflush f) s = trap wrong) ∧
    (m.state = 4 → m.asid = c.asid → ∃ s', Machine.exec (.mnclose f) s = .next s' ∧ s'.mem = s.mem ∧
      (∃ l, s'.cx = { c with handles := l }) ∧
      (∀ x h, ((s'.ctx x).handle h).cmds = ((s.ctx x).handle h).cmds.map (fun q =>
        if q.op = 0x1C ∧ (s.ctx x).asid = c.asid ∧ s.inCluster k x = true then { q with ended := true } else q)) ∧
      s'.cluster k = { s.cluster k with mn := { m with
        state := 0, buf := [], seq := [], lanes := [], waits := [], drains := [] } }) ∧
    (m.state ≠ 4 ∨ m.asid ≠ c.asid → Machine.exec (.mnclose f) s = trap wrong) ∧
    (m.state ∈ [1, 2, 3, 4, 5] → m.asid = c.asid → ∃ s', Machine.exec (.mncloseA f) s = .next s' ∧ s'.mem = s.mem ∧
      (s'.cluster k).mn.state = 0 ∧ (s'.cluster k).mn.lanes = [] ∧ (s'.cluster k).mn.waits = [] ∧
      (s'.cluster k).mn.drains = [] ∧ (s'.cluster k).mn.runs = m.runs) ∧
    (m.state = 0 ∨ m.asid ≠ c.asid → Machine.exec (.mncloseA f) s = trap .mnState)

/-- R251, R252, R163, R169, R256, R452: LAUNCH and PUBLISH leave a request counted in the stream class when their pointers and, for
LAUNCH, their queue allow it, and trap on a pointer of another space, with bits that must be zero, or misaligned; SPAWN puts a child
into the tile's child lane, counts it as live, and adds one to JCNT unless `.R` says that it is counted; the child of a cancelled
launch is cancelled at once. -/
def Obligations.LaunchSpawnPublish : Prop :=
  ∀ (s : Machine.State) (f : MR), s.cx.buf = {} → s.cx.guard f.gp = true →
    let c := s.cx
    let t := s.cur / 2
    let a := c.rm f.ma.toNat
    let q := immUM f.imm f.ext % 1024
    let req : Machine.OutReq := { ctx := s.cur, ptr := a, q := q, ctime := c.ctime, pc := c.pc, step := c.task.sid, at_ := s.tick
                                  iss := c.iss }
    let pub : Machine.OutReq :=
      { ctx := s.cur, ptr := a, val := c.rm f.mb.toNat, ctime := c.ctime, pc := c.pc, step := c.task.sid, at_ := s.tick
        iss := c.iss }
    let trap := fun (e : Cause) (p : W64) => (.next (Machine.takeTrap { cause := e, slot := 2, addr := p } s) : Answer)
    (c.str ≠ 4095 →
      (∀ x, Machine.firstChk (s.blobChk a 256 256 false) = some x → Machine.exec (.launch f) s = trapsM s x) ∧
      (s.blobChk a 256 256 false = [] →
        (s.qState q = 1 → s.qAsid q = c.asid → Machine.exec (.launch f) s =
          .next (({ s with reqs := s.reqs ++ [req] } : Machine.State).setCx (issued { c with str := c.str + 1 }))) ∧
        (s.qState q ≠ 1 ∨ s.qAsid q ≠ c.asid → Machine.exec (.launch f) s = trap .queueFault 0)) ∧
      (a.toNat < 2 ^ 56 → a.toNat % 8 = 0 → Machine.exec (.publish f) s =
        .next (({ s with pubs := s.pubs ++ [pub] } : Machine.State).setCx (issued { c with str := c.str + 1 }))) ∧
      (a.toNat < 2 ^ 56 → a.toNat % 8 ≠ 0 → Machine.exec (.publish f) s = trap .misaligned a) ∧
      (2 ^ 56 ≤ a.toNat → a.toNat < 2 ^ 60 → Machine.exec (.publish f) s = trap .spaceRange a) ∧
      (2 ^ 60 ≤ a.toNat → Machine.exec (.publish f) s = trap .spaceForeign a)) ∧
    (c.str = 4095 → Machine.exec (.launch f) s = .next s ∧ Machine.exec (.publish f) s = .next s) ∧
    ((16 ≤ (s.tile t).child.length ∨ 65535 ≤ c.jcnt) → Machine.exec (.spawn f) s = .next s) ∧
    ((s.tile t).child.length < 16 → c.jcnt < 65535 →
      (2 ^ 32 ≤ a.toNat → Machine.exec (.spawn f) s = trap .paramRange 0) ∧
      (a.toNat < 2 ^ 32 → a.toNat % 4 ≠ 0 → Machine.exec (.spawn f) s = trap .misaligned 0) ∧
      (∀ l, a.toNat < 2 ^ 32 → a.toNat % 4 = 0 → s.launch? c.task.launch = some l → l.cancel = false →
        ∃ s', Machine.exec (.spawn f) s = .next s' ∧ s'.mem = s.mem ∧
          s'.cx = issued { c with spawnOrd := c.spawnOrd + 1, jcnt := c.jcnt + (if f.fn.toNat % 2 = 1 then 0 else 1) } ∧
          (∃ l', s'.launch? c.task.launch = some l' ∧ l'.live = l.live + 1) ∧
          ∃ k, (s'.tile t).child = (s.tile t).child ++ [k] ∧ k.entry = a ∧ k.args.take 2 = [c.rm f.mb.toNat, immM f] ∧
            k.child = true ∧ k.parent = c.task.sid ∧ k.launch = c.task.launch ∧ k.team = c.task.team ∧ k.parked = none ∧
            k.lin = BitVec.ofNat 64 (2 ^ 63 + ((c.cr 0x11).toNat * 2 ^ 16 + c.spawnOrd + 1) % 2 ^ 63) ∧ k.iss = c.iss) ∧
      (∀ l, a.toNat < 2 ^ 32 → a.toNat % 4 = 0 → s.launch? c.task.launch = some l → l.cancel = true →
        s.stepCtx c.task.sid = some s.cur →
        ∃ s', Machine.exec (.spawn f) s = .next s' ∧ s'.mem = s.mem ∧ (s'.tile t).child = (s.tile t).child ∧
          s'.cx.spawnOrd = c.spawnOrd + 1 ∧ s'.cx.iss = c.iss + 1 ∧
          s'.cx.jcnt = (if f.fn.toNat % 2 = 1 then c.jcnt - 1 else c.jcnt) ∧
          ∃ l', s'.launch? c.task.launch = some l' ∧ l'.live = l.live ∧ l'.ncancel = l.ncancel + 1))

/-- How results arrive, waits end, steps enter their contexts and retire. -/
def Obligations.ContextAndStepEvents : Prop :=
  ResultsArrive ∧ KeptRequestsGo ∧ YieldEnds ∧ FullEmptyTimeouts ∧ StepEntersContext ∧ StepRetires ∧ StepStaysWhileCounted

/-- What taking a trap saves and where it goes, and what a return restores. -/
def Obligations.TrapsAndReturns : Prop :=
  TrapEntry ∧ UnhandledTrapEndsStep ∧ TrapReturn ∧ FaultRecordsClear

/-- How a step is saved into its slot and goes on as it was saved. -/
def Obligations.SavesAndRestores : Prop :=
  SavesBegin ∧ SaveStages ∧ SaveCompletes ∧ StepRestored ∧ SaveCommands

/-- How the queue reader reads, halts and checks launch records. -/
def Obligations.QueuesAndRecords : Prop :=
  QueueReads ∧ LaunchRecordChecks

/-- How quanta are granted, steps placed and team allocations released. -/
def Obligations.StepPlacement : Prop :=
  QuantumGrants ∧ StepsArePlaced ∧ TeamsRelease

/-- What a completing launch, an enqueued launch and a PUBLISH write into memory. -/
def Obligations.LaunchEndsAndQueueWrites : Prop :=
  LaunchCompletes ∧ CompletionRecord ∧ LaunchEnqueues ∧ PublishWrites

/-- R382, R385, R387, R390, R167, R251, R452: where ERET, and the events TRAP_ENTRY, SFPEND_WRITE, LAUNCH_COMPLETE,
LAUNCH_ENQUEUE and PUBLISH_COUNTER_WRITE complete, and what they leave then. ERET of a handler whose results have all
taken effect returns to the program. TRAP_ENTRY of a live step with an enabled handler that does not run enters it.
SFPEND_WRITE clears the bits of SFPEND in every state. LAUNCH_COMPLETE retires a launch all of whose steps have ended,
unless a landing keeps it. LAUNCH_ENQUEUE puts a record that has been read into its ring, when there is room for it and its
page is mapped. PUBLISH_COUNTER_WRITE writes its counter when its page is mapped to host memory. The last two wait behind an access
of an earlier bundle that waits (log entry 24, the model's reading of R293). -/
def Obligations.HandlerAndLaunchEventsComplete : Prop :=
  ∀ (s : Machine.State),
    let c := s.cx
    (∀ (f : BEr) (h : Machine.Shadow), c.guardB f.gp f.gn = true → c.buf = {} → c.shadow = some h → c.pend = [] →
      ((c.cr 0x81).getLsbD 1 = false ∨ (c.cr 0x83).toNat % 4 = 0) →
      let fresh := (c.cr 0x81).getLsbD 1 || (c.cr 0x82).getLsbD 39
      Machine.exec (.eret f) s = .next (s.setCx { issued c with
        recA := h.recA, recV := h.recV, recM := h.recM, k := if fresh then 0 else h.k, pend := h.pend, ctime := h.ctime,
        shadow := none, hpos := 0, pc := c.cr 0x83, skip := f.skip == 1 && !fresh, crs := c.crs.write 0x81 (c.cr 0x81 &&& 4),
        stall := max c.stall (s.tick + 9) })) ∧
    (∀ t : TrapInfo, c.life = .live → c.hold = .none → c.pwr = .none → c.shadow = none → c.pend = [] →
      (c.cr 0x80).getLsbD 0 = true → t.cause.handleable = true → t.fatal = false →
      ∃ s', Machine.exec (.trapEntry t) s = .next s' ∧ s'.cx.inh = true ∧ s'.cx.pc = c.cr 0x80 &&& 0xFFFFFFFFFFFFFFFC ∧
        s'.cx.cr 0x83 = c.pc ∧ s'.cx.cr 0x84 = t.addr ∧ s'.cx.recA.op = .anop ∧ s'.cx.recV.op = .vnop ∧ s'.cx.recM.op = .mnop ∧
        s'.mem = s.mem) ∧
    (∀ v : W64, ∃ s', Machine.exec (.sfpendWrite v) s = .next s' ∧ s'.cx.cr 0x90 = c.cr 0x90 &&& ~~~(v &&& 0x1FFFFF) ∧
      s'.mem = s.mem) ∧
    (∀ l : Machine.Launch, s.launch? s.unit = some l → s.frozen = false → s.landing = none → l.checked = true →
      l.undispatched = 0 → l.live = 0 → l.teams = [] →
      ∃ s', Machine.exec .launchComplete s = .next s' ∧ s'.launches = Machine.mapDel s.unit s.launches) ∧
    (∀ (r : Machine.OutReq) (b : List Byte) (pa : Nat), s.reqs[s.sub]? = some r → r.buf = some b → s.frozen = false →
      s.landing = none → (∀ e ∈ s.reqs.take s.sub, e.q ≠ r.q) → s.behind r.ctx r.iss = false →
      let wr := s.qGet r.q 0x18
      let n := 2 ^ s.qLog2n r.q
      let va := (s.qGet r.q 0 + 256 * (wr % n)) % 2 ^ 64
      wr < s.qRd r.q + n → va < 2 ^ 56 → s.xlateQ (s.qAsid r.q) (s.qGen r.q) false va true = .ok pa →
      Machine.inPeer pa = false → Machine.inPool pa = false →
      ∃ s', Machine.exec .launchEnqueue s = .next s' ∧ (s'.queue r.q).wr = wr + 1 ∧ s'.reqs = s.reqs.eraseIdx s.sub ∧
        s'.mem = ((s.writePa pa (b.map some)).qSet r.q 0x18 (wr + 1)).mem) ∧
    (∀ (r : Machine.OutReq) (s1 : Machine.State) (pa : Nat), s.pubs[s.sub]? = some r → r.faulted = false → s.behind r.ctx r.iss = false →
      s.engineOn r.ctx = true → (∀ e ∈ s.pubs.take s.sub, e.ctx ≠ r.ctx ∨ e.faulted = true) →
      s.xlate r.ctx (s.ctx r.ctx).asid (s.ctx r.ctx).gen false (r.ptr.toNat % 2 ^ 56) true = (.ok pa, s1) →
      Machine.inHost pa = true →
      ∃ s', Machine.exec .publishCounterWrite s = .next s' ∧ s'.pubs = s1.pubs.eraseIdx s1.sub ∧
        s'.mem = (s1.writePa pa ((Machine.natToBytes r.val.toNat 8).map some)).mem)

/-- What the queue commands of the management window do, and what a refused write reports. -/
def Obligations.QueueControl : Prop :=
  WindowErrors ∧ QueueCommands ∧ QueueDestroyed

/-- How a stream command starts and moves its element blocks. -/
def Obligations.StreamTransfers : Prop :=
  StreamsStart ∧ ElementBlocks

/-- How commands leave their handles, tokens their channels, and circuits their ports. -/
def Obligations.StreamCompletions : Prop :=
  StreamsComplete ∧ TokensAreEmitted ∧ CircuitsTransfer

/-- How feeds arrive, a session becomes READY and drains, and its team aborts it. -/
def Obligations.MergeNetwork : Prop :=
  MergeEvents ∧ MergeDrains

/-- How the array fires, moves tokens, switches images and takes loads. -/
def Obligations.ArrayFiringAndSwitching : Prop :=
  OperatorsFire ∧ TokensArrive ∧ ArrayEvents ∧ ImagesLand

/-- What the sync engines perform, grant and answer, for contexts, peers and the host. -/
def Obligations.SyncEngineEvents : Prop :=
  SyncEnginePerforms ∧ SyncEngineGrants ∧ RemoteSyncEvents ∧ HostSyncRequests

/-- How gallery jobs start and end, packets complete and hand-offs are taken. -/
def Obligations.GalleryJobs : Prop :=
  GalleryJobsStart ∧ GalleryJobsEnd ∧ PacketsComplete ∧ HandoffsTake

/-- R402, R405, R408, R411: a DRAM request is performed, or held in a landing and behind those held; a riser's first tick sets
EVPEND.RISER in every step; a landing starts in its slot with its kind's length and ends at its last tick, when held
requests go first; an overrun extends it by 64 ticks, up to 4,096, and the first one is the event MAINT_OVERRUN. That bytes beyond
2^52 have no address is log entry 65; that a request of a riser is admitted at once, and that a RETRAIN threshold of 0 asks for no
retraining, is log entry 56: the model's reading. -/
def Obligations.CalendarEvents : Prop :=
  ∀ (s : Machine.State),
    (∀ r : DramReq,
      (2 ^ 52 < r.pa + r.data.length → Machine.exec (.dramRequest r) s = .fault .noPhysicalAddress) ∧
      (r.pa < 2 ^ 39 → r.pa + r.data.length ≤ 2 ^ 39 →
        (s.landing ≠ none ∨ s.held ≠ [] → Machine.exec (.dramRequest r) s = .next { s with held := s.held ++ [r] }) ∧
        (s.landing = none → s.held = [] → s.badPa = [] → Machine.exec (.dramRequest r) s =
          .next (if r.write then { s with mem := s.mem.writeMasked r.pa r.data } else s)))) ∧
    (s.landing = none → s.calDist = 256 → ∃ s', Machine.exec .riserStart s = .next s' ∧ s'.mem = s.mem ∧
      ∀ n, n < 512 → (s.ctx n).life ≠ .free → ((s'.ctx n).cr 7).getLsbD 7 = true ∧ (s'.ctx n).a = (s.ctx n).a) ∧
    (s.landing ≠ none ∨ s.calDist ≠ 256 → Machine.exec .riserStart s = .next s) ∧
    (let begins := fun (kind len : Nat) =>
      Machine.exec .landingStart s = .next { s with landing := some { kind := kind, start := s.tick, stop := s.tick + len } }
     s.landing = none → s.tests = [] → 8192 ≤ s.tick → s.tick % 8192 = 0 →
      (s.tick % 2 ^ 20 ≠ 0 → begins 1 416) ∧
      ((s.win.read 0x1408).toNat % 2 ^ 16 = 0 → s.tick % 2 ^ 20 = 0 → s.tick % 2 ^ 27 ≠ 0 → begins 2 8192) ∧
      ((s.win.read 0x1408).toNat % 2 ^ 16 = 0 → s.tick % 2 ^ 27 = 0 → ∃ s', Machine.exec .landingStart s = .next s' ∧
        s'.landing = some { kind := 3, start := s.tick, stop := s.tick + 131072 } ∧ s'.mem = s.mem ∧ s'.ctxs = s.ctxs ∧
        s'.tiles = s.tiles)) ∧
    (s.tick % 8192 ≠ 0 → Machine.exec .landingStart s = .next s) ∧
    (∀ l, s.landing = some l →
      (s.tick < l.stop → Machine.exec .landingEnd s = .next s) ∧
      (l.stop ≤ s.tick → s.held = [] → s.qpend = none → Machine.exec .landingEnd s = .next { s with landing := none }) ∧
      (l.stop ≤ s.tick → s.tick % 8192 = 0 → Machine.exec .landingEnd s = .next { s with landing := none }) ∧
      (∀ c, l.stop ≤ s.tick → s.tick % 8192 ≠ 0 → s.held = [] → s.qpend = some c →
        let q := (s.win.read 0x1008).toNat / 2 ^ 32 % 2 ^ 10
        Machine.exec .landingEnd s =
          .next (Machine.qcmdEffect c q (({ s with landing := none, qpend := none } : Machine.State).setQcmd q false))) ∧
      (∀ r, l.stop ≤ s.tick → s.tick % 8192 ≠ 0 → s.held = [r] → s.qpend = none → r.write = true → s.badPa = [] → Machine.exec .landingEnd s =
        .next { s with landing := none, held := [], mem := s.mem.writeMasked r.pa r.data }) ∧
      (let len := if l.kind = 3 then 131072 else if l.kind = 2 then 8192 else 416
       (l.start + len + 4096 ≤ l.stop → Machine.exec .maintOverrun s = .next s) ∧
       (l.start + len < l.stop → l.stop < l.start + len + 4096 →
         Machine.exec .maintOverrun s = .next { s with landing := some { l with stop := l.stop + 64 } }) ∧
       (l.stop = l.start + len → ∃ s', Machine.exec .maintOverrun s = .next s' ∧ s'.landing = some { l with stop := l.stop + 64 } ∧
         s'.ovr = s.ovr + 1 ∧ (s'.win.read 8).getLsbD 3 = true ∧ s'.mem = s.mem ∧
         (∀ n, n < 512 → (s.ctx n).life ≠ .free → ((s'.ctx n).cr 7).getLsbD 1 = true) ∧
         (s'.die 0).events = (s.die 0).events ++ [(0x31, 0, 0)])))

/-- What hardware errors log, lose, freeze and stop. -/
def Obligations.ErrorEvents : Prop :=
  CorrectableErrors ∧ UncorrectableErrors ∧ FatalErrors ∧ FreezesEnd

/-- How grants arrive, shootdowns end, links go and come, and what writes from outside do. -/
def Obligations.PowerLinksAndOutside : Prop :=
  PowerGrants ∧ Shootdowns ∧ Links ∧ OutsideWrites

/-- What writes of owners, registers and the mailbox do. -/
def Obligations.WindowRegisters : Prop :=
  OwnerChanges ∧ RegisterWrites ∧ MailboxCommands

/-- What resets keep, how bring-up goes on, and what resumes bring back. -/
def Obligations.ResetBringupAndResume : Prop :=
  ResetAndBringup ∧ ResumeCommands

/-- A step runs the bundle that the text at PC decodes to, or takes the trap it decodes to. -/
def Obligations.StepRunsTheDecodedBundle : Prop :=
  FetchReadsTheText ∧ BundleIssueRunsTheBundle

/-- What operations do alone and in their bundle, how sticky records re-issue, and how an issue ends. -/
def Obligations.IssueAndReissue : Prop :=
  OperationsAlone ∧ StickyReissue ∧ IssueEnds

/-- When results take effect and when a bundle holds. -/
def Obligations.DeliveriesAndHolds : Prop :=
  DeliveriesTakeEffect ∧ HeldBundles

/-- Which contexts of a tile issue in a cycle, and how the model steps through a cycle (log entry 2, the model's
choice). -/
def Obligations.CyclesAndMergeStage : Prop :=
  MergeIssue ∧ CyclesAdvance

/-- Words that the spec's examples and encoding tables give, and the operations they stand for. -/
def Obligations.SpecWordsDecode : Prop :=
  decodeTableWord 32 0x40618010 = some (.addi { rd := 6, ra := 6, imm := 1, gp := 0 }) ∧
  decodeTableWord 64 0x2F0000C000000004 = some (.vst { vd := 0, va := 3, vb := 0, ofs := 0, vm := 0, ty := 0, rm := 0, sm := 0, step := 1, q := 0 }) ∧
  decodeSlot .b 0x14004008 none = .ok (.loop { lc := 0, cnt := 4, last := 8 }) ∧
  decodeSlot .b 0x34024602 none = .ok (.bind { gp := 0, gn := 0, va := 1, vb := 2, vd := 3, scope := 2 }) ∧
  decodeSlot .a 0x98A2CC00 none = .ok (.aspq { rd := 10, ra := 11, rb := 12, gp := 0 }) ∧
  decodeSlot .a 0x9CD2C090 none = .ok (.aspc { rd := 13, ra := 11, fn := 9, gp := 0 }) ∧
  decodeSlot .m 0x2700C00000000000 none = .ok (.lapin { md := 0, ma := 3, mb := 0, fn := 0, gp := 0, imm := 0 }) ∧
  decodeSlot .m 0x0140000800000000 (some 0x003C0000) =
    .ok (.msetHi { md := 8, ma := 0, mb := 0, fn := 1, gp := 0, imm := 0, ext := some 0x003C0000 }) ∧
  decodeSlot .b 0x2C020002 none = .ok (.acquireX { gp := 0, gn := 0, va := 1 })

/-- Decoding the word and extension that encode a well-formed slot operation gives the operation back, with every field at its
value; and in a bundle of its own it stands in its slot, without repeat, in the bundle's length. -/
def Obligations.EncodeDecodeRoundTrip : Prop :=
  ∀ (i : Instr) (sl : Slot) (w : W64) (e : Option W32), i.wf = true → encode i = some (sl, w, e) →
    decodeSlot sl w e = .ok i ∧
    ∃ h ws b, soloWords sl w e = h :: ws ∧ decodeBundle false h ws = .ok b ∧ b.rep = 0 ∧
      b.a = (if sl = .a then some i else none) ∧ b.v = (if sl = .v then some i else none) ∧
      b.m = (if sl = .m then some i else none) ∧ b.b = (if sl = .b then some i else none) ∧ b.bytes = 4 * (ws.length + 1)

/-- R52, R54, R55 to R58: no bit of a word is ignored: what the decoder accepts is well-formed, of its slot, and its encoding is
the word that was read. So a word with an unallocated opcode or a nonzero zero field is refused. -/
def Obligations.DecodingIsExact : Prop :=
  (∀ (sl : Slot) (w : W64) (e : Option W32) (i : Instr), (sl = .a ∨ sl = .b → w.toNat < 2 ^ 32) → decodeSlot sl w e = .ok i →
    i.wf = true ∧ i.slot = some sl ∧ ∃ e', encode i = some (sl, w, e') ∧ (e' = none ∨ e' = e)) ∧
  (∀ (w : W64) (e : Option W32),
    (0x3C ≤ w.toNat / 2 ^ 26 % 2 ^ 6 → decodeSlot .a w e = .error .unallocated) ∧
    (0x22 ≤ w.toNat / 2 ^ 26 % 2 ^ 6 → decodeSlot .b w e = .error .unallocated) ∧
    (0x38 ≤ w.toNat / 2 ^ 56 → decodeSlot .v w e = .error .unallocated) ∧
    (0x2A ≤ w.toNat / 2 ^ 56 → decodeSlot .m w e = .error .unallocated))

/-- R50: the all-zero word is the NOP of its slot, which does nothing; a bundle of one other word with opcode 0 takes the
trap ILLEGAL_OP of its slot when it issues. -/
def Obligations.NopWords : Prop :=
  decodeSlot .a 0 none = .ok .anop ∧ decodeSlot .v 0 none = .ok .vnop ∧ decodeSlot .m 0 none = .ok .mnop ∧
  decodeSlot .b 0 none = .ok .bnop ∧
  (∀ s : Machine.State, Machine.exec .anop s = .next s ∧ Machine.exec .vnop s = .next s ∧ Machine.exec .mnop s = .next s ∧
    Machine.exec .bnop s = .next s ∧ ∀ a, Machine.runOp .anop a s = .ok s ∧ Machine.runOp .vnop a s = .ok s ∧
      Machine.runOp .mnop a s = .ok s ∧ Machine.runOp .bnop a s = .ok s) ∧
  (∀ (gal : Bool) (w : W64), w ≠ 0 → w.toNat < 2 ^ 26 →
    IssueTraps gal 0x88000000 [w.setWidth 32] { cause := .illegalOp, slot := 0 } ∧
    IssueTraps gal 0xC0000000 [w.setWidth 32] { cause := .illegalOp, slot := 3 }) ∧
  (∀ (w : W64), w ≠ 0 → w.toNat < 2 ^ 56 →
    IssueTraps false 0x90000000 [w.setWidth 32, (w >>> 32).setWidth 32] { cause := .illegalOp, slot := 1 } ∧
    IssueTraps false 0xA0000000 [w.setWidth 32, (w >>> 32).setWidth 32] { cause := .illegalOp, slot := 2 })

/-- R46: the once-only operations are those of the rule's list; after the issue of one its record is the slot's NOP; a bundle
that holds one and has a repeat is an illegal bundle. -/
def Obligations.OnceOnlyOperations : Prop :=
  (∀ i : Instr, Machine.onceOnlyOp i = true ↔
    ((∃ f, i = .wrcr f) ∨ (∃ f, i = .setcr f) ∨ (∃ f, i = .clrcr f) ∨ (∃ f, i = .vlscale f) ∨ (∃ f, i = .scancel f) ∨
     (∃ f, i = .swload f) ∨ (∃ f, i = .swact f) ∨ (∃ f, i = .cfgload f) ∨ (∃ f, i = .cfgact f) ∨ (∃ f, i = .cfgpref f) ∨
     (∃ f, i = .aflush f) ∨ (∃ f, i = .adepth f) ∨ (∃ f, i = .mnopen f) ∨ (∃ f, i = .mnflush f) ∨ (∃ f, i = .mnclose f) ∨
     (∃ f, i = .mncloseA f) ∨ (∃ f, i = .launch f) ∨ (∃ f, i = .spawn f) ∨ (∃ f, i = .jinit f) ∨ (∃ f, i = .pgreq f) ∨
     (∃ f, i = .pgreqRel f) ∨ (∃ f, i = .lapin f) ∨ (∃ f, i = .lapinRel f) ∨ (∃ f, i = .publish f))) ∧
  (∀ (p : Machine.Plan) (c : Machine.Ctx), c.buf.final = .none →
    (Machine.onceOnlyOp p.recA.op = true → (Machine.endIssue p c).recA.op = .anop) ∧
    (Machine.onceOnlyOp p.recV.op = true → (Machine.endIssue p c).recV.op = .vnop) ∧
    (Machine.onceOnlyOp p.recM.op = true → (Machine.endIssue p c).recM.op = .mnop)) ∧
  (∀ (i : Instr) (sl : Slot) (w : W64) (e : Option W32) (h : W32) (ws : List W32) (gal : Bool), i.wf = true →
    Machine.onceOnlyOp i = true → encode i = some (sl, w, e) → (slotWords h ws).1.contains (sl, w) = true → h.toNat / 2 ^ 21 % 2 ^ 6 ≠ 0 →
      ws.length = (bundleBytes h - 4) / 4 → IssueTraps gal h ws { cause := .illegalBundle, whole := true })

/-- R105: XFERM delivers the A register to the M register with latency 2, where its guard holds; the bits that its word leaves
open and its extension must be zero. -/
def Obligations.XfermRule : Prop :=
  (∀ (s : Machine.State) (f : MX),
    (s.cx.guard f.gp = true → Machine.exec (.xferm f) s = deliversM s f.md (s.cx.ra f.src) 2) ∧
    (s.cx.guard f.gp = false → Machine.exec (.xferm f) s = .next s)) ∧
  (∀ (w : W64) (e : Option W32), w.toNat / 2 ^ 56 = 4 →
    let zero := w.toNat / 2 ^ 41 % 2 ^ 4 = 0 ∧ w.toNat / 2 ^ 35 % 2 ^ 6 = 0 ∧ w.toNat / 2 ^ 16 % 2 ^ 15 = 0 ∧ w.toNat % 2 ^ 16 = 0
    (zero ∧ (e = none ∨ e = some 0) → ∃ f : MX, decodeSlot .m w e = .ok (.xferm f) ∧ f.md.toNat = w.toNat / 2 ^ 51 % 2 ^ 5 ∧
      f.src.toNat = w.toNat / 2 ^ 45 % 2 ^ 6 ∧ f.gp.toNat = w.toNat / 2 ^ 31 % 2 ^ 4) ∧
    (¬ (zero ∧ (e = none ∨ e = some 0)) → decodeSlot .m w e = .error .reservedField))

/-- R117: LCI delivers its constant to its counter with latency 1 and leaves LOOPB and LOOPE; the loop-end check of its own
bundle reads what it writes. A word with END12 not zero is refused. -/
def Obligations.LciRule : Prop :=
  (∀ (s : Machine.State) (f : BLc), s.cx.buf = {} →
    let v : BitVec 32 := match f.ext with | some x => x | none => f.cnt.setWidth 32
    ∃ t, Machine.runOp (.lci f) 0 s = .ok t ∧
      Machine.exec (.lci f) s = .next (s.setCx (issued (s.cx.deliver (.lc f.lc.toNat) (v.setWidth 512) 1 3))) ∧
      t.cx.pend = (s.cx.deliver (.lc f.lc.toNat) (v.setWidth 512) 1 3).pend ∧ t.cx.crs = s.cx.crs ∧ t.cx.lc = s.cx.lc ∧
      Machine.loopVal f.lc.toNat t.cx.buf.lcNow (t.cx.rlc f.lc.toNat) = v ∧
      (∀ n, Machine.loopVal n t.cx.buf.loopb (t.cx.cr (8 + n)) = s.cx.cr (8 + n) ∧
        Machine.loopVal n t.cx.buf.loope (t.cx.cr (12 + n)) = s.cx.cr (12 + n))) ∧
  (∀ (w : W64) (e : Option W32), w.toNat / 2 ^ 26 % 2 ^ 6 = 0x1D → w.toNat % 2 ^ 12 ≠ 0 → decodeSlot .b w e = .error .reservedField)

/-- R358: GFENCE on a gallery core. -/
def Obligations.GfenceRule : Prop :=
  ∀ (s : Machine.State) (f : AS1), Machine.isGal s.cur = true → s.cx.guard f.gp = true → s.cx.buf = {} →
    let a := s.cx.ra f.ra
    let busy := ∃ i < 128, a.getLsbD (i / 8) = true ∧ (s.myGal.tag i).state = 1
    (a.toNat / 2 ^ 16 ≠ 0 → Machine.exec (.gfence f) s = .next (Machine.takeTrap { cause := .paramRange, slot := 0 } s)) ∧
    (a.toNat / 2 ^ 16 = 0 → busy → Machine.exec (.gfence f) s = .next s) ∧
    (a.toNat / 2 ^ 16 = 0 → ¬ busy → ∃ t, Machine.exec (.gfence f) s = .next t ∧ t.gals = s.gals ∧ t.cx = issued s.cx ∧ t.mem = s.mem)

/-- R24, R26, R157, R260, R351, R353, R402, R417, R446, R454: the state after reset. That GSTAT holds no cause of an earlier job
before the first one is log entry 5, the model's choice. -/
def Obligations.ResetValues : Prop :=
  let s := Machine.State.reset
  (∀ n, (s.ctx n).life = .free ∧ (s.ctx n).pc = 0 ∧ (∀ r : BitVec 6, (s.ctx n).ra r = 0) ∧ (∀ r, (s.ctx n).rv r = 0) ∧
    (∀ r, (s.ctx n).rm r = 0) ∧ (∀ r, (s.ctx n).rp r = decide (r = 0)) ∧
    (∀ r, (s.ctx n).rvm r = if r = 0 then BitVec.allOnes 64 else 0) ∧ (∀ r, (s.ctx n).rlc r = 0) ∧
    (s.ctx n).pend = [] ∧ (s.ctx n).ctime = 0 ∧ (s.ctx n).cr 1 = 0 ∧ (s.ctx n).recA.op = .anop ∧ (s.ctx n).recV.op = .vnop ∧
    (s.ctx n).recM.op = .mnop) ∧
  (∀ t, (s.tile t).disp = [] ∧ (s.tile t).child = [] ∧ (s.tile t).allocs = [] ∧ (s.tile t).tlb = [] ∧ (s.tile t).walks = [] ∧
    (s.tile t).hist.lost0 = 0 ∧ (s.tile t).hist.lost1 = 0 ∧ (∀ a, (s.tile t).pad.mem.read a = 0) ∧ (s.tile t).pad.full = [] ∧
    ((s.tile t).crs.read 0x36).getLsbD 16 = true ∧ (s.tile t).crs.read 0x44 = 1) ∧
  (∀ k, (s.cluster k).allocs = [] ∧ (s.cluster k).mn.state = 0 ∧ (∀ a, (s.cluster k).pad.mem.read a = 0) ∧
    ((s.cluster k).crs.read 0x37).getLsbD 16 = true) ∧
  (∀ g, (s.gal g).state = 0 ∧ (s.gal g).cause = 0 ∧ ∀ i, ((s.gal g).tag i).state = 0) ∧
  (∀ d, (s.die d).objs = [] ∧ (s.die d).queue = [] ∧ (s.die d).parked = []) ∧
  s.tick = 0 ∧ s.landing = none ∧ s.queues = [] ∧ s.launches = [] ∧ s.shoot = none ∧ s.frozen = false ∧ s.ready = false ∧
  s.win.read 0x1410 = 1750000 ∧ s.win.read Machine.wMWSTAT = 0 ∧ s.win.read Machine.wINTSTAT = 0

/-- Memory after reset is in its canonical form (and lists nothing: log entry 4 says what an unlisted byte reads as). -/
def Obligations.ResetMemoryCanonical : Prop := Machine.Memory.wf Machine.State.reset.mem = true ∧ Machine.State.reset.mem = []

/-- Every step keeps memory in its canonical form. -/
def Obligations.StepKeepsMemoryCanonical : Prop :=
  ∀ (s s' : Machine.State), Machine.Memory.wf s.mem = true → Machine.step s = .next s' → Machine.Memory.wf s'.mem = true

/-- R272: the machine never refuses, and stops at one kind of event alone: a write from outside, or a DRAM request, that ends
beyond the 52-bit physical space. That it stops there is log entry 65, the model's reading. -/
def Obligations.StopsOnlyBeyondPhysicalSpace : Prop :=
  ∀ (i : Instr) (s : Machine.State),
    (∃ t, Machine.exec i s = .next t) ∨
    (Machine.exec i s = .fault .noPhysicalAddress ∧
      ((∃ pa d, i = .hostWindowWrite pa d ∧ 2 ^ 52 < pa + d.length) ∨
       (∃ r, i = .dramRequest r ∧ 2 ^ 52 < r.pa + r.data.length)))

/-- R7, R13, R20, R286: the frame of the slot operations. In a bundle, an operation writes no byte of a memory and no register
file of any context, nor ASTAT, PC or the life of its step: its results are pending deliveries, its stores wait for the end of
the issue, and so do EXIT, ERET, branches and loops. Alone, one that stores nothing leaves every byte of every memory, and
one that stores, every byte of global memory. -/
def Obligations.SlotOperationsFrame : Prop :=
  (∀ (i : Instr) (a : W64) (s t : Machine.State), i.slot.isSome = true → Machine.runOp i a s = .ok t →
    t.mem = s.mem ∧ (∀ j, (t.pad j).mem = (s.pad j).mem) ∧ t.tick = s.tick ∧
    ∀ n, (t.ctx n).a = (s.ctx n).a ∧ (t.ctx n).v = (s.ctx n).v ∧ (t.ctx n).m = (s.ctx n).m ∧ (t.ctx n).p = (s.ctx n).p ∧
      (t.ctx n).vm = (s.ctx n).vm ∧ (t.ctx n).lc = (s.ctx n).lc ∧ (t.ctx n).cr 2 = (s.ctx n).cr 2 ∧
      (t.ctx n).pc = (s.ctx n).pc ∧ (t.ctx n).life = (s.ctx n).life ∧ (t.ctx n).shadow = (s.ctx n).shadow) ∧
  (∀ (i : Instr) (s t : Machine.State), i.slot.isSome = true → Machine.exec i s = .next t → t.mem = s.mem) ∧
  (∀ (i : Instr) (s t : Machine.State), i.slot.isSome = true → Machine.exec i s = .next t → s.cx.buf.stores = [] →
    (∀ f, i ≠ .st f) → (∀ f, i ≠ .stx f) → (∀ f, i ≠ .vst f) → (∀ f, i ≠ .vstx f) →
    ∀ j, (t.pad j).mem = (s.pad j).mem)

/-- R38: an A or M operation whose guard fails does nothing, and raises no trap apart from ILLEGAL_OP. -/
def Obligations.FailingGuardsDoNothing : Prop :=
  ∀ (i : Instr) (gp : BitVec 4) (s : Machine.State), guardOf i = some gp → s.cx.guard gp = false → s.cx.buf = {} →
    (Machine.exec i s = .next s ∨ Machine.exec i s = .next (s.setCx s.cx) ∨ Machine.exec i s = passes s) ∨
    ∃ t : TrapInfo, t.cause = .illegalOp ∧ Machine.exec i s = .next (Machine.takeTrap t s)
end

