-- ==== Sys2Proof/Laws/Exec.lean ====
section
/-! SUPPORT. What `exec` is, instruction by instruction: the meaning that its arm calls. -/

namespace Sys2Proof.Laws

@[simp] theorem exec_add f (s) : Machine.exec (.add f) s = Machine.execAdd f s := rfl
@[simp] theorem exec_sub f (s) : Machine.exec (.sub f) s = Machine.execSub f s := rfl
@[simp] theorem exec_and f (s) : Machine.exec (.and f) s = Machine.execAnd f s := rfl
@[simp] theorem exec_or f (s) : Machine.exec (.or f) s = Machine.execOr f s := rfl
@[simp] theorem exec_xor f (s) : Machine.exec (.xor f) s = Machine.execXor f s := rfl
@[simp] theorem exec_andn f (s) : Machine.exec (.andn f) s = Machine.execAndn f s := rfl
@[simp] theorem exec_shl f (s) : Machine.exec (.shl f) s = Machine.execShl f s := rfl
@[simp] theorem exec_shr f (s) : Machine.exec (.shr f) s = Machine.execShr f s := rfl
@[simp] theorem exec_sra f (s) : Machine.exec (.sra f) s = Machine.execSra f s := rfl
@[simp] theorem exec_min f (s) : Machine.exec (.min f) s = Machine.execMin f s := rfl
@[simp] theorem exec_minu f (s) : Machine.exec (.minu f) s = Machine.execMinu f s := rfl
@[simp] theorem exec_max f (s) : Machine.exec (.max f) s = Machine.execMax f s := rfl
@[simp] theorem exec_maxu f (s) : Machine.exec (.maxu f) s = Machine.execMaxu f s := rfl
@[simp] theorem exec_abs f (s) : Machine.exec (.abs f) s = Machine.execAbs f s := rfl
@[simp] theorem exec_clz f (s) : Machine.exec (.clz f) s = Machine.execClz f s := rfl
@[simp] theorem exec_popc f (s) : Machine.exec (.popc f) s = Machine.execPopc f s := rfl
@[simp] theorem exec_cmp f (s) : Machine.exec (.cmp f) s = Machine.execCmp f s := rfl
@[simp] theorem exec_addi f (s) : Machine.exec (.addi f) s = Machine.execAddi f s := rfl
@[simp] theorem exec_andi f (s) : Machine.exec (.andi f) s = Machine.execAndi f s := rfl
@[simp] theorem exec_ori f (s) : Machine.exec (.ori f) s = Machine.execOri f s := rfl
@[simp] theorem exec_xori f (s) : Machine.exec (.xori f) s = Machine.execXori f s := rfl
@[simp] theorem exec_shli f (s) : Machine.exec (.shli f) s = Machine.execShli f s := rfl
@[simp] theorem exec_shri f (s) : Machine.exec (.shri f) s = Machine.execShri f s := rfl
@[simp] theorem exec_srai f (s) : Machine.exec (.srai f) s = Machine.execSrai f s := rfl
@[simp] theorem exec_movi f (s) : Machine.exec (.movi f) s = Machine.execMovi f s := rfl
@[simp] theorem exec_movhi f (s) : Machine.exec (.movhi f) s = Machine.execMovhi f s := rfl
@[simp] theorem exec_mul f (s) : Machine.exec (.mul f) s = Machine.execMul f s := rfl
@[simp] theorem exec_mulh f (s) : Machine.exec (.mulh f) s = Machine.execMulh f s := rfl
@[simp] theorem exec_mulhu f (s) : Machine.exec (.mulhu f) s = Machine.execMulhu f s := rfl
@[simp] theorem exec_mulhsu f (s) : Machine.exec (.mulhsu f) s = Machine.execMulhsu f s := rfl
@[simp] theorem exec_madd f (s) : Machine.exec (.madd f) s = Machine.execMadd f s := rfl
@[simp] theorem exec_sel f (s) : Machine.exec (.sel f) s = Machine.execSel f s := rfl
@[simp] theorem exec_bfx f (s) : Machine.exec (.bfx f) s = Machine.execBfx f s := rfl
@[simp] theorem exec_bfxs f (s) : Machine.exec (.bfxs f) s = Machine.execBfxs f s := rfl
@[simp] theorem exec_bfi f (s) : Machine.exec (.bfi f) s = Machine.execBfi f s := rfl
@[simp] theorem exec_lea f (s) : Machine.exec (.lea f) s = Machine.execLea f s := rfl
@[simp] theorem exec_ld f (s) : Machine.exec (.ld f) s = Machine.execLd f s := rfl
@[simp] theorem exec_lds f (s) : Machine.exec (.lds f) s = Machine.execLds f s := rfl
@[simp] theorem exec_st f (s) : Machine.exec (.st f) s = Machine.execSt f s := rfl
@[simp] theorem exec_ldx f (s) : Machine.exec (.ldx f) s = Machine.execLdx f s := rfl
@[simp] theorem exec_ldxs f (s) : Machine.exec (.ldxs f) s = Machine.execLdxs f s := rfl
@[simp] theorem exec_stx f (s) : Machine.exec (.stx f) s = Machine.execStx f s := rfl
@[simp] theorem exec_aspq f (s) : Machine.exec (.aspq f) s = Machine.execAspq f s := rfl
@[simp] theorem exec_aspc f (s) : Machine.exec (.aspc f) s = Machine.execAspc f s := rfl
@[simp] theorem exec_xfera f (s) : Machine.exec (.xfera f) s = Machine.execXfera f s := rfl
@[simp] theorem exec_rdcr f (s) : Machine.exec (.rdcr f) s = Machine.execRdcr f s := rfl
@[simp] theorem exec_wrcr f (s) : Machine.exec (.wrcr f) s = Machine.execWrcr f s := rfl
@[simp] theorem exec_setcr f (s) : Machine.exec (.setcr f) s = Machine.execSetcr f s := rfl
@[simp] theorem exec_clrcr f (s) : Machine.exec (.clrcr f) s = Machine.execClrcr f s := rfl
@[simp] theorem exec_addpc f (s) : Machine.exec (.addpc f) s = Machine.execAddpc f s := rfl
@[simp] theorem exec_muli f (s) : Machine.exec (.muli f) s = Machine.execMuli f s := rfl
@[simp] theorem exec_ext f (s) : Machine.exec (.ext f) s = Machine.execExt f s := rfl
@[simp] theorem exec_greq f (s) : Machine.exec (.greq f) s = Machine.execGreq f s := rfl
@[simp] theorem exec_gwr f (s) : Machine.exec (.gwr f) s = Machine.execGwr f s := rfl
@[simp] theorem exec_gwrm f (s) : Machine.exec (.gwrm f) s = Machine.execGwrm f s := rfl
@[simp] theorem exec_gtagwT f (s) : Machine.exec (.gtagwT f) s = Machine.execGtagwT f s := rfl
@[simp] theorem exec_gtagwC f (s) : Machine.exec (.gtagwC f) s = Machine.execGtagwC f s := rfl
@[simp] theorem exec_gtagq f (s) : Machine.exec (.gtagq f) s = Machine.execGtagq f s := rfl
@[simp] theorem exec_gbin f (s) : Machine.exec (.gbin f) s = Machine.execGbin f s := rfl
@[simp] theorem exec_gbdrain f (s) : Machine.exec (.gbdrain f) s = Machine.execGbdrain f s := rfl
@[simp] theorem exec_gbdrainClr f (s) : Machine.exec (.gbdrainClr f) s = Machine.execGbdrainClr f s := rfl
@[simp] theorem exec_gdedup f (s) : Machine.exec (.gdedup f) s = Machine.execGdedup f s := rfl
@[simp] theorem exec_gdedupClr f (s) : Machine.exec (.gdedupClr f) s = Machine.execGdedupClr f s := rfl
@[simp] theorem exec_gpool f (s) : Machine.exec (.gpool f) s = Machine.execGpool f s := rfl
@[simp] theorem exec_gprnd f (s) : Machine.exec (.gprnd f) s = Machine.execGprnd f s := rfl
@[simp] theorem exec_ghand f (s) : Machine.exec (.ghand f) s = Machine.execGhand f s := rfl
@[simp] theorem exec_gfence f (s) : Machine.exec (.gfence f) s = Machine.execGfence f s := rfl
@[simp] theorem exec_br f (s) : Machine.exec (.br f) s = Machine.execBr f s := rfl
@[simp] theorem exec_call f (s) : Machine.exec (.call f) s = Machine.execCall f s := rfl
@[simp] theorem exec_ret f (s) : Machine.exec (.ret f) s = Machine.execRet f s := rfl
@[simp] theorem exec_brx f (s) : Machine.exec (.brx f) s = Machine.execBrx f s := rfl
@[simp] theorem exec_loop f (s) : Machine.exec (.loop f) s = Machine.execLoop f s := rfl
@[simp] theorem exec_loopr f (s) : Machine.exec (.loopr f) s = Machine.execLoopr f s := rfl
@[simp] theorem exec_loops f (s) : Machine.exec (.loops f) s = Machine.execLoops f s := rfl
@[simp] theorem exec_waitc f (s) : Machine.exec (.waitc f) s = Machine.execWaitc f s := rfl
@[simp] theorem exec_wait f (s) : Machine.exec (.wait f) s = Machine.execWait f s := rfl
@[simp] theorem exec_fence f (s) : Machine.exec (.fence f) s = Machine.execFence f s := rfl
@[simp] theorem exec_acquire f (s) : Machine.exec (.acquire f) s = Machine.execAcquire f s := rfl
@[simp] theorem exec_acquireX f (s) : Machine.exec (.acquireX f) s = Machine.execAcquireX f s := rfl
@[simp] theorem exec_release f (s) : Machine.exec (.release f) s = Machine.execRelease f s := rfl
@[simp] theorem exec_releaseX f (s) : Machine.exec (.releaseX f) s = Machine.execReleaseX f s := rfl
@[simp] theorem exec_bind f (s) : Machine.exec (.bind f) s = Machine.execBind f s := rfl
@[simp] theorem exec_unbind f (s) : Machine.exec (.unbind f) s = Machine.execUnbind f s := rfl
@[simp] theorem exec_unbindAll f (s) : Machine.exec (.unbindAll f) s = Machine.execUnbindAll f s := rfl
@[simp] theorem exec_atom f (s) : Machine.exec (.atom f) s = Machine.execAtom f s := rfl
@[simp] theorem exec_atomnr f (s) : Machine.exec (.atomnr f) s = Machine.execAtomnr f s := rfl
@[simp] theorem exec_atomcas f (s) : Machine.exec (.atomcas f) s = Machine.execAtomcas f s := rfl
@[simp] theorem exec_join f (s) : Machine.exec (.join f) s = Machine.execJoin f s := rfl
@[simp] theorem exec_pwait f (s) : Machine.exec (.pwait f) s = Machine.execPwait f s := rfl
@[simp] theorem exec_evwait f (s) : Machine.exec (.evwait f) s = Machine.execEvwait f s := rfl
@[simp] theorem exec_yield f (s) : Machine.exec (.yield f) s = Machine.execYield f s := rfl
@[simp] theorem exec_exit f (s) : Machine.exec (.exit f) s = Machine.execExit f s := rfl
@[simp] theorem exec_trap f (s) : Machine.exec (.trap f) s = Machine.execTrap f s := rfl
@[simp] theorem exec_eret f (s) : Machine.exec (.eret f) s = Machine.execEret f s := rfl
@[simp] theorem exec_svc f (s) : Machine.exec (.svc f) s = Machine.execSvc f s := rfl
@[simp] theorem exec_bkpt f (s) : Machine.exec (.bkpt f) s = Machine.execBkpt f s := rfl
@[simp] theorem exec_plog f (s) : Machine.exec (.plog f) s = Machine.execPlog f s := rfl
@[simp] theorem exec_vmlog f (s) : Machine.exec (.vmlog f) s = Machine.execVmlog f s := rfl
@[simp] theorem exec_lci f (s) : Machine.exec (.lci f) s = Machine.execLci f s := rfl
@[simp] theorem exec_xferb f (s) : Machine.exec (.xferb f) s = Machine.execXferb f s := rfl
@[simp] theorem exec_stkclr f (s) : Machine.exec (.stkclr f) s = Machine.execStkclr f s := rfl
@[simp] theorem exec_ifence f (s) : Machine.exec (.ifence f) s = Machine.execIfence f s := rfl
@[simp] theorem exec_calwait f (s) : Machine.exec (.calwait f) s = Machine.execCalwait f s := rfl
@[simp] theorem exec_vadd f (s) : Machine.exec (.vadd f) s = Machine.execVadd f s := rfl
@[simp] theorem exec_vsub f (s) : Machine.exec (.vsub f) s = Machine.execVsub f s := rfl
@[simp] theorem exec_vmul f (s) : Machine.exec (.vmul f) s = Machine.execVmul f s := rfl
@[simp] theorem exec_vfma f (s) : Machine.exec (.vfma f) s = Machine.execVfma f s := rfl
@[simp] theorem exec_vfms f (s) : Machine.exec (.vfms f) s = Machine.execVfms f s := rfl
@[simp] theorem exec_vfnma f (s) : Machine.exec (.vfnma f) s = Machine.execVfnma f s := rfl
@[simp] theorem exec_vmin f (s) : Machine.exec (.vmin f) s = Machine.execVmin f s := rfl
@[simp] theorem exec_vmax f (s) : Machine.exec (.vmax f) s = Machine.execVmax f s := rfl
@[simp] theorem exec_vabs f (s) : Machine.exec (.vabs f) s = Machine.execVabs f s := rfl
@[simp] theorem exec_vneg f (s) : Machine.exec (.vneg f) s = Machine.execVneg f s := rfl
@[simp] theorem exec_vand f (s) : Machine.exec (.vand f) s = Machine.execVand f s := rfl
@[simp] theorem exec_vor f (s) : Machine.exec (.vor f) s = Machine.execVor f s := rfl
@[simp] theorem exec_vxor f (s) : Machine.exec (.vxor f) s = Machine.execVxor f s := rfl
@[simp] theorem exec_vandn f (s) : Machine.exec (.vandn f) s = Machine.execVandn f s := rfl
@[simp] theorem exec_vshl f (s) : Machine.exec (.vshl f) s = Machine.execVshl f s := rfl
@[simp] theorem exec_vshr f (s) : Machine.exec (.vshr f) s = Machine.execVshr f s := rfl
@[simp] theorem exec_vsra f (s) : Machine.exec (.vsra f) s = Machine.execVsra f s := rfl
@[simp] theorem exec_vcmp f (s) : Machine.exec (.vcmp f) s = Machine.execVcmp f s := rfl
@[simp] theorem exec_vsel f (s) : Machine.exec (.vsel f) s = Machine.execVsel f s := rfl
@[simp] theorem exec_vmov f (s) : Machine.exec (.vmov f) s = Machine.execVmov f s := rfl
@[simp] theorem exec_vbcst f (s) : Machine.exec (.vbcst f) s = Machine.execVbcst f s := rfl
@[simp] theorem exec_vperm f (s) : Machine.exec (.vperm f) s = Machine.execVperm f s := rfl
@[simp] theorem exec_vslide f (s) : Machine.exec (.vslide f) s = Machine.execVslide f s := rfl
@[simp] theorem exec_vzip f (s) : Machine.exec (.vzip f) s = Machine.execVzip f s := rfl
@[simp] theorem exec_vunzip f (s) : Machine.exec (.vunzip f) s = Machine.execVunzip f s := rfl
@[simp] theorem exec_vcvt f (s) : Machine.exec (.vcvt f) s = Machine.execVcvt f s := rfl
@[simp] theorem exec_vpack f (s) : Machine.exec (.vpack f) s = Machine.execVpack f s := rfl
@[simp] theorem exec_vwiden f (s) : Machine.exec (.vwiden f) s = Machine.execVwiden f s := rfl
@[simp] theorem exec_vqnt f (s) : Machine.exec (.vqnt f) s = Machine.execVqnt f s := rfl
@[simp] theorem exec_vdqnt f (s) : Machine.exec (.vdqnt f) s = Machine.execVdqnt f s := rfl
@[simp] theorem exec_vamax f (s) : Machine.exec (.vamax f) s = Machine.execVamax f s := rfl
@[simp] theorem exec_vscale f (s) : Machine.exec (.vscale f) s = Machine.execVscale f s := rfl
@[simp] theorem exec_vrsum f (s) : Machine.exec (.vrsum f) s = Machine.execVrsum f s := rfl
@[simp] theorem exec_vrmax f (s) : Machine.exec (.vrmax f) s = Machine.execVrmax f s := rfl
@[simp] theorem exec_vrmin f (s) : Machine.exec (.vrmin f) s = Machine.execVrmin f s := rfl
@[simp] theorem exec_vrdot f (s) : Machine.exec (.vrdot f) s = Machine.execVrdot f s := rfl
@[simp] theorem exec_vlacc f (s) : Machine.exec (.vlacc f) s = Machine.execVlacc f s := rfl
@[simp] theorem exec_vlarnd f (s) : Machine.exec (.vlarnd f) s = Machine.execVlarnd f s := rfl
@[simp] theorem exec_vclass f (s) : Machine.exec (.vclass f) s = Machine.execVclass f s := rfl
@[simp] theorem exec_vpopc f (s) : Machine.exec (.vpopc f) s = Machine.execVpopc f s := rfl
@[simp] theorem exec_vclz f (s) : Machine.exec (.vclz f) s = Machine.execVclz f s := rfl
@[simp] theorem exec_vmaddi f (s) : Machine.exec (.vmaddi f) s = Machine.execVmaddi f s := rfl
@[simp] theorem exec_vabsd f (s) : Machine.exec (.vabsd f) s = Machine.execVabsd f s := rfl
@[simp] theorem exec_vrcp f (s) : Machine.exec (.vrcp f) s = Machine.execVrcp f s := rfl
@[simp] theorem exec_vrsq f (s) : Machine.exec (.vrsq f) s = Machine.execVrsq f s := rfl
@[simp] theorem exec_vld f (s) : Machine.exec (.vld f) s = Machine.execVld f s := rfl
@[simp] theorem exec_vst f (s) : Machine.exec (.vst f) s = Machine.execVst f s := rfl
@[simp] theorem exec_vldx f (s) : Machine.exec (.vldx f) s = Machine.execVldx f s := rfl
@[simp] theorem exec_vstx f (s) : Machine.exec (.vstx f) s = Machine.execVstx f s := rfl
@[simp] theorem exec_vldb f (s) : Machine.exec (.vldb f) s = Machine.execVldb f s := rfl
@[simp] theorem exec_vlscale f (s) : Machine.exec (.vlscale f) s = Machine.execVlscale f s := rfl
@[simp] theorem exec_xferv f (s) : Machine.exec (.xferv f) s = Machine.execXferv f s := rfl
@[simp] theorem exec_viota f (s) : Machine.exec (.viota f) s = Machine.execViota f s := rfl
@[simp] theorem exec_vcpsgn f (s) : Machine.exec (.vcpsgn f) s = Machine.execVcpsgn f s := rfl
@[simp] theorem exec_vrint f (s) : Machine.exec (.vrint f) s = Machine.execVrint f s := rfl
@[simp] theorem exec_mset f (s) : Machine.exec (.mset f) s = Machine.execMset f s := rfl
@[simp] theorem exec_msetHi f (s) : Machine.exec (.msetHi f) s = Machine.execMsetHi f s := rfl
@[simp] theorem exec_maddM f (s) : Machine.exec (.maddM f) s = Machine.execMaddM f s := rfl
@[simp] theorem exec_mmov f (s) : Machine.exec (.mmov f) s = Machine.execMmov f s := rfl
@[simp] theorem exec_xferm f (s) : Machine.exec (.xferm f) s = Machine.execXferm f s := rfl
@[simp] theorem exec_saff f (s) : Machine.exec (.saff f) s = Machine.execSaff f s := rfl
@[simp] theorem exec_saffw f (s) : Machine.exec (.saffw f) s = Machine.execSaffw f s := rfl
@[simp] theorem exec_sind f (s) : Machine.exec (.sind f) s = Machine.execSind f s := rfl
@[simp] theorem exec_sindw f (s) : Machine.exec (.sindw f) s = Machine.execSindw f s := rfl
@[simp] theorem exec_srec f (s) : Machine.exec (.srec f) s = Machine.execSrec f s := rfl
@[simp] theorem exec_swin f (s) : Machine.exec (.swin f) s = Machine.execSwin f s := rfl
@[simp] theorem exec_smcast f (s) : Machine.exec (.smcast f) s = Machine.execSmcast f s := rfl
@[simp] theorem exec_temit f (s) : Machine.exec (.temit f) s = Machine.execTemit f s := rfl
@[simp] theorem exec_tcons f (s) : Machine.exec (.tcons f) s = Machine.execTcons f s := rfl
@[simp] theorem exec_scopy f (s) : Machine.exec (.scopy f) s = Machine.execScopy f s := rfl
@[simp] theorem exec_sfill f (s) : Machine.exec (.sfill f) s = Machine.execSfill f s := rfl
@[simp] theorem exec_scancel f (s) : Machine.exec (.scancel f) s = Machine.execScancel f s := rfl
@[simp] theorem exec_sbar f (s) : Machine.exec (.sbar f) s = Machine.execSbar f s := rfl
@[simp] theorem exec_swload f (s) : Machine.exec (.swload f) s = Machine.execSwload f s := rfl
@[simp] theorem exec_swact f (s) : Machine.exec (.swact f) s = Machine.execSwact f s := rfl
@[simp] theorem exec_cfgload f (s) : Machine.exec (.cfgload f) s = Machine.execCfgload f s := rfl
@[simp] theorem exec_cfgact f (s) : Machine.exec (.cfgact f) s = Machine.execCfgact f s := rfl
@[simp] theorem exec_afire f (s) : Machine.exec (.afire f) s = Machine.execAfire f s := rfl
@[simp] theorem exec_aflush f (s) : Machine.exec (.aflush f) s = Machine.execAflush f s := rfl
@[simp] theorem exec_adepth f (s) : Machine.exec (.adepth f) s = Machine.execAdepth f s := rfl
@[simp] theorem exec_mnopen f (s) : Machine.exec (.mnopen f) s = Machine.execMnopen f s := rfl
@[simp] theorem exec_mnfeed f (s) : Machine.exec (.mnfeed f) s = Machine.execMnfeed f s := rfl
@[simp] theorem exec_mnflush f (s) : Machine.exec (.mnflush f) s = Machine.execMnflush f s := rfl
@[simp] theorem exec_mndrain f (s) : Machine.exec (.mndrain f) s = Machine.execMndrain f s := rfl
@[simp] theorem exec_mnclose f (s) : Machine.exec (.mnclose f) s = Machine.execMnclose f s := rfl
@[simp] theorem exec_mncloseA f (s) : Machine.exec (.mncloseA f) s = Machine.execMncloseA f s := rfl
@[simp] theorem exec_nsdot f (s) : Machine.exec (.nsdot f) s = Machine.execNsdot f s := rfl
@[simp] theorem exec_launch f (s) : Machine.exec (.launch f) s = Machine.execLaunch f s := rfl
@[simp] theorem exec_spawn f (s) : Machine.exec (.spawn f) s = Machine.execSpawn f s := rfl
@[simp] theorem exec_jinit f (s) : Machine.exec (.jinit f) s = Machine.execJinit f s := rfl
@[simp] theorem exec_pgreq f (s) : Machine.exec (.pgreq f) s = Machine.execPgreq f s := rfl
@[simp] theorem exec_pgreqRel f (s) : Machine.exec (.pgreqRel f) s = Machine.execPgreqRel f s := rfl
@[simp] theorem exec_spref f (s) : Machine.exec (.spref f) s = Machine.execSpref f s := rfl
@[simp] theorem exec_grecv f (s) : Machine.exec (.grecv f) s = Machine.execGrecv f s := rfl
@[simp] theorem exec_sdual f (s) : Machine.exec (.sdual f) s = Machine.execSdual f s := rfl
@[simp] theorem exec_sstat f (s) : Machine.exec (.sstat f) s = Machine.execSstat f s := rfl
@[simp] theorem exec_lapin f (s) : Machine.exec (.lapin f) s = Machine.execLapin f s := rfl
@[simp] theorem exec_lapinRel f (s) : Machine.exec (.lapinRel f) s = Machine.execLapinRel f s := rfl
@[simp] theorem exec_publish f (s) : Machine.exec (.publish f) s = Machine.execPublish f s := rfl
@[simp] theorem exec_cfgpref f (s) : Machine.exec (.cfgpref f) s = Machine.execCfgpref f s := rfl
@[simp] theorem exec_trapEntry t (s) : Machine.exec (.trapEntry t) s = Machine.execTrapEntry t s := rfl
@[simp] theorem exec_sfpendWrite v (s) : Machine.exec (.sfpendWrite v) s = Machine.execSfpendWrite v s := rfl
@[simp] theorem exec_jobStart v (s) : Machine.exec (.jobStart v) s = Machine.execJobStart v s := rfl
@[simp] theorem exec_dramRequest r (s) : Machine.exec (.dramRequest r) s = Machine.execDramRequest r s := rfl
@[simp] theorem exec_correctableError u (s) : Machine.exec (.correctableError u) s = Machine.execCorrectableError u s := rfl
@[simp] theorem exec_uncorrectableError u (s) : Machine.exec (.uncorrectableError u) s = Machine.execUncorrectableError u s := rfl
@[simp] theorem exec_fatalError kind d idx (s) : Machine.exec (.fatalError kind d idx) s = Machine.execFatalError kind d idx s := rfl
@[simp] theorem exec_linkDown l (s) : Machine.exec (.linkDown l) s = Machine.execLinkDown l s := rfl
@[simp] theorem exec_peerAccess r (s) : Machine.exec (.peerAccess r) s = Machine.execPeerAccess r s := rfl
@[simp] theorem exec_hostWindowWrite pa data (s) : Machine.exec (.hostWindowWrite pa data) s = Machine.execHostWindowWrite pa data s := rfl
@[simp] theorem exec_tlbinvAsid asid (s) : Machine.exec (.tlbinvAsid asid) s = Machine.execTlbinvAsid asid s := rfl
@[simp] theorem exec_tlbinvRange asid npage (s) : Machine.exec (.tlbinvRange asid npage) s = Machine.execTlbinvRange asid npage s := rfl
@[simp] theorem exec_ownset v (s) : Machine.exec (.ownset v) s = Machine.execOwnset v s := rfl
@[simp] theorem exec_mailboxExtend r digest (s) : Machine.exec (.mailboxExtend r digest) s = Machine.execMailboxExtend r digest s := rfl
@[simp] theorem exec_mailboxQuote nonce (s) : Machine.exec (.mailboxQuote nonce) s = Machine.execMailboxQuote nonce s := rfl
@[simp] theorem exec_mgmtRegWrite off v (s) : Machine.exec (.mgmtRegWrite off v) s = Machine.execMgmtRegWrite off v s := rfl
@[simp] theorem exec_bringup img (s) : Machine.exec (.bringup img) s = Machine.execBringup img s := rfl
@[simp] theorem exec_linkUp l (s) : Machine.exec (.linkUp l) s = Machine.execLinkUp l s := rfl
@[simp] theorem exec_qcmdInvalidCommand cmd (s) : Machine.exec (.qcmdInvalidCommand cmd) s = Machine.execQcmdInvalidCommand cmd s := rfl
@[simp] theorem exec_pctlInvalidCommand cmd (s) : Machine.exec (.pctlInvalidCommand cmd) s = Machine.execPctlInvalidCommand cmd s := rfl
@[simp] theorem exec_bundleIssue (s) : Machine.exec (.bundleIssue) s = Machine.execBundleIssue s := rfl
@[simp] theorem exec_resultArrives (s) : Machine.exec (.resultArrives) s = Machine.execResultArrives s := rfl
@[simp] theorem exec_yieldEnd (s) : Machine.exec (.yieldEnd) s = Machine.execYieldEnd s := rfl
@[simp] theorem exec_feTimeout (s) : Machine.exec (.feTimeout) s = Machine.execFeTimeout s := rfl
@[simp] theorem exec_stepEntry (s) : Machine.exec (.stepEntry) s = Machine.execStepEntry s := rfl
@[simp] theorem exec_stepRetire (s) : Machine.exec (.stepRetire) s = Machine.execStepRetire s := rfl
@[simp] theorem exec_stepPark (s) : Machine.exec (.stepPark) s = Machine.execStepPark s := rfl
@[simp] theorem exec_queueReaderCopy (s) : Machine.exec (.queueReaderCopy) s = Machine.execQueueReaderCopy s := rfl
@[simp] theorem exec_launchRecordCheck (s) : Machine.exec (.launchRecordCheck) s = Machine.execLaunchRecordCheck s := rfl
@[simp] theorem exec_quantumGrant (s) : Machine.exec (.quantumGrant) s = Machine.execQuantumGrant s := rfl
@[simp] theorem exec_stepPlace (s) : Machine.exec (.stepPlace) s = Machine.execStepPlace s := rfl
@[simp] theorem exec_teamRelease (s) : Machine.exec (.teamRelease) s = Machine.execTeamRelease s := rfl
@[simp] theorem exec_launchComplete (s) : Machine.exec (.launchComplete) s = Machine.execLaunchComplete s := rfl
@[simp] theorem exec_qcmdEnable (s) : Machine.exec (.qcmdEnable) s = Machine.execQcmdEnable s := rfl
@[simp] theorem exec_qcmdHalt (s) : Machine.exec (.qcmdHalt) s = Machine.execQcmdHalt s := rfl
@[simp] theorem exec_qcmdResume (s) : Machine.exec (.qcmdResume) s = Machine.execQcmdResume s := rfl
@[simp] theorem exec_qcmdDestroy (s) : Machine.exec (.qcmdDestroy) s = Machine.execQcmdDestroy s := rfl
@[simp] theorem exec_qcmdDoorbell (s) : Machine.exec (.qcmdDoorbell) s = Machine.execQcmdDoorbell s := rfl
@[simp] theorem exec_queueDestroyed (s) : Machine.exec (.queueDestroyed) s = Machine.execQueueDestroyed s := rfl
@[simp] theorem exec_launchEnqueue (s) : Machine.exec (.launchEnqueue) s = Machine.execLaunchEnqueue s := rfl
@[simp] theorem exec_streamStart (s) : Machine.exec (.streamStart) s = Machine.execStreamStart s := rfl
@[simp] theorem exec_elementBlockTransfer (s) : Machine.exec (.elementBlockTransfer) s = Machine.execElementBlockTransfer s := rfl
@[simp] theorem exec_streamComplete (s) : Machine.exec (.streamComplete) s = Machine.execStreamComplete s := rfl
@[simp] theorem exec_temitSend (s) : Machine.exec (.temitSend) s = Machine.execTemitSend s := rfl
@[simp] theorem exec_circuitTransfer (s) : Machine.exec (.circuitTransfer) s = Machine.execCircuitTransfer s := rfl
@[simp] theorem exec_followOnArm (s) : Machine.exec (.followOnArm) s = Machine.execFollowOnArm s := rfl
@[simp] theorem exec_publishCounterWrite (s) : Machine.exec (.publishCounterWrite) s = Machine.execPublishCounterWrite s := rfl
@[simp] theorem exec_operatorFire (s) : Machine.exec (.operatorFire) s = Machine.execOperatorFire s := rfl
@[simp] theorem exec_tokenArrive (s) : Machine.exec (.tokenArrive) s = Machine.execTokenArrive s := rfl
@[simp] theorem exec_runStart (s) : Machine.exec (.runStart) s = Machine.execRunStart s := rfl
@[simp] theorem exec_peSwitch (s) : Machine.exec (.peSwitch) s = Machine.execPeSwitch s := rfl
@[simp] theorem exec_cfgImageLanded (s) : Machine.exec (.cfgImageLanded) s = Machine.execCfgImageLanded s := rfl
@[simp] theorem exec_edgeDepthChange (s) : Machine.exec (.edgeDepthChange) s = Machine.execEdgeDepthChange s := rfl
@[simp] theorem exec_aflushNulEnter (s) : Machine.exec (.aflushNulEnter) s = Machine.execAflushNulEnter s := rfl
@[simp] theorem exec_saveDrainQuiet (s) : Machine.exec (.saveDrainQuiet) s = Machine.execSaveDrainQuiet s := rfl
@[simp] theorem exec_mnFeedArrive (s) : Machine.exec (.mnFeedArrive) s = Machine.execMnFeedArrive s := rfl
@[simp] theorem exec_mnReady (s) : Machine.exec (.mnReady) s = Machine.execMnReady s := rfl
@[simp] theorem exec_mnDrainRun (s) : Machine.exec (.mnDrainRun) s = Machine.execMnDrainRun s := rfl
@[simp] theorem exec_mnAutoclose (s) : Machine.exec (.mnAutoclose) s = Machine.execMnAutoclose s := rfl
@[simp] theorem exec_syncOperation (s) : Machine.exec (.syncOperation) s = Machine.execSyncOperation s := rfl
@[simp] theorem exec_remoteWaiterRetry (s) : Machine.exec (.remoteWaiterRetry) s = Machine.execRemoteWaiterRetry s := rfl
@[simp] theorem exec_jobComplete (s) : Machine.exec (.jobComplete) s = Machine.execJobComplete s := rfl
@[simp] theorem exec_packetComplete (s) : Machine.exec (.packetComplete) s = Machine.execPacketComplete s := rfl
@[simp] theorem exec_handoffTake (s) : Machine.exec (.handoffTake) s = Machine.execHandoffTake s := rfl
@[simp] theorem exec_riserStart (s) : Machine.exec (.riserStart) s = Machine.execRiserStart s := rfl
@[simp] theorem exec_landingStart (s) : Machine.exec (.landingStart) s = Machine.execLandingStart s := rfl
@[simp] theorem exec_landingEnd (s) : Machine.exec (.landingEnd) s = Machine.execLandingEnd s := rfl
@[simp] theorem exec_maintOverrun (s) : Machine.exec (.maintOverrun) s = Machine.execMaintOverrun s := rfl
@[simp] theorem exec_freezeEnd (s) : Machine.exec (.freezeEnd) s = Machine.execFreezeEnd s := rfl
@[simp] theorem exec_pgrantArrive (s) : Machine.exec (.pgrantArrive) s = Machine.execPgrantArrive s := rfl
@[simp] theorem exec_preemptSave (s) : Machine.exec (.preemptSave) s = Machine.execPreemptSave s := rfl
@[simp] theorem exec_saveComplete (s) : Machine.exec (.saveComplete) s = Machine.execSaveComplete s := rfl
@[simp] theorem exec_saveDeadlineExpire (s) : Machine.exec (.saveDeadlineExpire) s = Machine.execSaveDeadlineExpire s := rfl
@[simp] theorem exec_stepRestore (s) : Machine.exec (.stepRestore) s = Machine.execStepRestore s := rfl
@[simp] theorem exec_shootdownDone (s) : Machine.exec (.shootdownDone) s = Machine.execShootdownDone s := rfl
@[simp] theorem exec_linkLossTimeout (s) : Machine.exec (.linkLossTimeout) s = Machine.execLinkLossTimeout s := rfl
@[simp] theorem exec_tlbinvAll (s) : Machine.exec (.tlbinvAll) s = Machine.execTlbinvAll s := rfl
@[simp] theorem exec_tlbinvKind3 (s) : Machine.exec (.tlbinvKind3) s = Machine.execTlbinvKind3 s := rfl
@[simp] theorem exec_pctlContext (s) : Machine.exec (.pctlContext) s = Machine.execPctlContext s := rfl
@[simp] theorem exec_pctlQueue (s) : Machine.exec (.pctlQueue) s = Machine.execPctlQueue s := rfl
@[simp] theorem exec_pctlPackageSave (s) : Machine.exec (.pctlPackageSave) s = Machine.execPctlPackageSave s := rfl
@[simp] theorem exec_synchostAdd (s) : Machine.exec (.synchostAdd) s = Machine.execSynchostAdd s := rfl
@[simp] theorem exec_synchostAnd (s) : Machine.exec (.synchostAnd) s = Machine.execSynchostAnd s := rfl
@[simp] theorem exec_synchostOr (s) : Machine.exec (.synchostOr) s = Machine.execSynchostOr s := rfl
@[simp] theorem exec_synchostXor (s) : Machine.exec (.synchostXor) s = Machine.execSynchostXor s := rfl
@[simp] theorem exec_synchostMinu (s) : Machine.exec (.synchostMinu) s = Machine.execSynchostMinu s := rfl
@[simp] theorem exec_synchostMaxu (s) : Machine.exec (.synchostMaxu) s = Machine.execSynchostMaxu s := rfl
@[simp] theorem exec_synchostMini (s) : Machine.exec (.synchostMini) s = Machine.execSynchostMini s := rfl
@[simp] theorem exec_synchostMaxi (s) : Machine.exec (.synchostMaxi) s = Machine.execSynchostMaxi s := rfl
@[simp] theorem exec_synchostSwap (s) : Machine.exec (.synchostSwap) s = Machine.execSynchostSwap s := rfl
@[simp] theorem exec_synchostRead (s) : Machine.exec (.synchostRead) s = Machine.execSynchostRead s := rfl
@[simp] theorem exec_packageResume (s) : Machine.exec (.packageResume) s = Machine.execPackageResume s := rfl
@[simp] theorem exec_debugResume (s) : Machine.exec (.debugResume) s = Machine.execDebugResume s := rfl
@[simp] theorem exec_mailboxCommit (s) : Machine.exec (.mailboxCommit) s = Machine.execMailboxCommit s := rfl
@[simp] theorem exec_mailboxExportKey (s) : Machine.exec (.mailboxExportKey) s = Machine.execMailboxExportKey s := rfl
@[simp] theorem exec_coldReset (s) : Machine.exec (.coldReset) s = Machine.execColdReset s := rfl
@[simp] theorem exec_warmReset (s) : Machine.exec (.warmReset) s = Machine.execWarmReset s := rfl
@[simp] theorem exec_anop (s) : Machine.exec (.anop) s = Machine.execAnop s := rfl
@[simp] theorem exec_bnop (s) : Machine.exec (.bnop) s = Machine.execBnop s := rfl
@[simp] theorem exec_vnop (s) : Machine.exec (.vnop) s = Machine.execVnop s := rfl
@[simp] theorem exec_mnop (s) : Machine.exec (.mnop) s = Machine.execMnop s := rfl
@[simp] theorem exec_parkedSyncComplete (s) : Machine.exec (.parkedSyncComplete) s = Machine.execParkedSyncComplete s := rfl
@[simp] theorem exec_synchostRefused (s) : Machine.exec (.synchostRefused) s = Machine.execSynchostRefused s := rfl
@[simp] theorem exec_enginePauseEnd (s) : Machine.exec (.enginePauseEnd) s = Machine.execEnginePauseEnd s := rfl

end Sys2Proof.Laws
end

