-- ==== Sys2Proof/Laws/Mem.lean ====
section
/-! SUPPORT. Laws of the keyed data of Machine/Assoc.lean: what a read gives after a write, and that every operation on
a memory keeps its canonical form. -/

namespace Sys2Proof.Laws

open Sys2Proof.Machine

variable {α : Type}

/-! ### Maps, whatever the order of their keys -/

theorem mapGet?_mapPut (m : Map α) (k j : Nat) (x : α) : mapGet? j (mapPut k x m) = if k = j then some x else mapGet? j m := by
  induction m with
  | nil => simp [mapPut, mapGet?]
  | cons e t ih =>
    obtain ⟨a, y⟩ := e
    simp only [mapPut]
    split
    · simp [mapGet?]
    · split
      · subst_vars; by_cases h : a = j <;> simp [mapGet?, h]
      · simp only [mapGet?, ih]
        by_cases h1 : a = j
        · subst h1; have : ¬ k = a := fun h => by simp_all
          simp [this]
        · simp [h1]

@[simp] theorem mapGet_mapPut_self (d : α) (m : Map α) (k : Nat) (x : α) : mapGet d (mapPut k x m) k = x := by
  simp [mapGet, mapGet?_mapPut]

theorem mapGet_mapPut_ne (d : α) (m : Map α) {k j : Nat} (x : α) (h : k ≠ j) : mapGet d (mapPut k x m) j = mapGet d m j := by
  simp [mapGet, mapGet?_mapPut, h]

theorem mapGet_mapPut (d : α) (m : Map α) (k j : Nat) (x : α) :
    mapGet d (mapPut k x m) j = if k = j then x else mapGet d m j := by
  by_cases h : k = j <;> simp [mapGet, mapGet?_mapPut, h]

@[simp] theorem mapPut_mapPut (m : Map α) (k : Nat) (x y : α) : mapPut k y (mapPut k x m) = mapPut k y m := by
  induction m with
  | nil => simp [mapPut]
  | cons e t ih =>
    obtain ⟨a, z⟩ := e
    simp only [mapPut]
    split
    · simp [mapPut]
    · split
      · simp [mapPut]
      · rename_i h1 h2; simp [mapPut, h1, h2, ih]

/-! ### Canonical form -/

section
variable [DecidableEq α] {d : α}

theorem mapWfFrom_mono {m : Map α} {lo lo' : Nat} (h : lo' ≤ lo) (w : mapWfFrom d lo m = true) : mapWfFrom d lo' m = true := by
  cases m with
  | nil => rfl
  | cons e t => obtain ⟨a, y⟩ := e; simp [mapWfFrom] at w ⊢; exact ⟨⟨by omega, w.1.2⟩, w.2⟩

theorem mapGet?_lt {m : Map α} {lo k : Nat} (w : mapWfFrom d lo m = true) (h : k < lo) : mapGet? k m = none := by
  induction m generalizing lo with
  | nil => rfl
  | cons e t ih =>
    obtain ⟨a, y⟩ := e
    simp [mapWfFrom] at w
    simp only [mapGet?]
    rw [if_neg (by omega), ih w.2 (by omega)]

theorem mapWfFrom_mapPut {m : Map α} {lo k : Nat} {x : α} (hk : lo ≤ k) (hx : x ≠ d) (w : mapWfFrom d lo m = true) :
    mapWfFrom d lo (mapPut k x m) = true := by
  induction m generalizing lo with
  | nil => simp [mapPut, mapWfFrom, hk, hx]
  | cons e t ih =>
    obtain ⟨a, y⟩ := e
    simp [mapWfFrom] at w
    simp only [mapPut]
    split
    · simp [mapWfFrom, hk, hx, w.1.2, w.2]; omega
    · split
      · subst_vars; simp [mapWfFrom, hk, hx, w.2]
      · simp [mapWfFrom, w.1.1, w.1.2]; exact ih (by omega) w.2

theorem mapWfFrom_mapDel {m : Map α} {lo k : Nat} (w : mapWfFrom d lo m = true) : mapWfFrom d lo (mapDel k m) = true := by
  induction m generalizing lo with
  | nil => rfl
  | cons e t ih =>
    obtain ⟨a, y⟩ := e
    simp [mapWfFrom] at w
    simp only [mapDel]
    split
    · exact mapWfFrom_mono (by omega) (ih w.2)
    · simp [mapWfFrom, w.1.1, w.1.2]; exact ih w.2

theorem mapGet?_mapDel (m : Map α) (k j : Nat) : mapGet? j (mapDel k m) = if k = j then none else mapGet? j m := by
  induction m with
  | nil => simp [mapDel, mapGet?]
  | cons e t ih =>
    obtain ⟨a, y⟩ := e
    simp only [mapDel]
    split
    · rename_i h
      subst h
      rw [ih]
      by_cases h : a = j <;> simp [mapGet?, h]
    · rename_i h
      simp only [mapGet?, ih]
      by_cases h1 : a = j
      · subst h1; simp [Ne.symm h]
      · simp [h1]

theorem mapWf_mapSet {m : Map α} {k : Nat} {x : α} (w : mapWf d m = true) : mapWf d (mapSet d k x m) = true := by
  unfold mapSet mapWf at *
  split
  · exact mapWfFrom_mapDel w
  · exact mapWfFrom_mapPut (Nat.zero_le _) (by assumption) w

theorem mapGet_mapSet (m : Map α) (k j : Nat) (x : α) :
    mapGet d (mapSet d k x m) j = if k = j then x else mapGet d m j := by
  unfold mapSet
  split
  · subst_vars; simp only [mapGet, mapGet?_mapDel m k j]; by_cases h : k = j <;> simp [h]
  · exact mapGet_mapPut d m k j x

theorem mapWfFrom_filter {m : Map α} {lo : Nat} (f : Nat × α → Bool) (w : mapWfFrom d lo m = true) :
    mapWfFrom d lo (m.filter f) = true := by
  induction m generalizing lo with
  | nil => rfl
  | cons e t ih =>
    obtain ⟨a, y⟩ := e
    simp [mapWfFrom] at w
    by_cases hf : f (a, y) = true
    · simp [hf, mapWfFrom, w.1.1, w.1.2]; exact ih w.2
    · simp [hf]; exact mapWfFrom_mono (by omega) (ih w.2)

end

/-! ### Memories -/

/-- A read after a write. -/
theorem read_write (m : Mem) (a b : Nat) (v : Byte) : (m.write a v).read b = if a = b then v else m.read b :=
  mapGet_mapSet m a b v

theorem wf_nil : Memory.wf [] = true := rfl

theorem wf_write {m : Mem} {a : Nat} {v : Byte} (w : Memory.wf m = true) : Memory.wf (m.write a v) = true := mapWf_mapSet w

theorem wf_writeLE {m : Mem} (a v n : Nat) (w : Memory.wf m = true) : Memory.wf (m.writeLE a v n) = true := by
  induction n generalizing m a v with
  | zero => exact w
  | succ n ih => exact ih _ _ (wf_write w)

theorem wf_writeBytes {m : Mem} (a : Nat) (l : List Byte) (w : Memory.wf m = true) : Memory.wf (m.writeBytes a l) = true := by
  induction l generalizing m a with
  | nil => exact w
  | cons b t ih => exact ih _ (wf_write w)

theorem wf_writeMasked {m : Mem} (a : Nat) (l : List (Option Byte)) (w : Memory.wf m = true) :
    Memory.wf (m.writeMasked a l) = true := by
  induction l generalizing m a with
  | nil => exact w
  | cons b t ih => cases b with
    | none => exact ih _ w
    | some b => exact ih _ (wf_write w)

theorem wf_writeCells {m : Mem} (a : Nat) (l : Mem) (w : Memory.wf m = true) : Memory.wf (m.writeCells a l) = true := by
  unfold Mem.writeCells
  induction l generalizing m with
  | nil => exact w
  | cons c t ih => exact ih (wf_write w)

theorem wf_filter {m : Mem} (f : Host.Cell → Bool) (w : Memory.wf m = true) : Memory.wf (m.filter f) = true := mapWfFrom_filter f w

theorem wf_clear {m : Mem} (a n : Nat) (w : Memory.wf m = true) : Memory.wf (m.clear a n) = true := wf_filter _ w

/-- What a masked write leaves at each address. -/
theorem read_writeMasked (m : Mem) (a b : Nat) (l : List (Option Byte)) :
    (m.writeMasked a l).read b =
      if a ≤ b ∧ b < a + l.length then ((l[b - a]?).getD none).getD (m.read b) else m.read b := by
  induction l generalizing m a with
  | nil => simp [Mem.writeMasked]
  | cons x t ih =>
    have key : ∀ m' : Mem, (∀ c, c ≠ a → m'.read c = m.read c) → m'.read a = x.getD (m.read a) →
        (m'.writeMasked (a + 1) t).read b =
          if a ≤ b ∧ b < a + (x :: t).length then (((x :: t)[b - a]?).getD none).getD (m.read b) else m.read b := by
      intro m' h1 h2
      rw [ih m' (a + 1)]
      by_cases hb : b = a
      · subst hb; simp; exact h2
      · rw [h1 b hb]
        by_cases hc : a + 1 ≤ b ∧ b < a + 1 + t.length
        · rw [if_pos hc, if_pos (by simp; omega)]
          obtain ⟨k, hk⟩ : ∃ k, b - a = k + 1 := ⟨b - a - 1, by omega⟩
          rw [hk, show b - (a + 1) = k by omega]; simp
        · rw [if_neg hc, if_neg (by simp; omega)]
    cases x with
    | none => exact key m (fun _ _ => rfl) rfl
    | some v =>
      exact key (m.write a v) (fun c hc => by rw [read_write m a c v, if_neg (Ne.symm hc)]) (by rw [read_write m a a v]; simp)

/-- A register file keeps its canonical form. -/
theorem regs_wf_write {w : Nat} {f : RegFile w} {n : Nat} {v : BitVec w} (h : mapWf 0 f = true) : mapWf 0 (f.write n v) = true :=
  mapWf_mapSet h

/-- A register read after a write. -/
theorem regs_read_write {w : Nat} (f : RegFile w) (n k : Nat) (v : BitVec w) :
    (f.write n v).read k = if n = k then v else f.read k := mapGet_mapSet f n k v

/-! ### Sets -/

theorem has_iff (s : NatSet) (j : Nat) : s.has j = true ↔ j ∈ s := by simp [NatSet.has]

theorem mem_add (s : NatSet) (k j : Nat) : j ∈ NatSet.add k s ↔ j = k ∨ j ∈ s := by
  induction s with
  | nil => simp [NatSet.add]
  | cons a t ih =>
    simp only [NatSet.add]
    split
    · exact List.mem_cons
    · split
      · subst_vars; simp
      · simp [ih, or_left_comm]

theorem has_add (s : NatSet) (k j : Nat) : (NatSet.add k s).has j = (decide (j = k) || s.has j) := by
  rw [Bool.eq_iff_iff]; simp [has_iff, mem_add]

theorem has_del (s : NatSet) (k j : Nat) : (s.del k).has j = (decide (j ≠ k) && s.has j) := by
  rw [Bool.eq_iff_iff]; simp [has_iff, NatSet.del, and_comm]

end Sys2Proof.Laws
end

