-- ==== Sys2Proof/Laws/State.lean ====
section
/-! SUPPORT. What the updates of a state leave: one lemma per field per update, and reads of a record after it is set. -/

namespace Sys2Proof.Laws

open Sys2Proof.Machine

/-! ### Fields under the setters of records -/

@[simp] theorem setCtx_ctxs (s : State) (n : Nat) (x : Ctx) : (s.setCtx n x).ctxs = mapPut n x s.ctxs := rfl
@[simp] theorem setCtx_tiles (s : State) (n : Nat) (x : Ctx) : (s.setCtx n x).tiles = s.tiles := rfl
@[simp] theorem setCtx_clusters (s : State) (n : Nat) (x : Ctx) : (s.setCtx n x).clusters = s.clusters := rfl
@[simp] theorem setCtx_gals (s : State) (n : Nat) (x : Ctx) : (s.setCtx n x).gals = s.gals := rfl
@[simp] theorem setCtx_dies (s : State) (n : Nat) (x : Ctx) : (s.setCtx n x).dies = s.dies := rfl
@[simp] theorem setCtx_mem (s : State) (n : Nat) (x : Ctx) : (s.setCtx n x).mem = s.mem := rfl
@[simp] theorem setCtx_tick (s : State) (n : Nat) (x : Ctx) : (s.setCtx n x).tick = s.tick := rfl
@[simp] theorem setCtx_landing (s : State) (n : Nat) (x : Ctx) : (s.setCtx n x).landing = s.landing := rfl
@[simp] theorem setCtx_ovr (s : State) (n : Nat) (x : Ctx) : (s.setCtx n x).ovr = s.ovr := rfl
@[simp] theorem setCtx_badPa (s : State) (n : Nat) (x : Ctx) : (s.setCtx n x).badPa = s.badPa := rfl
@[simp] theorem setCtx_held (s : State) (n : Nat) (x : Ctx) : (s.setCtx n x).held = s.held := rfl
@[simp] theorem setCtx_hostq (s : State) (n : Nat) (x : Ctx) : (s.setCtx n x).hostq = s.hostq := rfl
@[simp] theorem setCtx_win (s : State) (n : Nat) (x : Ctx) : (s.setCtx n x).win = s.win := rfl
@[simp] theorem setCtx_queues (s : State) (n : Nat) (x : Ctx) : (s.setCtx n x).queues = s.queues := rfl
@[simp] theorem setCtx_qpend (s : State) (n : Nat) (x : Ctx) : (s.setCtx n x).qpend = s.qpend := rfl
@[simp] theorem setCtx_launches (s : State) (n : Nat) (x : Ctx) : (s.setCtx n x).launches = s.launches := rfl
@[simp] theorem setCtx_launchNo (s : State) (n : Nat) (x : Ctx) : (s.setCtx n x).launchNo = s.launchNo := rfl
@[simp] theorem setCtx_quantum (s : State) (n : Nat) (x : Ctx) : (s.setCtx n x).quantum = s.quantum := rfl
@[simp] theorem setCtx_passG (s : State) (n : Nat) (x : Ctx) : (s.setCtx n x).passG = s.passG := rfl
@[simp] theorem setCtx_reqs (s : State) (n : Nat) (x : Ctx) : (s.setCtx n x).reqs = s.reqs := rfl
@[simp] theorem setCtx_pubs (s : State) (n : Nat) (x : Ctx) : (s.setCtx n x).pubs = s.pubs := rfl
@[simp] theorem setCtx_waits (s : State) (n : Nat) (x : Ctx) : (s.setCtx n x).waits = s.waits := rfl
@[simp] theorem setCtx_drawn (s : State) (n : Nat) (x : Ctx) : (s.setCtx n x).drawn = s.drawn := rfl
@[simp] theorem setCtx_slots (s : State) (n : Nat) (x : Ctx) : (s.setCtx n x).slots = s.slots := rfl
@[simp] theorem setCtx_slotKeep (s : State) (n : Nat) (x : Ctx) : (s.setCtx n x).slotKeep = s.slotKeep := rfl
@[simp] theorem setCtx_pkg (s : State) (n : Nat) (x : Ctx) : (s.setCtx n x).pkg = s.pkg := rfl
@[simp] theorem setCtx_warm (s : State) (n : Nat) (x : Ctx) : (s.setCtx n x).warm = s.warm := rfl
@[simp] theorem setCtx_stepNo (s : State) (n : Nat) (x : Ctx) : (s.setCtx n x).stepNo = s.stepNo := rfl
@[simp] theorem setCtx_pctl (s : State) (n : Nat) (x : Ctx) : (s.setCtx n x).pctl = s.pctl := rfl
@[simp] theorem setCtx_pctlAsk (s : State) (n : Nat) (x : Ctx) : (s.setCtx n x).pctlAsk = s.pctlAsk := rfl
@[simp] theorem setCtx_shoot (s : State) (n : Nat) (x : Ctx) : (s.setCtx n x).shoot = s.shoot := rfl
@[simp] theorem setCtx_down (s : State) (n : Nat) (x : Ctx) : (s.setCtx n x).down = s.down := rfl
@[simp] theorem setCtx_bridge (s : State) (n : Nat) (x : Ctx) : (s.setCtx n x).bridge = s.bridge := rfl
@[simp] theorem setCtx_poolUp (s : State) (n : Nat) (x : Ctx) : (s.setCtx n x).poolUp = s.poolUp := rfl
@[simp] theorem setCtx_errs (s : State) (n : Nat) (x : Ctx) : (s.setCtx n x).errs = s.errs := rfl
@[simp] theorem setCtx_log (s : State) (n : Nat) (x : Ctx) : (s.setCtx n x).log = s.log := rfl
@[simp] theorem setCtx_msix (s : State) (n : Nat) (x : Ctx) : (s.setCtx n x).msix = s.msix := rfl
@[simp] theorem setCtx_tests (s : State) (n : Nat) (x : Ctx) : (s.setCtx n x).tests = s.tests := rfl
@[simp] theorem setCtx_elective (s : State) (n : Nat) (x : Ctx) : (s.setCtx n x).elective = s.elective := rfl
@[simp] theorem setCtx_frozen (s : State) (n : Nat) (x : Ctx) : (s.setCtx n x).frozen = s.frozen := rfl
@[simp] theorem setCtx_trust (s : State) (n : Nat) (x : Ctx) : (s.setCtx n x).trust = s.trust := rfl
@[simp] theorem setCtx_cur (s : State) (n : Nat) (x : Ctx) : (s.setCtx n x).cur = s.cur := rfl
@[simp] theorem setCtx_unit (s : State) (n : Nat) (x : Ctx) : (s.setCtx n x).unit = s.unit := rfl
@[simp] theorem setCtx_sub (s : State) (n : Nat) (x : Ctx) : (s.setCtx n x).sub = s.sub := rfl
@[simp] theorem setCtx_agenda (s : State) (n : Nat) (x : Ctx) : (s.setCtx n x).agenda = s.agenda := rfl
@[simp] theorem setCtx_merged (s : State) (n : Nat) (x : Ctx) : (s.setCtx n x).merged = s.merged := rfl
@[simp] theorem setCtx_free (s : State) (n : Nat) (x : Ctx) : (s.setCtx n x).free = s.free := rfl

@[simp] theorem setTile_ctxs (s : State) (n : Nat) (x : Tile) : (s.setTile n x).ctxs = s.ctxs := rfl
@[simp] theorem setTile_tiles (s : State) (n : Nat) (x : Tile) : (s.setTile n x).tiles = mapPut n x s.tiles := rfl
@[simp] theorem setTile_clusters (s : State) (n : Nat) (x : Tile) : (s.setTile n x).clusters = s.clusters := rfl
@[simp] theorem setTile_gals (s : State) (n : Nat) (x : Tile) : (s.setTile n x).gals = s.gals := rfl
@[simp] theorem setTile_dies (s : State) (n : Nat) (x : Tile) : (s.setTile n x).dies = s.dies := rfl
@[simp] theorem setTile_mem (s : State) (n : Nat) (x : Tile) : (s.setTile n x).mem = s.mem := rfl
@[simp] theorem setTile_tick (s : State) (n : Nat) (x : Tile) : (s.setTile n x).tick = s.tick := rfl
@[simp] theorem setTile_landing (s : State) (n : Nat) (x : Tile) : (s.setTile n x).landing = s.landing := rfl
@[simp] theorem setTile_ovr (s : State) (n : Nat) (x : Tile) : (s.setTile n x).ovr = s.ovr := rfl
@[simp] theorem setTile_badPa (s : State) (n : Nat) (x : Tile) : (s.setTile n x).badPa = s.badPa := rfl
@[simp] theorem setTile_held (s : State) (n : Nat) (x : Tile) : (s.setTile n x).held = s.held := rfl
@[simp] theorem setTile_hostq (s : State) (n : Nat) (x : Tile) : (s.setTile n x).hostq = s.hostq := rfl
@[simp] theorem setTile_win (s : State) (n : Nat) (x : Tile) : (s.setTile n x).win = s.win := rfl
@[simp] theorem setTile_queues (s : State) (n : Nat) (x : Tile) : (s.setTile n x).queues = s.queues := rfl
@[simp] theorem setTile_qpend (s : State) (n : Nat) (x : Tile) : (s.setTile n x).qpend = s.qpend := rfl
@[simp] theorem setTile_launches (s : State) (n : Nat) (x : Tile) : (s.setTile n x).launches = s.launches := rfl
@[simp] theorem setTile_launchNo (s : State) (n : Nat) (x : Tile) : (s.setTile n x).launchNo = s.launchNo := rfl
@[simp] theorem setTile_quantum (s : State) (n : Nat) (x : Tile) : (s.setTile n x).quantum = s.quantum := rfl
@[simp] theorem setTile_passG (s : State) (n : Nat) (x : Tile) : (s.setTile n x).passG = s.passG := rfl
@[simp] theorem setTile_reqs (s : State) (n : Nat) (x : Tile) : (s.setTile n x).reqs = s.reqs := rfl
@[simp] theorem setTile_pubs (s : State) (n : Nat) (x : Tile) : (s.setTile n x).pubs = s.pubs := rfl
@[simp] theorem setTile_waits (s : State) (n : Nat) (x : Tile) : (s.setTile n x).waits = s.waits := rfl
@[simp] theorem setTile_drawn (s : State) (n : Nat) (x : Tile) : (s.setTile n x).drawn = s.drawn := rfl
@[simp] theorem setTile_slots (s : State) (n : Nat) (x : Tile) : (s.setTile n x).slots = s.slots := rfl
@[simp] theorem setTile_slotKeep (s : State) (n : Nat) (x : Tile) : (s.setTile n x).slotKeep = s.slotKeep := rfl
@[simp] theorem setTile_pkg (s : State) (n : Nat) (x : Tile) : (s.setTile n x).pkg = s.pkg := rfl
@[simp] theorem setTile_warm (s : State) (n : Nat) (x : Tile) : (s.setTile n x).warm = s.warm := rfl
@[simp] theorem setTile_stepNo (s : State) (n : Nat) (x : Tile) : (s.setTile n x).stepNo = s.stepNo := rfl
@[simp] theorem setTile_pctl (s : State) (n : Nat) (x : Tile) : (s.setTile n x).pctl = s.pctl := rfl
@[simp] theorem setTile_pctlAsk (s : State) (n : Nat) (x : Tile) : (s.setTile n x).pctlAsk = s.pctlAsk := rfl
@[simp] theorem setTile_shoot (s : State) (n : Nat) (x : Tile) : (s.setTile n x).shoot = s.shoot := rfl
@[simp] theorem setTile_down (s : State) (n : Nat) (x : Tile) : (s.setTile n x).down = s.down := rfl
@[simp] theorem setTile_bridge (s : State) (n : Nat) (x : Tile) : (s.setTile n x).bridge = s.bridge := rfl
@[simp] theorem setTile_poolUp (s : State) (n : Nat) (x : Tile) : (s.setTile n x).poolUp = s.poolUp := rfl
@[simp] theorem setTile_errs (s : State) (n : Nat) (x : Tile) : (s.setTile n x).errs = s.errs := rfl
@[simp] theorem setTile_log (s : State) (n : Nat) (x : Tile) : (s.setTile n x).log = s.log := rfl
@[simp] theorem setTile_msix (s : State) (n : Nat) (x : Tile) : (s.setTile n x).msix = s.msix := rfl
@[simp] theorem setTile_tests (s : State) (n : Nat) (x : Tile) : (s.setTile n x).tests = s.tests := rfl
@[simp] theorem setTile_elective (s : State) (n : Nat) (x : Tile) : (s.setTile n x).elective = s.elective := rfl
@[simp] theorem setTile_frozen (s : State) (n : Nat) (x : Tile) : (s.setTile n x).frozen = s.frozen := rfl
@[simp] theorem setTile_trust (s : State) (n : Nat) (x : Tile) : (s.setTile n x).trust = s.trust := rfl
@[simp] theorem setTile_cur (s : State) (n : Nat) (x : Tile) : (s.setTile n x).cur = s.cur := rfl
@[simp] theorem setTile_unit (s : State) (n : Nat) (x : Tile) : (s.setTile n x).unit = s.unit := rfl
@[simp] theorem setTile_sub (s : State) (n : Nat) (x : Tile) : (s.setTile n x).sub = s.sub := rfl
@[simp] theorem setTile_agenda (s : State) (n : Nat) (x : Tile) : (s.setTile n x).agenda = s.agenda := rfl
@[simp] theorem setTile_merged (s : State) (n : Nat) (x : Tile) : (s.setTile n x).merged = s.merged := rfl
@[simp] theorem setTile_free (s : State) (n : Nat) (x : Tile) : (s.setTile n x).free = s.free := rfl

@[simp] theorem setCluster_ctxs (s : State) (n : Nat) (x : Cluster) : (s.setCluster n x).ctxs = s.ctxs := rfl
@[simp] theorem setCluster_tiles (s : State) (n : Nat) (x : Cluster) : (s.setCluster n x).tiles = s.tiles := rfl
@[simp] theorem setCluster_clusters (s : State) (n : Nat) (x : Cluster) : (s.setCluster n x).clusters = mapPut n x s.clusters := rfl
@[simp] theorem setCluster_gals (s : State) (n : Nat) (x : Cluster) : (s.setCluster n x).gals = s.gals := rfl
@[simp] theorem setCluster_dies (s : State) (n : Nat) (x : Cluster) : (s.setCluster n x).dies = s.dies := rfl
@[simp] theorem setCluster_mem (s : State) (n : Nat) (x : Cluster) : (s.setCluster n x).mem = s.mem := rfl
@[simp] theorem setCluster_tick (s : State) (n : Nat) (x : Cluster) : (s.setCluster n x).tick = s.tick := rfl
@[simp] theorem setCluster_landing (s : State) (n : Nat) (x : Cluster) : (s.setCluster n x).landing = s.landing := rfl
@[simp] theorem setCluster_ovr (s : State) (n : Nat) (x : Cluster) : (s.setCluster n x).ovr = s.ovr := rfl
@[simp] theorem setCluster_badPa (s : State) (n : Nat) (x : Cluster) : (s.setCluster n x).badPa = s.badPa := rfl
@[simp] theorem setCluster_held (s : State) (n : Nat) (x : Cluster) : (s.setCluster n x).held = s.held := rfl
@[simp] theorem setCluster_hostq (s : State) (n : Nat) (x : Cluster) : (s.setCluster n x).hostq = s.hostq := rfl
@[simp] theorem setCluster_win (s : State) (n : Nat) (x : Cluster) : (s.setCluster n x).win = s.win := rfl
@[simp] theorem setCluster_queues (s : State) (n : Nat) (x : Cluster) : (s.setCluster n x).queues = s.queues := rfl
@[simp] theorem setCluster_qpend (s : State) (n : Nat) (x : Cluster) : (s.setCluster n x).qpend = s.qpend := rfl
@[simp] theorem setCluster_launches (s : State) (n : Nat) (x : Cluster) : (s.setCluster n x).launches = s.launches := rfl
@[simp] theorem setCluster_launchNo (s : State) (n : Nat) (x : Cluster) : (s.setCluster n x).launchNo = s.launchNo := rfl
@[simp] theorem setCluster_quantum (s : State) (n : Nat) (x : Cluster) : (s.setCluster n x).quantum = s.quantum := rfl
@[simp] theorem setCluster_passG (s : State) (n : Nat) (x : Cluster) : (s.setCluster n x).passG = s.passG := rfl
@[simp] theorem setCluster_reqs (s : State) (n : Nat) (x : Cluster) : (s.setCluster n x).reqs = s.reqs := rfl
@[simp] theorem setCluster_pubs (s : State) (n : Nat) (x : Cluster) : (s.setCluster n x).pubs = s.pubs := rfl
@[simp] theorem setCluster_waits (s : State) (n : Nat) (x : Cluster) : (s.setCluster n x).waits = s.waits := rfl
@[simp] theorem setCluster_drawn (s : State) (n : Nat) (x : Cluster) : (s.setCluster n x).drawn = s.drawn := rfl
@[simp] theorem setCluster_slots (s : State) (n : Nat) (x : Cluster) : (s.setCluster n x).slots = s.slots := rfl
@[simp] theorem setCluster_slotKeep (s : State) (n : Nat) (x : Cluster) : (s.setCluster n x).slotKeep = s.slotKeep := rfl
@[simp] theorem setCluster_pkg (s : State) (n : Nat) (x : Cluster) : (s.setCluster n x).pkg = s.pkg := rfl
@[simp] theorem setCluster_warm (s : State) (n : Nat) (x : Cluster) : (s.setCluster n x).warm = s.warm := rfl
@[simp] theorem setCluster_stepNo (s : State) (n : Nat) (x : Cluster) : (s.setCluster n x).stepNo = s.stepNo := rfl
@[simp] theorem setCluster_pctl (s : State) (n : Nat) (x : Cluster) : (s.setCluster n x).pctl = s.pctl := rfl
@[simp] theorem setCluster_pctlAsk (s : State) (n : Nat) (x : Cluster) : (s.setCluster n x).pctlAsk = s.pctlAsk := rfl
@[simp] theorem setCluster_shoot (s : State) (n : Nat) (x : Cluster) : (s.setCluster n x).shoot = s.shoot := rfl
@[simp] theorem setCluster_down (s : State) (n : Nat) (x : Cluster) : (s.setCluster n x).down = s.down := rfl
@[simp] theorem setCluster_bridge (s : State) (n : Nat) (x : Cluster) : (s.setCluster n x).bridge = s.bridge := rfl
@[simp] theorem setCluster_poolUp (s : State) (n : Nat) (x : Cluster) : (s.setCluster n x).poolUp = s.poolUp := rfl
@[simp] theorem setCluster_errs (s : State) (n : Nat) (x : Cluster) : (s.setCluster n x).errs = s.errs := rfl
@[simp] theorem setCluster_log (s : State) (n : Nat) (x : Cluster) : (s.setCluster n x).log = s.log := rfl
@[simp] theorem setCluster_msix (s : State) (n : Nat) (x : Cluster) : (s.setCluster n x).msix = s.msix := rfl
@[simp] theorem setCluster_tests (s : State) (n : Nat) (x : Cluster) : (s.setCluster n x).tests = s.tests := rfl
@[simp] theorem setCluster_elective (s : State) (n : Nat) (x : Cluster) : (s.setCluster n x).elective = s.elective := rfl
@[simp] theorem setCluster_frozen (s : State) (n : Nat) (x : Cluster) : (s.setCluster n x).frozen = s.frozen := rfl
@[simp] theorem setCluster_trust (s : State) (n : Nat) (x : Cluster) : (s.setCluster n x).trust = s.trust := rfl
@[simp] theorem setCluster_cur (s : State) (n : Nat) (x : Cluster) : (s.setCluster n x).cur = s.cur := rfl
@[simp] theorem setCluster_unit (s : State) (n : Nat) (x : Cluster) : (s.setCluster n x).unit = s.unit := rfl
@[simp] theorem setCluster_sub (s : State) (n : Nat) (x : Cluster) : (s.setCluster n x).sub = s.sub := rfl
@[simp] theorem setCluster_agenda (s : State) (n : Nat) (x : Cluster) : (s.setCluster n x).agenda = s.agenda := rfl
@[simp] theorem setCluster_merged (s : State) (n : Nat) (x : Cluster) : (s.setCluster n x).merged = s.merged := rfl
@[simp] theorem setCluster_free (s : State) (n : Nat) (x : Cluster) : (s.setCluster n x).free = s.free := rfl

@[simp] theorem setGal_ctxs (s : State) (n : Nat) (x : Gal) : (s.setGal n x).ctxs = s.ctxs := rfl
@[simp] theorem setGal_tiles (s : State) (n : Nat) (x : Gal) : (s.setGal n x).tiles = s.tiles := rfl
@[simp] theorem setGal_clusters (s : State) (n : Nat) (x : Gal) : (s.setGal n x).clusters = s.clusters := rfl
@[simp] theorem setGal_gals (s : State) (n : Nat) (x : Gal) : (s.setGal n x).gals = mapPut n x s.gals := rfl
@[simp] theorem setGal_dies (s : State) (n : Nat) (x : Gal) : (s.setGal n x).dies = s.dies := rfl
@[simp] theorem setGal_mem (s : State) (n : Nat) (x : Gal) : (s.setGal n x).mem = s.mem := rfl
@[simp] theorem setGal_tick (s : State) (n : Nat) (x : Gal) : (s.setGal n x).tick = s.tick := rfl
@[simp] theorem setGal_landing (s : State) (n : Nat) (x : Gal) : (s.setGal n x).landing = s.landing := rfl
@[simp] theorem setGal_ovr (s : State) (n : Nat) (x : Gal) : (s.setGal n x).ovr = s.ovr := rfl
@[simp] theorem setGal_badPa (s : State) (n : Nat) (x : Gal) : (s.setGal n x).badPa = s.badPa := rfl
@[simp] theorem setGal_held (s : State) (n : Nat) (x : Gal) : (s.setGal n x).held = s.held := rfl
@[simp] theorem setGal_hostq (s : State) (n : Nat) (x : Gal) : (s.setGal n x).hostq = s.hostq := rfl
@[simp] theorem setGal_win (s : State) (n : Nat) (x : Gal) : (s.setGal n x).win = s.win := rfl
@[simp] theorem setGal_queues (s : State) (n : Nat) (x : Gal) : (s.setGal n x).queues = s.queues := rfl
@[simp] theorem setGal_qpend (s : State) (n : Nat) (x : Gal) : (s.setGal n x).qpend = s.qpend := rfl
@[simp] theorem setGal_launches (s : State) (n : Nat) (x : Gal) : (s.setGal n x).launches = s.launches := rfl
@[simp] theorem setGal_launchNo (s : State) (n : Nat) (x : Gal) : (s.setGal n x).launchNo = s.launchNo := rfl
@[simp] theorem setGal_quantum (s : State) (n : Nat) (x : Gal) : (s.setGal n x).quantum = s.quantum := rfl
@[simp] theorem setGal_passG (s : State) (n : Nat) (x : Gal) : (s.setGal n x).passG = s.passG := rfl
@[simp] theorem setGal_reqs (s : State) (n : Nat) (x : Gal) : (s.setGal n x).reqs = s.reqs := rfl
@[simp] theorem setGal_pubs (s : State) (n : Nat) (x : Gal) : (s.setGal n x).pubs = s.pubs := rfl
@[simp] theorem setGal_waits (s : State) (n : Nat) (x : Gal) : (s.setGal n x).waits = s.waits := rfl
@[simp] theorem setGal_drawn (s : State) (n : Nat) (x : Gal) : (s.setGal n x).drawn = s.drawn := rfl
@[simp] theorem setGal_slots (s : State) (n : Nat) (x : Gal) : (s.setGal n x).slots = s.slots := rfl
@[simp] theorem setGal_slotKeep (s : State) (n : Nat) (x : Gal) : (s.setGal n x).slotKeep = s.slotKeep := rfl
@[simp] theorem setGal_pkg (s : State) (n : Nat) (x : Gal) : (s.setGal n x).pkg = s.pkg := rfl
@[simp] theorem setGal_warm (s : State) (n : Nat) (x : Gal) : (s.setGal n x).warm = s.warm := rfl
@[simp] theorem setGal_stepNo (s : State) (n : Nat) (x : Gal) : (s.setGal n x).stepNo = s.stepNo := rfl
@[simp] theorem setGal_pctl (s : State) (n : Nat) (x : Gal) : (s.setGal n x).pctl = s.pctl := rfl
@[simp] theorem setGal_pctlAsk (s : State) (n : Nat) (x : Gal) : (s.setGal n x).pctlAsk = s.pctlAsk := rfl
@[simp] theorem setGal_shoot (s : State) (n : Nat) (x : Gal) : (s.setGal n x).shoot = s.shoot := rfl
@[simp] theorem setGal_down (s : State) (n : Nat) (x : Gal) : (s.setGal n x).down = s.down := rfl
@[simp] theorem setGal_bridge (s : State) (n : Nat) (x : Gal) : (s.setGal n x).bridge = s.bridge := rfl
@[simp] theorem setGal_poolUp (s : State) (n : Nat) (x : Gal) : (s.setGal n x).poolUp = s.poolUp := rfl
@[simp] theorem setGal_errs (s : State) (n : Nat) (x : Gal) : (s.setGal n x).errs = s.errs := rfl
@[simp] theorem setGal_log (s : State) (n : Nat) (x : Gal) : (s.setGal n x).log = s.log := rfl
@[simp] theorem setGal_msix (s : State) (n : Nat) (x : Gal) : (s.setGal n x).msix = s.msix := rfl
@[simp] theorem setGal_tests (s : State) (n : Nat) (x : Gal) : (s.setGal n x).tests = s.tests := rfl
@[simp] theorem setGal_elective (s : State) (n : Nat) (x : Gal) : (s.setGal n x).elective = s.elective := rfl
@[simp] theorem setGal_frozen (s : State) (n : Nat) (x : Gal) : (s.setGal n x).frozen = s.frozen := rfl
@[simp] theorem setGal_trust (s : State) (n : Nat) (x : Gal) : (s.setGal n x).trust = s.trust := rfl
@[simp] theorem setGal_cur (s : State) (n : Nat) (x : Gal) : (s.setGal n x).cur = s.cur := rfl
@[simp] theorem setGal_unit (s : State) (n : Nat) (x : Gal) : (s.setGal n x).unit = s.unit := rfl
@[simp] theorem setGal_sub (s : State) (n : Nat) (x : Gal) : (s.setGal n x).sub = s.sub := rfl
@[simp] theorem setGal_agenda (s : State) (n : Nat) (x : Gal) : (s.setGal n x).agenda = s.agenda := rfl
@[simp] theorem setGal_merged (s : State) (n : Nat) (x : Gal) : (s.setGal n x).merged = s.merged := rfl
@[simp] theorem setGal_free (s : State) (n : Nat) (x : Gal) : (s.setGal n x).free = s.free := rfl

@[simp] theorem setDie_ctxs (s : State) (n : Nat) (x : Die) : (s.setDie n x).ctxs = s.ctxs := rfl
@[simp] theorem setDie_tiles (s : State) (n : Nat) (x : Die) : (s.setDie n x).tiles = s.tiles := rfl
@[simp] theorem setDie_clusters (s : State) (n : Nat) (x : Die) : (s.setDie n x).clusters = s.clusters := rfl
@[simp] theorem setDie_gals (s : State) (n : Nat) (x : Die) : (s.setDie n x).gals = s.gals := rfl
@[simp] theorem setDie_dies (s : State) (n : Nat) (x : Die) : (s.setDie n x).dies = mapPut n x s.dies := rfl
@[simp] theorem setDie_mem (s : State) (n : Nat) (x : Die) : (s.setDie n x).mem = s.mem := rfl
@[simp] theorem setDie_tick (s : State) (n : Nat) (x : Die) : (s.setDie n x).tick = s.tick := rfl
@[simp] theorem setDie_landing (s : State) (n : Nat) (x : Die) : (s.setDie n x).landing = s.landing := rfl
@[simp] theorem setDie_ovr (s : State) (n : Nat) (x : Die) : (s.setDie n x).ovr = s.ovr := rfl
@[simp] theorem setDie_badPa (s : State) (n : Nat) (x : Die) : (s.setDie n x).badPa = s.badPa := rfl
@[simp] theorem setDie_held (s : State) (n : Nat) (x : Die) : (s.setDie n x).held = s.held := rfl
@[simp] theorem setDie_hostq (s : State) (n : Nat) (x : Die) : (s.setDie n x).hostq = s.hostq := rfl
@[simp] theorem setDie_win (s : State) (n : Nat) (x : Die) : (s.setDie n x).win = s.win := rfl
@[simp] theorem setDie_queues (s : State) (n : Nat) (x : Die) : (s.setDie n x).queues = s.queues := rfl
@[simp] theorem setDie_qpend (s : State) (n : Nat) (x : Die) : (s.setDie n x).qpend = s.qpend := rfl
@[simp] theorem setDie_launches (s : State) (n : Nat) (x : Die) : (s.setDie n x).launches = s.launches := rfl
@[simp] theorem setDie_launchNo (s : State) (n : Nat) (x : Die) : (s.setDie n x).launchNo = s.launchNo := rfl
@[simp] theorem setDie_quantum (s : State) (n : Nat) (x : Die) : (s.setDie n x).quantum = s.quantum := rfl
@[simp] theorem setDie_passG (s : State) (n : Nat) (x : Die) : (s.setDie n x).passG = s.passG := rfl
@[simp] theorem setDie_reqs (s : State) (n : Nat) (x : Die) : (s.setDie n x).reqs = s.reqs := rfl
@[simp] theorem setDie_pubs (s : State) (n : Nat) (x : Die) : (s.setDie n x).pubs = s.pubs := rfl
@[simp] theorem setDie_waits (s : State) (n : Nat) (x : Die) : (s.setDie n x).waits = s.waits := rfl
@[simp] theorem setDie_drawn (s : State) (n : Nat) (x : Die) : (s.setDie n x).drawn = s.drawn := rfl
@[simp] theorem setDie_slots (s : State) (n : Nat) (x : Die) : (s.setDie n x).slots = s.slots := rfl
@[simp] theorem setDie_slotKeep (s : State) (n : Nat) (x : Die) : (s.setDie n x).slotKeep = s.slotKeep := rfl
@[simp] theorem setDie_pkg (s : State) (n : Nat) (x : Die) : (s.setDie n x).pkg = s.pkg := rfl
@[simp] theorem setDie_warm (s : State) (n : Nat) (x : Die) : (s.setDie n x).warm = s.warm := rfl
@[simp] theorem setDie_stepNo (s : State) (n : Nat) (x : Die) : (s.setDie n x).stepNo = s.stepNo := rfl
@[simp] theorem setDie_pctl (s : State) (n : Nat) (x : Die) : (s.setDie n x).pctl = s.pctl := rfl
@[simp] theorem setDie_pctlAsk (s : State) (n : Nat) (x : Die) : (s.setDie n x).pctlAsk = s.pctlAsk := rfl
@[simp] theorem setDie_shoot (s : State) (n : Nat) (x : Die) : (s.setDie n x).shoot = s.shoot := rfl
@[simp] theorem setDie_down (s : State) (n : Nat) (x : Die) : (s.setDie n x).down = s.down := rfl
@[simp] theorem setDie_bridge (s : State) (n : Nat) (x : Die) : (s.setDie n x).bridge = s.bridge := rfl
@[simp] theorem setDie_poolUp (s : State) (n : Nat) (x : Die) : (s.setDie n x).poolUp = s.poolUp := rfl
@[simp] theorem setDie_errs (s : State) (n : Nat) (x : Die) : (s.setDie n x).errs = s.errs := rfl
@[simp] theorem setDie_log (s : State) (n : Nat) (x : Die) : (s.setDie n x).log = s.log := rfl
@[simp] theorem setDie_msix (s : State) (n : Nat) (x : Die) : (s.setDie n x).msix = s.msix := rfl
@[simp] theorem setDie_tests (s : State) (n : Nat) (x : Die) : (s.setDie n x).tests = s.tests := rfl
@[simp] theorem setDie_elective (s : State) (n : Nat) (x : Die) : (s.setDie n x).elective = s.elective := rfl
@[simp] theorem setDie_frozen (s : State) (n : Nat) (x : Die) : (s.setDie n x).frozen = s.frozen := rfl
@[simp] theorem setDie_trust (s : State) (n : Nat) (x : Die) : (s.setDie n x).trust = s.trust := rfl
@[simp] theorem setDie_cur (s : State) (n : Nat) (x : Die) : (s.setDie n x).cur = s.cur := rfl
@[simp] theorem setDie_unit (s : State) (n : Nat) (x : Die) : (s.setDie n x).unit = s.unit := rfl
@[simp] theorem setDie_sub (s : State) (n : Nat) (x : Die) : (s.setDie n x).sub = s.sub := rfl
@[simp] theorem setDie_agenda (s : State) (n : Nat) (x : Die) : (s.setDie n x).agenda = s.agenda := rfl
@[simp] theorem setDie_merged (s : State) (n : Nat) (x : Die) : (s.setDie n x).merged = s.merged := rfl
@[simp] theorem setDie_free (s : State) (n : Nat) (x : Die) : (s.setDie n x).free = s.free := rfl

/-! ### The current context -/

@[simp] theorem setCx_ctxs (s : State) (c : Ctx) : (s.setCx c).ctxs = mapPut s.cur c s.ctxs := rfl
@[simp] theorem setCx_tiles (s : State) (c : Ctx) : (s.setCx c).tiles = s.tiles := rfl
@[simp] theorem setCx_clusters (s : State) (c : Ctx) : (s.setCx c).clusters = s.clusters := rfl
@[simp] theorem setCx_gals (s : State) (c : Ctx) : (s.setCx c).gals = s.gals := rfl
@[simp] theorem setCx_dies (s : State) (c : Ctx) : (s.setCx c).dies = s.dies := rfl
@[simp] theorem setCx_mem (s : State) (c : Ctx) : (s.setCx c).mem = s.mem := rfl
@[simp] theorem setCx_tick (s : State) (c : Ctx) : (s.setCx c).tick = s.tick := rfl
@[simp] theorem setCx_landing (s : State) (c : Ctx) : (s.setCx c).landing = s.landing := rfl
@[simp] theorem setCx_ovr (s : State) (c : Ctx) : (s.setCx c).ovr = s.ovr := rfl
@[simp] theorem setCx_badPa (s : State) (c : Ctx) : (s.setCx c).badPa = s.badPa := rfl
@[simp] theorem setCx_held (s : State) (c : Ctx) : (s.setCx c).held = s.held := rfl
@[simp] theorem setCx_hostq (s : State) (c : Ctx) : (s.setCx c).hostq = s.hostq := rfl
@[simp] theorem setCx_win (s : State) (c : Ctx) : (s.setCx c).win = s.win := rfl
@[simp] theorem setCx_queues (s : State) (c : Ctx) : (s.setCx c).queues = s.queues := rfl
@[simp] theorem setCx_qpend (s : State) (c : Ctx) : (s.setCx c).qpend = s.qpend := rfl
@[simp] theorem setCx_launches (s : State) (c : Ctx) : (s.setCx c).launches = s.launches := rfl
@[simp] theorem setCx_launchNo (s : State) (c : Ctx) : (s.setCx c).launchNo = s.launchNo := rfl
@[simp] theorem setCx_quantum (s : State) (c : Ctx) : (s.setCx c).quantum = s.quantum := rfl
@[simp] theorem setCx_passG (s : State) (c : Ctx) : (s.setCx c).passG = s.passG := rfl
@[simp] theorem setCx_reqs (s : State) (c : Ctx) : (s.setCx c).reqs = s.reqs := rfl
@[simp] theorem setCx_pubs (s : State) (c : Ctx) : (s.setCx c).pubs = s.pubs := rfl
@[simp] theorem setCx_waits (s : State) (c : Ctx) : (s.setCx c).waits = s.waits := rfl
@[simp] theorem setCx_drawn (s : State) (c : Ctx) : (s.setCx c).drawn = s.drawn := rfl
@[simp] theorem setCx_slots (s : State) (c : Ctx) : (s.setCx c).slots = s.slots := rfl
@[simp] theorem setCx_slotKeep (s : State) (c : Ctx) : (s.setCx c).slotKeep = s.slotKeep := rfl
@[simp] theorem setCx_pkg (s : State) (c : Ctx) : (s.setCx c).pkg = s.pkg := rfl
@[simp] theorem setCx_warm (s : State) (c : Ctx) : (s.setCx c).warm = s.warm := rfl
@[simp] theorem setCx_stepNo (s : State) (c : Ctx) : (s.setCx c).stepNo = s.stepNo := rfl
@[simp] theorem setCx_pctl (s : State) (c : Ctx) : (s.setCx c).pctl = s.pctl := rfl
@[simp] theorem setCx_pctlAsk (s : State) (c : Ctx) : (s.setCx c).pctlAsk = s.pctlAsk := rfl
@[simp] theorem setCx_shoot (s : State) (c : Ctx) : (s.setCx c).shoot = s.shoot := rfl
@[simp] theorem setCx_down (s : State) (c : Ctx) : (s.setCx c).down = s.down := rfl
@[simp] theorem setCx_bridge (s : State) (c : Ctx) : (s.setCx c).bridge = s.bridge := rfl
@[simp] theorem setCx_poolUp (s : State) (c : Ctx) : (s.setCx c).poolUp = s.poolUp := rfl
@[simp] theorem setCx_errs (s : State) (c : Ctx) : (s.setCx c).errs = s.errs := rfl
@[simp] theorem setCx_log (s : State) (c : Ctx) : (s.setCx c).log = s.log := rfl
@[simp] theorem setCx_msix (s : State) (c : Ctx) : (s.setCx c).msix = s.msix := rfl
@[simp] theorem setCx_tests (s : State) (c : Ctx) : (s.setCx c).tests = s.tests := rfl
@[simp] theorem setCx_elective (s : State) (c : Ctx) : (s.setCx c).elective = s.elective := rfl
@[simp] theorem setCx_frozen (s : State) (c : Ctx) : (s.setCx c).frozen = s.frozen := rfl
@[simp] theorem setCx_trust (s : State) (c : Ctx) : (s.setCx c).trust = s.trust := rfl
@[simp] theorem setCx_cur (s : State) (c : Ctx) : (s.setCx c).cur = s.cur := rfl
@[simp] theorem setCx_unit (s : State) (c : Ctx) : (s.setCx c).unit = s.unit := rfl
@[simp] theorem setCx_sub (s : State) (c : Ctx) : (s.setCx c).sub = s.sub := rfl
@[simp] theorem setCx_agenda (s : State) (c : Ctx) : (s.setCx c).agenda = s.agenda := rfl
@[simp] theorem setCx_merged (s : State) (c : Ctx) : (s.setCx c).merged = s.merged := rfl
@[simp] theorem setCx_free (s : State) (c : Ctx) : (s.setCx c).free = s.free := rfl

/-! ### Changes are settings -/

theorem modCx_eq (s : State) (f : Ctx → Ctx) : s.modCx f = s.setCx (f s.cx) := rfl
theorem modCtx_eq (s : State) (n : Nat) (f : Ctx → Ctx) : s.modCtx n f = s.setCtx n (f (s.ctx n)) := rfl
theorem modTile_eq (s : State) (n : Nat) (f : Tile → Tile) : s.modTile n f = s.setTile n (f (s.tile n)) := rfl
theorem modCluster_eq (s : State) (n : Nat) (f : Cluster → Cluster) : s.modCluster n f = s.setCluster n (f (s.cluster n)) := rfl
theorem modGal_eq (s : State) (n : Nat) (f : Gal → Gal) : s.modGal n f = s.setGal n (f (s.gal n)) := rfl
theorem modDie_eq (s : State) (n : Nat) (f : Die → Die) : s.modDie n f = s.setDie n (f (s.die n)) := rfl

/-! ### Reading a record after a setting -/

@[simp] theorem ctx_setCtx_self (s : State) (n : Nat) (x : Ctx) : (s.setCtx n x).ctx n = x := by
  simp [State.ctx]
theorem ctx_setCtx (s : State) (n k : Nat) (x : Ctx) : (s.setCtx n x).ctx k = if n = k then x else s.ctx k := by
  simp [State.ctx, mapGet_mapPut]
@[simp] theorem setCtx_setCtx (s : State) (n : Nat) (x y : Ctx) : (s.setCtx n x).setCtx n y = s.setCtx n y := by
  simp [State.setCtx]
@[simp] theorem tile_setCtx (s : State) (n k : Nat) (x : Ctx) : (s.setCtx n x).tile k = s.tile k := rfl
@[simp] theorem cluster_setCtx (s : State) (n k : Nat) (x : Ctx) : (s.setCtx n x).cluster k = s.cluster k := rfl
@[simp] theorem gal_setCtx (s : State) (n k : Nat) (x : Ctx) : (s.setCtx n x).gal k = s.gal k := rfl
@[simp] theorem die_setCtx (s : State) (n k : Nat) (x : Ctx) : (s.setCtx n x).die k = s.die k := rfl

@[simp] theorem tile_setTile_self (s : State) (n : Nat) (x : Tile) : (s.setTile n x).tile n = x := by
  simp [State.tile]
theorem tile_setTile (s : State) (n k : Nat) (x : Tile) : (s.setTile n x).tile k = if n = k then x else s.tile k := by
  simp [State.tile, mapGet_mapPut]
@[simp] theorem setTile_setTile (s : State) (n : Nat) (x y : Tile) : (s.setTile n x).setTile n y = s.setTile n y := by
  simp [State.setTile]
@[simp] theorem ctx_setTile (s : State) (n k : Nat) (x : Tile) : (s.setTile n x).ctx k = s.ctx k := rfl
@[simp] theorem cluster_setTile (s : State) (n k : Nat) (x : Tile) : (s.setTile n x).cluster k = s.cluster k := rfl
@[simp] theorem gal_setTile (s : State) (n k : Nat) (x : Tile) : (s.setTile n x).gal k = s.gal k := rfl
@[simp] theorem die_setTile (s : State) (n k : Nat) (x : Tile) : (s.setTile n x).die k = s.die k := rfl
@[simp] theorem cx_setTile (s : State) (n : Nat) (x : Tile) : (s.setTile n x).cx = s.cx := rfl

@[simp] theorem cluster_setCluster_self (s : State) (n : Nat) (x : Cluster) : (s.setCluster n x).cluster n = x := by
  simp [State.cluster]
theorem cluster_setCluster (s : State) (n k : Nat) (x : Cluster) : (s.setCluster n x).cluster k = if n = k then x else s.cluster k := by
  simp [State.cluster, mapGet_mapPut]
@[simp] theorem setCluster_setCluster (s : State) (n : Nat) (x y : Cluster) : (s.setCluster n x).setCluster n y = s.setCluster n y := by
  simp [State.setCluster]
@[simp] theorem ctx_setCluster (s : State) (n k : Nat) (x : Cluster) : (s.setCluster n x).ctx k = s.ctx k := rfl
@[simp] theorem tile_setCluster (s : State) (n k : Nat) (x : Cluster) : (s.setCluster n x).tile k = s.tile k := rfl
@[simp] theorem gal_setCluster (s : State) (n k : Nat) (x : Cluster) : (s.setCluster n x).gal k = s.gal k := rfl
@[simp] theorem die_setCluster (s : State) (n k : Nat) (x : Cluster) : (s.setCluster n x).die k = s.die k := rfl
@[simp] theorem cx_setCluster (s : State) (n : Nat) (x : Cluster) : (s.setCluster n x).cx = s.cx := rfl

@[simp] theorem gal_setGal_self (s : State) (n : Nat) (x : Gal) : (s.setGal n x).gal n = x := by
  simp [State.gal]
theorem gal_setGal (s : State) (n k : Nat) (x : Gal) : (s.setGal n x).gal k = if n = k then x else s.gal k := by
  simp [State.gal, mapGet_mapPut]
@[simp] theorem setGal_setGal (s : State) (n : Nat) (x y : Gal) : (s.setGal n x).setGal n y = s.setGal n y := by
  simp [State.setGal]
@[simp] theorem ctx_setGal (s : State) (n k : Nat) (x : Gal) : (s.setGal n x).ctx k = s.ctx k := rfl
@[simp] theorem tile_setGal (s : State) (n k : Nat) (x : Gal) : (s.setGal n x).tile k = s.tile k := rfl
@[simp] theorem cluster_setGal (s : State) (n k : Nat) (x : Gal) : (s.setGal n x).cluster k = s.cluster k := rfl
@[simp] theorem die_setGal (s : State) (n k : Nat) (x : Gal) : (s.setGal n x).die k = s.die k := rfl
@[simp] theorem cx_setGal (s : State) (n : Nat) (x : Gal) : (s.setGal n x).cx = s.cx := rfl

@[simp] theorem die_setDie_self (s : State) (n : Nat) (x : Die) : (s.setDie n x).die n = x := by
  simp [State.die]
theorem die_setDie (s : State) (n k : Nat) (x : Die) : (s.setDie n x).die k = if n = k then x else s.die k := by
  simp [State.die, mapGet_mapPut]
@[simp] theorem setDie_setDie (s : State) (n : Nat) (x y : Die) : (s.setDie n x).setDie n y = s.setDie n y := by
  simp [State.setDie]
@[simp] theorem ctx_setDie (s : State) (n k : Nat) (x : Die) : (s.setDie n x).ctx k = s.ctx k := rfl
@[simp] theorem tile_setDie (s : State) (n k : Nat) (x : Die) : (s.setDie n x).tile k = s.tile k := rfl
@[simp] theorem cluster_setDie (s : State) (n k : Nat) (x : Die) : (s.setDie n x).cluster k = s.cluster k := rfl
@[simp] theorem gal_setDie (s : State) (n k : Nat) (x : Die) : (s.setDie n x).gal k = s.gal k := rfl
@[simp] theorem cx_setDie (s : State) (n : Nat) (x : Die) : (s.setDie n x).cx = s.cx := rfl

@[simp] theorem cx_setCx (s : State) (c : Ctx) : (s.setCx c).cx = c := by
  simp [State.cx, State.setCx, State.ctx, State.setCtx]
@[simp] theorem setCx_setCx (s : State) (c d : Ctx) : (s.setCx c).setCx d = s.setCx d := by
  simp [State.setCx, State.setCtx]
theorem ctx_setCx (s : State) (n : Nat) (c : Ctx) : (s.setCx c).ctx n = if s.cur = n then c else s.ctx n := by
  simp [State.setCx, ctx_setCtx]
@[simp] theorem tile_setCx (s : State) (n : Nat) (c : Ctx) : (s.setCx c).tile n = s.tile n := rfl
@[simp] theorem cluster_setCx (s : State) (n : Nat) (c : Ctx) : (s.setCx c).cluster n = s.cluster n := rfl
@[simp] theorem gal_setCx (s : State) (n : Nat) (c : Ctx) : (s.setCx c).gal n = s.gal n := rfl
@[simp] theorem die_setCx (s : State) (n : Nat) (c : Ctx) : (s.setCx c).die n = s.die n := rfl
@[simp] theorem pad_setCx (s : State) (i : PadId) (c : Ctx) : (s.setCx c).pad i = s.pad i := rfl

/-! ### Scratchpads -/

@[simp] theorem pad_setPad_self (s : State) (i : PadId) (p : Pad) : (s.setPad i p).pad i = p := by
  cases i <;> simp [State.setPad, State.pad, modTile_eq, modCluster_eq, modGal_eq]
theorem pad_setPad (s : State) (i j : PadId) (p : Pad) : (s.setPad i p).pad j = if i = j then p else s.pad j := by
  cases i <;> cases j <;>
    simp [State.setPad, State.pad, modTile_eq, modCluster_eq, modGal_eq, tile_setTile, cluster_setCluster, gal_setGal] <;>
    split <;> simp_all
@[simp] theorem cx_setPad (s : State) (i : PadId) (p : Pad) : (s.setPad i p).cx = s.cx := by cases i <;> rfl
theorem setPad_setCx (s : State) (i : PadId) (p : Pad) (c : Ctx) : (s.setCx c).setPad i p = (s.setPad i p).setCx c := by
  cases i <;> rfl

@[simp] theorem setPad_ctxs (s : State) (i : PadId) (p : Pad) : (s.setPad i p).ctxs = s.ctxs := by cases i <;> rfl
@[simp] theorem setPad_dies (s : State) (i : PadId) (p : Pad) : (s.setPad i p).dies = s.dies := by cases i <;> rfl
@[simp] theorem setPad_mem (s : State) (i : PadId) (p : Pad) : (s.setPad i p).mem = s.mem := by cases i <;> rfl
@[simp] theorem setPad_tick (s : State) (i : PadId) (p : Pad) : (s.setPad i p).tick = s.tick := by cases i <;> rfl
@[simp] theorem setPad_landing (s : State) (i : PadId) (p : Pad) : (s.setPad i p).landing = s.landing := by cases i <;> rfl
@[simp] theorem setPad_ovr (s : State) (i : PadId) (p : Pad) : (s.setPad i p).ovr = s.ovr := by cases i <;> rfl
@[simp] theorem setPad_badPa (s : State) (i : PadId) (p : Pad) : (s.setPad i p).badPa = s.badPa := by cases i <;> rfl
@[simp] theorem setPad_held (s : State) (i : PadId) (p : Pad) : (s.setPad i p).held = s.held := by cases i <;> rfl
@[simp] theorem setPad_hostq (s : State) (i : PadId) (p : Pad) : (s.setPad i p).hostq = s.hostq := by cases i <;> rfl
@[simp] theorem setPad_win (s : State) (i : PadId) (p : Pad) : (s.setPad i p).win = s.win := by cases i <;> rfl
@[simp] theorem setPad_queues (s : State) (i : PadId) (p : Pad) : (s.setPad i p).queues = s.queues := by cases i <;> rfl
@[simp] theorem setPad_qpend (s : State) (i : PadId) (p : Pad) : (s.setPad i p).qpend = s.qpend := by cases i <;> rfl
@[simp] theorem setPad_launches (s : State) (i : PadId) (p : Pad) : (s.setPad i p).launches = s.launches := by cases i <;> rfl
@[simp] theorem setPad_launchNo (s : State) (i : PadId) (p : Pad) : (s.setPad i p).launchNo = s.launchNo := by cases i <;> rfl
@[simp] theorem setPad_quantum (s : State) (i : PadId) (p : Pad) : (s.setPad i p).quantum = s.quantum := by cases i <;> rfl
@[simp] theorem setPad_passG (s : State) (i : PadId) (p : Pad) : (s.setPad i p).passG = s.passG := by cases i <;> rfl
@[simp] theorem setPad_reqs (s : State) (i : PadId) (p : Pad) : (s.setPad i p).reqs = s.reqs := by cases i <;> rfl
@[simp] theorem setPad_pubs (s : State) (i : PadId) (p : Pad) : (s.setPad i p).pubs = s.pubs := by cases i <;> rfl
@[simp] theorem setPad_waits (s : State) (i : PadId) (p : Pad) : (s.setPad i p).waits = s.waits := by cases i <;> rfl
@[simp] theorem setPad_drawn (s : State) (i : PadId) (p : Pad) : (s.setPad i p).drawn = s.drawn := by cases i <;> rfl
@[simp] theorem setPad_slots (s : State) (i : PadId) (p : Pad) : (s.setPad i p).slots = s.slots := by cases i <;> rfl
@[simp] theorem setPad_slotKeep (s : State) (i : PadId) (p : Pad) : (s.setPad i p).slotKeep = s.slotKeep := by cases i <;> rfl
@[simp] theorem setPad_pkg (s : State) (i : PadId) (p : Pad) : (s.setPad i p).pkg = s.pkg := by cases i <;> rfl
@[simp] theorem setPad_warm (s : State) (i : PadId) (p : Pad) : (s.setPad i p).warm = s.warm := by cases i <;> rfl
@[simp] theorem setPad_stepNo (s : State) (i : PadId) (p : Pad) : (s.setPad i p).stepNo = s.stepNo := by cases i <;> rfl
@[simp] theorem setPad_pctl (s : State) (i : PadId) (p : Pad) : (s.setPad i p).pctl = s.pctl := by cases i <;> rfl
@[simp] theorem setPad_pctlAsk (s : State) (i : PadId) (p : Pad) : (s.setPad i p).pctlAsk = s.pctlAsk := by cases i <;> rfl
@[simp] theorem setPad_shoot (s : State) (i : PadId) (p : Pad) : (s.setPad i p).shoot = s.shoot := by cases i <;> rfl
@[simp] theorem setPad_down (s : State) (i : PadId) (p : Pad) : (s.setPad i p).down = s.down := by cases i <;> rfl
@[simp] theorem setPad_bridge (s : State) (i : PadId) (p : Pad) : (s.setPad i p).bridge = s.bridge := by cases i <;> rfl
@[simp] theorem setPad_poolUp (s : State) (i : PadId) (p : Pad) : (s.setPad i p).poolUp = s.poolUp := by cases i <;> rfl
@[simp] theorem setPad_errs (s : State) (i : PadId) (p : Pad) : (s.setPad i p).errs = s.errs := by cases i <;> rfl
@[simp] theorem setPad_log (s : State) (i : PadId) (p : Pad) : (s.setPad i p).log = s.log := by cases i <;> rfl
@[simp] theorem setPad_msix (s : State) (i : PadId) (p : Pad) : (s.setPad i p).msix = s.msix := by cases i <;> rfl
@[simp] theorem setPad_tests (s : State) (i : PadId) (p : Pad) : (s.setPad i p).tests = s.tests := by cases i <;> rfl
@[simp] theorem setPad_elective (s : State) (i : PadId) (p : Pad) : (s.setPad i p).elective = s.elective := by cases i <;> rfl
@[simp] theorem setPad_frozen (s : State) (i : PadId) (p : Pad) : (s.setPad i p).frozen = s.frozen := by cases i <;> rfl
@[simp] theorem setPad_trust (s : State) (i : PadId) (p : Pad) : (s.setPad i p).trust = s.trust := by cases i <;> rfl
@[simp] theorem setPad_cur (s : State) (i : PadId) (p : Pad) : (s.setPad i p).cur = s.cur := by cases i <;> rfl
@[simp] theorem setPad_unit (s : State) (i : PadId) (p : Pad) : (s.setPad i p).unit = s.unit := by cases i <;> rfl
@[simp] theorem setPad_sub (s : State) (i : PadId) (p : Pad) : (s.setPad i p).sub = s.sub := by cases i <;> rfl
@[simp] theorem setPad_agenda (s : State) (i : PadId) (p : Pad) : (s.setPad i p).agenda = s.agenda := by cases i <;> rfl
@[simp] theorem setPad_merged (s : State) (i : PadId) (p : Pad) : (s.setPad i p).merged = s.merged := by cases i <;> rfl
@[simp] theorem setPad_free (s : State) (i : PadId) (p : Pad) : (s.setPad i p).free = s.free := by cases i <;> rfl

end Sys2Proof.Laws
end

