-- ==== Sys2Proof/Laws/Ops.lean ====
section
/-! SUPPORT. What the shared operations of the meanings do, said once: the end of an issue, the operations with one result,
loads and stores, and the delivery of results. -/

namespace Sys2Proof.Laws

open Sys2Proof.Machine

/-! ### Outcomes -/

@[simp] theorem finish_ok (s t : State) : finish s (.ok t) = .next t := rfl
@[simp] theorem finish_trap (s : State) (t : TrapInfo) : finish s (.trap t) = .next (takeTrap t s) := rfl
@[simp] theorem finishHold_hold (s t : State) (r : Res) : finishHold s (some t) r = .next t := rfl
@[simp] theorem finishHold_ok (s t : State) : finishHold s none (.ok t) = .next (commit t) := rfl
@[simp] theorem finishHold_trap (s : State) (t : TrapInfo) : finishHold s none (.trap t) = .next (takeTrap t s) := rfl
@[simp] theorem finish_trapIn (s : State) (t : TrapInfo) (x : State) : finish s (.trapIn t x) = .next (takeTrap t x) := rfl
@[simp] theorem finishHold_trapIn (s : State) (t : TrapInfo) (x : State) : finishHold s none (.trapIn t x) = .next (takeTrap t x) := rfl

/-! ### The end of an issue -/

/-- An issue that left neither stores, control-register writes nor a final act only moves the PC and its loops. -/
theorem commit_quiet {s : State} (h1 : s.cx.buf.stores = []) (h2 : s.cx.buf.crw = []) (h3 : s.cx.buf.final = .none)
    (h4 : s.cx.buf.ev = 0) :
    commit s = s.setCx { s.cx.setLoops s.cx.buf with
      buf := {}, iss := (s.cx.setLoops s.cx.buf).iss + 1, pc := s.cx.buf.next.getD (s.cx.setLoops s.cx.buf).pc,
      stall := if s.cx.buf.lost = 0 then (s.cx.setLoops s.cx.buf).stall else max (s.cx.setLoops s.cx.buf).stall (s.tick + 1 + s.cx.buf.lost) } := by
  simp [commit, commitStores, h1, h2, h3, h4, applyFinal, modCx_eq]

/-- An issue that left nothing changes nothing but its count. -/
theorem commit_idle {s : State} (h : s.cx.buf = {}) : commit s = s.setCx { s.cx with iss := s.cx.iss + 1 } := by
  rw [commit_quiet (by simp [h]) (by simp [h]) (by simp [h]) (by simp [h])]
  simp [h, Ctx.setLoops]

theorem commit_setCx {s : State} {c : Ctx} (h : c.buf = {}) : commit (s.setCx c) = s.setCx { c with iss := c.iss + 1 } := by
  rw [commit_idle (by simpa using h)]; simp

/-! ### One result -/

theorem alu_ok {gp : BitVec 4} {rd : BitVec 6} {L : Nat} {v : W64} {s : State} (h : s.cx.guard gp = true) :
    alu gp rd L v s = .ok (s.setCx (s.cx.deliverA rd v L)) := by simp [alu, h]
theorem alu_off {gp : BitVec 4} {rd : BitVec 6} {L : Nat} {v : W64} {s : State} (h : s.cx.guard gp = false) :
    alu gp rd L v s = .ok s := by simp [alu, h]
theorem mreg_ok {gp : BitVec 4} {md : BitVec 5} {L : Nat} {v : W64} {s : State} (h : s.cx.guard gp = true) :
    mreg gp md L v s = .ok (s.setCx (s.cx.deliverM md v L)) := by simp [mreg, h]
theorem mreg_off {gp : BitVec 4} {md : BitVec 5} {L : Nat} {v : W64} {s : State} (h : s.cx.guard gp = false) :
    mreg gp md L v s = .ok s := by simp [mreg, h]

@[simp] theorem push_buf (c : Ctx) (e : Pend) : (c.push e).buf = c.buf := rfl

/-! ### Stores -/

theorem applyStores_one {s : State} {o : StoreOp} (h : (s.pad o.pad).bad = []) :
    applyStores s [o] = s.setPad o.pad
      (if o.setFull then
         (((s.pad o.pad).write o.off o.bytes).1.setFull (presentOffs o.off o.bytes)).grant (padBank o.pad o.off) (tileOf s.cur)
       else ((s.pad o.pad).write o.off o.bytes).1) := by
  simp [applyStores, Pad.write, h]

end Sys2Proof.Laws
end

