-- ==== Sys2Proof/Safety.lean ====
section
/-! DEFINITION. What claims about whole runs speak of: the invariant that every step keeps, and a safe step. -/

namespace Sys2Proof.Machine

/-- A step is safe when it answers a next state: no fault and no refusal. -/
def Safe (s : State) : Prop := ∃ t, step s = .next t

end Sys2Proof.Machine
end

