-- ==== Sys2Proof/Tests/Slice0.lean ====
section
/-! SUPPORT. Tests: words decoded, ill-formed operations refused, worked examples of the spec, and for each obligation states
and operands that meet its hypotheses. -/

namespace Sys2Proof.Tests

set_option Elab.async false

/-! ### Small states -/

/-- A live context with A registers from a1 on. -/
def withA (l : List W64) : Machine.Ctx := { life := .live, a := Machine.RegFile.fill 1 l }

/-- A machine whose current context is `c`, context 0 of tile 0. -/
def onTile (c : Machine.Ctx) (t : Machine.Tile := {}) : Machine.State := { ctxs := [(0, c)], tiles := [(0, t)] }

/-- A machine whose current context is `c`, that of gallery core 63. -/
def onCore (c : Machine.Ctx) (g : Machine.Gal := {}) : Machine.State := { ctxs := [(575, c)], gals := [(63, g)], cur := 575 }


/-- A full/empty load of an issue before the current one that waits (R293). -/
def waitingLoad : Machine.Pend :=
  { dst := .a 1, val := 0, mask := BitVec.allOnes 512, pos := 4, slot := 0, arrived := false, load := true
    fe := some { cells := [⟨.tile 0, 0, 4, 0⟩], need := true, addr := 0 } }

/-- The context, in a later issue, behind that load; and behind a store of that issue. -/
def behindLoad (c : Machine.Ctx) : Machine.Ctx := { c with iss := 1, pend := [waitingLoad] }
def behindStore (c : Machine.Ctx) : Machine.Ctx :=
  { c with iss := 1, stq := [{ pad := .tile 0, off := 0, bytes := [some 0], setFull := false, addr := 0 }] }

/-- Words of A operations, from R35 and R55, an extension each takes, and what they stand for. -/
def wordsA0 : List (W64 × Option W32 × Instr) :=
  [(0, none, .anop),
   (0x06958D05, none, .add ⟨41, 22, 13, 5⟩),
   (0x0A958D05, none, .sub ⟨41, 22, 13, 5⟩),
   (0x0E958D05, none, .and ⟨41, 22, 13, 5⟩),
   (0x12958D05, none, .or ⟨41, 22, 13, 5⟩),
   (0x16958D05, none, .xor ⟨41, 22, 13, 5⟩),
   (0x1A958D05, none, .andn ⟨41, 22, 13, 5⟩),
   (0x1E958D05, none, .shl ⟨41, 22, 13, 5⟩),
   (0x22958D05, none, .shr ⟨41, 22, 13, 5⟩),
   (0x26958D05, none, .sra ⟨41, 22, 13, 5⟩),
   (0x2A958D05, none, .min ⟨41, 22, 13, 5⟩),
   (0x2A958D15, none, .minu ⟨41, 22, 13, 5⟩),
   (0x2E958D05, none, .max ⟨41, 22, 13, 5⟩),
   (0x2E958D15, none, .maxu ⟨41, 22, 13, 5⟩),
   (0x32958005, none, .abs ⟨41, 22, 5⟩),
   (0x36958005, none, .clz ⟨41, 22, 5⟩)]

/-- Words of A operations, from R35 and R55, an extension each takes, and what they stand for. -/
def wordsA1 : List (W64 × Option W32 × Instr) :=
  [(0x3A958005, none, .popc ⟨41, 22, 5⟩),
   (0x3E958D55, none, .cmp ⟨41, 22, 13, 5, 5⟩),
   (0x4295AAB5, some 0x89ABCDEF, .addi ⟨41, 22, 683, 5, some 0x89ABCDEF⟩),
   (0x4695AAB5, none, .andi ⟨41, 22, 683, 5, none⟩),
   (0x4A95AAB5, none, .ori ⟨41, 22, 683, 5, none⟩),
   (0x4E95AAB5, none, .xori ⟨41, 22, 683, 5, none⟩),
   (0x529582D5, none, .shli ⟨41, 22, 45, 5, none⟩),
   (0x569582D5, none, .shri ⟨41, 22, 45, 5, none⟩),
   (0x5A9582D5, none, .srai ⟨41, 22, 45, 5, none⟩),
   (0x5E901555, none, .movi ⟨41, 341, 5, none⟩),
   (0x6295AAB5, none, .movhi ⟨41, 22, 683, 5, none⟩),
   (0x66958D05, none, .mul ⟨41, 22, 13, 5⟩),
   (0x6A958D05, none, .mulh ⟨41, 22, 13, 5⟩),
   (0x6A958D15, none, .mulhu ⟨41, 22, 13, 5⟩),
   (0x6A958D25, none, .mulhsu ⟨41, 22, 13, 5⟩),
   (0x6E958D05, none, .madd ⟨41, 22, 13, 5⟩)]

/-- Words of A operations, from R35 and R55, an extension each takes, and what they stand for. -/
def wordsA2 : List (W64 × Option W32 × Instr) :=
  [(0x72958D05, none, .sel ⟨41, 22, 13, 5⟩),
   (0x76958D05, none, .bfx ⟨41, 22, 13, 5⟩),
   (0x76958D15, none, .bfxs ⟨41, 22, 13, 5⟩),
   (0x7A958D05, none, .bfi ⟨41, 22, 13, 5⟩),
   (0x7E958D65, none, .lea ⟨41, 22, 13, 6, 5⟩),
   (0x8295ABA5, some 0x89ABCDEF, .ld ⟨41, 22, 43, 2, 2, 5, some 0x89ABCDEF⟩),
   (0x8695AB95, none, .lds ⟨41, 22, 43, 2, 1, 5, none⟩),
   (0x8A95AB95, none, .st ⟨41, 22, 43, 2, 1, 5, none⟩),
   (0x8E958DA5, none, .ldx ⟨41, 22, 13, 2, 2, 5⟩),
   (0x92958D95, none, .ldxs ⟨41, 22, 13, 2, 1, 5⟩),
   (0x96958D95, none, .stx ⟨41, 22, 13, 2, 1, 5⟩),
   (0x9A958D05, none, .aspq ⟨41, 22, 13, 5⟩),
   (0x9E9580C5, none, .aspc ⟨41, 22, 12, 5⟩),
   (0xA2934D75, none, .xfera ⟨41, 0, 422, 23, 5⟩),
   (0xA4900125, none, .rdcr ⟨9, 18, 5⟩),
   (0xA8024125, none, .wrcr ⟨9, 18, 5⟩)]

/-- Words of A operations, from R35 and R55, an extension each takes, and what they stand for. -/
def wordsA3 : List (W64 × Option W32 × Instr) :=
  [(0xAC024125, none, .setcr ⟨9, 18, 5⟩),
   (0xB0024125, none, .clrcr ⟨9, 18, 5⟩),
   (0xB6901555, none, .addpc ⟨41, 341, 5, none⟩),
   (0xBA95AAB5, none, .muli ⟨41, 22, 683, 5, none⟩),
   (0xBE958065, none, .ext ⟨41, 22, 6, 5⟩),
   (0xC2958DB5, none, .greq ⟨41, 22, 13, 11, 5⟩),
   (0xC6958D75, none, .gwr ⟨41, 22, 13, 7, 5⟩),
   (0xCA958D65, none, .gwrm ⟨41, 22, 13, 6, 5⟩),
   (0xCE958005, none, .gtagwT ⟨41, 22, 5⟩),
   (0xCE958015, none, .gtagwC ⟨41, 22, 5⟩),
   (0xD2958005, none, .gtagq ⟨41, 22, 5⟩),
   (0xD6958D05, none, .gbin ⟨41, 22, 13, 5⟩),
   (0xDA900005, none, .gbdrain ⟨41, 5⟩),
   (0xDA900015, none, .gbdrainClr ⟨41, 5⟩),
   (0xDE958005, none, .gdedup ⟨41, 22, 5⟩),
   (0xDE900015, none, .gdedupClr ⟨41, 5⟩)]

/-- Words of A operations, from R35 and R55, an extension each takes, and what they stand for. -/
def wordsA4 : List (W64 × Option W32 × Instr) :=
  [(0xE0058D35, none, .gpool ⟨22, 13, 3, 5⟩),
   (0xE4058D85, none, .gprnd ⟨22, 13, 8, 5⟩),
   (0xEA958DD5, none, .ghand ⟨41, 22, 13, 13, 5⟩),
   (0xEC058005, none, .gfence ⟨22, 5⟩)]

/-- Every A operation has a word that decodes to it. -/
theorem test_decode_a_words :
    ∀ x ∈ wordsA0 ++ wordsA1 ++ wordsA2 ++ wordsA3 ++ wordsA4, decodeSlot .a x.1 x.2.1 = .ok x.2.2 := by decide +kernel

/-- Words of V operations, from R35 and R56, an extension each takes, and what they stand for. -/
def wordsV0 : List (W64 × Option W32 × Instr) :=
  [(0, none, .vnop),
   (0x01AABCC000099004, some 0x89ABCDEF, .vadd ⟨341, 243, 0, 0, 9, 9, 0, 0, 1, some 0x89ABCDEF⟩),
   (0x02AABCF4C0092600, none, .vsub ⟨341, 243, 422, 0, 9, 2, 3, 0, 0, none⟩),
   (0x03AABCF4C0092600, none, .vmul ⟨341, 243, 422, 0, 9, 2, 3, 0, 0, none⟩),
   (0x04AABCF4CCD92600, none, .vfma ⟨341, 243, 422, 205, 9, 2, 3, 0, 0, none⟩),
   (0x05AABCF4CCD92600, none, .vfms ⟨341, 243, 422, 205, 9, 2, 3, 0, 0, none⟩),
   (0x06AABCF4CCD92600, none, .vfnma ⟨341, 243, 422, 205, 9, 2, 3, 0, 0, none⟩),
   (0x07AABCF4C0092000, none, .vmin ⟨341, 243, 422, 0, 9, 2, 0, 0, 0, none⟩),
   (0x08AABCF4C0092000, none, .vmax ⟨341, 243, 422, 0, 9, 2, 0, 0, 0, none⟩),
   (0x09AABCC000092000, none, .vabs ⟨341, 243, 0, 0, 9, 2, 0, 0, 0, none⟩),
   (0x0AAABCC000092000, none, .vneg ⟨341, 243, 0, 0, 9, 2, 0, 0, 0, none⟩),
   (0x0BAABCF4C0092000, none, .vand ⟨341, 243, 422, 0, 9, 2, 0, 0, 0, none⟩),
   (0x0CAABCF4C0092000, none, .vor ⟨341, 243, 422, 0, 9, 2, 0, 0, 0, none⟩),
   (0x0DAABCF4C0092000, none, .vxor ⟨341, 243, 422, 0, 9, 2, 0, 0, 0, none⟩),
   (0x0EAABCF4C0092000, none, .vandn ⟨341, 243, 422, 0, 9, 2, 0, 0, 0, none⟩),
   (0x0FAABCF4C0097000, none, .vshl ⟨341, 243, 422, 0, 9, 7, 0, 0, 0, none⟩)]

/-- Words of V operations, from R35 and R56, an extension each takes, and what they stand for. -/
def wordsV1 : List (W64 × Option W32 × Instr) :=
  [(0x10AABCF4C0097000, none, .vshr ⟨341, 243, 422, 0, 9, 7, 0, 0, 0, none⟩),
   (0x11AABCF4C0097000, none, .vsra ⟨341, 243, 422, 0, 9, 7, 0, 0, 0, none⟩),
   (0x12AABCF4C0092018, none, .vcmp ⟨341, 243, 422, 0, 9, 2, 0, 0, 6, none⟩),
   (0x13AABCF4CCD92000, none, .vsel ⟨341, 243, 422, 205, 9, 2, 0, 0, 0, none⟩),
   (0x14AABCC00009E000, none, .vmov ⟨341, 243, 0, 0, 9, 14, 0, 0, 0, none⟩),
   (0x15AABCC00009207C, none, .vbcst ⟨341, 243, 0, 0, 9, 2, 0, 0, 31, none⟩),
   (0x16AABCF4CCD92000, none, .vperm ⟨341, 243, 422, 205, 9, 2, 0, 0, 0, none⟩),
   (0x17AABCF4C0092044, none, .vslide ⟨341, 243, 422, 0, 9, 2, 0, 0, 17, none⟩),
   (0x18AABCF4C0092004, none, .vzip ⟨341, 243, 422, 0, 9, 2, 0, 0, 1, none⟩),
   (0x19AABCF4C0092004, none, .vunzip ⟨341, 243, 422, 0, 9, 2, 0, 0, 1, none⟩),
   (0x1AAABCC000093108, none, .vcvt ⟨341, 243, 0, 0, 9, 3, 0, 1, 2, none⟩),
   (0x1BAABCC000091440, none, .vpack ⟨341, 243, 0, 0, 9, 1, 2, 0, 16, none⟩),
   (0x1CAABCC000090244, none, .vwiden ⟨341, 243, 0, 0, 9, 0, 1, 0, 17, none⟩),
   (0x1DAABCF4C0093904, none, .vqnt ⟨341, 243, 422, 0, 9, 3, 4, 1, 1, none⟩),
   (0x1EAABCF4C00900D4, none, .vdqnt ⟨341, 243, 422, 0, 9, 0, 0, 0, 53, none⟩),
   (0x1FAABCC000001010, none, .vamax ⟨341, 243, 0, 0, 0, 1, 0, 0, 4, none⟩)]

/-- Words of V operations, from R35 and R56, an extension each takes, and what they stand for. -/
def wordsV2 : List (W64 × Option W32 × Instr) :=
  [(0x20AABCF4C0092600, none, .vscale ⟨341, 243, 422, 0, 9, 2, 3, 0, 0, none⟩),
   (0x21AABCC000092600, none, .vrsum ⟨341, 243, 0, 0, 9, 2, 3, 0, 0, none⟩),
   (0x22AABCC000092000, none, .vrmax ⟨341, 243, 0, 0, 9, 2, 0, 0, 0, none⟩),
   (0x23AABCC000092000, none, .vrmin ⟨341, 243, 0, 0, 9, 2, 0, 0, 0, none⟩),
   (0x24AABCF4C0092600, none, .vrdot ⟨341, 243, 422, 0, 9, 2, 3, 0, 0, none⟩),
   (0x25AABCC00009E088, none, .vlacc ⟨341, 243, 0, 0, 9, 14, 0, 0, 34, none⟩),
   (0x26AABCC000093900, none, .vlarnd ⟨341, 243, 0, 0, 9, 3, 4, 1, 0, none⟩),
   (0x27AABCC000092000, none, .vclass ⟨341, 243, 0, 0, 9, 2, 0, 0, 0, none⟩),
   (0x28AABCC000097000, none, .vpopc ⟨341, 243, 0, 0, 9, 7, 0, 0, 0, none⟩),
   (0x29AABCC000097000, none, .vclz ⟨341, 243, 0, 0, 9, 7, 0, 0, 0, none⟩),
   (0x2AAABCF4CCD97000, none, .vmaddi ⟨341, 243, 422, 205, 9, 7, 0, 0, 0, none⟩),
   (0x2BAABCF4C0092600, none, .vabsd ⟨341, 243, 422, 0, 9, 2, 3, 0, 0, none⟩),
   (0x2CAABCC000092600, none, .vrcp ⟨341, 243, 0, 0, 9, 2, 3, 0, 0, none⟩),
   (0x2DAABCC000092600, none, .vrsq ⟨341, 243, 0, 0, 9, 2, 3, 0, 0, none⟩),
   (0x2EAABCC012C9E4AE, some 0x89ABCDEF, .vld ⟨341, 243, 0, 300, 9, 14, 2, 0, 43, 2, some 0x89ABCDEF⟩),
   (0x2FAABCC012C924AD, none, .vst ⟨341, 243, 0, 300, 9, 2, 2, 0, 43, 1, none⟩)]

/-- Words of V operations, from R35 and R56, an extension each takes, and what they stand for. -/
def wordsV3 : List (W64 × Option W32 × Instr) :=
  [(0x30AABCF4D2C922AE, none, .vldx ⟨341, 243, 422, 300, 9, 2, 1, 0, 43, 2, none⟩),
   (0x31AABCF4D2C920AD, none, .vstx ⟨341, 243, 422, 300, 9, 2, 0, 0, 43, 1, none⟩),
   (0x32AABCC012C924AD, none, .vldb ⟨341, 243, 0, 300, 9, 2, 2, 0, 43, 1, none⟩),
   (0x33AABCC000008000, none, .vlscale ⟨341, 243, 0, 0, 0, 8, 0, 0, 0, none⟩),
   (0x34AACB3000092000, none, .xferv ⟨341, 37, 19, 0, 9, 2⟩),
   (0x35AA800000097000, none, .viota ⟨341, 0, 0, 0, 9, 7, 0, 0, 0, none⟩),
   (0x36AABCF4C0092000, none, .vcpsgn ⟨341, 243, 422, 0, 9, 2, 0, 0, 0, none⟩),
   (0x37AABCC000092600, none, .vrint ⟨341, 243, 0, 0, 9, 2, 3, 0, 0, none⟩)]

/-- Every V operation has a word that decodes to it. -/
theorem test_decode_v_words :
    ∀ x ∈ wordsV0 ++ wordsV1 ++ wordsV2 ++ wordsV3, decodeSlot .v x.1 x.2.1 = .ok x.2.2 := by decide +kernel

/-- Words of M operations, from R35 and R57, an extension each takes, and what they stand for. -/
def wordsM0 : List (W64 × Option W32 × Instr) :=
  [(0, none, .mnop),
   (0x01A8000280000155, some 0x89ABCDEF, .mset ⟨21, 0, 0, 0, 5, 341, some 0x89ABCDEF⟩),
   (0x01A8000A80000155, none, .msetHi ⟨21, 0, 0, 1, 5, 341, none⟩),
   (0x02AB9A0A80000000, none, .maddM ⟨21, 14, 13, 1, 5, 0, none⟩),
   (0x03AB800280000000, none, .mmov ⟨21, 14, 0, 0, 5, 0, none⟩),
   (0x04AAA00280000000, none, .xferm ⟨21, 21, 5, none⟩),
   (0x059B6975AC3D0155, some 0x89ABCDEF, .saff ⟨19, 13, 10, 11, 43, 5, 33, 29, 341, some 0x89ABCDEF⟩),
   (0x069B6B75AC000155, none, .saffw ⟨19, 13, 10, 27, 43, 5, 32, 0, 341, none⟩),
   (0x079B6975ACC00155, none, .sind ⟨19, 13, 10, 11, 43, 5, 38, 0, 341, none⟩),
   (0x089B6B75A8000155, none, .sindw ⟨19, 13, 10, 27, 43, 5, 0, 0, 341, none⟩),
   (0x099828E028A0000B, none, .srec ⟨19, 0, 10, 7, 0, 5, 5, 0, 11, none⟩),
   (0x0A9B68D5A8400155, none, .swin ⟨19, 13, 10, 6, 43, 5, 2, 0, 341, none⟩),
   (0x0B9B68B5A8C00155, none, .smcast ⟨19, 13, 10, 5, 43, 5, 6, 0, 341, none⟩),
   (0x0C03680028000A5C, none, .temit ⟨0, 13, 10, 0, 0, 5, 0, 0, 2652, none⟩),
   (0x0D9800002800000D, none, .tcons ⟨19, 0, 0, 0, 0, 5, 0, 0, 13, none⟩),
   (0x0E9B6815AC800155, none, .scopy ⟨19, 13, 10, 0, 43, 5, 36, 0, 341, none⟩)]

/-- Words of M operations, from R35 and R57, an extension each takes, and what they stand for. -/
def wordsM1 : List (W64 × Option W32 × Instr) :=
  [(0x0F9B6815AC000155, none, .sfill ⟨19, 13, 10, 0, 43, 5, 32, 0, 341, none⟩),
   (0x1000280028000000, none, .scancel ⟨0, 0, 10, 0, 0, 5, 0, 0, 0, none⟩),
   (0x1100003280000155, none, .sbar ⟨0, 0, 0, 6, 5, 341, none⟩),
   (0x1203800280000000, none, .swload ⟨0, 14, 0, 0, 5, 0, none⟩),
   (0x1300000280000000, none, .swact ⟨0, 0, 0, 0, 5, 0, none⟩),
   (0x1403800A80000000, none, .cfgload ⟨0, 14, 0, 1, 5, 0, none⟩),
   (0x1500000A80000000, none, .cfgact ⟨0, 0, 0, 1, 5, 0, none⟩),
   (0x1600005A80000000, none, .afire ⟨0, 0, 0, 11, 5, 0, none⟩),
   (0x1700003280000000, none, .aflush ⟨0, 0, 0, 6, 5, 0, none⟩),
   (0x1800000280000155, none, .adepth ⟨0, 0, 0, 0, 5, 341, none⟩),
   (0x1903801280000000, none, .mnopen ⟨0, 14, 0, 2, 5, 0, none⟩),
   (0x1A9B6815A8C00155, none, .mnfeed ⟨19, 13, 10, 0, 43, 5, 6, 0, 341, none⟩),
   (0x1B00000280000000, none, .mnflush ⟨0, 0, 0, 0, 5, 0, none⟩),
   (0x1C9B6815A8200155, none, .mndrain ⟨19, 13, 10, 0, 43, 5, 1, 0, 341, none⟩),
   (0x1D00000280000000, none, .mnclose ⟨0, 0, 0, 0, 5, 0, none⟩),
   (0x1D00000A80000000, none, .mncloseA ⟨0, 0, 0, 1, 5, 0, none⟩)]

/-- Words of M operations, from R35 and R57, an extension each takes, and what they stand for. -/
def wordsM2 : List (W64 × Option W32 × Instr) :=
  [(0x1E9B6815A8000155, none, .nsdot ⟨19, 13, 10, 0, 43, 5, 0, 0, 341, none⟩),
   (0x1F038002800001A5, none, .launch ⟨0, 14, 0, 0, 5, 421, none⟩),
   (0x20039A0A80000155, none, .spawn ⟨0, 14, 13, 1, 5, 341, none⟩),
   (0x2100000280000155, none, .jinit ⟨0, 0, 0, 0, 5, 341, none⟩),
   (0x2200001280000000, none, .pgreq ⟨0, 0, 0, 2, 5, 0, none⟩),
   (0x2200003280000000, none, .pgreqRel ⟨0, 0, 0, 6, 5, 0, none⟩),
   (0x239B6815A8000155, none, .spref ⟨19, 13, 10, 0, 43, 5, 0, 0, 341, none⟩),
   (0x249B6815AC400155, none, .grecv ⟨19, 13, 10, 0, 43, 5, 34, 0, 341, none⟩),
   (0x259B6815AC800155, none, .sdual ⟨19, 13, 10, 0, 43, 5, 36, 0, 341, none⟩),
   (0x26A8008280000000, none, .sstat ⟨21, 0, 0, 16, 5, 0, none⟩),
   (0x2703800280000000, none, .lapin ⟨0, 14, 0, 0, 5, 0, none⟩),
   (0x2700000A80000000, none, .lapinRel ⟨0, 0, 0, 1, 5, 0, none⟩),
   (0x28039A0280000000, none, .publish ⟨0, 14, 13, 0, 5, 0, none⟩),
   (0x2903800280000000, none, .cfgpref ⟨0, 14, 0, 0, 5, 0, none⟩)]

/-- Every M operation has a word that decodes to it. -/
theorem test_decode_m_words :
    ∀ x ∈ wordsM0 ++ wordsM1 ++ wordsM2, decodeSlot .m x.1 x.2.1 = .ok x.2.2 := by decide +kernel

/-- Words of B operations, from R35 and R58, an extension each takes, and what they stand for. -/
def wordsB0 : List (W64 × Option W32 × Instr) :=
  [(0, none, .bnop),
   (0x0560012C, some 0x89ABCDEF, .br ⟨5, 1, 300, some 0x89ABCDEF⟩),
   (0x0960012C, none, .call ⟨5, 1, 300, none⟩),
   (0x0D600000, none, .ret ⟨5, 1⟩),
   (0x11600000, none, .brx ⟨5, 1⟩),
   (0x16A5C3A1, some 0x89ABCDEF, .loop ⟨2, 2652, 929, some 0x89ABCDEF⟩),
   (0x1A0003A1, none, .loopr ⟨2, 929, none⟩),
   (0x1E0063A1, none, .loops ⟨2, 6, 929, none⟩),
   (0x214359CF, none, .waitc ⟨5, 3, 5, 9, 12, 15⟩),
   (0x25721904, some 0x89ABCDEF, .wait ⟨5, 1, 9, 0, 12, 1, 4, some 0x89ABCDEF⟩),
   (0x29600004, none, .fence ⟨5, 1, 4⟩),
   (0x2D72D901, none, .acquire ⟨5, 1, 9, 6, 12, 1, 1, none⟩),
   (0x2D720002, none, .acquireX ⟨5, 1, 9⟩),
   (0x3172C101, none, .release ⟨5, 1, 9, 6, 1, 1, none⟩),
   (0x31720002, none, .releaseX ⟨5, 1, 9⟩),
   (0x3572D804, none, .bind ⟨5, 1, 9, 6, 12, 4⟩)]

/-- Words of B operations, from R35 and R58, an extension each takes, and what they stand for. -/
def wordsB1 : List (W64 × Option W32 × Instr) :=
  [(0x39720000, none, .unbind ⟨5, 1, 9⟩),
   (0x39600001, none, .unbindAll ⟨5, 1⟩),
   (0x3D721908, some 0x89ABCDEF, .atom ⟨5, 1, 9, 0, 12, 1, 8, some 0x89ABCDEF⟩),
   (0x4172C107, none, .atomnr ⟨5, 1, 9, 6, 1, 7, none⟩),
   (0x4572D800, none, .atomcas ⟨5, 1, 9, 6, 12⟩),
   (0x49600000, none, .join ⟨5, 1⟩),
   (0x4D600001, none, .pwait ⟨5, 1, 0, 1⟩),
   (0x516000A6, none, .evwait ⟨5, 1, 166⟩),
   (0x55600135, none, .yield ⟨5, 1, 309, none⟩),
   (0x59600135, none, .exit ⟨5, 1, 309⟩),
   (0x5D600135, none, .trap ⟨5, 1, 309⟩),
   (0x61600001, none, .eret ⟨5, 1, 1⟩),
   (0x65721935, none, .svc ⟨5, 1, 9, 12, 309⟩),
   (0x69600135, none, .bkpt ⟨5, 1, 309⟩),
   (0x6D72D806, none, .plog ⟨5, 1, 9, 6, 12, 6⟩),
   (0x7172D806, none, .vmlog ⟨5, 1, 9, 6, 12, 6⟩)]

/-- Words of B operations, from R35 and R58, an extension each takes, and what they stand for. -/
def wordsB2 : List (W64 × Option W32 × Instr) :=
  [(0x76A5C000, some 0xFEDCBA98, .lci ⟨2, 2652, some 0xFEDCBA98⟩),
   (0x79BE9A40, none, .xferb ⟨1, 11, 1, 422, 9⟩),
   (0x7D600000, none, .stkclr ⟨5, 1⟩),
   (0x81600000, none, .ifence ⟨5, 1⟩),
   (0x85600135, none, .calwait ⟨5, 1, 309, none⟩)]

/-- Every B operation has a word that decodes to it. -/
theorem test_decode_b_words :
    ∀ x ∈ wordsB0 ++ wordsB1 ++ wordsB2, decodeSlot .b x.1 x.2.1 = .ok x.2.2 := by decide +kernel

/-! ### Witnesses: A-slot operations -/

/-- A guard holds, at the bounds of a shift immediate and of LEA's scale. -/
theorem witness_AluResults : (onTile (withA [1])).cx.guard 0 = true ∧ ((63 : BitVec 10).signExtend 64).toNat < 64 ∧
    (6 : BitVec 4).toNat ≤ 6 ∧ (match some (63 : W32) with | none => (0 : W64) | some e => e.signExtend 64).toNat < 64 := by
  decide +kernel

/-- Context 511, whose private window is the top KiB of its tile's scratchpad, with the last granule full and its last byte
negative; a1 points at the last 8 bytes of the window. -/
def sLoad (full : Bool) : Machine.State :=
  { ctxs := [(511, { withA [0x80000000000003F8, 8] with crs := [(0x34, 0x10003FC00)], ld := 4094, st := 4094 })], cur := 511
    tiles := [(255, { pad := { mem := [(0x3FFFF, 0x80)], full := if full then [0x3FFF] else [] } })] }

/-- A load at the end of the private window, in both states of its granule, and one by an index; LDS of a negative value. -/
theorem witness_ScalarLoadResults :
    let s := sLoad true
    let l : Machine.PadLoc := ⟨.tile 255, 0x3FFF8⟩
    s.cx.buf = {} ∧ s.cx.ld < 4095 ∧ s.cur < 512 ∧ s.cx.guard 0 = true ∧ s.cx.feBefore s.cx.iss = false ∧
    s.cx.storeBefore s.cx.iss = false ∧ (behindLoad s.cx).feBefore 1 = true ∧ (behindStore s.cx).storeBefore 1 = true ∧
    (behindLoad s.cx).buf = {} ∧ (behindLoad s.cx).ld < 4095 ∧
    s.beaten { tile := s.cur / 2, at_ := s.tick, ctx := s.cur, seq := s.cx.seq, take := true, fill := false
               cells := [⟨l.pad, l.off, 8, 0⟩] } = false ∧
    s.localLoc (s.cx.ra 1) (2 ^ (3 : BitVec 2).toNat) = .ok l ∧ (s.cx.ra 1).toNat % 8 = 0 ∧ (s.pad l.pad).bad = [] ∧
    (∀ k < 8, (s.pad l.pad).isFull (l.off + k) = true) ∧ 2 ^ 63 ≤ little (s.pad l.pad).mem l.off 8 ∧
    ¬ (∀ k < 8, ((sLoad false).pad l.pad).isFull (l.off + k) = true) ∧ (sLoad false).localLoc (s.cx.ra 1) 8 = .ok l ∧
    s.localLoc (s.cx.ra 1 + s.cx.ra 0 * 8) 8 = .ok l := by
  decide +kernel

/-- A store there, with an empty granule for `.EF` and with a full one, and a store behind a load that waits. -/
theorem witness_ScalarStoreResults :
    let s := sLoad false
    let l : Machine.PadLoc := ⟨.tile 255, 0x3FFF8⟩
    s.cx.buf = {} ∧ s.cx.st < 4095 ∧ s.cur < 512 ∧ s.cx.guard 0 = true ∧ s.localLoc (s.cx.ra 1) 8 = .ok l ∧
    (s.cx.ra 1).toNat % 8 = 0 ∧ (s.pad l.pad).bad = [] ∧ s.cx.stq = [] ∧ s.cx.loadUpTo s.cx.iss = false ∧
    (∀ k < 8, (s.pad l.pad).isFull (l.off + k) = false) ∧
    s.beaten { tile := s.cur / 2, at_ := s.tick, ctx := s.cur, seq := 0, take := true, fill := true
               cells := [⟨l.pad, l.off, 8, 0⟩] } = false ∧
    (∃ k < 8, ((sLoad true).pad l.pad).isFull (l.off + k) = true) ∧
    (let c := behindLoad s.cx
     c.buf = {} ∧ c.st < 4095 ∧ c.stq = [] ∧ c.loadUpTo c.iss = true ∧ c.feBefore c.iss = true) := by
  decide +kernel

/-- One byte beyond the window, and an aligned window with an odd pointer. -/
theorem witness_ScalarAccessTraps :
    let s := sLoad false
    s.cx.ld < 4095 ∧ s.cx.st < 4095 ∧ s.cur < 512 ∧ s.cx.guard 0 = true ∧
    s.localLoc (s.cx.ra 1 + 1) 8 = .error .spaceRange ∧
    s.localLoc (s.cx.ra 1 - 1) (2 ^ (3 : BitVec 2).toNat) = .ok ⟨.tile 255, 0x3FFF7⟩ ∧ (s.cx.ra 1 - 1).toNat % 8 ≠ 0 := by
  decide +kernel

/-- Well-formed pointers of each space: global, private, this and another tile's scratchpad, owned, and a cluster's. -/
theorem witness_LocalPointersReach :
    let s : Machine.State := onTile { withA [] with asid := 7, crs := [(0x34, 0x10003FC00)] } { crs := [(0x36, 0x0002000000000007)] }
    s.cur < 512 ∧ Machine.ptrWf 0x00000000000003F8 = true ∧ Machine.ptrWf 0x8000000000000400 = true ∧
    Machine.ptrWf 0x9001000000000000 = true ∧ Machine.ptrWf 0x900000000001FFF8 = true ∧ (s.tile 0).owns s.cx.asid = true ∧
    s.localLoc 0x900000000001FFF8 8 = .ok ⟨.tile 0, 0x1FFF8⟩ ∧ s.localLoc 0x900000000003FFF8 8 = .ok ⟨.tile 0, 0x3FFF8⟩ ∧
    s.localLoc 0x9000000000020000 8 = .error .spaceRange ∧ Machine.ptrWf 0xA01F000000000000 = true := by
  decide +kernel

/-- The shared areas of a tile and of a cluster that another address space owns, the team's allocation of a cluster from its first
to its last byte, malformed pointers of codes 8, 9 and 10, and what a gallery core reaches. -/
theorem witness_LocalPointersReachMore :
    let s : Machine.State :=
      { onTile { withA [] with asid := 7, crs := [(0x34, 0x10003FC00), (0x35, 0x100400000)] } { crs := [(0x36, 0x0002000000000008)] } with
        clusters := [(0, { crs := [(0x37, 0x0040000000000007)] })] }
    let other : Machine.State := { s with clusters := [(0, { crs := [(0x37, 0x0040000000000008)] })] }
    let g : Machine.State := onCore {}
    (s.tile 0).owns s.cx.asid = false ∧ s.localLoc 0x900000000001FFF8 8 = .error .spaceForeign ∧
    (s.cluster 0).owns s.cx.asid = true ∧ s.localLoc 0xA0000000003FFFF8 8 = .ok ⟨.cluster 0, 0x3FFFF8⟩ ∧
    s.localLoc 0xA000000000400000 8 = .ok ⟨.cluster 0, 0x400000⟩ ∧ s.localLoc 0xA0000000004003F8 8 = .ok ⟨.cluster 0, 0x4003F8⟩ ∧
    s.localLoc 0xA0000000004003FC 8 = .error .spaceRange ∧ (other.cluster 0).owns other.cx.asid = false ∧
    other.localLoc 0xA0000000003FFFF8 8 = .error .spaceForeign ∧ other.localLoc 0xA000000000400000 8 = .ok ⟨.cluster 0, 0x400000⟩ ∧
    Machine.ptrWf 0x8000000000020000 = false ∧ s.localLoc 0x8000000000020000 8 = .error .spaceRange ∧
    Machine.ptrWf 0x9000000000040000 = false ∧ Machine.ptrWf 0xA000000000800000 = false ∧
    s.localLoc 0x0000000000000000 8 = .error .spaceForeign ∧ s.localLoc 0xA001000000000000 8 = .error .spaceForeign ∧
    512 ≤ g.cur ∧ g.cur < 2 ^ 32 ∧ g.localLoc 0x800000000001FFF8 8 = .ok ⟨.gal 63, 0x1FFF8⟩ ∧
    g.localLoc 0x800000000001FFFC 8 = .error .spaceRange ∧ g.localLoc 0x9000000000000000 8 = .error .spaceForeign := by
  decide +kernel

/-- Pointers that ASPQ and ASPC meet: well formed or not, cast from private to tile and back, and no cast. -/
theorem witness_SpaceQueriesAndCasts :
    let s : Machine.State := onTile { withA [0x80000000000003FF, 0x900000000003FC00, 0xF000000000000000, 0] with crs := [(0x34, 0x10003FC00)] }
    s.cx.guard 0 = true ∧ s.cur < 512 ∧ Machine.ptrWf (s.cx.ra 1) = true ∧ (s.cx.ra 1).toNat / 2 ^ 60 = 8 ∧
    Machine.ptrWf (s.cx.ra 2) = true ∧ (s.cx.ra 2).toNat / 2 ^ 60 = 9 ∧ Machine.ptrWf (s.cx.ra 3) = false ∧
    Machine.ptrWf (s.cx.ra 4) = true ∧ (s.cx.ra 4).toNat / 2 ^ 60 = 0 := by
  decide +kernel

/-- XFERA on the last tile context and on the first and last gallery core, with each file's last register. -/
theorem witness_TransferToAResults :
    let f : Nat → Nat → Nat → AT := fun sf src sel => { rd := 1, sf := BitVec.ofNat 2 sf, src := BitVec.ofNat 9 src, sel := BitVec.ofNat 5 sel, gp := 0 }
    let s : Machine.State := { onTile (withA []) with cur := 511 }
    s.cx.guard 0 = true ∧ s.cur < 512 ∧ 512 ≤ (onCore {}).cur ∧ (onCore {}).cur < 2 ^ 32 ∧ (f 1 0 0).sf.toNat < 2 ∧
    (f 0 511 7).sel.toNat < 8 ∧ 16 ≤ (f 0 511 31).sel.toNat ∧ (f 1 31 0).sf = 1 ∧ (f 2 15 0).src.toNat < 16 ∧
    128 ≤ (f 2 143 0).src.toNat ∧ (f 2 143 0).src.toNat < 144 ∧ 256 ≤ (f 2 259 0).src.toNat ∧ (f 2 259 0).src.toNat < 260 := by
  decide +kernel

/-- The address registers, CTIME, CYCLE, OCNT and ASTAT; a number without a register. -/
theorem witness_ControlRegisterResults :
    let s := onTile (withA [63])
    s.cx.guard 0 = true ∧ s.cx.buf = {} ∧ (s.cx.ra 1).toNat < 64 ∧ s.cur < 512 ∧
    (8 ≤ (15 : BitVec 10).toNat ∧ (15 : BitVec 10).toNat ≤ 15) ∧ Machine.crInfo 0x3FF = none ∧ Machine.crInfo 4 ≠ none := by
  decide +kernel

/-! ### Witnesses: gallery cores -/

/-- A core with its last tag free, operands of GREQ and GWR at their limits, of GWRM with a mask and without, and of GHAND. -/
theorem witness_PacketRequests :
    let c := withA [0xE0000000000001E0, 0x1FFE0, 0x10001FFE0, 0x40000010000, 0xFF]
    let s := onCore c { tags := [(120, { state := 1 })] }
    s.cur = 512 + 63 ∧ s.cx.guard 0 = true ∧ s.cx.buf = {} ∧ ((s.gal 63).tag (15 * 8 + 1)).state = 0 ∧
    (∀ k < 1, ((s.gal 63).tag (15 * 8 + k)).state ≠ 0) ∧
    Machine.ptrWf (s.cx.ra 1) = true ∧ (s.cx.ra 1).toNat / 2 ^ 60 = 14 ∧ (s.cx.ra 1).toNat % 32 = 0 ∧
    (let b := s.cx.ra 2
     b.toNat % 2 ^ 17 % 32 = 0 ∧ b.toNat = b.toNat % 2 ^ 17 + (b.toNat / 2 ^ 32 % 16 + 1 - 1) * 2 ^ 32 ∧
       (s.cx.ra 1).toNat % 512 + 32 ≤ 512 ∧ b.toNat % 2 ^ 17 + 32 ≤ 131072) ∧ (s.gal 63).store.bad = [] ∧
    (let b := s.cx.ra 3
     b.toNat % 2 ^ 17 % 32 = 0 ∧ b.toNat / 2 ^ 17 % 2 ^ 15 = 0 ∧ b.toNat % 2 ^ 17 + 32 ≤ 131072 ∧ b.toNat / 2 ^ 32 ≠ 0) ∧
    (s.cx.ra 2).toNat = (s.cx.ra 2).toNat % 2 ^ 17 ∧
    (let a := s.cx.ra 4
     let o := a.toNat % 2 ^ 17
     let n := a.toNat / 2 ^ 32
     a.toNat % 2 ^ 32 = o ∧ 1 ≤ n ∧ n ≤ 1024 ∧ (s.cx.ra 5).toNat < 1024 ∧ o + 64 * n ≤ 131072 ∧ o % 64 = 0) := by
  decide +kernel

/-- A DONE tag of each status, named by its number and by its channel, and channels whose tags are not BUSY. -/
theorem witness_TagResults :
    let s := onCore (withA [127, 15, 0xFFFF]) { tags := [(127, { state := 2, status := 3 })] }
    s.cur = 512 + 63 ∧ s.cx.guard 0 = true ∧ s.cx.buf = {} ∧ (s.cx.ra 1).toNat = 127 ∧ ((s.gal 63).tag 127).state = 2 ∧
    (s.cx.ra 2).toNat = 127 / 8 ∧ (∀ k < 128, k / 8 = 127 / 8 → k ≠ 127 → ((s.gal 63).tag k).state ≠ 2) ∧
    ((s.gal 63).tag 127).status = 3 ∧ (s.cx.ra 2).toNat < 16 ∧ (s.cx.ra 3).toNat < 2 ^ 16 ∧
    (∀ i < 128, ((s.gal 63).tag i).state ≠ 1) ∧
    (∀ n < 5, ((onCore {} { tags := [(0, { state := 2, status := n })] }).gal 63).tag 0 = { state := 2, status := n }) := by
  decide +kernel

/-- Bin buffers with room and full, with a lowest key twice; a dedup table that holds a key, is full, and has room. -/
theorem witness_BinAndDedupResults :
    let g : Machine.Gal := { bins := [(5, 1), (3, 9), (3, 2)], dedup := [4, 0x20] }
    let full : Machine.Gal := { bins := List.replicate 64 (1, 1), dedup := (List.range 256).map (BitVec.ofNat 64) }
    let s := onCore (withA [0x20, 0xFFFFFFFF, 0x400]) g
    s.cur = 512 + 63 ∧ s.cx.guard 0 = true ∧ s.landing = none ∧ Machine.ptrWf (s.cx.ra 1) = true ∧ (s.cx.ra 1).toNat / 2 ^ 60 = 0 ∧
    (s.cx.ra 2).toNat < 2 ^ 32 ∧ g.bins.length < 64 ∧ 64 ≤ full.bins.length ∧ g.bins = [(5, 1)] ++ (3, 9) :: [(3, 2)] ∧
    g.dedup[1]? = some (s.cx.ra 1) ∧ g.dedup[0]? ≠ some (s.cx.ra 1) ∧ s.cx.ra 3 ∉ full.dedup ∧ 256 ≤ full.dedup.length ∧
    s.cx.ra 3 ∉ g.dedup ∧ g.dedup.length < 256 := by
  decide +kernel

/-- GPOOL of the last accumulator from the last element of the store, and GPRND with saturation and clearing. -/
theorem witness_PoolResults :
    let s := onCore (withA [0x1FFFF, 0xFFFF000001FF, 0x6001FF]) { store := { mem := [(0x1FFFF, 0x38)] } }
    let ok := fun (b : Nat) => b % 512 + (b / 512 % 512 + 1) ≤ 512 ∧ (s.cx.ra 1).toNat + (b / 512 % 512 + 1) * (tyWidth tyE4 / 8) ≤ 131072
    s.cur = 512 + 63 ∧ s.cx.guard 0 = true ∧ s.cx.buf = {} ∧ (s.gal 63).store.bad = [] ∧ (s.gal 63).poolBad = [] ∧
    s.cx.stq = [] ∧ s.cx.loadUpTo s.cx.iss = false ∧
    (let b := (s.cx.ra 2).toNat
     ok b ∧ b / 2 ^ 18 % 2 ^ 14 = 0 ∧ b / 2 ^ 48 = 0) ∧
    (let b := (s.cx.ra 3).toNat
     ok b ∧ b / 2 ^ 18 % 8 ≤ 3 ∧ b / 2 ^ 23 = 0 ∧ b / 2 ^ 21 % 2 = 1 ∧ b / 2 ^ 22 % 2 = 1) := by
  decide +kernel


/-! ### Witnesses: B-slot operations -/

/-- A taken and a skipped branch, an aligned and a misaligned LINK and TGT. -/
theorem witness_BranchResults :
    let s := onTile { life := .live, crs := [(4, 0x7FFFFFFC), (5, 0x7FFFFFFE)] }
    s.cx.buf = {} ∧ s.cx.guardB 0 0 = true ∧ s.cx.guardB 0 1 = false ∧ (s.cx.cr 4).toNat % 4 = 0 ∧ (s.cx.cr 5).toNat % 4 ≠ 0 := by
  decide +kernel

/-- A text of two headers at 0x1000 that a TLB entry of this address space maps; a stream queue with a count and one without. -/
def sText : Machine.State :=
  { onTile { life := .live, textLen := 64, code := 0x1000, textOff := 0, lc := [(3, 1)]
             handles := [(15, { queue := [7] }), (14, { cmds := [{ op := 7, ps := [0, 0, 0, 0], fn := 8, port := 0, base := 0, seq := 0, ctime := 0, pc := 0 }] })] }
      { tlb := [{ asid := 0, gen := 0, pool := false, bits := 16, page := 0, va := 0, pa := 0x10000, r := true, w := true }] } with
    mem := [(0x11003, 0x88), (0x1103F, 0x80)] }

/-- Counts of 0 and not, a loop end at the last header of the text, and the three states of a LOOPS queue; one that nobody asked
for, one a LOOPS asked for first, and one that another command asked for before. -/
theorem witness_LoopResults :
    let s := sText
    let q := fun (k : Nat) => (Machine.mapGet {} s.cx.handles k : Machine.Handle)
    s.cx.buf = {} ∧ s.cur < 512 ∧ s.cx.rlc 3 ≠ 0 ∧ s.cx.rlc 0 = 0 ∧
    (s.seekAt (s.cx.pc + BitVec.ofNat 64 (4 * (15 : BitVec 12).toNat))).1 = .header 60 0x80000000 ∧ headerOk 0x80000000 = true ∧
    (q 15).queue = [7] ∧ (q 14).queue = [] ∧ (q 14).cmds.any (·.queueing) = true ∧ (q 13).queue = [] ∧ (q 13).cmds = [] ∧
    s.cx.asking 15 = [] ∧
    (let asked := fun (l : List Nat) => ({ s.cx with handles := [(14, q 14), (15, { q 15 with asks := l })] } : Machine.Ctx)
     (asked [0, 1]).asking 15 = [0, 1] ∧ (asked [1, 0]).asking 15 = [1, 0] ∧ ((asked [1, 0]).asking 15).head? ≠ some 0) := by
  decide +kernel

/-- A tile whose image uses input port 15, full, and output ports 14 and 15, where a token stands at port 15. -/
def sPorts : Machine.State :=
  let full : List Machine.EItem := List.replicate 32 { ready := 0, tok := some {}, depth := 1 }
  onTile { life := .live } { arr := { act := some 0, inp := [(15, full)], out := [(15, [{ ready := 0, tok := some {}, depth := 1 }])]
                                      imgs := [(0, { raw := [(0x67E, 0x10), (0x6BA, 0x10), (0x6BE, 0x10)], inv := 0 })] } }

/-- Limits met at 15 and at equality and passed by one, a join that waits, EVPEND's last bit, and a port in each state. -/
theorem witness_WaitResults :
    let s := onTile { life := .live, ld := 3, jcnt := 1, crs := [(7, 0x80)] }
    let within := fun (n : Nat) (lim : BitVec 4) => lim = 15 ∨ n ≤ lim.toNat
    s.cx.buf = {} ∧ s.cx.grecvd = [] ∧ s.cur < 512 ∧ s.cx.guard 0 = true ∧ s.cx.guardB 0 0 = true ∧
    within s.cx.ld 3 ∧ within s.cx.ld 15 ∧ ¬ within s.cx.ld 2 ∧ within s.cx.st 0 ∧ s.cx.jcnt ≠ 0 ∧ (onTile {}).cx.jcnt = 0 ∧
    ((0x80 : BitVec 8).getLsbD 7 = true ∧ (s.cx.cr 7).getLsbD 7 = true) ∧
    (∀ k < 8, (0x7F : BitVec 8).getLsbD k = true → (s.cx.cr 7).getLsbD k = false) ∧
    s.portBound { gp := 0, gn := 0, port := 15, dir := 1 } = false ∧
    (let p := fun (k : Nat) (d : Nat) => ({ gp := 0, gn := 0, port := BitVec.ofNat 4 k, dir := BitVec.ofNat 1 d } : BPo)
     sPorts.portBound (p 15 1) = true ∧ sPorts.portReady (p 15 1) = true ∧ sPorts.portBound (p 14 1) = true ∧
       sPorts.portReady (p 14 1) = false ∧ sPorts.portBound (p 15 0) = true ∧ sPorts.portReady (p 15 0) = false) := by
  decide +kernel

/-- CALWAIT at its largest window, before a tick far enough from the next riser and one too near, and one beyond its range. -/
theorem witness_YieldFenceCalwaitResults :
    let s := fun (t : Nat) => { onTile { life := .live } with tick := t }
    (s 416).cx.buf = {} ∧ (s 416).cx.guardB 0 0 = true ∧ (s 416).landing = none ∧ 256 < (s 416).calDist ∧
    16 * (470 : BitVec 9).toNat = 7520 ∧ 7520 + 256 ≤ (s 416).calDist ∧ (s 417).calDist < 7520 + 256 ∧
    (s 7936).calDist ≤ 256 ∧ 7520 < 16 * (471 : BitVec 9).toNat ∧ (2 : BitVec 3).toNat < 3 ∧ 3 ≤ (5 : BitVec 3).toNat ∧
    (s 416).cx.pend = [] ∧ (s 416).cx.shadow = none ∧ (s 416).cx.stq = [] ∧ (behindStore {}).stq ≠ [] := by
  decide +kernel

/-- The guards and forms of the predicate and mask operations and of XFERB, and of the binding table: room for one more, a full
table, a misaligned base, a length of 2^40 and one of 0, and a base in another space. -/
theorem witness_MasksAndBindings :
    let b : Machine.Binding := { obj := 0, base := 0, len := 64, scope := 0 }
    let s := onTile { life := .live, vm := [(1, 0xC000000000000000), (2, 0xE000000000000040), (3, 0x10000000000), (4, 0x9000000000000000)]
                      binds := List.replicate 15 b }
    let c := s.cx
    c.buf = {} ∧ s.cur < 512 ∧ c.guardB 0 0 = true ∧ s.checkObj (c.rvm 1) = none ∧ s.checkBind (c.rvm 2) (c.rvm 3) = none ∧
    (c.rvm 2).toNat / 2 ^ 60 = 14 ∧ Machine.ptrWf (c.rvm 2) = true ∧ (c.rvm 2).toNat % 64 = 0 ∧ (c.rvm 3).toNat ≠ 0 ∧
    (c.rvm 3).toNat % 64 = 0 ∧ (c.rvm 3).toNat ≤ 2 ^ 40 ∧ c.binds.length < 16 ∧ 16 ≤ (b :: c.binds).length ∧
    (c.rvm 2 + 1).toNat % 64 ≠ 0 ∧ Machine.ptrWf (c.rvm 2 + 1) = true ∧ (c.rvm 5).toNat = 0 ∧ (c.rvm 4).toNat / 2 ^ 60 = 9 := by
  decide +kernel

/-- An object that passes its check, with room in the sync class; the states of a waiting operation. -/
theorem witness_SynchronisationOperations :
    let s := onTile { life := .live, vm := [(1, 0xC000000000000000)], sync := 4094 }
    let p := s.cx.rvm 1
    let held := fun (h : Machine.HoldReq) => { s.cx with hold := h }
    (behindLoad s.cx).feBefore 1 = true ∧ (behindStore s.cx).storeBefore 1 = true ∧ s.cx.syq = [] ∧
    (held (.failed .dataLost)).hold = .failed .dataLost ∧ (onTile { life := .live, sync := 4095 }).cx.sync = 4095 ∧
    s.cx.buf = {} ∧ s.cx.sync ≠ 4095 ∧ s.cur < 512 ∧ s.cx.guardB 0 0 = true ∧ s.checkObj p = none ∧ s.cx.hold = .none ∧
    (held (.wait p 4 9)).hold = .wait p (4 : BitVec 4).toNat 9 ∧ (held (.wait p 6 9)).hold = .wait p (if (0 : BitVec 4) = 0 then 6 else 7) 9 ∧
    (held (.wait p 5 0)).hold = .wait p 5 (s.cx.cr 0x53) ∧ (held (.granted 3 none)).hold = .granted 3 none := by
  decide +kernel

/-- A context that may end its step, one that the debug control halts and one that it does not, and the two states of SVC. -/
theorem witness_SystemOperationResults :
    let s := onTile { life := .live, pend := [{ dst := .a 1, val := 0, mask := BitVec.allOnes 512, pos := 4, slot := 0 }] }
    s.cx.buf = {} ∧ s.cx.guardB 0 0 = true ∧ s.cx.shadow = none ∧ s.cx.deferred = [] ∧
    (∀ e ∈ s.cx.pend, e.lost = none ∧ e.trapped = none) ∧ s.haltable = false ∧
    ({ s with win := [(0x10058, 1)] } : Machine.State).haltable = true ∧ s.cx.hold = .none ∧
    ({ s.cx with hold := .reply 5 } : Machine.Ctx).hold = .reply 5 := by
  decide +kernel


/-! ### Witnesses: V-slot operations -/

/-- The bounds of the types, part selectors and widths that the lane statements range over. -/
theorem witness_VectorLanesAndConversions :
    (6 ≤ (13 : BitVec 4).toNat ∧ (13 : BitVec 4).toNat ≤ 13) ∧ 6 ≤ (6 : BitVec 4).toNat ∧ (2 : BitVec 4).toNat ≤ 2 ∧
    (let S := fun (fn : BitVec 6) => fn.toNat % 16
     let Q := fun (fn : BitVec 6) => fn.toNat / 16
     S 0x0D ≤ 13 ∧ tyWidth (S 0x13) < tyWidth tyF32 ∧ (tyWidth tyF16 < tyWidth (S 0x10) ∧ Q 0x10 < tyWidth (S 0x10) / tyWidth tyF16) ∧
       3 ≤ S 6 ∧ S 6 ≤ 6 ∧ S 2 ≤ 2) ∧ 3 ≤ (6 : BitVec 4).toNat ∧ (6 : BitVec 4).toNat ≤ 6 ∧ (14 : BitVec 4).toNat ≤ 14 := by
  decide +kernel

/-- Reductions over no lane and over lanes with a largest element twice. -/
theorem witness_VectorReductionResults :
    let c : Machine.Ctx := { life := .live, vm := [(1, 0)], v := [(3, 0x7F0180007F)] }
    let part := fun (m : Nat) => (List.range 64).filter (fun k => (c.rvm m).getLsbD k)
    let iv := fun (k : Nat) => sext (laneOf (c.rv 3) 8 k) 8
    part 1 = [] ∧ (4 ∈ part 0 ∧ ∀ j ∈ part 0, iv j ≤ iv 4) ∧ (2 ∈ part 0 ∧ ∀ j ∈ part 0, iv 2 ≤ iv j) ∧ (2 : BitVec 4).toNat ≤ 2 := by
  decide +kernel

/-- VLACC with and without products, exact products among them, VLARND's and XFERV's types, a lane at its bound. -/
theorem witness_VectorAccumulatorResults :
    let fn : BitVec 6 := 0x12
    let one := Machine.decodeFloat tyB16 0x3F80
    fn.toNat % 16 ≤ 4 ∧ fn.toNat / 16 % 2 = 1 ∧ (0x24 : BitVec 6).toNat % 16 ≤ 4 ∧ (0x24 : BitVec 6).toNat / 16 % 2 = 0 ∧
    one.isNan = false ∧ (Machine.prodVal one one).isSome = true ∧ (13 : BitVec 4).toNat ≤ 13 ∧
    (31 : BitVec 5).toNat < 512 / tyWidth tyI16 := by
  decide +kernel

/-- Loss-scale states with bad limits, at the floor, at the ceiling, and with a count that reaches its interval or not. -/
theorem witness_LossScaleUpdate :
    let st := fun (E lo hi iv cl : Nat) => BitVec.ofNat 512 (E + lo * 2 ^ 32 + hi * 2 ^ 64 + iv * 2 ^ 96 + cl * 2 ^ 128)
    let s32 := fun (v : W512) (k : Nat) => sext (v.toNat / 2 ^ (32 * k) % 2 ^ 32) 32
    let bad := fun (v : W512) => s32 v 2 < s32 v 1 ∨ s32 v 1 < -126 ∨ 127 < s32 v 1 ∨ s32 v 2 < -126 ∨ 127 < s32 v 2
    bad (st 15 14 128 2 0) ∧ bad (st 15 17 16 2 0) ∧ ¬ bad (st 15 14 127 2 0) ∧ ¬ bad (st 14 14 16 2 1) ∧
    s32 (st 14 14 16 2 1) 0 ≤ s32 (st 14 14 16 2 1) 1 ∧ s32 (st 15 14 16 2 1) 1 < s32 (st 15 14 16 2 1) 0 ∧
    max 2 1 ≤ min (1 + 1) (2 ^ 32 - 1) ∧ ¬ max 3 1 ≤ min (1 + 1) (2 ^ 32 - 1) := by
  decide +kernel

/-- R147's worked example: six updates from E = 15 with EMIN 14, EMAX 16, INTERVAL 2 and CLEAN 1; each row is the state after
one: E, CLEAN, SKIPPED, HELD and FLOOR. -/
theorem test_loss_scale_example :
    let st := fun (E cl sk fl sf : Nat) => E + 14 * 2 ^ 32 + 16 * 2 ^ 64 + 2 * 2 ^ 96 + cl * 2 ^ 128 + sk * 2 ^ 160 + fl * 2 ^ 192 + sf * 2 ^ 224
    let up := fun (v : Nat) (o : Bool) => (Machine.lossUpdate (BitVec.ofNat 512 v) o).1
    up (st 15 1 0 0 0x47000000) false = st 16 0 0 0 0x47800000 ∧ up (st 16 0 0 0 0x47800000) false = st 16 1 0 0 0x47800000 ∧
    up (st 16 1 0 0 0x47800000) false = st 16 0 0 1 0x47800000 ∧ up (st 16 0 0 1 0x47800000) true = st 15 0 0 0 0x47000000 ∧
    up (st 15 0 0 0 0x47000000) true = st 14 0 0 0 0x46800000 ∧ up (st 14 0 0 0 0x46800000) true = st 14 0 1 2 0x46800000 := by
  decide +kernel

/-- A private window of 1 KiB at the top of the scratchpad; v1 points at its last 64 bytes, v2 holds indices 0 and 1; mask 1
names no lane, mask 2 the last one of 16. -/
def sVec (full : Bool) : Machine.State :=
  { onTile { life := .live, crs := [(0x34, 0x10003FC00)], ld := 4094, st := 4094, vm := [(1, 0), (2, 0x8000)]
             v := [(1, 0x80000000000003C0), (2, 0x100000000)] }
      { pad := { mem := [(0x3FFFC, 7)], full := if full then [0x3FFC, 0x3FFD, 0x3FFE, 0x3FFF] else [] }
        crs := [(0x30, 0xFFFFFFFFFFFFFFFF), (0x36, 0x0002000000010000)] } with tick := 5 }

/-- An access of each kind that passes its checks, at the end of the window; no active lane; full and empty granules. -/
theorem witness_VectorLoadResults :
    let s := sVec true
    let f : VL := { vd := 3, va := 1, vb := 0, ofs := 0, vm := 2, ty := 0, rm := 0, sm := 0, step := 0, q := 2 }
    let c := s.cx
    let at_ : List Machine.Cell := [⟨.tile 0, 0x3FFFC, 4, 15⟩]
    c.buf = {} ∧ c.ld < 4095 ∧ (∀ j, (s.pad j).bad = []) ∧ (∀ k < 16, (c.rvm 1).getLsbD k = false) ∧
    (c.rvm f.vm.toNat).getLsbD 15 = true ∧ s.vlCells .contig f false (vectorBase f c) = .ok (at_, tyF32) ∧
    s.vlCells .indexed { f with vm := 0, vb := 2 } false (vectorBase f c) ≠ .ok ([], 0) ∧
    s.vlCells .single f false (vectorBase f c) = .ok ([⟨.tile 0, 0x3FFC0, 4, 15⟩], tyF32) ∧
    (∀ k < 4, (s.pad (.tile 0)).isFull (0x3FFFC + k) = true) ∧ (sVec false).vlCells .contig f false (vectorBase f c) = .ok (at_, tyF32) ∧
    ((sVec false).pad (.tile 0)).isFull 0x3FFFC = false ∧
    s.beaten { tile := 0, at_ := s.tick, ctx := 0, seq := 0, take := true, fill := false, cells := at_ } = false ∧
    c.feBefore c.iss = false ∧ c.storeBefore c.iss = false ∧ (behindLoad c).feBefore 1 = true ∧ (behindStore c).storeBefore 1 = true ∧
    (f.q ≠ 0 ∧ { f with q := 0 }.q = 0) := by
  intro s f c at_
  refine ⟨by decide +kernel, by decide +kernel, ?_, by decide +kernel⟩
  intro j
  cases j with
  | tile t => rcases t with _ | t <;> rfl
  | _ => rfl

/-- The stores of the same element, with its granule empty. -/
theorem witness_VectorStoreResults :
    let s := sVec false
    let f : VL := { vd := 3, va := 1, vb := 0, ofs := 0, vm := 2, ty := 0, rm := 0, sm := 0, step := 0, q := 1 }
    let at_ : List Machine.Cell := [⟨.tile 0, 0x3FFFC, 4, 15⟩]
    s.cx.buf = {} ∧ s.cx.st < 4095 ∧ s.vlCells .contig f true (vectorBase f s.cx) = .ok (at_, tyF32) ∧
    s.cx.stq = [] ∧ s.cx.loadUpTo s.cx.iss = false ∧ (behindLoad s.cx).loadUpTo 1 = true ∧ (behindLoad s.cx).stq = [] ∧
    s.beaten { tile := 0, at_ := s.tick, ctx := 0, seq := 0, take := true, fill := true, cells := at_ } = false ∧
    ((sVec true).pad (.tile 0)).isFull 0x3FFFC = true ∧
    s.vlCells .indexed f true (vectorBase f s.cx) = .ok ([⟨.tile 0, 0x3FFC0, 4, 15⟩], tyF32) ∧
    (∀ k < 4, (s.pad (.tile 0)).isFull (0x3FFFC + k) = false) := by
  decide +kernel

/-- Each cause of a vector access: a base in another space, malformed, or of another tile; a misaligned whole; a store with SM in
another format than E4M3; an element beyond the window, a misaligned one and one in a bank of another format; and no cause. -/
theorem witness_VectorAccessChecks :
    let s := sVec false
    let two : Machine.State := { s with tiles := [(0, { crs := [(0x30, 0xFFFFFFFFFFFFFF0F), (0x36, 0x0002000000000000)] })] }
    let f : VL := { vd := 3, va := 1, vb := 2, ofs := 0, vm := 2, ty := 0, rm := 0, sm := 0, step := 0, q := 0 }
    let p := vectorBase f s.cx
    s.cx.ld < 4095 ∧ s.cx.st < 4095 ∧ ((∃ k < 16, (s.cx.rvm 2).getLsbD k = true)) ∧
    s.baseLoc 5 = .error .spaceForeign ∧ Machine.ptrWf 0x9000000000040000 = false ∧ s.baseLoc 0x9000000000040000 = .error .spaceRange ∧
    s.baseLoc 0x9001000000000000 = .error .spaceForeign ∧ s.baseLoc 0x900000000003FFFF = .ok ⟨.tile 0, 0x3FFFF⟩ ∧
    s.baseLoc 0xA000000000600000 = .error .spaceRange ∧ s.baseLoc p = .ok ⟨.tile 0, 0x3FFC0⟩ ∧ s.fmtAt ⟨.tile 0, 0x3FFC0⟩ = 0xF ∧
    p.toNat % 64 = 0 ∧ (p + 4).toNat % 64 ≠ 0 ∧ tyF32 ≠ tyE4 ∧
    vectorElements .contig f s.cx p 32 = [(15, p + 60)] ∧ vectorElements .indexed f s.cx p 32 = [(15, p)] ∧
    vectorElements .single f s.cx p 32 = [(15, p)] ∧
    (∀ k ∈ [Machine.VKind.contig, .indexed, .single], elementFails s k 0 0xF 32 p = none) ∧
    elementFails s .contig 0 0xF 32 (p + 64) = some .spaceRange ∧ elementFails s .indexed 0 0xF 32 (p + 2) = some .misaligned ∧
    two.baseLoc 0x9000000000000000 = .ok ⟨.tile 0, 0⟩ ∧ two.fmtAt ⟨.tile 0, 0⟩ = 0xF ∧
    elementFails two .indexed 0 0xF 32 0x9000000000004000 = some .bankFormat := by
  decide +kernel


/-! ### Witnesses: M-slot operations -/

/-- Each bound of the M register operations: JCNT at 65,535 and past it, an operand of 2^32, the pin register free, held by this
address space and by another, and a channel with a token and without. -/
theorem witness_MRegisterResults :
    let t : Machine.Tile := { crs := [(0xC2, 0x1000700000000)], chans := [(15, [9])] }
    let s := onTile { life := .live, m := [(1, 0xFFFFFFFF), (2, 0x100000000)], jcnt := 65534, asid := 7 } t
    s.cx.buf = {} ∧ s.cx.guard 0 = true ∧ s.cx.jcnt + immUM 1 none ≤ 65535 ∧ 65535 < s.cx.jcnt + immUM 2 none ∧
    (s.cx.rm 1).toNat < 2 ^ 32 ∧ 2 ^ 32 ≤ (s.cx.rm 2).toNat ∧ (t.crs.read 0xC2).getLsbD 48 = true ∧
    (t.crs.read 0xC2).toNat / 2 ^ 32 % 2 ^ 16 = s.cx.asid ∧ (t.crs.read 0xC2).toNat / 2 ^ 32 % 2 ^ 16 ≠ (onTile {}).cx.asid ∧
    (({} : Machine.Tile).crs.read 0xC2).getLsbD 48 = false ∧ s.cx.asid < 2 ^ 16 ∧ t.chan 15 = [9] ∧ t.chan 14 = [] ∧
    s.behind s.cur s.cx.iss = false ∧ (onTile (behindLoad s.cx) t).behind 0 1 = true := by
  decide +kernel

/-- A command with the parameters that the M registers from m8 on hold. -/
def cmd0 : Machine.Cmd := { op := 5, fn := 0, port := 0, base := 0, seq := 0, ctime := 0, pc := 0 }

/-- The states of a handle: empty, cancelled, faulted, not started, running; and an array that is idle or has an image. -/
theorem witness_StatusReads :
    let s := onTile { life := .live, handles := [(0, { cancelled := true }), (1, { cmds := [{ cmd0 with faulted := true }] }), (2, { cmds := [cmd0] }),
                                                 (15, { cmds := [{ cmd0 with started := true }] })] } { arr := { act := some 1 } }
    let h := fun (k : Nat) => s.cx.handle k
    s.cx.guard 0 = true ∧ (h 3).cmds = [] ∧ (h 0).cmds = [] ∧ (h 0).cancelled = true ∧ (h 1).cmds = [{ cmd0 with faulted := true }] ∧
    (h 2).cmds = [cmd0] ∧ (h 15).cmds = [{ cmd0 with started := true }] ∧ (15 : BitVec 6).toNat ≠ 16 ∧ (16 : BitVec 6).toNat = 16 ∧
    (s.tile 0).arr.act ∈ [none, some 0, some 1] ∧ (s.tile 0).arr.act = some 1 ∧ (onTile {}).cur = 0 ∧ ((onTile {}).tile 0).arr.act = none := by
  decide +kernel

/-- A tile context with a private window of 16 KiB at m1, the shapes and boxes of the commands from m8 on, an image that uses
input port 0 and output port 0, and a session of its own in state `mn`. -/
def sCmd (ps : List W64) (mn : Nat) : Machine.State :=
  { onTile { life := .live, crs := [(0x34, 0x1000000000)], m := (1, 0x8000000000000000) :: (ps.zip (List.range 7)).map (fun e => (8 + e.2, e.1)) }
      { arr := { act := some 0, imgs := [(0, { raw := [(5, 1), (0x642, 0x10), (0x682, 0x10)], inv := 0 })] } } with
    clusters := [(0, { crs := [(0x37, 0)], mn := { state := mn } })] }

/-- The fields of a stream command on handle 0 with its parameters at m8. -/
def ms (mb fn : Nat) (port : Nat := 0) : MS :=
  { mp := 8, mb := BitVec.ofNat 5 mb, sh := 0, port := BitVec.ofNat 5 port, step := 0, gp := 0, fn := BitVec.ofNat 6 fn, follow := 0, imm := 0 }

/-- For every stream command operands that pass all of its checks, in a handle with three commands, and ones that fail one. -/
theorem witness_StreamCommandsJoin :
    let chks := fun (ps : List W64) (mb fn port : Nat) (f : Machine.State → MS → W64 → List Machine.Chk) =>
      f (sCmd ps 3) (ms mb fn port) (baseOf (sCmd ps 3) (ms mb fn port))
    let three : Machine.Ctx := { handles := [(0, { cmds := [cmd0, cmd0, cmd0] })], str := 4094 }
    Room (onTile three) (ms 0 0) true ∧ (sCmd [] 3).cx.buf = {} ∧ (sCmd [] 3).cx.guard 0 = true ∧
    chks [] 0 0 0 (fun s f p => s.moveChk false false f p) = [] ∧ chks [] 0 0 0 (fun s f p => s.moveChk true false f p) = [] ∧
    chks [0, 0x1000800000000, 0, 0x8000000000000000] 0 0 0 (fun s f p => s.moveChk false true f p) = [] ∧
    chks [0, 0x1000800000000, 0, 0x8000000000000000] 0 0 0 (fun s f p => s.moveChk true true f p) = [] ∧
    chks [5] 0 0 0 (fun s f _ => s.srecChk f) = [] ∧
    chks [0, 0x0001000101010001, 0x0000111100010001] 1 0 0 (fun s f p => s.swinAllChk f p) = [] ∧
    chks [] 0 0 0 (fun s f p => s.scopyChk f p) = [] ∧ chks [] 0 0 0 (fun s f p => s.boxCmdChk true f p) = [] ∧
    chks [] 0 0 0 (fun s f p => s.boxCmdChk false f p) = [] ∧
    chks [0, 0x0000000800020002, 0, 0, 0x0000000400000004] 1 0 0 (fun s f p => s.sdualChk f p) = [] ∧
    chks [64] 1 0 0 (fun s f p => s.grecvChk f p) = [] ∧ chks [0xC00000000] 0 0 0 (fun s f p => s.mnfeedChk f p) = [] ∧
    chks [] 0 0 0 (fun s f p => s.mndrainChk f p) = [] ∧ ((sCmd [] 3).cluster 0).mn.asid = (sCmd [] 3).cx.asid ∧
    ((sCmd [] 3).cluster 0).mn.state ∈ [2, 3, 4] ∧
    Machine.firstChk (chks [0xF000000000000000, 5] 0 0 0 (fun s f p => s.moveChk false false f p)) ≠ none := by
  refine ⟨by unfold Room; decide +kernel, ?_⟩
  decide +kernel

/-- SAFF with a parameter that fails each check: an extension past m31, the shape word, a base in no space, one with bits that must
be zero, a misaligned one, a port in a circuit and one of another shape; and a handle that no command feeds for SIND. -/
theorem witness_CheckPlaces :
    let s := fun (w : W64) => sCmd [w] 0
    let c : Machine.State := (s 0).setTile 0 { (s 0).tile 0 with table := some (Machine.Mem.writeLE [] 0x80 0x8000000000000001 8) }
    let fails := fun (s : Machine.State) (f : MS) (p : W64) (e : Cause) => (s.moveChk false false f p).any (fun x => decide (x.cause = e))
    (s 0).moveChk false false (ms 0 0) 0 = [] ∧ fails { s 0 with ctxs := [(0, { (s 0).cx with m := [(28, 0x200000000000)] })] }
      { ms 0 0 with mp := 28 } 0 .illegalOp = true ∧
    fails (s 5) (ms 0 0) 0 .paramRange = true ∧ fails (s 0) (ms 0 0) 0xF000000000000000 .spaceForeign = true ∧
    fails (s 0) (ms 0 0) 0x0F00000000000000 .spaceRange = true ∧ fails (s 0) (ms 0 0) 2 .misaligned = true ∧
    tyWidth ((s 0).mfAt 0 0 0) / 8 ≠ 0 ∧ c.bound 0 false 0 = true ∧ fails c (ms 0 0) 0 .portCircuit = true ∧
    fails (s 0x0004000000000000) (ms 0 0) 0 .portShape = true ∧
    ((sCmd [0, 0x1001800000001] 0).moveChk false true (ms 0 0) 0).any (fun x => decide (x.cause = .streamHandle)) = true := by
  decide +kernel

/-- A handle with four commands, and a class at its bound; a list whose first failure is not its first check. -/
theorem witness_StreamCommandsHold :
    let four : Machine.Ctx := { handles := [(0, { cmds := [cmd0, cmd0, cmd0, cmd0] })] }
    (onTile four).cx.guard 0 = true ∧ ¬ Room (onTile four) (ms 0 0) false ∧ ¬ Room (onTile { str := 4095 }) (ms 0 0) true ∧
    Machine.firstChk [⟨4, .misaligned, 0⟩, ⟨2, .spaceForeign, 8⟩, ⟨2, .spaceForeign, 9⟩] = some ⟨2, .spaceForeign, 8⟩ := by
  unfold Room
  decide +kernel

/-- SMCAST below and above 256 KiB and NSDOT, with all checks passed; each state of a power request; room in the budget to the
last unit, and none. -/
theorem witness_PoweredCommandsJoin :
    let light := sCmd [0, 0, 0, 0, 1] 0
    let heavy := sCmd [0, 0x0001000101000101, 0, 0, 1] 0
    let nsd := sCmd [0x1200000000000000, 0x0001000001000001, 0, 0, 0x8000000000000000] 0
    let f := ms 0 0
    Room light f true ∧ light.mcastHeavy f 0 = false ∧ light.mcastChk f 0 (light.cx.params f 5) = [] ∧
    heavy.mcastHeavy f 0 = true ∧ heavy.mcastChk f 0 (heavy.cx.params f 5) = [] ∧ heavy.cx.pwr = .none ∧ heavy.waits = [] ∧
    ((heavy.tile 0).crs.read 0x44).getLsbD 6 = false ∧ ((heavy.tile 0).crs.read 0x44).getLsbD 0 = true ∧
    1277 + Machine.powerCost 2 ≤ (heavy.win.read Machine.wPWRBUD).toNat ∧ (heavy.win.read Machine.wPWRBUD).toNat < 1278 + Machine.powerCost 2 ∧
    nsd.nsdotChk (ms 1 0) (baseOf nsd (ms 1 0)) (Machine.nsdotPs (ms 1 0) nsd.cx) = [] := by
  refine ⟨by unfold Room; decide +kernel, ?_⟩
  decide +kernel

/-- Handles with no head, a dead one and a running one; barriers that are met and that are not. -/
theorem witness_CancelsAndBarriers :
    let run := { cmd0 with started := true }
    let s := onTile { life := .live, handles := [(1, { cmds := [cmd0] }), (2, { cmds := [run, cmd0] })] } { seq := 1 }
    s.cx.guard 0 = true ∧ s.cx.buf = {} ∧ (s.cx.handle 0).cmds = [] ∧ (s.cx.handle 1).cmds = [cmd0] ∧ cmd0.started = false ∧
    (s.cx.handle 2).cmds = [run, cmd0] ∧ ¬ (run.faulted = true ∨ run.started = false ∨ run.idle = true) ∧
    ({ run with idle := true } : Machine.Cmd).idle = true ∧ ({ run with faulted := true } : Machine.Cmd).faulted = true ∧
    s.cx.barMet { upto := 1, mask := 4, r := true, w := true } = false ∧ s.cx.barMet { upto := 1, mask := 8, r := true, w := true } = true ∧
    (6 : BitVec 6).getLsbD 2 = true ∧ (2 : BitVec 6).getLsbD 2 = false := by
  decide +kernel

/-- An array with an active image and no switch in progress: loads of the other slot, a present image for CFGPREF, a table that
may become active and one that may not, and a switch to a valid, an invalid and the active image. -/
theorem witness_ConfigurationCommands :
    let a : Machine.Arr := { act := some 0, imgs := [(0, { inv := 0 }), (1, { inv := 0, src := some 0 })] }
    let s := onTile { life := .live, str := 4094, m := [(1, 0x8000000000000000)], crs := [(0x34, 0x1000000000)] } { arr := a, pending := [(0x84, 7)] }
    s.cx.buf = {} ∧ s.cx.guard 0 = true ∧ s.cx.str ≠ 4095 ∧ s.blobChk (s.cx.rm 1) 256 64 true = [] ∧ s.blobChk (s.cx.rm 0) 2048 64 false = [] ∧
    a.act ≠ some 1 ∧ a.target ≠ some 1 ∧ a.act = some 0 ∧ a.target = none ∧ (a.img 1).src = some (s.cx.rm 0) ∧ (a.img 1).inv = 0 ∧
    (a.img 1).src ≠ some (s.cx.rm 1) ∧ Machine.holdSwact { md := 0, ma := 0, mb := 0, fn := 0, gp := 0, imm := 0 } s = none ∧
    Machine.swTableOk [] = true ∧ Machine.swTableOk (s.tile 0).pending = false ∧ (∀ l ∈ a.loads, l.slot ≠ 1) ∧ s.cx.pwr = .none ∧
    s.actNeeds 1 = false ∧ (({} : Machine.Arr).img 1).inv ≠ 0 := by
  decide +kernel

/-- A group of the current image with 14 runs and with 15, one the image does not have, and an edge that exists, at depths 1 and
64, and one that does not. -/
theorem witness_ArrayGroupCommands :
    let r : Machine.ArmedRun := { ctx := 0, op := 0x16, ctime := 0, pc := 0 }
    let a : Machine.Arr := { act := some 0, imgs := [(0, { raw := [(5, 16), (0x24F, 0x40)], inv := 0 })]
                             runs := [(15, List.replicate 14 r), (14, List.replicate 15 r)] }
    let s := onTile { life := .live, arr := 4094 } { arr := a }
    s.cx.buf = {} ∧ s.cx.guard 0 = true ∧ s.groupOk 15 = true ∧ a.current = some 0 ∧ (a.runq 0 15).length < 15 ∧ s.cx.arr ≠ 4095 ∧
    15 ≤ (a.runq 0 14).length ∧ (onTile {} {}).groupOk 0 = false ∧ ({} : Machine.Arr).current = none ∧ a.target = none ∧ a.act = some 0 ∧
    Machine.edKind (Machine.imgEdge (a.img 0).raw 0 3) ≠ 0 ∧ Machine.edKind (Machine.imgEdge (a.img 0).raw 0 2) = 0 ∧
    (0x40C0 : Nat) % 64 = 0 ∧ 0x40C0 / 64 % 4 = 3 ∧ 0x40C0 / 256 % 128 = 64 ∧
    ((List.range 4).map (fun j => if j = 3 then 64 else (a.edge 0 0 j).newest)).sum = 64 ∧
    Machine.opOP (Machine.imgOp (a.img 0).raw 0) ≠ Machine.oDELAY := by
  decide +kernel

/-- Each state of a session, this address space's and another's, and operands of MNOPEN that pass and that fail. -/
theorem witness_MergeSessionCommands :
    let f : MR := { md := 0, ma := 8, mb := 0, fn := 3, gp := 0, imm := 0 }
    let s := fun (n : Nat) => sCmd [] n
    (s 0).cx.buf = {} ∧ (s 0).cx.guard 0 = true ∧ (s 0).mnopenChk f = [] ∧ Machine.firstChk ((sCmd [1] 0).mnopenChk f) ≠ none ∧
    (∀ n < 6, ((s n).cluster 0).mn.state = n ∧ ((s n).cluster 0).mn.asid = (s n).cx.asid) ∧
    ((s 1).cluster 0).mn.asid ≠ (onTile { asid := 1 }).cx.asid := by
  decide +kernel

/-- A launch pointer that passes its checks and an ACTIVE queue of this address space; PUBLISH pointers; the child lane with room
for one more and full, and entries of SPAWN. -/
theorem witness_LaunchSpawnPublish :
    let s : Machine.State :=
      { onTile { life := .live, str := 4094, jcnt := 65534, asid := 7, m := [(1, 0x100), (2, 0xFFFFFFFFFFFFF8), (3, 0x1000000000000000), (4, 0xFFFFFFFC), (5, 0x100000000), (6, 0x0F00000000000000)]
                 task := { launch := 3, sid := 9, lin := 0 } }
          { child := List.replicate 15 { launch := 3, sid := 1, lin := 0 } } with
        launches := [(3, { q := 1023, asid := 7, gen := 0, record := [], compl := 0, crec := 0 })] }
    s.cx.buf = {} ∧ s.cx.guard 0 = true ∧ s.cx.str ≠ 4095 ∧ s.blobChk (s.cx.rm 1) 256 256 false = [] ∧
    Machine.firstChk (s.blobChk (s.cx.rm 2) 256 256 false) ≠ none ∧ s.qState 1023 ≠ 1 ∧ (s.cx.rm 2).toNat < 2 ^ 56 ∧
    (s.cx.rm 2).toNat % 8 = 0 ∧ (s.cx.rm 2 + 1).toNat % 8 ≠ 0 ∧ 2 ^ 60 ≤ (s.cx.rm 3).toNat ∧ ((s.tile 0).child).length < 16 ∧ s.cx.jcnt < 65535 ∧
    (s.cx.rm 4).toNat < 2 ^ 32 ∧ (s.cx.rm 4).toNat % 4 = 0 ∧ (s.cx.rm 4 - 1).toNat % 4 ≠ 0 ∧ 2 ^ 32 ≤ (s.cx.rm 5).toNat ∧
    ((s.launch? 3).map (·.cancel)) = some false ∧ 2 ^ 56 ≤ (s.cx.rm 6).toNat ∧ (s.cx.rm 6).toNat < 2 ^ 60 ∧
    (let d : Machine.State := { s with launches := [(3, { q := 1023, asid := 7, gen := 0, record := [], cancel := true, live := 2 })] }
     (d.launch? 3).map (·.cancel) = some true ∧ d.stepCtx d.cx.task.sid = some d.cur) := by
  decide +kernel

/-- A queue descriptor, at the queue table's base 0, of queue 0 in state ACTIVE. -/
theorem witness_LaunchQueueActive :
    let s : Machine.State := { onTile {} with mem := [(0x20, 1)] }
    s.qState 0 = 1 ∨ (List.range 64).any (fun a => ({ onTile {} with mem := [(a, 1)] } : Machine.State).qState 0 == 1) = true := by
  decide +kernel

/-- Each class with room for its units and without, asked for and not. -/
theorem witness_PowerReserveCommands :
    let s : Machine.State := { onTile { life := .live } { crs := [(0x44, 0x41)] } with drawn := 1256 }
    let stat := (s.tile 0).crs.read 0x44
    s.cx.guard 0 = true ∧ (6 : BitVec 6).toNat % 4 < 3 ∧ stat.getLsbD (4 + 2) = true ∧ stat.getLsbD (4 + 1) = false ∧ stat.getLsbD 2 = false ∧
    s.waits = [] ∧ s.drawn + 24 ≤ (s.win.read Machine.wPWRBUD).toNat ∧ ¬ (s.drawn + 1 + 24 ≤ (s.win.read Machine.wPWRBUD).toNat) := by
  decide +kernel


/-! ### Witnesses: contexts and steps -/

/-- Memory where address space 7 maps its first GiB onto itself and its second one onto the host window, with some doublewords. -/
def world (l : List (Nat × Nat)) : Machine.Mem :=
  ([(0x100E0, 0x20001), (0x20000, 0x21001), (0x21000, 0x22001), (0x22000, 0xF), (0x22008, 0x800000000000F)] ++ l).foldl
    (fun (m : Machine.Mem) (e : Nat × Nat) => m.writeLE e.1 e.2 8) []

/-- A machine of that memory, in which ASTBASE is 0x10000. -/
def inWorld (l : List (Nat × Nat)) (s : Machine.State) : Machine.State :=
  { s with mem := world l, win := s.win.write 0x1100 0x10000 }

/-- The header of a code object at 0x5000 with 64 bytes of text at 0x5040, whose first bundle is a single header word `h`. -/
def codeAt (h : Nat) : List (Nat × Nat) := [(0x5000, 0x000000014F435A59), (0x5008, 0x40), (0x5010, 0x40), (0x5040, h)]

/-- A pending load of a1. -/
def load1 (e : Machine.Pend) : Machine.Pend := { e with load := true, arrived := false }
/-- Its parts. -/
def pend1 : Machine.Pend := { dst := .a 1, val := 7, mask := BitVec.allOnes 512, pos := 9, slot := 0 }
/-- A full/empty wait on the scratchpad granule 0x3FFF0. -/
def fe1 (t : Nat) : Machine.FeWait := { cells := [⟨.tile 0, 0x3FFF8, 8, 0⟩], need := true, addr := 8, tick := t }

/-- Loads that arrive now, later, and after their granule is full; a result that an engine has sent and one that it has not. -/
theorem witness_ResultsArrive :
    let now := fun (e : Machine.Pend) (t : Nat) => !e.arrived && decide (e.ready ≤ t) && (e.load || e.tag == 1)
    let es := [load1 pend1, load1 { pend1 with ready := 6 }, { pend1 with arrived := false, tag := 1 }, { pend1 with arrived := false, tag := 5 }]
    let s := fun (full : Bool) => { onTile { life := .live, ld := 1, pend := [{ load1 pend1 with fe := some (fe1 0) }] }
                            { pad := { full := if full then [0x3FFF] else [] } } with tick := 5 }
    es.map (fun e => now e 5) = [true, false, true, false] ∧ (∀ e ∈ es, e.fe = none) ∧ (onTile { pend := es }).cx.shadow = none ∧
    (s true).cx.syq = [] ∧
    (s true).cx.shadow = none ∧ (s true).cx.stq = [] ∧ (s true).cx.life = .live ∧ (fe1 0).need = true ∧ (load1 pend1).dst ≠ .none ∧
    (s true).cx.pend = [{ load1 pend1 with fe := some (fe1 0) }] ∧ (load1 pend1).arrived = false ∧
    (s true).beaten { tile := 0, at_ := 0, ctx := 0, seq := 0, take := false, fill := false, cells := (fe1 0).cells } = false ∧
    (onTile { life := .ended 1 none 4 }).launch? 0 = none ∧
    (s true).cellsFull (fe1 0).cells = true ∧ (s false).cellsFull (fe1 0).cells = false ∧ (load1 pend1).ready ≤ (s true).tick := by
  decide +kernel

/-- A request kept behind a full/empty load that waits, and one that nothing holds any more. -/
theorem witness_KeptRequestsGo :
    let r : Machine.SyncReq := { who := .ctx 0, asid := 0, ptr := 0xC000000000000000, op := .relAdd, v := 1 }
    let s := fun (c : Machine.Ctx) => onTile { c with life := .live, syq := [(1, r)] }
    let w := s (behindLoad {})
    (s {}).cx.shadow = none ∧ (s {}).cx.stq = [] ∧ (s {}).cx.life = .live ∧ (s {}).cx.syq = [(1, r)] ∧ (s {}).cx.pend = [] ∧
    (s {}).engineOf r.ptr ≠ 2 ∧ w.cx.shadow = none ∧ w.cx.stq = [] ∧ w.cx.syq = [(1, r)] ∧ w.cx.pend = [waitingLoad] ∧
    waitingLoad.arrived = false ∧
    (match waitingLoad.fe with | some f => f.need && decide (f.iss < 1) && !w.cellsFull f.cells | none => false) = true := by
  decide +kernel

/-- Stalls that end at the tick and one after it. -/
theorem witness_YieldEnds :
    let s := { onTile { life := .live, stall := 5 } with tick := 5 }
    s.cx.stall ≠ 0 ∧ s.cx.stall ≤ s.tick ∧ ({ s with tick := 4 } : Machine.State).tick < s.cx.stall := by
  decide +kernel

/-- Waits of the limit and of one more, of a load and of a store, no limit, and a context that is being saved. -/
theorem witness_FullEmptyTimeouts :
    let s := fun (t : Nat) => onTile { life := .live, ld := 1, crs := [(0x50, 100)], pend := [{ load1 pend1 with fe := some (fe1 t) }] }
    let h := fun (t : Nat) => ({ tick := t, slot := 0, addr := 8, cells := [⟨.tile 0, 0x3FFF8, 8, 0⟩], at_ := 0 } : Machine.FeHold)
    let w := fun (t : Nat) => onTile { life := .live, crs := [(0x50, 100)], feh := [h t] }
    let saves := fun (s : Machine.State) => (s.tile 0).saves.any (fun v => v.ctx == 0)
    (s 101).cx.shadow = none ∧ (s 101).cx.life = .live ∧ ((s 101).cx.cr 0x50).toNat % 2 ^ 32 = 100 ∧ (s 101).cx.feh = [] ∧
    saves (s 101) = false ∧ (s 101).cx.pend = [{ load1 pend1 with fe := some (fe1 101) }] ∧ (fe1 101).need = true ∧ 100 < (fe1 101).tick ∧
    (fe1 100).tick ≤ 100 ∧ (w 101).cx.pend = [] ∧ (w 101).cx.feh = [h 101] ∧ (w 101).cx.hold = .none ∧ (w 101).cx.pwr = .none ∧
    (w 100).cx.feh = [h 100] ∧ ((onTile {}).cx.cr 0x50).toNat % 2 ^ 32 = 0 ∧
    saves (onTile {} { saves := [{ ctx := 0, slot := 0, start := 0, quiet := 0 }] }) = true := by
  decide +kernel

/-- A record with one level of extent `n`, of the code object at 0x5000, at 0x4000. -/
def record (n : Nat) : List (Nat × Nat) :=
  [(0x4000, 0x5000), (0x4008, 0x0101000100000000), (0x4010, 1), (0x4028, 0xC000000000000000), (0x4030, 0x6000), (0x4040, 0x200000000 + n), (0x4080, 0xABCD)]

/-- A launch of that record. -/
def launchOf (n : Nat) : Machine.Launch :=
  { q := 0, asid := 7, gen := 0, record := Machine.Mem.writeBytes [] 0 ((world (record n)).readBytes 0x4000 256), crec := 0x6000
    compl := 0xC000000000000000, checked := true, total := n }

/-- A program with its handler at 0x40 enabled and pending results before and after its position; each way to have none. -/
theorem witness_TrapsTaken :
    let c : Machine.Ctx := { life := .live, pc := 0x20, ctime := 9, k := 63, crs := [(0x80, 0x41)], recV := { op := .vnop },
                             pend := [pend1, { pend1 with pos := 10 }] }
    let s := onTile c
    let t : TrapInfo := { cause := .misaligned, slot := 2, addr := 5, arg := 4095 }
    let run := onTile { c with shadow := some { recA := c.recA, recV := c.recV, recM := c.recM, k := 0, pend := [], ctime := 0, pc := 0 } }
    t.cause.handleable = true ∧ t.fatal = false ∧ (s.cx.cr 0x80).getLsbD 0 = true ∧ s.cx.shadow = none ∧ s.cx.life = .live ∧
    s.cx.hold = .none ∧ s.cx.pwr = .none ∧ (∀ e ∈ s.cx.pend, e.arrived = true ∧ e.lost = none ∧ e.trapped = none) ∧
    (let late := onTile { c with pend := [{ load1 pend1 with pos := 9 }] }
     late.cx.pend = [{ load1 pend1 with pos := 9 }] ∧ (load1 pend1).arrived = false ∧ (load1 pend1).lost = none ∧ (load1 pend1).trapped = none) ∧
    Cause.handleable .fatal = false ∧ ({ t with fatal := true } : TrapInfo).fatal = true ∧
    ({ run with launches := [(0, { launchOf 4 with live := 1 })] } : Machine.State).launch? run.cx.task.launch = some { launchOf 4 with live := 1 } ∧
    ((onTile { c with crs := [] }).cx.cr 0x80).getLsbD 0 = false ∧ run.cx.shadow.isSome = true := by
  decide +kernel

/-- A handler that returns to where it trapped, one of a software trap, and ones that wrote an aligned and an odd TRPC. -/
theorem witness_TrapReturn :
    let h : Machine.Shadow := { recA := { op := .anop }, recV := { op := .vnop }, recM := { op := .mnop }, k := 3, pend := [pend1], ctime := 5, pc := 0x20 }
    let s := fun (moved : Bool) (soft : Bool) (pc : W64) =>
      onTile { life := .live, shadow := some h, pend := [pend1]
               crs := [(0x81, if moved then 2 else 0), (0x82, if soft then 0x8000000000 else 0), (0x83, pc)] }
    (s false false 0x20).cx.buf = {} ∧ (s false false 0x20).cx.guardB 0 0 = true ∧ (s false true 0x20).cx.shadow = some h ∧
    (∀ e ∈ (s true false 0x40).cx.pend, e.arrived = true ∧ e.lost = none ∧ e.trapped = none) ∧
    ((s false true 0x20).cx.cr 0x82).getLsbD 39 = true ∧ ((s true false 0x40).cx.cr 0x81).getLsbD 1 = true ∧
    ((s true false 0x40).cx.cr 0x83).toNat % 4 = 0 ∧ ((s true false 0x42).cx.cr 0x83).toNat % 4 ≠ 0 ∧
    ((s false false 0x42).cx.cr 0x81).getLsbD 1 = false ∧ (onTile {}).cx.shadow = none := by
  decide +kernel

/-- A write of the bits of handle 15 and of source 20. -/
theorem witness_FaultRecordsClear :
    let s := onTile { life := .live, crs := [(0x90, 0x108001)], handles := [(15, { cmds := [{ cmd0 with faulted := true }] })] }
    (0x108000 : W64).toNat < 2 ^ 21 ∧ (0x108000 : W64).getLsbD 15 = true ∧ (0x108000 : W64).getLsbD 0 = false ∧
    (s.cx.handle 15).cmds = [{ cmd0 with faulted := true }] ∧ (0x90000 : W64).toNat < 2 ^ 21 ∧ (0x90000 : W64).getLsbD 16 = true ∧
    (0x90000 : W64).getLsbD 19 = true := by
  decide +kernel

/-- The header of the step is read, through its address space's tables. -/
def sEntry : Machine.State :=
  inWorld (codeAt 0x80000000) { onTile {} { disp := [{ launch := 0, sid := 1, lin := 2, entry := 0x3C, args := [5, 6] }] } with
    cur := 1, launches := [(0, launchOf 4)] }

/-- A step at the last word of its text, in the second context of tile 0, which is free. -/
theorem witness_StepEntersContext :
    let s := sEntry
    let T := s.tile 0
    let l := launchOf 4
    s.cur < 512 ∧ s.frozen = false ∧ s.pctl ≠ 3 ∧ s.ctxFree s.cur = true ∧ T.freeze ≤ s.tick ∧ T.resume = [] ∧ T.child = [] ∧
    T.disp = [{ launch := 0, sid := 1, lin := 2, entry := 0x3C, args := [5, 6] }] ∧ s.launch? 0 = some l ∧ l.code = 0x5000 ∧
    ((s.setTile 0 { T with disp := [] }).readHeader s.cur l.asid l.gen l.code 0x3C).1.bind (·.toOption) = some (0, 0x40, 0x40) := by
  decide +kernel

/-- A step that ended with a cause and one without, with an allocation, and one whose class is not zero. -/
theorem witness_StepRetires :
    let s := fun (cause : Option Cause) (ld : Nat) =>
      { onTile { life := .ended 1 cause 0x20, ld := ld, task := { launch := 0, sid := 9, lin := 2 } } { allocs := [⟨9, 0, 1024⟩, ⟨8, 1024, 1024⟩] } with
        launches := [(0, { launchOf 4 with live := 1 })] }
    (s none 0).cur < 512 ∧ (s none 0).saving 0 = false ∧ (s none 0).frozen = false ∧ (s none 0).anyFaulted 0 = false ∧
    (s none 0).cx.life = .ended 1 none 0x20 ∧ (s (some .misaligned) 0).cx.life = .ended 1 (some .misaligned) 0x20 ∧
    (s none 0).cx.ld = 0 ∧ (s none 0).cx.st = 0 ∧ (s none 0).cx.str = 0 ∧ (s none 0).cx.arr = 0 ∧ (s none 0).cx.sync = 0 ∧
    (s none 0).cx.jcnt = 0 ∧ (s none 0).cx.task.child = false ∧ (s none 0).launch? 0 = some { launchOf 4 with live := 1 } ∧
    (s none 1).anyFaulted 0 = false ∧ (s none 1).cx.quiet = false := by
  decide +kernel

/-! ### Witnesses: saves and restores -/

/-- A step at a bundle with the B word `b` alone, beside a live one, with one save slot, the last of `n`. -/
def sSave (b : Nat) (c : Machine.Ctx) (t : Machine.Tile) (n : Nat) : Machine.State :=
  let code := fun (c : Machine.Ctx) => { c with life := .live, textLen := 64, code := 0x5000, textOff := 64, asid := 7 }
  let s := inWorld (codeAt (b * 2 ^ 32 + 0xC0000000)) { ctxs := [(0, code c), (1, code { born := 9 })], tiles := [(0, t)] }
  { s with win := s.win.write 0x1308 (BitVec.ofNat 64 n), slots := List.range (n - 1) }

/-- A step in JOIN with a child that waits, and one that a dispatched step of higher priority pre-empts; the array in use by none, by
the step, and by its neighbour. -/
theorem witness_SavesBegin :
    let k : Machine.Task := { launch := 0, sid := 1, lin := 0, pri := 1 }
    let join := sSave 0x48000000 { jcnt := 1 } { child := [k] } 3
    let pre := sSave 0 { born := 10 } { disp := [k], crs := [(0xC1, 0x1000004E2)] } 1
    let owner := fun (x : Nat) => sSave 0 {} { arr := { owner := some x } } 1
    join.unsavable 0 = false ∧ join.freeSlot [] = some 2 ∧ join.usesArray 0 = false ∧ (join.ctx 1).life ≠ .free ∧
    (join.tile 0).child ≠ [] ∧ join.joining 0 = true ∧ join.frozen = false ∧ join.pctl ≠ 3 ∧ pre.unsavable 0 = false ∧
    pre.freeSlot [] = some 0 ∧ pre.exitNext 0 = false ∧ pre.savedHolder 0 = none ∧
    pre.autoRequest 0 = true ∧
    (owner 0).usesArray 0 = true ∧ (owner 0).usesArray 1 = false ∧ (owner 1).usesArray 1 = true := by
  decide +kernel

/-- A save in its first stage after 16 quiet cycles and after 15, with and without the array; at its limit and beyond. -/
theorem witness_SaveStages :
    let v : Machine.Save := { ctx := 0, slot := 0, start := 10, quiet := 20, array := true }
    let s := fun (v : Machine.Save) (t : Nat) => { onTile { life := .live } { saves := [v], crs := [(0xC1, 100)] } with tick := t }
    (s v 36).saveOf 0 = some v ∧ v.quiet + 16 ≤ 36 ∧ 35 < v.quiet + 16 ∧ (s { v with array := false } 20).saveOf 0 = some { v with array := false } ∧
    v.late = false ∧ v.start + (100 + 0) < 111 ∧ 110 ≤ v.start + (100 + 0) ∧ ((s v 36).tile 0).freeze ≤ 36 ∧ v.stage = 0 := by
  decide +kernel

/-- A drained save whose accesses are complete. -/
def sDrained : Machine.State :=
  { onTile { life := .live, pc := 4, a := [(1, 5)], pend := [pend1], ld := 1 } { saves := [{ ctx := 0, slot := 2, start := 0, quiet := 0, stage := 1, park := true }] } with
    slots := [2], win := Machine.State.reset.win.write 0x1308 4 }

/-- It, in a machine between landings. -/
theorem witness_SaveCompletes :
    let v : Machine.Save := { ctx := 0, slot := 2, start := 0, quiet := 0, stage := 1, park := true }
    sDrained.cur < 512 ∧ sDrained.saveOf sDrained.cur = some v ∧ v.ctx = sDrained.cur ∧ v.mate = none ∧ v.stage = 1 ∧
    sDrained.settled sDrained.cur = true ∧ sDrained.landing = none ∧ sDrained.frozen = false ∧ sDrained.pctl = 0 ∧
    (sDrained.tile 0).freeze ≤ sDrained.tick := by
  decide +kernel

/-- A resume entry that has taken context 1, of a saved step with a private window of 1 KiB at the top, which is free. -/
def sResume : Machine.State :=
  { onTile {} { resume := [{ slot := 2, seq := 0, restoring := some 1 }, { slot := 1, seq := 1 }] } with
    cur := 1, slots := [2], ctxs := [(2 ^ 32 + 2, { life := .live, pc := 4, a := [(1, 5)], crs := [(0x34, 0x10003FC00)], pend := [pend1] })] }

/-- Its refill succeeds; and one over another allocation does not. -/
theorem witness_StepRestored :
    let r : Machine.Resume := { slot := 2, seq := 0, restoring := some 1 }
    let keep : Machine.SlotKeep := Machine.mapGet {} sResume.slotKeep 2
    sResume.cur < 512 ∧ ((sResume.tile 0).resume.find? (fun q => q.restoring == some sResume.cur)) = some r ∧ r.mate = none ∧ keep.arr = none ∧
    sResume.frozen = false ∧ (sResume.tile 0).freeze ≤ sResume.tick ∧ sResume.landing = none ∧
    (sResume.tile 0).allocs.any (fun a => a.owner == (sResume.ctx (2 ^ 32 + r.slot)).task.sid) = false ∧
    (Machine.refillPrivate sResume.cur r.slot sResume).isSome = true ∧
    (Machine.refillPrivate 1 2 (sResume.setTile 0 { sResume.tile 0 with allocs := [⟨9, 0x3FF00, 16⟩] })).isSome = false := by
  decide +kernel

/-- A machine in phase READY. -/
def ready (s : Machine.State) : Machine.State := { s with win := s.win.write 0 0x6000000000000000 }

/-- PCTL's commands: a context that can be saved and one without a slot, a queue without steps, and an empty package. -/
theorem witness_SaveCommands :
    let s := ready { onTile { life := .live } with win := (ready {}).win.write 0x1308 1 }
    let s1 : Machine.State := { s with win := s.win.write 0x1310 (BitVec.ofNat 64 (2 ^ 63)), pctl := 1 }
    let n := ready { ctxs := [(0, { life := .live })] }
    let n1 : Machine.State := { n with win := n.win.write 0x1310 (BitVec.ofNat 64 (2 ^ 63)), pctl := 1 }
    s.cur < 512 ∧ NoneBefore s ∧ s.ready = true ∧ s.pctlBusy = false ∧ s.pctlAsk = [] ∧ s1.saveOf 0 = none ∧ s1.exitNext 0 = false ∧
    s1.unsavable 0 = false ∧ s1.freeSlot [] = some 0 ∧ s1.usesArray 0 = false ∧ (s.ctx 0).hold = .none ∧ (s.ctx 0).pwr = .none ∧
    NoneBefore n ∧ n.ready = true ∧ n.pctlBusy = false ∧ n1.saveOf 0 = none ∧ n1.exitNext 0 = false ∧ n1.freeSlot [] = none ∧
    n1.usesArray 0 = false ∧ n.tiles = [] ∧
    (let l : Machine.State := { s with landing := some { kind := 1, start := 0, stop := 9 } }
     NoneBefore l ∧ l.ready = true ∧ l.pctlBusy = false ∧ l.pctlAsk = [] ∧ l.landing ≠ none) ∧ (ready {}).landing = none ∧ (ready {}).residents = [] ∧ (ready {}).queues = [] ∧ (ready {}).ready = true := by
  unfold NoneBefore
  decide +kernel

/-! ### Witnesses: queues and launches -/

/-- The descriptor of queue `q`, at 64 × q: an ACTIVE queue of address space 7, ring of 2^`ln` records at 0x4000, with RDIDX and
WRIDX, TICKETS 1 and PRICAP 0. -/
def desc (q ln rd wr st : Nat) : List (Nat × Nat) :=
  [(64 * q, 0x4000), (64 * q + 8, 0x7000100 + ln), (64 * q + 0x10, rd), (64 * q + 0x18, wr), (64 * q + 0x20, st)]

/-- Queue 3, at RDIDX 1 of a ring of one record of `n` steps, and WRIDX `wr`. -/
def sQueue (n wr : Nat) (s : Machine.State := {}) : Machine.State :=
  inWorld (desc 3 0 1 wr 1 ++ record n) { s with queues := [(3, { wr := wr })], unit := 3 }

/-- WRIDX ahead by one record and by one more than the ring; a launch in the way; a ring that no address space maps. -/
theorem witness_QueueReads :
    let s := sQueue 4 2
    let busy := { s with queues := [(3, { wr := 2, launches := [0] })], launches := [(0, { launchOf 4 with checked := false })] }
    let lost := { s with win := [] }
    s.frozen = false ∧ s.qState 3 = 1 ∧ (s.queue 3).wr ≠ s.qRd 3 ∧ (s.queue 3).wr ≤ s.qRd 3 + 2 ^ s.qLog2n 3 ∧
    (sQueue 4 3).qRd 3 + 2 ^ (sQueue 4 3).qLog2n 3 < ((sQueue 4 3).queue 3).wr ∧ s.mayStart 3 false = true ∧ busy.mayStart 3 false = false ∧
    (match s.readRecord 3 with | .ok _ => true | _ => false) = true ∧ s.qHeld 3 = false ∧
    (match lost.readRecord 3 with | .fault _ => true | _ => false) = true ∧
    ({ s with landing := some { kind := 1, start := 0, stop := 9 } } : Machine.State).qHeld 3 = true ∧
    (let w : Machine.State :=
      { queues := [(3, { wr := 2 })], unit := 3, landing := some { kind := 1, start := 0, stop := 9 }, win := Machine.RegFile.write [] 0x1000 (2 ^ 39)
        mem := (desc 3 0 1 2 1).foldl (fun (m : Machine.Mem) (e : Nat × Nat) => m.writeLE (2 ^ 39 + e.1) e.2 8) [] }
     w.qHeld 3 = false ∧ w.qState 3 = 1 ∧ (w.queue 3).wr = 2 ∧ w.qRd 3 = 1 ∧ w.mayStart 3 false = true ∧ w.readRecord 3 = .wait) ∧
    (s.queue 3).fault = none ∧ ({ s with queues := [(3, { wr := 2, fault := some 0x4000 })] } : Machine.State).queues = [(3, { wr := 2, fault := some 0x4000 })] ∧
    lost.qState 3 = 1 ∧ (lost.queue 3).wr ≠ lost.qRd 3 := by
  decide +kernel

/-- A launch checked before; one of 2^24 steps, one of one more, and one whose record is all zero. -/
theorem witness_LaunchRecordChecks :
    let l := fun (n : Nat) => { launchOf n with checked := false, q := 3 }
    let s := fun (n : Nat) => { sQueue 4 2 with launches := [(0, l n)], unit := 0 }
    (s 0x1000000).launch? (s 4).unit = some (l 0x1000000) ∧ (s 4).frozen = false ∧ (l 4).checked = false ∧ (launchOf 4).checked = true ∧
    (s 0x1000000).formatBad (l 0x1000000) = false ∧ (l 0x1000000).extentBad = false ∧ (s 0x1000001).formatBad (l 0x1000001) = false ∧
    (l 0x1000001).extentBad = true ∧ (s 4).formatBad { l 4 with record := [] } = true := by
  decide +kernel

/-- Two backlogged queues of which the second has the smaller pass; its launch has more steps than its quantum. -/
def sPasses : Machine.State :=
  inWorld (desc 3 0 1 1 1 ++ [(0xF0, 9)] ++ desc 4 0 1 1 1 ++ [(0x130, 8)] ++ record 5000)
    { queues := [(3, { wr := 1, launches := [0], active := true }), (4, { wr := 1, launches := [1], active := true })]
      launches := [(0, launchOf 5000), (1, { launchOf 5000 with q := 4 })], passG := 8 }

/-- The second one is granted a quantum. -/
theorem witness_QuantumGrants :
    let s1 := Machine.rebacklog sPasses
    sPasses.frozen = false ∧ sPasses.pctl ≠ 3 ∧ s1.quantum = none ∧ s1.nextQueue = some 4 ∧ s1.current 4 = some 1 ∧
    s1.launch? 1 = some { launchOf 5000 with q := 4 } ∧ min (launchOf 5000).qsize (launchOf 5000).undispatched = 4096 ∧
    sPasses.qHeld 0 = false ∧ (∀ e ∈ s1.queues, (s1.qPass e.1 + 2 ^ 48 - 0 % 2 ^ 48) % 2 ^ 48 < 2 ^ 47) ∧ (launchOf 5000).checked = true := by
  decide +kernel

/-- A quantum with one step left of a launch with team and step-private spaces, whose lane holds 47 steps. -/
def sPlace : Machine.State :=
  let l := launchOf 5
  { quantum := some (0, 1), launches := [(0, { l with next := 4, record := l.record.writeLE 0x14 0x40000000400 8 })]
    tiles := [(4, { disp := List.replicate 47 { launch := 9, sid := 0, lin := 0 } })] }

/-- Its team's space and its own are free. -/
theorem witness_StepsArePlaced :
    let l := { launchOf 5 with next := 4, record := (launchOf 5).record.writeLE 0x14 0x40000000400 8 }
    let put := fun (s : Machine.State) => s.modLaunch 0 (fun l => { l with teams := Machine.mapPut (l.teamOf 4) { cluster := 0, live := 0, left := l.teamSize } l.teams })
    sPlace.launch? 0 = some l ∧ l.undispatched = 1 ∧ sPlace.frozen = false ∧ sPlace.pctl ≠ 3 ∧ l.tileOf 4 = 4 ∧ (sPlace.tile 4).disp.length < 48 ∧
    l.next % l.extOf [0] = 0 ∧ Machine.mapGet? (l.teamOf 4) l.teams = none ∧ l.cspad = 1024 ∧ l.tspad = 1024 ∧
    (Machine.allocTeam 0 (Machine.teamOwner 0 (l.teamOf 4)) l.cspad sPlace).isSome = true ∧
    ((Machine.allocTeam 0 (Machine.teamOwner 0 (l.teamOf 4)) l.cspad sPlace).bind (fun s => Machine.allocTile 4 1 l.tspad (put s))).isSome = true := by
  decide +kernel

/-- A team that is done, without a session and with another's, and one with a step alive. -/
theorem witness_TeamsRelease :
    let s := fun (live : Nat) (mn : Nat) =>
      ({ launches := [(0, { launchOf 4 with teams := [(2, { cluster := 1, live := live, left := 0 })] })], sub := 2
         clusters := [(1, { mn := { state := mn, launch := 1 }, allocs := [⟨2, 0, 1024⟩] })] } : Machine.State)
    (∀ n < 2, ∀ m < 2, (s n m).launch? (s n m).unit = some { launchOf 4 with teams := [(2, { cluster := 1, live := n, left := 0 })] }) ∧
    ((s 0 0).cluster 1).mn.state = 0 ∧ ((s 0 1).cluster 1).mn.state ≠ 0 ∧ ((s 0 1).cluster 1).mn.launch ≠ 0 ∧
    Machine.teamOwner 0 2 = 2 := by
  decide +kernel

/-- A launch without steps to come whose record can be written, and one in whose way a landing is; each kind of end. -/
theorem witness_LaunchCompletes :
    let l := { launchOf 4 with next := 4 }
    let s := inWorld [] { launches := [(0, l)] }
    let at_ := fun (s : Machine.State) => s.xlateQ 7 0 false l.crec.toNat true
    s.launch? s.unit = some l ∧ s.frozen = false ∧ l.checked = true ∧ l.undispatched = 0 ∧ l.live = 0 ∧ l.teams = [] ∧
    at_ s = .ok 0x6000 ∧ s.waits? 0x6000 = false ∧ s.linked 0x6000 = true ∧
    Machine.inPeer 0x6000 = false ∧ at_ { s with landing := some { kind := 1, start := 0, stop := 9 } } = .wait ∧
    at_ { s with win := [] } = .fail 0 ∧ ({ l with reject := some .launchFormat } : Machine.Launch).reject = some .launchFormat ∧
    ({ l with fault := some (2, 0x23, 255, 4) } : Machine.Launch).fault = some (2, 0x23, 255, 4) := by
  decide +kernel

/-- The window before READY, free, and behind a host write to memory; each state of a queue and of its descriptor. -/
theorem witness_QueueControl :
    let s := fun (st tickets : Nat) => ready (inWorld ([(0xC8, tickets * 256)] ++ [(0xE0, st)]) { unit := 3 })
    NoneBefore (s 0 1) ∧ (s 0 1).ready = true ∧ ({} : Machine.State).ready = false ∧ ({ held := [{ pa := 0, write := true, data := [] }] } : Machine.State).held ≠ [] ∧
    ((s 0 1).win.read Machine.wQCMD).getLsbD 63 = false ∧ (∀ n < 5, ((s n 1).setQcmd 3 false).qState 3 = n) ∧
    ((s 0 1024).setQcmd 3 false).qTickets 3 = 1024 ∧ ((s 0 0).setQcmd 3 false).qTickets 3 = 0 ∧ 1024 < ((s 0 1025).setQcmd 3 false).qTickets 3 ∧
    ((s 0 1).setQcmd 3 false).qLog2n 3 ≤ 16 ∧ ((s 3 1).queue 3).launches = [] ∧ (0x41100 : Nat) < 2 ^ 32 ∧ (s 0 1).qHeld 3 = false ∧
    ({ s 0 1 with landing := some { kind := 1, start := 0, stop := 9 } } : Machine.State).qHeld 3 = true ∧
    (let d := { s 1 1 with queues := [(3, { launches := [7] })], launches := [(7, { launchOf 4 with q := 3 })] }
     (d.queue 3).launches = [7] ∧ d.launch? 7 = some { launchOf 4 with q := 3 } ∧ (launchOf 4).checked = true) ∧
    (({ s 3 1 with queues := [(3, { fault := some 8 })] } : Machine.State).queue 3).fault.isSome = true ∧ ((s 3 1).queue 3).fault.isSome = false ∧
    (let d := { s 3 1 with win := (s 3 1).win.write 0x1008 (2 ^ 63 + 3 * 2 ^ 32) }
     d.qState 3 = 3 ∧ ((d.qSetState 3 4).win.read Machine.wQCMD).toNat / 2 ^ 32 % 2 ^ 10 = 3) := by
  unfold NoneBefore
  decide +kernel

/-- A LAUNCH whose record has been read, for a queue with room for one more and for a full one. -/
theorem witness_LaunchEnqueues :
    let r : Machine.OutReq := { ctx := 0, ptr := 0, q := 3, ctime := 0, pc := 0, buf := some (List.replicate 256 1) }
    let s := fun (wr : Nat) => inWorld (desc 3 1 1 wr 1) { onTile { life := .live, str := 1 } with reqs := [{ r with q := 4 }, r], sub := 1 }
    (s 2).reqs[(s 2).sub]? = some r ∧ r.buf = some (List.replicate 256 1) ∧ (s 2).frozen = false ∧
    ((s 2).reqs.take 1).all (fun e => decide (e.q ≠ r.q)) = true ∧ (s 3).qRd 3 + 2 ^ (s 3).qLog2n 3 ≤ (s 3).qGet 3 0x18 ∧
    (s 2).qGet 3 0x18 < (s 2).qRd 3 + 2 ^ (s 2).qLog2n 3 ∧ (0x4000 + 256 * (2 % 2)) % 2 ^ 64 < 2 ^ 56 ∧
    (s 2).xlateQ ((s 2).qAsid 3) ((s 2).qGen 3) false 0x4000 true = .ok 0x4000 ∧ (s 2).linked 0x4000 = true ∧ (s 2).waits? 0x4000 = false ∧
    (s 2).qHeld 3 = false ∧ Machine.inPeer 0x4000 = false ∧ Machine.inPool 0x4000 = false ∧ (s 2).landing = none ∧
    (s 2).behind r.ctx r.iss = false ∧ (onTile (behindLoad {})).behind 0 1 = true := by
  decide +kernel

/-- A PUBLISH to a page in host memory and to one in HBM. -/
theorem witness_PublishWrites :
    let r := fun (p : W64) => ({ ctx := 0, ptr := p, val := 9, ctime := 0, pc := 0 } : Machine.OutReq)
    let s := fun (p : W64) => inWorld [] { onTile { life := .live, asid := 7, str := 1 } with pubs := [r p] }
    (s 0x40000008).pubs[(s 0x40000008).sub]? = some (r 0x40000008) ∧ (s 8).engineOn 0 = true ∧
    (r 8).faulted = false ∧ (s 8).pubs.take (s 8).sub = [] ∧ (s 8).behind 0 0 = false ∧ (onTile (behindLoad {})).behind 0 1 = true ∧
    ((s 0x40000008).xlate 0 7 0 false 0x40000008 true).1 = .ok 0x8000000000008 ∧ Machine.inHost 0x8000000000008 = true ∧
    ((s 8).xlate 0 7 0 false 8 true).1 = .ok 8 ∧ Machine.inHost 8 = false := by
  decide +kernel

/-- A handler without pending results that returns, and a program that takes a trap; the events of a launch and a PUBLISH have
the witnesses above. -/
theorem witness_HandlerAndLaunchEventsComplete :
    let h : Machine.Shadow := { recA := { op := .anop }, recV := { op := .vnop }, recM := { op := .mnop }, k := 3, pend := [pend1], ctime := 5, pc := 0x20 }
    let r := onTile { life := .live, shadow := some h, crs := [(0x83, 0x20)] }
    let p := onTile { life := .live, crs := [(0x80, 0x41)] }
    r.cx.guardB 0 0 = true ∧ r.cx.buf = {} ∧ r.cx.shadow = some h ∧ r.cx.pend = [] ∧ (r.cx.cr 0x81).getLsbD 1 = false ∧
    (r.cx.cr 0x83).toNat % 4 = 0 ∧ p.cx.life = .live ∧ p.cx.hold = .none ∧ p.cx.pwr = .none ∧ p.cx.shadow = none ∧ p.cx.pend = [] ∧
    (p.cx.cr 0x80).getLsbD 0 = true ∧ Cause.handleable .misaligned = true := by
  decide +kernel

/-! ### Witnesses: streams -/

/-- The state after an operation or event, or the one before where it has none. -/
def nextD (i : Instr) (s : Machine.State) : Machine.State := match Machine.exec i s with | .next t => t | _ => s
/-- A stream command with parameters `ps`, issued and started. -/
def running (ps : List W64) (i : Instr) : Machine.State := nextD .streamStart (nextD i (sCmd ps 1))
/-- The command at the head of handle 0. -/
def head0 (s : Machine.State) : Machine.Cmd := ((s.cx.handle 0).cmds.head?).getD cmd0

/-- The sixteenth head to start, younger ones beside it; and the seventeenth; one that has come back from a save, and one behind a
full/empty load. -/
theorem witness_StreamsStart :
    let run := { cmd0 with started := true }
    let s := fun (n : Nat) => onTile { life := .live, handles := (15, { cmds := [{ cmd0 with seq := 5 }] }) :: (List.range n).map (fun i => (i, { cmds := [run] })) }
    let two : Machine.State := { s 15 with ctxs := [(0, (s 15).ctx 0), (1, { life := .live, handles := [(0, { cmds := [run] }), (1, { cmds := [{ cmd0 with seq := 6 }] })] })], sub := 15 }
    let one := { s 15 with sub := 15 }
    let busy := fun (s : Machine.State) => ((s.heads 0).filter (fun e => e.2.2.started && !e.2.2.idle)).length
    let back := onTile { life := .live, handles := [(0, { cmds := [{ run with idle := true }] })] }
    let late := onTile { behindLoad {} with life := .live, handles := [(0, { cmds := [{ cmd0 with iss := 1 }] })] }
    (one.cx.handle one.sub).cmds = [{ cmd0 with seq := 5 }] ∧ cmd0.op ≠ 0x24 ∧ one.engineOn 0 = true ∧ busy one = 15 ∧
    one.behind 0 0 = false ∧ (one.heads 0).all (fun e => (e.2.2.started && !e.2.2.idle) || decide (5 ≤ e.2.2.seq)) = true ∧
    (two.cx.handle two.sub).cmds = [{ cmd0 with seq := 5 }] ∧ busy two = 16 ∧ busy back = 0 ∧ back.behind 0 0 = false ∧
    (back.heads 0).all (fun e => decide (0 ≤ e.2.2.seq)) = true ∧ (back.cx.handle 0).cmds = [{ run with idle := true }] ∧
    back.engineOn 0 = true ∧ late.behind 0 1 = true ∧ late.engineOn 0 = true := by
  decide +kernel

/-- A SAFF of three elements, an SREC with a token at hand, an SFILL of 80 elements, and a cancelled command. -/
theorem witness_ElementBlocks :
    let saff := running [0, 0x0001000100010003, 4] (.saff (ms 1 0))
    let srec := running [5] (.srec (ms 0 0))
    let srec := srec.modArr 0 (fun a => { a with out := [(0, [{ ready := 0, tok := some { n := 1 }, depth := 1 }])] })
    let fill := running [0, 0x0001000100010050, 4] (.sfill (ms 1 0))
    let k := head0 saff
    let r := head0 srec
    let f := head0 fill
    (saff.cx.handle saff.sub).cmds = [k] ∧ k.started = true ∧ k.idle = false ∧ k.faulted = false ∧ k.fin = false ∧ saff.engineOn 0 = true ∧ k.op = 0x05 ∧
    k.cancel = false ∧ k.bars = [] ∧ k.retry = false ∧ k.fn / 8 % 4 = 0 ∧ Machine.shScal (Machine.pw k.ps 0) = false ∧ k.total = some 3 ∧ k.k < 3 ∧
    (let n := min (Machine.shLanes (Machine.pw k.ps 0)) 3
     let b := Machine.readElems 0 0 k.fe k.zskip (Machine.shMty (Machine.pw k.ps 0)) ((Machine.span k.k n).map (k.ptr (saff.baseWidth 0 k))) [] (Machine.setHead 0 0 k saff)
     (match b.1 with | .ok l => l.2 == [] | _ => false) = true ∧ b.2.cur = 0 ∧ (b.2.cx.handle 0).cmds = [k]) ∧
    (Machine.setHead 0 0 k saff).canPut k 0 false = true ∧
    (srec.cx.handle 0).cmds = [r] ∧ r.op = 0x09 ∧ r.started = true ∧ r.zskip = false ∧ r.total = some 5 ∧ srec.canPut r 0 false = true ∧ srec.outTurn r 0 r.aux = true ∧
    (srec.arr 0).outHead r.aux = some { n := 1 } ∧ (fill.cx.handle 0).cmds = [f] ∧ f.op = 0x0F ∧ f.started = true ∧ f.total = some 80 ∧ f.k + 64 < 80 ∧
    ({ f with cancel := true } : Machine.Cmd).cancel = true := by
  decide +kernel

/-- A SAFF whose elements have scales: its block and its scale byte are read, and the port has room for both. -/
theorem witness_ScaledBlock :
    let s0 := running [0, 0x0001000100010003, 4] (.saff (ms 1 0))
    let k : Machine.Cmd := { head0 s0 with ps := [0x3300200000000000, 0x0001000100010003, 1, 0, 0x8000000000000200] }
    let s := Machine.setHead 0 0 k s0
    let b := Machine.readElems 0 0 k.fe k.zskip (Machine.shMty (Machine.pw k.ps 0)) ((Machine.span 0 1).map (k.ptr (s.baseWidth 0 k)))
      [0x8000000000000200] s
    Machine.shScal (Machine.pw k.ps 0) = true ∧ Machine.shLanes (Machine.pw k.ps 0) = 1 ∧ (s.cx.handle 0).cmds = [k] ∧
    ((List.range 1).filter (fun i => (k.k + i) % 128 == 0)) = [0] ∧
    (match b.1 with | .ok l => l.2.length == 1 | _ => false) = true ∧ b.2.cur = 0 ∧ (b.2.cx.handle 0).cmds = [k] ∧
    s.canPut k 0 true = true := by
  decide +kernel

/-- A SAFFW with a token to write and with a NUL. -/
theorem witness_WrittenBlock :
    let tok : Machine.Tok := { data := 7 }
    let s := (running [0, 0x0001000100010003, 4] (.saffw (ms 1 0))).modArr 0 (fun a => { a with out := [(0, [{ ready := 0, tok := some tok, depth := 1 }])] })
    let n := s.modArr 0 (fun a => { a with out := [(0, [{ ready := 0, tok := some { nul := true, last := true }, depth := 1 }])] })
    let k := head0 s
    let w := Machine.writeElem s 0 (Machine.shMty (Machine.pw k.ps 0)) (Machine.shTty (Machine.pw k.ps 0)) k.base (k.rnd (s.srkey 0) 0) 7
    let b := Machine.writeBlock 0 0 k.fe [w.1] s
    (s.cx.handle 0).cmds = [k] ∧ k.op = 0x06 ∧ k.started = true ∧ k.total = some 3 ∧ s.outTurn k 0 k.port = true ∧ s.arrFrozen 0 = false ∧
    (s.arr 0).outHead k.port = some tok ∧ (n.arr 0).outHead k.port = some { nul := true, last := true } ∧
    (match b.1 with | .ok () => true | _ => false) = true ∧ b.2.cur = 0 ∧ (b.2.cx.handle 0).cmds = [k] ∧
    Machine.shLanes (Machine.pw k.ps 0) = 1 := by
  decide +kernel

/-- The block of the SFILL is written. -/
theorem witness_FillBlock :
    let s := running [0, 0x0001000100010050, 4] (.sfill (ms 1 0))
    let k := head0 s
    let ws := (Machine.span k.k 64).map (fun e => ((k.ptr (s.baseWidth 0 k) e).getD 0, Machine.natToBytes 0 4))
    (s.baseWidth 0 k, s.mfAt 0 ((k.ptr 4 0).getD 0) (Machine.shMty (Machine.pw k.ps 0))) = (4, 0) ∧
    (match (Machine.writeBlock 0 0 k.fe ws s).1 with | .ok () => true | _ => false) = true ∧ (Machine.writeBlock 0 0 k.fe ws s).2.cur = 0 ∧
    ((Machine.writeBlock 0 0 k.fe ws s).2.cx.handle 0).cmds = [k] := by
  decide +kernel

/-- A GRECV, a drain and another command that are done; a follow-on group with 14 runs and with 15. -/
theorem witness_StreamsComplete :
    let s := fun (op : Nat) (follow : Option Nat) (n : Nat) =>
      { onTile { life := .live, str := 1, handles := [(0, { cmds := [{ cmd0 with op := op, fin := true, follow := follow, at_ := 5 }] })] }
          { arr := { act := some 1, runs := [(16 + 3, List.replicate n { ctx := 0, op := 5, ctime := 0, pc := 0 })] } } with tick := 5 }
    (∀ op ∈ [0x24, 0x1C, 0x05], ((s op none 0).cx.handle 0).cmds = [{ cmd0 with op := op, fin := true, at_ := 5 }]) ∧
    (s 5 none 0).engineOn 0 = true ∧ (s 5 (some 3) 14).engineOn 0 = true ∧ ((s 5 (some 3) 14).arr 0).current = some 1 ∧
    ({ cmd0 with follow := some 3, cancel := true, fin := true } : Machine.Cmd).cancel = true ∧
    (((s 5 (some 3) 14).arr 0).runq 1 3).length = 14 ∧ (((s 5 (some 3) 15).arr 0).runq 1 3).length = 15 := by
  decide +kernel

/-- A TEMIT to the last tile and channel, which holds 7 tokens or 8. -/
theorem witness_TokensAreEmitted :
    let k := { cmd0 with op := 0x0C, aux := 0xFFF, started := true, val := 7 }
    let s := fun (n : Nat) => { onTile { life := .live, handles := [(0, { cmds := [k] })] } with
      tiles := [(0, {}), (255, { chans := [(15, List.replicate n 0)] })] }
    ((s 7).cx.handle 0).cmds = [k] ∧ (s 7).engineOn 0 = true ∧ (s 7).peerOf 0 15 = none ∧ ((s 7).tile 255).chan 15 = List.replicate 7 0 ∧
    ((s 8).tile 255).chan 15 = List.replicate 8 0 ∧ (s 7).bridge = true ∧ k.aux % 256 = 255 ∧ k.aux / 256 % 16 = 15 ∧
    (s 7).temitBehind 0 k = false ∧
    (let b := { s 7 with ctxs := [(0, { life := .live, handles := [(0, { cmds := [{ k with seq := 9 }] }), (1, { cmds := [k] })] })] }
     b.temitBehind 0 { k with seq := 9 } = true) := by
  decide +kernel

/-- A token at output port 15 of tile 0, in circuit to input port 14 of tile 255 with the bridge or without it. -/
theorem witness_CircuitsTransfer :
    let t : Machine.Tok := {}
    let s : Machine.State :=
      { tiles := [(0, { table := some (Machine.Mem.writeLE [] 0x78 0x8000000000000FFE 8), arr := { out := [(15, [{ ready := 0, tok := some t, depth := 1 }])] } }),
                  (255, { table := some (Machine.Mem.writeLE [] 0xF0 0x800000000000000F 8) })], sub := 15 }
    let ok := fun (s : Machine.State) => (match (s.tile 255).table with | some n => Machine.swInEntry n 14 == some (0, 15) | none => false) &&
      (s.arr 255).inRoom 14 false && !s.arrFrozen 255 && (0 / 128 == 255 / 128 || s.bridge)
    (s.tile s.unit).table.map (fun m => Machine.swOutEntry m 15) = some (some [(255, 14)]) ∧ (s.arr 0).outHead 15 = some t ∧ ok s = true ∧
    s.arrFrozen 0 = false ∧ ok { s with bridge := false } = false := by
  decide +kernel

/-! ### Witnesses: the merge network and the array -/

/-- A feed of three entries into lane 0 of an open session; sessions that are sealed with a run that can be read and with one that
cannot; sessions whose team lives and whose team is gone. -/
theorem witness_MergeEvents :
    let s := running [0xC00000003, 0x8000000000000100, 0] (.mnfeed (ms 1 0))
    let k := head0 s
    let m := (s.cluster 0).mn
    let acc := Machine.feedAcc s 0 k 0 (min 64 (k.total.getD 0))
    let r := Machine.readBlock 0 0 false false (acc.1 ++ acc.2.map (fun e => (e.2, Machine.tyBytes e.1))) s
    let sealed : Machine.Merge := { state := 2, runs := [1], size := 65536, base := 0x2000, buf := [] }
    let t := fun (live : Nat) => ({ clusters := [(0, { mn := sealed })], launches := [(0, { launchOf 1 with teams := [(0, { cluster := 0, live := live, left := 0 })] })] } : Machine.State)
    (s.cx.handle 0).cmds = [k] ∧ k.op = 0x1A ∧ k.started = true ∧ k.arrived = false ∧ k.faulted = false ∧ k.cancel = false ∧ k.retry = false ∧
    k.bars = [] ∧ s.engineOn 0 = true ∧ k.total = some 3 ∧ (s.tileCmds 0).all (fun e => decide (k.seq ≤ e.2.2.seq)) = true ∧
    k.idle = false ∧ (match r.1 with | .ok _ => true | _ => false) = true ∧ ((r.2.ctx 0).handle 0).cmds = [k] ∧
    (r.2.cluster 0).mn = m ∧ m.state = 1 ∧
    m.asid = s.cx.asid ∧ Machine.mapGet? 0 m.lanes = none ∧ m.waits = [] ∧
    sealed.lanes = [] ∧ sealed.waits = [] ∧ sealed.pause ≤ 0 ∧ (match Machine.readRuns (t 1) { sealed with runs := [] } with | .inl l => l.isEmpty | _ => false) = true ∧
    (match Machine.readRuns (t 1) sealed with | .inr (some _) => true | _ => false) = true ∧
    (match Machine.readRuns { t 1 with landing := some { kind := 1, start := 0, stop := 9 } } sealed with | .inr none => true | _ => false) = true ∧ ((t 1).launch? 0).bind (fun l => Machine.mapGet? 0 l.teams) = some { cluster := 0, live := 1, left := 0 } ∧
    (({} : Machine.State).launch? 0) = none := by
  decide +kernel

/-- A drain of at most `n` entries of a sequence of two. -/
def sDrain (n : Nat) : Machine.State :=
  let k : Machine.Cmd := { cmd0 with op := 0x1C, base := 0x8000000000000000, ps := [BitVec.ofNat 64 n, 0x8000000000000100], started := true, arrived := true }
  { sCmd [] 3 with
    ctxs := [(0, { life := .live, crs := [(0x34, 0x1000000000)], handles := [(0, { cmds := [k] })] })]
    clusters := [(0, { mn := { state := 3, vty := 0, oty := 0, drains := [0], seq := [(5, [0x3F800000], 0), (9, [0x3F800000], 0)] } })] }

/-- A drain whose session has been closed has nothing left to write. -/
theorem witness_EndedDrain :
    let k := { head0 (sDrain 3) with ended := true }
    let s := Machine.setHead 0 0 k (sDrain 3)
    let d := Machine.drainSteps s 0 64 k { (s.cluster 0).mn with seq := [] } [] 0
    let w := Machine.writeBlock 0 0 false (d.2.2.2.1.map (·.2)) s
    (s.cx.handle 0).cmds = [k] ∧ k.ended = true ∧ d.1 = true ∧ (match w.1 with | .ok () => true | _ => false) = true ∧ w.2.cur = 0 ∧
    (w.2.cx.handle 0).cmds = [k] ∧ k.started = true ∧ k.idle = false ∧ k.fin = false ∧ s.engineOn 0 = true := by
  decide +kernel

/-- Drains that end at their limit, with the sequence, and before. -/
theorem witness_MergeDrains :
    (∀ n ∈ [1, 2, 3], let s := sDrain n
      let k := head0 s
      let s1 := Machine.setHead 0 0 k (s.modMn 0 (fun m => m))
      (s.cx.handle 0).cmds = [k] ∧ k.op = 0x1C ∧ k.started = true ∧ k.arrived = true ∧ k.faulted = false ∧ k.fin = false ∧ s.engineOn 0 = true ∧
      (s.cluster 0).mn.state = 3 ∧ (s.cluster 0).mn.drains.head? = some 0 ∧ (s.cluster 0).mn.pause ≤ s.tick ∧
      (let d := Machine.drainSteps s1 0 64 k (s.cluster 0).mn [] 0
       let w := Machine.writeBlock 0 0 false (d.2.2.2.1.map (·.2)) s1
       (match w.1 with | .ok () => true | _ => false) = true ∧ w.2.cur = 0 ∧ (w.2.cx.handle 0).cmds = [k])) := by
  decide +kernel

/-- An image in which PE 0 is FORK, fed by input port 0 and feeding output port 0. -/
def forkImage : Machine.Mem :=
  ([(0x40, 0x0800000000000000), (0x240, 0x80040000), (0x640, 0x00100000), (0x680, 0x00100000), (0x6C0, 1)] : List (Nat × Nat)).foldl
    (fun (m : Machine.Mem) (e : Nat × Nat) => m.writeLE e.1 e.2 8) [(5, 1)]

/-- An array that runs it, with a token on the edge, at the output port and at the input port. -/
def sArr (edge : Nat) : Machine.State :=
  { tiles := [(0, { arr :=
    { imgs := [(0, { raw := forkImage, inv := 0 })], act := some 0, runs := [(0, [{ ctx := 0, op := 5, ctime := 0, pc := 0, begun := some 0 }])]
      pes := [(0, { img := some 0, op := Machine.imgOp forkImage 0 })]
      edges := [(0, { q := List.replicate edge { ready := 0, tok := some {} }, depth := 4 })]
      inp := [(0, [{ ready := 0, tok := some {}, depth := 1 }])], out := [(0, [{ ready := 0, tok := some { last := true } }])] } })] }

/-- A PE that fires and one without a token. -/
theorem witness_OperatorsFire :
    let a := (sArr 1).arr 0
    let x := a.pe 0
    (({ x with bad := true } : Machine.Pe).bad = true ∧ a.flushing 0 (Machine.imgGroup (a.img 0).raw 0) = false) ∧ x.img = some 0 ∧ x.bad = false ∧ (sArr 1).arrFrozen 0 = false ∧ a.running 0 0 (Machine.imgGroup (a.img 0).raw 0) = true ∧
    (∀ k ∈ [1, 2, 3], ∀ y ∈ a.heads 0 0 0 k, y.nul = false) ∧ x.emit = [] ∧ Machine.opOP x.op ≠ Machine.oBDOT ∧ Machine.opOP x.op ≠ Machine.oBDOTA ∧
    a.absorbW 0 0 0 = a ∧ x.busy ≤ 0 ∧ (Machine.fireOp 0 0 x (Machine.edKind (Machine.imgEdge (a.img 0).raw 0 1) != 0) (a.heads 0 0 0)).isSome = true ∧
    (Machine.fireOp 0 0 x (Machine.edKind (Machine.imgEdge (a.img 0).raw 0 1) != 0) (a.heads 0 0 0)).all (fun f =>
      [0, 1].all (fun o => a.fits 0 0 0 o (f.out.filter (fun e => e.1 == o)).length)) = true ∧
    (let b := (sArr 0).arr 0
     (Machine.fireOp 0 0 (b.pe 0) (Machine.edKind (Machine.imgEdge (b.img 0).raw 0 1) != 0) (b.heads 0 0 0)).isNone = true) := by
  decide +kernel

/-- A block-dot operator takes a weight token into its free bank, and then fires on what stands at its first input or does not. -/
theorem witness_WeightsEnter :
    let op : Nat := 8 * 2 ^ 58 + 3 * 2 ^ 54 + 3 * 2 ^ 50 + 2 ^ 32
    let s := (sArr 0).modArr 0 (fun a => { a with
      pes := [(0, { img := some 0, op := op })], edges := [(1, { q := [{ ready := 0, tok := some { ty := 3, n := 64 } }], depth := 4 })] })
    let b := s.arr 0
    (b.pe 0).img = some 0 ∧ Machine.opOP (b.pe 0).op = Machine.oBDOT ∧ b.absorbW 0 0 0 ≠ b ∧ ((b.absorbW 0 0 0).pe 0).emit = [] ∧
    b.running 0 0 (Machine.imgGroup (b.img 0).raw 0) = true ∧ (∀ k ∈ [1, 2, 3], ∀ y ∈ b.heads 0 0 0 k, y.nul = false) ∧
    (Machine.fireOp 0 0 ((b.absorbW 0 0 0).pe 0) true ((b.absorbW 0 0 0).heads 0 0 0)).isNone = true := by
  decide +kernel

/-- A LAST and another token on their way to an output port, and a token at an input port whose edge has room. -/
theorem witness_TokensArrive :
    let s := { sArr 3 with sub := 512 }
    let a := s.arr 0
    s.arrFrozen s.unit = false ∧ a.outq 0 = [{ ready := 0, tok := some { last := true } }] ∧
    (a.runq 0 (Machine.poGroup (Machine.imgPort (a.img 0).raw 16))).map (·.begun) = [some 0] ∧
    Machine.groupOuts (a.img 0).raw (Machine.poGroup (Machine.imgPort (a.img 0).raw 16)) = [0] ∧
    a.inq 0 = [{ ready := 0, tok := some {}, depth := 1 }] ∧ Machine.imgFed (a.img 0).raw 2 0 = some (0, 0) ∧ (a.pe 0).img = some 0 ∧
    0 < a.edgeFree s.tick 0 0 0 ∧ ((sArr 4).arr 0).edgeFree 0 0 0 0 = 0 := by
  decide +kernel

/-- A run that waits to begin, and one behind a full/empty load of its context; a switch that its last PE completes and one that
others have still to follow; a NUL at a port with room and at a full one; a depth marker whose time has come. -/
theorem witness_ArrayEvents :
    let run : Machine.ArmedRun := { ctx := 0, op := 5, ctime := 0, pc := 0 }
    let r : Machine.State := { tiles := [(0, { arr := { act := some 1, runs := [(31, [run])] } })], sub := 31 }
    let sw := fun (n : Nat) => ({
      tiles := [(0, { arr := { imgs := [(1, { raw := forkImage, inv := 0 })], target := some 1, pes := (List.range n).map (fun p => (p, { img := some 1 })) } })], sub := 63, tick := 15 } : Machine.State)
    let nul : Machine.EItem := { ready := 0, tok := some { nul := true }, depth := 1 }
    let nu := fun (n : Nat) => ({ tiles := [(0, { arr := { nuls := [(15, [nul])], inp := [(15, List.replicate n nul)] } })], sub := 15 } : Machine.State)
    let dm : Machine.State := { tiles := [(0, { arr := { edges := [(256 + 255, { q := [{ ready := 0, tok := none, depth := 64 }], depth := 4 })] } })], sub := 511, tick := 1 }
    Machine.mapGet? 31 (r.arr 0).runs = some [run] ∧ run.begun = none ∧ r.arrFrozen 0 = false ∧ run.after ≤ r.tick ∧ (r.arr 0).act = some (31 / 16) ∧
    ((sw 63).arr 0).target = some 1 ∧ (sw 63).arrFrozen 0 = false ∧ (((sw 63).arr 0).pe 63).img ≠ some 1 ∧ ((sw 63).arr 0).maySwitch 15 63 = true ∧
    (∀ q < 64, q ≠ 63 → (((sw 63).arr 0).pe q).img = some 1) ∧ (((sw 62).arr 0).pe 62).img ≠ some 1 ∧ ((sw 62).arr 0).maySwitch 15 63 = true ∧
    r.behind run.ctx run.iss = false ∧ ({ r with ctxs := [(0, behindLoad {})] } : Machine.State).behind 0 1 = true ∧
    Machine.mapGet? 15 ((nu 7).arr 0).nuls = some [nul] ∧ Machine.tokCount (((nu 7).arr 0).inq 15) < 8 ∧
    8 ≤ Machine.tokCount (((nu 8).arr 0).inq 15) ∧
    (nu 7).arrFrozen 0 = false ∧ ((dm.arr 0).edge 1 63 3).q = [{ ready := 0, tok := none, depth := 64 }] ∧ (0 : Nat) < dm.tick := by
  decide +kernel

/-- Loads of a switch table and of slot 1, whose blocks can be read. -/
theorem witness_ImagesLand :
    let l : Machine.CfgLoad := { slot := 1, ctx := 0, ptr := 0x8000000000000000, op := 0x12, ctime := 0, pc := 0 }
    let c : Machine.Ctx := { life := .live, crs := [(0x34, 0x1000000000)], str := 1 }
    let t := { onTile c { tloads := [l] } with sub := 2 }
    let i := { onTile c { arr := { loads := [l] } } with sub := 1 }
    l.faulted = false ∧ l.retry = false ∧ t.frozen = false ∧ t.arrFrozen 0 = false ∧ (t.tile 0).tloads = [l] ∧
    (match (Machine.readDirect 0 0 (Machine.blocks64 l.ptr 4) t).1 with | .ok b => decide (b.length = 256) | _ => false) = true ∧
    (i.arr 0).loads.find? (fun l => l.slot == i.sub) = some l ∧
    (match (Machine.readDirect 0 0 (Machine.blocks64 l.ptr 32) i) with | (.ok b, s) => decide (b.length = 2048 ∧ s.arr 0 = i.arr 0) | _ => false) = true ∧
    (∀ k ∈ (i.arr 0).loads.erase l, k.slot ≠ 1) ∧ t.behind 0 l.iss = false ∧ i.behind 0 l.iss = false ∧
    ({ t with ctxs := [(0, behindLoad c)] } : Machine.State).behind 0 1 = true := by
  decide +kernel

/-! ### Witnesses: sync engines and gallery cores -/

/-- A request of context 0 and of the host on an object of address space 7. -/
def req (op : Machine.SyncOp) (v : W64) : Machine.SyncReq := { who := .ctx 0, asid := 7, ptr := 0xC000000000000000, op := op, v := v }
/-- An engine with a queue and an object of a value. -/
def sSync (q : List Machine.SyncReq) (o : Machine.SyncObj) (c : Machine.Ctx := {}) : Machine.State :=
  { onTile { c with life := .live } with dies := [(0, { objs := [(7 * 2 ^ 64 + 0xC000000000000000, o)], queue := q })] }

/-- Requests of a context without a result and with one, and of the host, with room in the stores and with both full; a parked
one. -/
theorem witness_SyncEnginePerforms :
    let r := req (.atom 0) 1
    let s := sSync [r] {} { sync := 1 }
    let ret := sSync [{ r with tag := 4, ret := true }] {} { pend := [{ pend1 with tag := 5, arrived := false }] }
    let full : Machine.State := { s with dies := [(0, { queue := [r], sram := List.replicate 65536 0 })] }
    let D := full.die 0
    (s.die 0).pause ≤ s.tick ∧ (s.die 0).queue = [r] ∧ (s.die 0).parked = [] ∧ (∀ k ∈ List.range 8, r.op ≠ .wait k) ∧
    (Machine.mapGet {} (s.die 0).objs (7 * 2 ^ 64 + r.ptr.toNat) : Machine.SyncObj).waiters = [] ∧ (s.die 0).sram.length < 65536 ∧
    newValue r.op 0 r.v ≠ 0 ∧ newValue r.op (BitVec.allOnes 64) r.v = 0 ∧ ret.cx.pend = [{ pend1 with tag := 5, arrived := false }] ∧
    D.sram.length = 65536 ∧ full.overCap 0 ≤ D.ovfl.length ∧ (7 * 2 ^ 64 + r.ptr.toNat) ∉ D.ovfl ∧ (7 * 2 ^ 64 + r.ptr.toNat) ∉ D.virt ∧
    D.sram.all (fun k => k != 7 * 2 ^ 64 + r.ptr.toNat) = true ∧ (req (.relX) 1).op = .relX ∧ (s.die 0).usesArea r = false ∧
    ({ s.die 0 with ovfl := [7 * 2 ^ 64 + r.ptr.toNat] } : Machine.Die).usesArea r = true := by
  decide +kernel

/-- In a landing a request that needs the overflow area stands before one that does not, and alone; a request to package 1, by a port
that is up. -/
theorem witness_SyncEngineMore :
    let r := req (.atom 0) 1
    let q : Machine.SyncReq := { r with ptr := 0xC000000000000008 }
    let s := fun (l : List Machine.SyncReq) => ({ onTile { life := .live } with
      landing := some { kind := 1, start := 0, stop := 9 }
      dies := [(0, { queue := l, ovfl := [Machine.objKey 7 0xC000000000000008] })] } : Machine.State)
    let far : Machine.State := { onTile { life := .live } with
      unit := 2, win := Machine.RegFile.write [] (Machine.wUAROUTE + 8) 0x800, dies := [(2, { queue := [{ r with ptr := 0xC000000100000000 }] })] }
    ((s [q, r]).die 0).queue = [q] ++ r :: [] ∧ (s [q, r]).landing ≠ none ∧ ((s [q, r]).die 0).usesArea q = true ∧
    ((s [q, r]).die 0).usesArea r = false ∧ Machine.objKey q.asid q.ptr ≠ Machine.objKey r.asid r.ptr ∧ ((s [q, r]).die 0).parked = [] ∧
    (∀ x ∈ ((s [q]).die 0).queue, ((s [q]).die 0).usesArea x = true) ∧ far.peerUp ((0xC000000100000000 : W64).toNat / 2 ^ 32 % 2 ^ 8) = true ∧
    (far.die 2).parked = [] ∧ (far.die 2).pause ≤ far.tick ∧
    (Machine.mapGet {} (far.die 2).objs (Machine.objKey 7 0xC000000100000000) : Machine.SyncObj).waiters = [] := by
  decide +kernel

/-- A wait of each kind, met and not met, of a context that holds for it; and an operation that satisfies a waiter. -/
theorem witness_SyncEngineGrants :
    let o : Machine.SyncObj := { val := 6 }
    let held := fun (k : Nat) (v : W64) => sSync [req (.wait k) v] o { hold := .wait 0xC000000000000000 k v }
    let met := fun (k : Nat) (v : W64) => decide ((k = 0 ∧ o.val = v) ∨ (k = 1 ∧ o.val ≠ v) ∨ (k = 2 ∧ v.toNat ≤ o.val.toNat) ∨ (k = 3 ∧ o.val.toNat < v.toNat) ∨
        (k = 4 ∧ o.val &&& v ≠ 0) ∨ (k = 6 ∧ v.toNat ≤ o.val.toNat) ∨ (k = 7 ∧ o.val = v))
    let w : Machine.Waiter := { who := .ctx 0, cond := 0, v := 7 }
    let sig := fun (v : W64) => sSync [{ req (.atom 0) v with who := .engine }] { o with waiters := [w] } { hold := .wait 0xC000000000000000 0 7 }
    [met 0 6, met 1 5, met 2 6, met 3 7, met 4 2, met 6 6, met 7 6] = List.replicate 7 true ∧
    [met 0 5, met 1 6, met 2 7, met 3 6, met 4 1, met 6 7, met 7 5] = List.replicate 7 false ∧
    (held 2 6).cx.hold = .wait 0xC000000000000000 2 6 ∧ ((held 2 6).die 0).queue = [req (.wait 2) 6] ∧ ((held 2 6).die 0).parked = [] ∧
    ((held 2 6).die 0).sram.length < 65536 ∧ ((held 2 6).die 0).pause ≤ (held 2 6).tick ∧
    (sSync [req (.wait 5) 9] {} { hold := .wait 0xC000000000000000 5 9 }).cx.hold = .wait 0xC000000000000000 5 9 ∧
    (sig 1).cx.hold = .wait 0xC000000000000000 0 w.v ∧ newValue (.atom 0) o.val 1 = w.v ∧ newValue (.atom 0) o.val 2 ≠ w.v := by
  decide +kernel

/-- A refused wait whose time has come and one whose time has not; a request to package 1, without a port up, at its limit. -/
theorem witness_RemoteSyncEvents :
    let r := req (.wait 2) 6
    let s := { sSync [] {} { hold := .retry 1024 r } with tick := 1024 }
    let far : Machine.SyncReq := { r with ptr := 0xC000000100000000 }
    let l := fun (op : Machine.SyncOp) => ({ onTile { life := .live, sync := 1 } with unit := 1, tick := 1750000, dies := [(2, { queue := [{ far with op := op }] })] } : Machine.State)
    s.cx.hold = .retry 1024 r ∧ 1024 ≤ s.tick ∧ ({ s with tick := 1023 } : Machine.State).tick < 1024 ∧
    (l (.wait 2)).unit ≠ (l (.wait 2)).pkgnum ∧ (l (.wait 2)).peerUp 1 = false ∧ ((l (.wait 2)).die 2).queue = [far] ∧
    ((l .relAdd).die 2).parked = [] ∧ ((l .relAdd).die 2).objs = [] ∧ far.ptr.toNat / 2 ^ 32 % 2 ^ 8 = 1 ∧
    (l .relAdd).down.has 12 = false ∧ (l .relAdd).down.has 3 = false ∧ far.port = 12 ∧
    far.at_ + ((l .relAdd).win.read 0x1410).toNat ≤ (l .relAdd).tick ∧ 1749999 < far.at_ + ((l .relAdd).win.read 0x1410).toNat := by
  decide +kernel

/-- A pointer of the host's that passes its check and one that does not. -/
theorem witness_HostSyncRequests :
    let s := ready { win := ({} : Machine.State).win.write 0x1218 0xC000000000000000 }
    ({ s with win := s.win.write 0x1218 0xC000000000000000 } : Machine.State).checkObj 0xC000000000000000 = none ∧
    s.checkObj 1 ≠ none ∧ NoneBefore s ∧ s.ready = true ∧ (s.win.read 0x1220).getLsbD 63 = false ∧
    ({ s with win := s.win.write 0x1220 0x8000000000000000 } : Machine.State).win.read 0x1220 = 0x8000000000000000 := by
  unfold NoneBefore
  decide +kernel

/-- A job descriptor at 0x8000 for code at 0x5000, whose entry is its text's last word. -/
def sJob (l : List (Nat × Nat)) : Machine.State :=
  ready (inWorld (codeAt 0x80000000 ++ [(0x8000, 0x5000), (0x8008, 0x000000070000003C), (0x8010, 0xC000000000000000), (0x8090, 9)] ++ l) { unit := 63 })

/-- It is good, one with a reserved byte is bad; GO and no GO; a core that is not idle, and a landing. -/
theorem witness_GalleryJobsStart :
    let s := sJob []
    let f := fun (s : Machine.State) (off n : Nat) => s.mem.readLE (0x8000 + off) n
    let bad := fun (s : Machine.State) => decide (f s 0x0F 1 ≠ 0 ∨ f s 0x18 8 ≠ 0 ∨ f s 0x98 40 ≠ 0 ∨ f s 8 4 % 4 ≠ 0 ∨ 2 ^ 56 ≤ f s 0 8 ∨ f s 0 8 % 64 ≠ 0 ∨
      s.checkObj (BitVec.ofNat 64 (f s 0x10 8)) ≠ none)
    s.landing = none ∧ NoneBefore s ∧ s.ready = true ∧ (0x8001 : W64).getLsbD 0 = true ∧ (0x8000 : W64).getLsbD 0 = false ∧
    (0x8001 : W64).toNat / 2 ^ 6 % 2 ^ 46 * 64 = 0x8000 ∧ (s.gal 63).state = 0 ∧ (s.ctx 575).life = .free ∧ s.frozen = false ∧ s.badPa = [] ∧
    bad s = false ∧ bad (sJob [(0x8018, 1)]) = true ∧
    ((s.setGal 63 { compl := 0xC000000000000000, state := 1 }).readHeader 575 (f s 0xC 2) (f s 0xE 1) 0x5000 0x3C).1.bind (·.toOption) = some (0, 0x40, 0x40) ∧
    ({ s with gals := [(63, { state := 2 })] } : Machine.State).gal 63 = { state := 2 } := by
  unfold NoneBefore
  decide +kernel

/-- A job that ended, with a tag BUSY and without. -/
theorem witness_GalleryJobsEnd :
    let s := fun (n : Nat) => { onCore { life := .ended 5 (some .misaligned) 4, asid := 7 } { state := 1, compl := 0xC000000000000000, tags := [(127, { state := n })] } with unit := 63 }
    (s 0).unit < 64 ∧ ((s 0).ctx 575).life = .ended 5 (some .misaligned) 4 ∧ (s 0).frozen = false ∧ ((s 0).gal 63).freeze ≤ (s 0).tick ∧
    (∃ e ∈ ((s 1).gal 63).tags, e.2.state = 1) ∧ (∀ e ∈ ((s 2).gal 63).tags, e.2.state ≠ 1) ∧ ((s 2).ctx 575).ld = 0 ∧ ((s 2).ctx 575).st = 0 ∧
    ((s 2).ctx 575).sync = 0 ∧ (s 2).checkObj 0xC000000000000000 = none := by
  decide +kernel

/-- A read and a write of 32 bytes whose translation is found, and one that no address space maps. -/
def sPkt (kind : Nat) (addr : W64) : Machine.State :=
  let p : Machine.Packet := { kind := kind, addr := addr, off := 0x1FFE0, len := 32, data := List.replicate 32 (some 7) }
  { inWorld [(0x4000, 9)] (onCore { life := .live, asid := 7 } { state := 1, tags := [(5, { state := 1, pkt := some p })] }) with unit := 63, sub := 5 }

/-- They may go ahead. -/
theorem witness_PacketsComplete :
    let p := fun (kind : Nat) (addr : W64) => ({ kind := kind, addr := addr, off := 0x1FFE0, len := 32, data := List.replicate 32 (some 7) } : Machine.Packet)
    (∀ k < 2, let s := sPkt k 0x4000
      let x := s.pktXlate 63 (p k 0x4000)
      ((s.gal 63).tag 5).pkt = some (p k 0x4000) ∧ ((s.gal 63).tag 5).state = 1 ∧ s.frozen = false ∧ (s.gal 63).freeze ≤ s.tick ∧
      x.1 = .ok 0x4000 ∧ x.2.landing = none ∧ x.2.pktBlocked 63 (p k 0x4000) 0x4000 = false ∧ x.2.linked 0x4000 = true ∧ x.2.badPa = []) ∧
    ((sPkt 0 0x80000000).pktXlate 63 (p 0 0x80000000)).1 = .fail 0 ∧ (sPkt 0 0x4000).inRiser = false ∧
    ({ sPkt 0 0x4000 with tick := 7936 } : Machine.State).inRiser = true ∧ 0x4000 < 2 ^ 39 ∧
    (match (Machine.readGranules 575 0x4000 0x4000 1 (sPkt 0 0x4000)).1 with | .ok b => decide (b.length = 32) | _ => false) = true := by
  decide +kernel

/-- A packet to pool memory or to package 1, before it goes or under way; a TLB entry of its core maps its page. -/
def sFar (pool : Bool) (kind : Nat) (sent : Option (Nat × List (Nat × Nat))) : Machine.State :=
  let p : Machine.Packet := { kind := kind, addr := if pool then 0xE000000000000000 else 0, off := 0x1FFE0, len := 32
                              data := List.replicate 32 (some 7), sent := sent }
  let e : Machine.TlbEntry := { asid := 7, gen := 0, pool := pool, bits := 16, page := 0, va := 0, r := true, w := true
                                pa := if pool then 0x4000000000000 else 0xC010000000000 }
  { onCore { life := .live, asid := 7 } { state := 1, tlb := [e], tags := [(5, { state := 1, pkt := some p })] } with
    unit := 63, sub := 5, tick := 9, win := Machine.RegFile.write [] (Machine.wUAROUTE + 8) 0x800 }

/-- They are translated, and nothing blocks them; the pool's link up and down. -/
theorem witness_FarPackets :
    let pkt := fun (s : Machine.State) => (((s.gal 63).tag 5).pkt).getD { kind := 2 }
    let x := fun (s : Machine.State) => s.pktXlate 63 (pkt s)
    let ok := fun (s : Machine.State) (pa : Nat) => (x s).1 = .ok pa ∧ (x s).2.badPa = [] ∧ (x s).2.pktBlocked 63 (pkt s) pa = false
    let peer := sFar false 1 none
    ok (sFar true 0 none) 0x4000000000000 ∧ ok (sFar true 1 none) 0x4000000000000 ∧ Machine.inPeer 0x4000000000000 = false ∧
    (x (sFar true 1 none)).2.poolUp = true ∧ ({ (x (sFar true 1 none)).2 with poolUp := false } : Machine.State).poolUp = false ∧
    ok peer 0xC010000000000 ∧ Machine.inPeer 0xC010000000000 = true ∧ (pkt peer).sent = none ∧
    ok (sFar false 1 (some (8, []))) 0xC010000000000 ∧ 8 < (x (sFar false 1 (some (8, [])))).2.tick ∧
    (x (sFar false 1 (some (9, [])))).2.tick ≤ 9 := by
  decide +kernel

/-- The one port to package 1 carries all of them. -/
theorem witness_FarPorts : ∀ kind key, (sFar false 1 none).portTo 1 kind key < 12 := by
  intro kind key
  have ups : (List.range 12).filter (fun i => bitOf (((sFar false 1 none).win.read (Machine.wUAROUTE + 8 * 1)).toNat % 4096) i &&
      !(sFar false 1 none).down.has i) = [11] := by decide +kernel
  simp [Machine.State.portTo, ups, Nat.mod_one]

/-- A hand-off of 64 bytes to a posting that takes as much, to one that takes less, and without one; taken, and cut. -/
theorem witness_HandoffsTake :
    let p : Machine.Packet := { kind := 2, off := 0, len := 64, tile := 0, chan := 3 }
    let s := fun (ps : List W64) (p : Machine.Packet) (tk : Option Nat) =>
      ({ ctxs := [(0, { life := .live, asid := 7, handles := [(2, { cmds := [{ cmd0 with op := 0x24, fn := 3, ps := ps, started := true, posted := some 0, taker := tk }] })] }),
                  (575, { life := .live, asid := 7 })]
         gals := [(63, { state := 1, tags := [(5, { state := 1, pkt := some p })] })], unit := 63, sub := 5 } : Machine.State)
    let a := s [64] p none
    ((a.gal 63).tag 5).pkt = some p ∧ p.kind = 2 ∧ a.frozen = false ∧ (a.gal 63).freeze ≤ a.tick ∧ p.taken = none ∧
    (a.posting 0 3 7).isSome = true ∧ (a.posting 0 2 7).isNone = true ∧ p.len ≤ Machine.grMax [64] ∧ Machine.grMax [63] < p.len ∧
    (s [64] { p with taken := some 2 } (some (63 * 128 + 5))).taker (63 * 128 + 5) = true ∧ a.taker (63 * 128 + 5) = false := by
  decide +kernel

/-! ### Witnesses: maintenance, errors, power, links and the window -/

/-- Requests that end at 2^39 and beyond 2^52; the first ticks of each kind of landing, their neighbours, and a riser's; landings before
and at their end, without extension, with one, and with the last one. -/
theorem witness_CalendarEvents :
    let s := fun (t : Nat) => ({ tick := t } : Machine.State)
    let l := fun (k stop : Nat) => ({ kind := k, start := 8192, stop := stop } : Machine.Landing)
    let e1 : Machine.State := { tick := 8608, landing := some (l 1 8608), qpend := some 2 }
    let r : DramReq := { pa := 2 ^ 39 - 1, write := true, data := [some 1] }
    r.pa < 2 ^ 39 ∧ r.pa + r.data.length ≤ 2 ^ 39 ∧ 2 ^ 52 < ({ r with pa := 2 ^ 52 } : DramReq).pa + r.data.length ∧
    (s 7936).calDist = 256 ∧ (s 7937).calDist ≠ 256 ∧ (s 8192).landing = none ∧ (s 8192).tests = [] ∧ 8192 % 8192 = 0 ∧ 8192 % 2 ^ 20 ≠ 0 ∧
    2 ^ 20 % 8192 = 0 ∧ 2 ^ 20 % 2 ^ 27 ≠ 0 ∧ 2 ^ 27 % 8192 = 0 ∧ ((s (2 ^ 27)).win.read 0x1408).toNat % 2 ^ 16 = 0 ∧ 8193 % 8192 ≠ 0 ∧
    (let e := fun (t : Nat) (held : List DramReq) => ({ tick := t, landing := some (l 1 8608), held := held } : Machine.State)
     (e 8607 []).landing = some (l 1 8608) ∧ 8607 < (l 1 8608).stop ∧ (l 1 8608).stop ≤ 8608 ∧ (e 8608 [r]).held = [r] ∧ r.write = true ∧ 8608 % 8192 ≠ 0) ∧
    (e1 : Machine.State).qpend = some 2 ∧ (s 8608).qpend = none ∧ (l 1 8608).stop = 8192 + 416 ∧ 8192 + 416 < (l 1 (8608 + 4095)).stop ∧ (l 1 (8608 + 4095)).stop < 8192 + 416 + 4096 ∧
    8192 + 8192 + 4096 ≤ (l 2 (16384 + 4096)).stop := by
  decide +kernel

/-- A running context and a live one; queues that are active and a dump that is off; freezes that end now and later. -/
theorem witness_ErrorEvents :
    let s := { onTile { life := .live } with queues := [(1023, {})], mem := Machine.Mem.writeLE [] (64 * 1023 + 0x20) 1 8 }
    let f := fun (t : Nat) => ({ tick := t, tiles := [(255, { freeze := 33 })], gals := [(63, { freeze := 33 })], dies := [(1, { pause := 33 })]
                                 clusters := [(31, { mn := { pause := 33 } })] } : Machine.State)
    let e : Machine.State := { errs := [(2 ^ 40 + 255 * 64 + 15, (1, 0))], tick := 2 ^ 27, sub := 127 }
    Machine.mapGet? (2 ^ 40 + 255 * 64 + 0x3FFFF / 0x4000) e.errs = some (1, 0) ∧ e.tick ≤ 0 + 2 ^ 27 ∧ (e.tile 255).retired = [] ∧ e.sub < 128 ∧
    (s.ctx 0).life = .live ∧ s.frozen = false ∧ s.dumpOn = false ∧ s.qState 1023 = 1 ∧ ({} : Machine.State).queues = [] ∧
    ((f 33).tile 255).freeze ≤ 33 ∧ ((f 33).tile 255).freeze ≠ 0 ∧ (f 32).tick < ((f 32).tile 255).freeze ∧ ((f 33).gal (319 - 256)).freeze ≠ 0 ∧
    ((f 33).die 1).pause ≤ 33 ∧ (f 32).tick < ((f 32).die 1).pause ∧ ((f 33).mn (33 - 2)).pause ≠ 0 ∧ ((f 33).mn (33 - 2)).pause ≤ 33 := by
  decide +kernel

/-- A packet, a stream block and a wait of another package on port 11, alone. -/
theorem witness_LinksInFlight :
    let q : Machine.Packet := { kind := 1, addr := 0x4040, len := 32, sent := some (5, [(9, 11)]) }
    let p : Machine.State := { gals := [(63, { tags := [(7, { state := 1, pkt := some q })] })] }
    let k := { cmd0 with started := true, sent := some (5, [(9, 11), (10, 3)]) }
    let c := onTile { life := .live, handles := [(0, { cmds := [k] })] }
    let w : Machine.Waiter := { who := .peer 1 0, cond := 0, v := 7, port := 11 }
    let o : Machine.State := { dies := [(0, { objs := [(7, { val := 1, waiters := [w] })] })] }
    p.down.has 11 = false ∧ p.cmdsOn 11 = [] ∧ p.packetsOn 11 = [(63, 7, q, 9 * 256 + 0x40)] ∧ c.cmdsOn 11 = [(0, 0, k)] ∧ c.packetsOn 11 = [] ∧
    (c.die 2).queue = [] ∧ (c.die 2).parked = [] ∧ (c.die 2).objs = [] ∧ ((c.ctx 0).handle 0).cmds = [k] ∧ k.op ≠ 0x0C ∧
    (o.die 0).objs = [(7, { val := 1, waiters := [w] })] ∧ w.port = 11 ∧ o.cmdsOn 11 = [] := by
  decide +kernel

/-- A release in flight on port 11, and none of the overflow areas in use. -/
theorem witness_Links :
    let r : Machine.SyncReq := { who := .ctx 511, asid := 7, ptr := 0xC000000100000000, op := .relAdd, v := 1, port := 11 }
    let s : Machine.State := { dies := [(2, { queue := [r] })] }
    s.down.has 11 = false ∧ (s.die 2).queue = [r] ∧ (s.die 2).parked = [] ∧ (s.die 2).objs = [] ∧ r.ret = false ∧ r.op = .relAdd ∧
    r.port = 11 ∧ r.port ≠ 10 ∧ s.frozen = false ∧ (s.die 0).ovfl = [] ∧ (s.die 1).ovfl = [] := by
  decide +kernel

/-- The request at the head, at the budget and one beyond, of a hold and of PGREQ. -/
theorem witness_PowerGrants :
    let w := fun (b : Bool) => ({ tile := 255, cls := 1, ctx := 511, implicit := b } : Machine.PwrReq)
    let s := fun (b : Bool) (d : Nat) => ({ waits := [w b], drawn := d } : Machine.State)
    let cost := Machine.powerCost 1
    (s true 0).waits = [w true] ∧ (s false (1280 - cost)).drawn + cost ≤ ((s false 0).win.read 0x1400).toNat ∧
    ((s false 0).win.read 0x1400).toNat < (s false (1281 - cost)).drawn + cost ∧ (w false).implicit = false ∧ (w true).implicit = true ∧ (w false).cls < 3 := by
  decide +kernel

/-- The last ASID and count; a shootdown of each kind with entries at the ends of its range. -/
theorem witness_Shootdowns :
    let e := fun (va bits : Nat) => ({ asid := 7, gen := 0, pool := false, bits := bits, page := 0, va := va, pa := 0, r := true, w := true } : Machine.TlbEntry)
    let hit := fun (k a p m : Nat) (e : Machine.TlbEntry) => decide (k = 0 ∨ e.asid = a ∧ (k = 1 ∨
        (e.va * 2 ^ e.bits < (p + m) * 2 ^ 16 ∧ p * 2 ^ 16 < (e.va + 1) * 2 ^ e.bits)))
    (65535 : Nat) < 2 ^ 16 ∧ (2 ^ 20 - 1 : Nat) < 2 ^ 20 ∧ ({ shoot := some (2, 7, 4, 2) } : Machine.State).shoot = some (2, 7, 4, 2) ∧
    [e 3 16, e 4 16, e 5 16, e 6 16, e 0 21].map (hit 2 7 4 2) = [false, true, true, false, true] ∧ hit 2 8 4 2 (e 4 16) = false ∧ hit 1 7 0 0 (e 9 30) = true ∧
    hit 0 0 0 0 (e 9 30) = true := by
  decide +kernel

/-- Writes that end at 2^39, with a landing and without; a peer whose EXPOSE window takes a write, one that is named, and a token for
a channel with 7 tokens and 8. -/
theorem witness_OutsideWrites :
    let s := ready { tiles := [(255, { chans := [(15, List.replicate 7 0)] })] }
    let x : Machine.State := { s with win := (s.win.write 0x410F0 0x105).write 0x410F8 1 }
    let base := fun (s : Machine.State) => (s.win.read Machine.wAPERTURE).toNat / 2 ^ 12 % 2 ^ 40 * 4096
    let low := { s with win := s.win.write Machine.wAPERTURE 0x7FF0000000 }
    base s = 0 ∧ base low = 0x7FF0000000 ∧ base low ≤ 2 ^ 39 - 1 ∧ 2 ^ 39 - 1 + 1 ≤ base low + 2 ^ 36 ∧ 0 < base low ∧
    (List.replicate 256 (1 : Byte)).length ∈ [32, 64, 128, 256] ∧ 0x1FFF00 % 256 = 0 ∧ x.exposed 1 0x1FFF00 256 true = true ∧ 0x1FFF00 + 256 ≤ 2 ^ 39 ∧
    (2 ^ 39 - 1) + ([1] : List Byte).length ≤ 2 ^ 39 ∧ ([1] : List Byte) ≠ [] ∧ s.landing = none ∧ s.held = [] ∧ s.badPa = [] ∧
    ({ s with landing := some { kind := 1, start := 0, stop := 9 } } : Machine.State).landing ≠ none ∧ s.exposed 1 0 1 true = false ∧
    x.peerNamed 1 = true ∧ x.exposed 1 0x1FFFFF 1 true = true ∧ x.exposed 1 0x1FFFFF 2 true = false ∧ s.peerNamed 1 = false ∧ s.checkObj 0xC000000000000000 = none ∧ (0xC000000000000000 : W64).toNat / 2 ^ 32 % 2 ^ 8 = s.pkgnum ∧
    ((s.tile 255).chan 15).length < 8 ∧ x.badPa = [] := by
  decide +kernel

/-- A new owner of a tile with a floor of one KiB below the top; a bad floor; a step of the old owner, and an allocation. -/
theorem witness_OwnerChanges :
    let s := ready { unit := 255 }
    let old := fun (s : Machine.State) => let word := (s.tile 255).crs.read 0x36; if word.getLsbD 16 then 2 ^ 16 else word.toNat % 2 ^ 16
    let floor := fun (v : W64) => if v.getLsbD 16 then v.toNat / 2 ^ 32 % 2 ^ 23 else (s.tile 255).floor
    let v : W64 := 0x0003FC0000010007
    let p := { s with ctxs := [(510, { life := .live, asid := 2 ^ 16 })] }
    s.unit < 256 ∧ NoneBefore s ∧ s.ready = true ∧ v.getLsbD 63 = false ∧ v.getLsbD 62 = false ∧ floor v = 0x3FC00 ∧ floor v % 1024 = 0 ∧
    floor 0x0003FC0100010007 % 1024 ≠ 0 ∧ 0x40000 ≤ floor 0x0004000000010007 ∧ old s = 2 ^ 16 ∧ old s ∉ s.placedAsids 255 ∧
    (s.tile 255).allocs = [] ∧ (2 ^ 16 ∈ p.placedAsids 255) := by
  unfold NoneBefore
  decide +kernel

/-- The mailbox: registers 3, 7 and 2, quotes 1023 and 1024, a signer and none. -/
theorem witness_MailboxCommands :
    let s := fun (n : Nat) => ready { trust := { signer := true, quotes := n } }
    3 ≤ 7 ∧ 7 ≤ 7 ∧ 2 < 3 ∧ 7 < 8 ∧ (s 1023).trust.signer = true ∧ (s 1023).trust.quotes < 1024 ∧ 1024 ≤ (s 1024).trust.quotes ∧
    ({} : Machine.State).trust.signer = false ∧ NoneBefore (s 0) ∧ (s 0).ready = true := by
  unfold NoneBefore
  decide +kernel

/-- Each phase; no image is admitted where every key is revoked. -/
theorem witness_ResetAndBringup :
    let s := fun (n : Nat) => ({ win := Machine.State.reset.win.write 0 (BitVec.ofNat 64 (n * 2 ^ 61)) } : Machine.State)
    (∀ n < 8, ((s n).win.read 0).toNat / 2 ^ 61 = n) ∧ (∀ i < 4, i ∉ (s 1).trust.revoked) ∧ (s 1).trust.minSvn ≤ 0 ∧ (64 : Nat) ≤ 64 ∧
    (∀ h : BitVec 256, ¬ ∃ i < 4, i ∉ ({ s 1 with trust := { revoked := [0, 1, 2, 3] } } : Machine.State).trust.revoked ∧ Config.fuseKey i = h) := by
  refine ⟨by decide +kernel, by decide +kernel, by decide +kernel, by decide +kernel, ?_⟩
  rintro h ⟨i, hi, hn, -⟩
  exact hn ((by decide : ∀ i < 4, i ∈ [0, 1, 2, 3]) i hi)

/-- Values and offsets that each clause of a register write ranges over. -/
theorem witness_RegisterWrites :
    (0x1108 : Nat) % 8 = 0 ∧ (0x11 : Nat) % 8 ≠ 0 ∧ (0x11 : Nat) < 0x1000 ∧ (1 : W64).getLsbD 0 = true ∧ (0 : W64).toNat / 2 ^ 60 % 4 = 0 ∧
    (0x3FF00000001 : W64).toNat % 16 = 1 ∧ (0x3FF00000001 : W64).toNat / 2 ^ 32 % 1024 = 1023 ∧ NoneBefore (ready {}) ∧ (ready {}).ready = true := by
  unfold NoneBefore
  decide +kernel

/-- A halted context and one that is not; after a warm reset, an image with a record, of this package and of a later version, one
without a record that has an entry for slot 3, which passes or not as the free value says, and none; and a landing. -/
theorem witness_ResumeCommands :
    let k : Machine.PkgKeep := { pkgnum := 0, svn := 3, launches := [(5, launchOf 4)], queues := [], rds := [], launchNo := 6, stepNo := 9, passG := 1, slots := [], img := Machine.Mem.writeLE [] 0 0x4556535A 4
                                 tiles := [(7, { disp := [{ launch := 5, sid := 1, lin := 0 }] })], clusters := [] }
    let s : Machine.State := ready { onTile { life := .live, halted := true } with
      pkg := [(9, { k with img := [(1, 1)] }), (3, k)], warm := true, mem := Machine.Mem.writeLE [] 0 0x4556535A 4, trust := { svn := 3 } }
    let record := fun (s : Machine.State) => (s.pkg.find? (fun e => e.2.img == s.cut s.pkgImg 0x21900000 0)).map (·.2)
    let n : Machine.State := { s with
      pkg := [], mem := s.mem.writeLE 0x21900068 (2 ^ 63 + 7 * 2 ^ 48 + 5) 8, ctxs := s.ctxs ++ [(2 ^ 32 + 3, { life := .live })] }
    s.cur < 512 ∧ s.cx.halted = true ∧ (onTile {}).cx.halted = false ∧ record s = some k ∧ s.warm = true ∧ s.landing = none ∧
    s.mem.readLE s.pkgImg 4 = 0x4556535A ∧ k.pkgnum = s.pkgnum ∧ k.svn ≤ s.trust.svn ∧ s.imageSlots = [] ∧ NoneBefore s ∧ s.ready = true ∧
    ({ s with mem := [] } : Machine.State).mem.readLE s.pkgImg 4 ≠ 0x4556535A ∧
    ({ s with landing := some { kind := 1, start := 0, stop := 9 } } : Machine.State).landing ≠ none ∧
    ({ s with trust := { svn := 2 } } : Machine.State).trust.svn < k.svn ∧ ({ s with warm := false } : Machine.State).warm = false ∧
    record n = none ∧ n.imageSlots = [3] ∧ (n.ctx (2 ^ 32 + 3)).life ≠ .free ∧ n.mem.readLE n.pkgImg 4 = 0x4556535A := by
  unfold NoneBefore
  decide +kernel

/-! ### Witnesses: fetch, issue and delivery -/

/-- A line of text that begins with the header `h` and the words `ws`. -/
def lineOf (h : Nat) (ws : List Nat) : List W32 := (h :: ws ++ List.replicate (15 - ws.length) 0).map (BitVec.ofNat 32)

/-- A machine about to issue context 0, at the header `h` with the words `ws` behind it, at the start of a text that a TLB entry
maps; its line has been fetched, when `kept`. -/
def sIssue (h : Nat) (ws : List Nat) (c : Machine.Ctx := {}) (kept : Bool := true) : Machine.State :=
  { onTile { c with life := .live, textLen := 64, code := 0x1000, text := if kept then [(0, (lineOf h ws).map some)] else [] }
      { tlb := [{ asid := 0, gen := 0, pool := false, bits := 16, page := 0, va := 0, pa := 0x10000, r := true, w := true }] } with
    mem := ((h :: ws).zip (List.range 16)).foldl (fun (m : Machine.Mem) (e : Nat × Nat) => m.writeLE (0x11000 + 4 * e.2) e.1 4) []
    agenda := [{ op := .bundleIssue, cur := 0 }] }

/-- The state in which it fetches. -/
def sFetch (h : Nat) (ws : List Nat) (kept : Bool := true) : Machine.State := { sIssue h ws {} kept with agenda := [] }

/-- `TextAt` of a PC at the start of its line, in a form that decides. -/
def textIs (s : Machine.State) (h : W32) (ws : List W32) : Bool :=
  decide (s.cx.pc.toNat % 64 = 0 ∧ s.cx.pc.toNat < s.cx.textLen ∧ headerOk h = true ∧ ws.length = 15 ∧
    Machine.mapGet [] s.cx.text (s.cx.pc.toNat / 64) = (h :: ws).map some)

/-- It is one. -/
theorem textAt_of_textIs {s : Machine.State} {h : W32} {ws : List W32} (e : textIs s h ws = true) : TextAt s h ws := by
  simp only [textIs, decide_eq_true_eq] at e
  obtain ⟨h1, h2, h3, h4, h5⟩ := e
  exact ⟨by omega, h2, h3, by simp [h4, h1], [], by simp [h1], h5⟩

/-- A bundle of ADDI, one that leaves its line, one with a reserved header bit and one with an unallocated opcode. -/
theorem witness_FetchReadsTheText :
    TextAt (sFetch 0x88000000 [0x40618010]) 0x88000000 ((lineOf 0x88000000 [0x40618010]).drop 1) ∧
    (decodeBundle false 0x88000000 [0x40618010]).toOption = some { rep := 0, a := some (.addi { rd := 6, ra := 6, imm := 1, gp := 0 }), v := none, m := none, b := none, bytes := 8 } ∧
    ((lineOf 0x88000000 [0x40618010]).drop 1).take (bundleBytes 0x88000000 / 4 - 1) = [0x40618010] ∧
    (0 : Nat) % 64 + bundleBytes 0x88000000 ≤ 64 ∧ 0 + bundleBytes 0x88000000 ≤ 64 ∧
    (match decodeBundle false 0x88000000 [0xF0000000] with | .error (.illegalOp .a) => true | _ => false) = true ∧
    (match decodeBundle false 0x89200000 [0xA8024800] with | .error .illegalBundle => true | _ => false) = true ∧
    (sFetch 0x88000000 [0x40618010]).cx.skip = false ∧
    (match ({ sFetch 0x88000000 [0xF0000000] with
        ctxs := [(0, { (sFetch 0x88000000 [0xF0000000]).cx with skip := true })] } : Machine.State).fetch.1 with
      | .bundle _ b => decide (b.bytes = 8) | _ => false) = true ∧
    64 < (60 : Nat) % 64 + bundleBytes 0x88000000 := by
  refine ⟨textAt_of_textIs (by decide +kernel), ?_⟩
  decide +kernel

/-- The same text before its line is fetched, between landings and in one. -/
theorem witness_FetchReadsMemory :
    (∀ l ∈ [none, some ({ kind := 1, start := 0, stop := 9 } : Machine.Landing)],
      let s := { sFetch 0x88000000 [0x40618010] false with landing := l }
      let x := s.xlate 0 0 0 false 0x1000 false
      s.cx.pc.toNat % 4 = 0 ∧ s.cx.pc.toNat < s.cx.textLen ∧ Machine.mapGet [] s.cx.text 0 = [] ∧ x.1 = .ok 0x11000 ∧ x.2.badPa = [] ∧
        x.2.cx = s.cx ∧ x.2.landing = l) ∧
    Machine.inHbm 0x11000 = true := by
  decide +kernel

/-- R42, R124: a rewritten word is fetched only after IFENCE: the line that was fetched still gives ADDI, and without it the
fetch finds what memory holds, an unallocated opcode. -/
theorem test_ifence_fetches_again :
    let s := { sFetch 0x88000000 [0x40618010] with mem := Machine.Mem.writeLE (Machine.Mem.writeLE [] 0x11000 0x88000000 4) 0x11004 0xF0000000 4 }
    (match s.fetch.1 with | .bundle _ _ => true | _ => false) = true ∧
    (match (nextD (.ifence { gp := 0, gn := 0 }) s).fetch.1 with | .trap _ t => decide (t.cause = .illegalOp) | _ => false) = true := by
  decide +kernel

/-- The issue of the ADDI: the fetch finds its bundle, nothing holds, and its operations run; and of a word of opcode 0, which
traps. -/
theorem witness_BundleIssueRunsTheBundle :
    IssueAt (sIssue 0x88000000 [0x40618010]) (sFetch 0x88000000 [0x40618010]) 0 [] ∧
    (let s := sFetch 0x88000000 [0x40618010]
     (match s.fetch with
      | (.bundle pc b, sf) =>
        let s2 := sf.setCx { sf.cx with pc := pc, len := b.bytes }
        let p := Machine.mkPlan (Machine.isGal s2.cur) pc b s2.cx
        (match Machine.prepHolds p s2 with
         | (.go q, s3) => decide (q = p) && (match Machine.runOps p.first s3 p.ops with | .ok _ => true | .error _ => false)
         | _ => false)
      | _ => false) = true) ∧
    (match (sFetch 0x88000000 [1]).fetch with | (.trap _ t, _) => decide (t = { cause := .illegalOp, slot := 0 }) | _ => false) = true := by
  refine ⟨by unfold IssueAt; decide +kernel, ?_⟩
  decide +kernel

/-- Words of opcode 0 in each slot of a tile, and the bundles that hold them; the once-only WRCR in a bundle with a repeat. -/
theorem witness_IssueTraps :
    (∀ e ∈ [(0x88000000, [1]), (0xC0000000, [1]), (0x90000000, [0, 0x800000]), (0xA0000000, [1, 0]), (0x88200000, [0xA8024800])],
      TextAt (sFetch e.1 e.2) (BitVec.ofNat 32 e.1) ((lineOf e.1 e.2).drop 1) ∧ IssueAt (sIssue e.1 e.2) (sFetch e.1 e.2) 0 []) ∧
    (0x80000000000000 : W64) ≠ 0 ∧ (0x80000000000000 : W64).toNat < 2 ^ 56 ∧
    (match decodeSlot .a 0xA8024800 none with
     | .ok i => i.wf && Machine.onceOnlyOp i && decide (encode i = some (.a, 0xA8024800, none)) | _ => false) = true ∧
    (slotWords 0x88200000 [0xA8024800]).1.contains (.a, 0xA8024800) = true ∧ (0x88200000 : W32).toNat / 2 ^ 21 % 2 ^ 6 ≠ 0 ∧
    (1 : Nat) = (bundleBytes 0x88200000 - 4) / 4 := by
  refine ⟨fun e he => ?_, by decide +kernel⟩
  have h : ∀ e ∈ [(0x88000000, [1]), (0xC0000000, [1]), (0x90000000, [0, 0x800000]), (0xA0000000, [1, 0]), (0x88200000, [0xA8024800])],
      textIs (sFetch e.1 e.2) (BitVec.ofNat 32 e.1) ((lineOf e.1 e.2).drop 1) = true ∧ IssueAt (sIssue e.1 e.2) (sFetch e.1 e.2) 0 [] := by
    unfold IssueAt
    decide +kernel
  exact ⟨textAt_of_textIs (h e he).1, (h e he).2⟩

/-- A slot operation that runs, one that traps, and one that holds. -/
theorem witness_OperationsAlone :
    let s := onTile { life := .live }
    let st := fun (i : Instr) => (Machine.holdOp i (Machine.baseOf i s.cx) s).isNone &&
      (match Machine.runOp i (Machine.baseOf i s.cx) s with | .ok _ => false | .trap _ => true | .trapIn _ _ => true)
    let i : Instr := .addi { rd := 6, ra := 6, imm := 1, gp := 0 }
    i.slot.isSome = true ∧ galleryOp i = false ∧ (Machine.holdOp i 0 s).isNone = true ∧ st i = false ∧
    st (.wrcr { reg := 1, num := 1, gp := 0 }) = true ∧
    (Machine.holdOp (.join { gp := 0, gn := 0 }) 0 (onTile { life := .live, jcnt := 1 })).isSome = true := by
  decide +kernel

/-- The first issue of a bundle of two and the second. -/
theorem witness_StickyReissue :
    let b : Bundle := { rep := 1, a := some (.addi { rd := 6, ra := 6, imm := 1, gp := 0 }), v := none, m := none, b := none, bytes := 8 }
    (onTile {}).cx.skip = false ∧ (onTile {}).cx.k = 0 ∧ (onTile { k := 1 }).cx.k ≠ 0 ∧ (onTile { k := 1 }).cx.k = b.rep := by
  decide +kernel

/-- The end of a bundle outside a loop, at the end of one whose counter is 1, and of one whose counter is greater. -/
theorem witness_IssueEnds :
    let c := fun (n : W32) => ({ life := .live, crs := [(15, 0x20)], lc := [(3, n)] } : Machine.Ctx)
    let loops := fun (c : Machine.Ctx) (m : Nat) => decide (c.cr (12 + m) = 0x20 ∧ c.rlc m ≠ 0)
    (c 1).shadow = none ∧ (c 1).buf = {} ∧ (List.range 4).map (loops (c 0)) = [false, false, false, false] ∧
    (List.range 4).map (loops (c 1)) = [false, false, false, true] ∧ (c 1).rlc 3 = 1 ∧ (c 2).rlc 3 ≠ 1 := by
  decide +kernel

/-- Results due now and later, two for one register, and ones for a0, p0 and vm0. -/
theorem witness_DeliveriesTakeEffect :
    let e : Machine.Pend := { dst := .a 63, val := (7 : W64).setWidth 512, mask := BitVec.allOnes 512, pos := 5, slot := 0 }
    let full := fun (e : Machine.Pend) (d : Machine.Dst) (v : W64) =>
      decide (e.dst = d ∧ e.mask = BitVec.allOnes 512 ∧ e.val = v.setWidth 512 ∧ e.arrived = true ∧ e.lost = none ∧ e.trapped = none ∧ e.flags = 0)
    full e (.a 63) 7 = true ∧ full { e with dst := .a 0 } (.a 0) 7 = true ∧ full { e with dst := .p 0 } (.p 0) 7 = true ∧
    full { e with dst := .vm 0 } (.vm 0) 7 = true ∧ e.pos ≤ ({ ctime := 5 } : Machine.Ctx).now ∧ ({ ctime := 4 } : Machine.Ctx).now < e.pos ∧
    ({ pend := [e, e] } : Machine.Ctx).badRegs = [] := by
  decide +kernel

/-- A bundle that no slot holds, and one that JOIN holds. -/
theorem witness_HeldBundles :
    let s := onTile { life := .live, jcnt := 1, crs := [(0x81, 4), (7, 1)] }
    let p := fun (i : Instr) => Machine.mkPlan false 0 { rep := 0, a := none, v := none, m := none, b := some i, bytes := 8 } s.cx
    let ask := fun (i : Instr) => Machine.askHolds (p i).ops (s.setCx { s.cx with feh := s.cx.feh.map (fun h => { h with hit := false }) })
    (p .bnop).skip = false ∧ s.cx.pend = [] ∧ s.cx.shadow = none ∧ s.cx.stq = [] ∧ s.cx.cr 1 = 0 ∧ (ask .bnop).1 = 0 ∧
    (let j := Instr.join { gp := 0, gn := 0 }
     (ask j).1 = 1 ∧ (Machine.askHolds (p j).ops (ask j).2).1 = 1 ∧
       ((Machine.askHolds (p j).ops (ask j).2).2.cx.cr 0x81).getLsbD 2 = true) ∧ (s.cx.cr 7).getLsbD 0 = true := by
  decide +kernel

/-- A bundle that its ERET alone holds, in a handler whose load has not returned. -/
theorem witness_HeldReturn :
    let s := onTile { life := .live, crs := [(0x81, 5), (7, 1)], pend := [load1 { pend1 with ready := 9 }]
                      shadow := some { recA := { op := .anop }, recV := { op := .vnop }, recM := { op := .mnop }, k := 0, pend := [], ctime := 0, pc := 0 } }
    let f : BEr := { gp := 0, gn := 0, skip := 0 }
    let p := Machine.mkPlan false 0 { rep := 0, a := none, v := none, m := none, b := some (.eret f), bytes := 8 } s.cx
    let a := Machine.askHolds p.ops (s.setCx { s.cx with feh := s.cx.feh.map (fun h => { h with hit := false }) })
    let b := Machine.askHolds p.ops a.2
    p.skip = false ∧ s.cx.cr 1 = 0 ∧ a.1 = 1 ∧ b.1 = 1 ∧ p.last = true ∧ p.b.b = some (.eret f) ∧ (Machine.holdEret f b.2).isSome = true ∧
    (b.2.cx.cr 0x81).getLsbD 2 = true ∧ (b.2.cx.cr 7).getLsbD 0 = true := by
  decide +kernel

/-- Contexts that share a slot and that share none; histories at 63 and 64 lost collisions. -/
theorem witness_MergeIssue :
    (∃ i, i ∈ [0, 3] ∧ i ∈ [3]) ∧ (¬ ∃ i, i ∈ [0, 1] ∧ i ∈ [3]) ∧ ({ lost0 := 63 } : Machine.MergeHist).lost0 < 64 ∧
    64 ≤ ({ lost1 := 64 } : Machine.MergeHist).lost1 ∧ ({ winner := some 1 } : Machine.MergeHist).winner = some 1 := by
  refine ⟨⟨3, by decide⟩, by simp, by decide⟩

/-- The stages of a cycle. -/
theorem witness_CyclesAdvance :
    (sIssue 0x80000000 []).agenda = [{ op := .bundleIssue, cur := 0 }] ∧ Machine.State.reset.agenda = [] ∧ Machine.State.reset.merged = false ∧
    ({ merged := true } : Machine.State).merged = true ∧ ({ merged := true } : Machine.State).pctl = 0 ∧
    ({ merged := true } : Machine.State).queues = [] := by
  decide +kernel

/-- A well-formed operation of each slot, with its words, and a word that no operation has. -/
theorem witness_Encoding :
    (∀ i ∈ [Instr.addi { rd := 6, ra := 6, imm := 1, gp := 15 }, .vadd { vd := 511, va := 511, vb := 511, vc := 0, vm := 15, ty := 6, rm := 0, sm := 0, fn := 0 }, .xferm { md := 31, src := 63, gp := 1, ext := none }, .join { gp := 0, gn := 1 }],
      i.wf = true ∧ (match encode i with | some (sl, w, e) => decide (decodeSlot sl w e = .ok i ∧ i.slot = some sl) | none => false) = true) ∧
    0x3C ≤ (0xF0000000 : W64).toNat / 2 ^ 26 % 2 ^ 6 ∧ 0x22 ≤ (0x88000000 : W64).toNat / 2 ^ 26 % 2 ^ 6 ∧ 0x38 ≤ (0x3800000000000000 : W64).toNat / 2 ^ 56 ∧
    0x2A ≤ (0x2A00000000000000 : W64).toNat / 2 ^ 56 ∧ (0x0400000000000000 : W64).toNat / 2 ^ 56 = 4 ∧
    (0x74000001 : W64).toNat / 2 ^ 26 % 2 ^ 6 = 0x1D ∧ (0x74000001 : W64).toNat % 2 ^ 12 ≠ 0 := by
  decide +kernel

/-- GFENCE with a channel mask in range and out of it, with a tag BUSY and without. -/
theorem witness_GfenceRule :
    let s := fun (n : Nat) => onCore (withA [0x8000, 0x10000]) { tags := [(127, { state := n })] }
    Machine.isGal (s 1).cur = true ∧ (s 1).cx.guard 0 = true ∧ (s 1).cx.buf = {} ∧ ((s 1).cx.ra 1).toNat / 2 ^ 16 = 0 ∧ ((s 1).cx.ra 2).toNat / 2 ^ 16 ≠ 0 ∧
    ((s 1).cx.ra 1).getLsbD (127 / 8) = true ∧ ((s 1).myGal.tag 127).state = 1 ∧
    (List.range 128).all (fun i => !(((s 2).cx.ra 1).getLsbD (i / 8) && ((s 2).myGal.tag i).state == 1)) = true := by
  decide +kernel

/-- A canonical memory before a step that writes, in a machine that steps. -/
theorem witness_StepKeepsMemoryCanonical :
    Machine.Memory.wf (sIssue 0x80000000 []).mem = true ∧ (match Machine.step (sIssue 0x80000000 []) with | .next _ => true | _ => false) = true := by
  decide +kernel

/-- A guard that fails. -/
theorem witness_FailingGuardsDoNothing :
    guardOf (.addi { rd := 6, ra := 6, imm := 1, gp := 9 }) = some 9 ∧ (onTile {}).cx.guard 9 = false ∧ (onTile {}).cx.buf = {} ∧
    guardOf (.publish { md := 0, ma := 0, mb := 0, fn := 0, gp := 1, imm := 0 }) = some 1 := by
  decide +kernel

/-! ### Words of the spec's examples and tables, ill-formed operations, refused words -/

/-- R95, R103, R107, R113, R116, R140, R235, R263, R264, R319, R429, R452: worked words of the chapters. -/
theorem test_decode_spec_examples :
    decodeTableWord 32 0x40618010 = some (.addi { rd := 6, ra := 6, imm := 1, gp := 0 }) ∧
    decodeTableWord 64 0x2F0000C000000004 =
      some (.vst { vd := 0, va := 3, vb := 0, ofs := 0, vm := 0, ty := 0, rm := 0, sm := 0, step := 1, q := 0 }) ∧
    decodeSlot .b 0x14004008 none = .ok (.loop { lc := 0, cnt := 4, last := 8 }) ∧
    decodeSlot .b 0x34024602 none = .ok (.bind { gp := 0, gn := 0, va := 1, vb := 2, vd := 3, scope := 2 }) ∧
    decodeSlot .a 0x98A2CC00 none = .ok (.aspq { rd := 10, ra := 11, rb := 12, gp := 0 }) ∧
    decodeSlot .a 0x9CD2C090 none = .ok (.aspc { rd := 13, ra := 11, fn := 9, gp := 0 }) ∧
    decodeSlot .b 0x2C020002 none = .ok (.acquireX { gp := 0, gn := 0, va := 1 }) ∧
    decodeSlot .b 0x30020002 none = .ok (.releaseX { gp := 0, gn := 0, va := 1 }) := by
  decide +kernel

/-- R56, R57, R233, R334, R335, R340: worked words of the M slot. -/
theorem test_decode_spec_examples_m :
    (decodeSlot .m 0x0543000000200000 none).toOption.map Instr.wf = some true ∧
    decodeSlot .m 0x2700C00000000000 none = .ok (.lapin { md := 0, ma := 3, mb := 0, fn := 0, gp := 0, imm := 0 }) ∧
    (decodeSlot .m 0x1A41840000000000 none).toOption = some (.mnfeed { mp := 8, mb := 6, sh := 1, port := 0, step := 0, gp := 0, fn := 0, follow := 0, imm := 0 }) ∧
    decodeSlot .m 0x0140000800000000 (some 0x003C0000) = .ok (.msetHi { md := 8, ma := 0, mb := 0, fn := 1, gp := 0, imm := 0, ext := some 0x003C0000 }) := by
  decide +kernel

/-- R52: an unallocated opcode, a nonzero zero field, and a reserved bit of the header are refused. -/
theorem test_decode_refuses :
    decodeSlot .a 0xF0000000 none = .error .unallocated ∧ decodeSlot .b 0x88000000 none = .error .unallocated ∧
    decodeSlot .v 0x3800000000000000 none = .error .unallocated ∧ decodeSlot .m 0x2A00000000000000 none = .error .unallocated ∧
    decodeSlot .b 0x48000001 none = .error .reservedField := by
  decide +kernel

/-- R288: ACQUIRE drops a line that holds bytes of a bound region, though another virtual address of the page filled it; a line
beside the region stays. -/
theorem test_acquire_drops_aliases :
    let e := fun (va : Nat) => ({ asid := 0, gen := 0, pool := false, bits := 16, page := va, va := va, pa := 0x10000, r := true, w := true } : Machine.TlbEntry)
    let ln := fun (va pa : Nat) => ({ va := va, pa := pa, bytes := [] } : Machine.Line)
    let s := onTile { life := .live } { tlb := [e 0, e 5] }
    let b : Machine.Binding := { obj := 0, base := 0x40, len := 0x40, scope := 0 }
    s.boundLine b (ln 0x50040 0x10040) = true ∧ s.boundLine b (ln 0x50080 0x10080) = false ∧ s.boundLine b (ln 0x40 0x10040) = true := by
  decide +kernel

/-- R461, R462: SHA-256 of the three bytes "abc", the example of its standard. -/
theorem test_sha256_abc :
    Machine.sha256 [0x61, 0x62, 0x63] = 0xBA7816BF8F01CFEA414140DE5DAE2223B00361A396177A9CB410FF61F20015AD := by
  decide +kernel

/-! ### The checks of well-formedness -/

/-- Operations of slot A that meet every check, each beside ones that fail one check. -/
def checksA0 : List (Instr × List Instr) :=
  [(.cmp ⟨1, 2, 3, 0, 0⟩, [.cmp ⟨1, 2, 3, 6, 0⟩]),
   (.lea ⟨1, 2, 3, 0, 0⟩, [.lea ⟨1, 2, 3, 7, 0⟩]),
   (.ext ⟨1, 2, 0, 0⟩, [.ext ⟨1, 2, 3, 0⟩, .ext ⟨1, 2, 7, 0⟩]),
   (.aspc ⟨1, 2, 0, 0⟩, [.aspc ⟨1, 2, 1, 0⟩, .aspc ⟨1, 2, 15, 0⟩]),
   (.shli ⟨1, 2, 63, 0, none⟩, [.shli ⟨1, 2, 64, 0, none⟩, .shli ⟨1, 2, 63, 0, some 64⟩]),
   (.shri ⟨1, 2, 63, 0, none⟩, [.shri ⟨1, 2, 64, 0, none⟩, .shri ⟨1, 2, 63, 0, some 64⟩]),
   (.srai ⟨1, 2, 63, 0, none⟩, [.srai ⟨1, 2, 64, 0, none⟩, .srai ⟨1, 2, 63, 0, some 64⟩]),
   (.ld ⟨1, 2, 0, 3, 0, 0, none⟩, [.ld ⟨1, 2, 0, 3, 3, 0, none⟩]),
   (.lds ⟨1, 2, 0, 3, 0, 0, none⟩, [.lds ⟨1, 2, 0, 3, 3, 0, none⟩]),
   (.st ⟨1, 2, 0, 3, 0, 0, none⟩, [.st ⟨1, 2, 0, 3, 2, 0, none⟩]),
   (.ldx ⟨1, 2, 3, 3, 0, 0⟩, [.ldx ⟨1, 2, 3, 3, 3, 0⟩]),
   (.ldxs ⟨1, 2, 3, 3, 0, 0⟩, [.ldxs ⟨1, 2, 3, 3, 3, 0⟩]),
   (.stx ⟨1, 2, 3, 3, 0, 0⟩, [.stx ⟨1, 2, 3, 3, 2, 0⟩]),
   (.xfera ⟨1, 0, 0, 0, 0⟩, [.xfera ⟨1, 0, 0, 8, 0⟩, .xfera ⟨1, 1, 32, 0, 0⟩, .xfera ⟨1, 1, 0, 1, 0⟩, .xfera ⟨1, 2, 16, 0, 0⟩, .xfera ⟨1, 2, 144, 0, 0⟩, .xfera ⟨1, 2, 260, 0, 0⟩, .xfera ⟨1, 2, 384, 0, 0⟩, .xfera ⟨1, 2, 0, 1, 0⟩, .xfera ⟨1, 3, 0, 0, 0⟩])]

/-- Operations of slot A that meet every check, each beside ones that fail one check. -/
def checksA1 : List (Instr × List Instr) :=
  [(.gpool ⟨1, 2, 0, 0⟩, [.gpool ⟨1, 2, 5, 0⟩]),
   (.gprnd ⟨1, 2, 0, 0⟩, [.gprnd ⟨1, 2, 5, 0⟩, .gprnd ⟨1, 2, 9, 0⟩])]

/-- R52: the checks accept and refuse them. -/
theorem test_wellformed_a :
    (checksA0 ++ checksA1).all (fun e => e.1.wf && e.2.all (fun i => !i.wf)) = true := by
  decide +kernel

/-- Operations of slot V that meet every check, each beside ones that fail one check. -/
def checksV0 : List (Instr × List Instr) :=
  [(.vadd ⟨1, 2, 3, 0, 0, 0, 0, 0, 0, none⟩, [.vadd ⟨1, 2, 3, 1, 0, 0, 0, 0, 0, none⟩, .vadd ⟨1, 2, 3, 0, 0, 0, 5, 0, 0, none⟩, .vadd ⟨1, 2, 3, 0, 0, 0, 0, 1, 0, none⟩, .vadd ⟨1, 2, 3, 0, 0, 0, 0, 0, 1, none⟩, .vadd ⟨1, 2, 3, 0, 0, 6, 0, 0, 2, none⟩, .vadd ⟨1, 2, 3, 0, 0, 6, 1, 0, 0, none⟩, .vadd ⟨1, 2, 3, 0, 0, 3, 0, 0, 0, none⟩, .vadd ⟨1, 2, 3, 0, 0, 0, 0, 0, 0, some 0⟩]),
   (.vsub ⟨1, 2, 3, 0, 0, 0, 0, 0, 0, none⟩, [.vsub ⟨1, 2, 3, 1, 0, 0, 0, 0, 0, none⟩, .vsub ⟨1, 2, 3, 0, 0, 0, 5, 0, 0, none⟩, .vsub ⟨1, 2, 3, 0, 0, 0, 0, 1, 0, none⟩, .vsub ⟨1, 2, 3, 0, 0, 0, 0, 0, 1, none⟩, .vsub ⟨1, 2, 3, 0, 0, 6, 0, 0, 2, none⟩, .vsub ⟨1, 2, 3, 0, 0, 6, 1, 0, 0, none⟩, .vsub ⟨1, 2, 3, 0, 0, 3, 0, 0, 0, none⟩, .vsub ⟨1, 2, 3, 0, 0, 0, 0, 0, 0, some 0⟩]),
   (.vmul ⟨1, 2, 3, 0, 0, 0, 0, 0, 0, none⟩, [.vmul ⟨1, 2, 3, 1, 0, 0, 0, 0, 0, none⟩, .vmul ⟨1, 2, 3, 0, 0, 0, 5, 0, 0, none⟩, .vmul ⟨1, 2, 3, 0, 0, 0, 0, 0, 1, none⟩, .vmul ⟨1, 2, 3, 0, 0, 3, 0, 0, 0, none⟩, .vmul ⟨1, 2, 3, 0, 0, 6, 1, 0, 0, none⟩]),
   (.vabsd ⟨1, 2, 3, 0, 0, 0, 0, 0, 0, none⟩, [.vabsd ⟨1, 2, 3, 1, 0, 0, 0, 0, 0, none⟩, .vabsd ⟨1, 2, 3, 0, 0, 0, 5, 0, 0, none⟩, .vabsd ⟨1, 2, 3, 0, 0, 0, 0, 0, 1, none⟩, .vabsd ⟨1, 2, 3, 0, 0, 3, 0, 0, 0, none⟩, .vabsd ⟨1, 2, 3, 0, 0, 6, 1, 0, 0, none⟩]),
   (.vfma ⟨1, 2, 3, 4, 0, 0, 0, 0, 0, none⟩, [.vfma ⟨1, 2, 3, 4, 0, 6, 0, 0, 0, none⟩, .vfma ⟨1, 2, 3, 4, 0, 0, 5, 0, 0, none⟩, .vfma ⟨1, 2, 3, 4, 0, 0, 0, 0, 1, none⟩, .vfma ⟨1, 2, 3, 4, 0, 0, 0, 0, 0, some 0⟩]),
   (.vfms ⟨1, 2, 3, 4, 0, 0, 0, 0, 0, none⟩, [.vfms ⟨1, 2, 3, 4, 0, 6, 0, 0, 0, none⟩, .vfms ⟨1, 2, 3, 4, 0, 0, 5, 0, 0, none⟩, .vfms ⟨1, 2, 3, 4, 0, 0, 0, 0, 1, none⟩, .vfms ⟨1, 2, 3, 4, 0, 0, 0, 0, 0, some 0⟩]),
   (.vfnma ⟨1, 2, 3, 4, 0, 0, 0, 0, 0, none⟩, [.vfnma ⟨1, 2, 3, 4, 0, 6, 0, 0, 0, none⟩, .vfnma ⟨1, 2, 3, 4, 0, 0, 5, 0, 0, none⟩, .vfnma ⟨1, 2, 3, 4, 0, 0, 0, 0, 1, none⟩, .vfnma ⟨1, 2, 3, 4, 0, 0, 0, 0, 0, some 0⟩]),
   (.vmin ⟨1, 2, 3, 0, 0, 0, 0, 0, 0, none⟩, [.vmin ⟨1, 2, 3, 0, 0, 0, 1, 0, 0, none⟩, .vmin ⟨1, 2, 3, 0, 0, 0, 0, 0, 1, none⟩, .vmin ⟨1, 2, 3, 0, 0, 14, 0, 0, 0, none⟩, .vmin ⟨1, 2, 3, 1, 0, 0, 0, 0, 0, none⟩]),
   (.vmax ⟨1, 2, 3, 0, 0, 0, 0, 0, 0, none⟩, [.vmax ⟨1, 2, 3, 0, 0, 0, 1, 0, 0, none⟩, .vmax ⟨1, 2, 3, 0, 0, 0, 0, 0, 1, none⟩, .vmax ⟨1, 2, 3, 0, 0, 14, 0, 0, 0, none⟩, .vmax ⟨1, 2, 3, 1, 0, 0, 0, 0, 0, none⟩]),
   (.vabs ⟨1, 2, 0, 0, 0, 0, 0, 0, 0, none⟩, [.vabs ⟨1, 2, 1, 0, 0, 0, 0, 0, 0, none⟩, .vabs ⟨1, 2, 0, 0, 0, 10, 0, 0, 0, none⟩, .vabs ⟨1, 2, 0, 0, 0, 0, 0, 0, 1, none⟩, .vabs ⟨1, 2, 0, 0, 0, 0, 1, 0, 0, none⟩, .vabs ⟨1, 2, 0, 0, 0, 0, 0, 0, 0, some 0⟩]),
   (.vneg ⟨1, 2, 0, 0, 0, 0, 0, 0, 0, none⟩, [.vneg ⟨1, 2, 1, 0, 0, 0, 0, 0, 0, none⟩, .vneg ⟨1, 2, 0, 0, 0, 10, 0, 0, 0, none⟩, .vneg ⟨1, 2, 0, 0, 0, 0, 0, 0, 1, none⟩, .vneg ⟨1, 2, 0, 0, 0, 0, 1, 0, 0, none⟩, .vneg ⟨1, 2, 0, 0, 0, 0, 0, 0, 0, some 0⟩]),
   (.vand ⟨1, 2, 3, 0, 0, 0, 0, 0, 0, none⟩, [.vand ⟨1, 2, 3, 0, 0, 14, 0, 0, 0, none⟩, .vand ⟨1, 2, 3, 0, 0, 0, 0, 0, 1, none⟩, .vand ⟨1, 2, 3, 0, 0, 0, 1, 0, 0, none⟩, .vand ⟨1, 2, 3, 1, 0, 0, 0, 0, 0, none⟩]),
   (.vor ⟨1, 2, 3, 0, 0, 0, 0, 0, 0, none⟩, [.vor ⟨1, 2, 3, 0, 0, 14, 0, 0, 0, none⟩, .vor ⟨1, 2, 3, 0, 0, 0, 0, 0, 1, none⟩, .vor ⟨1, 2, 3, 0, 0, 0, 1, 0, 0, none⟩, .vor ⟨1, 2, 3, 1, 0, 0, 0, 0, 0, none⟩]),
   (.vxor ⟨1, 2, 3, 0, 0, 0, 0, 0, 0, none⟩, [.vxor ⟨1, 2, 3, 0, 0, 14, 0, 0, 0, none⟩, .vxor ⟨1, 2, 3, 0, 0, 0, 0, 0, 1, none⟩, .vxor ⟨1, 2, 3, 0, 0, 0, 1, 0, 0, none⟩, .vxor ⟨1, 2, 3, 1, 0, 0, 0, 0, 0, none⟩])]

/-- Operations of slot V that meet every check, each beside ones that fail one check. -/
def checksV1 : List (Instr × List Instr) :=
  [(.vandn ⟨1, 2, 3, 0, 0, 0, 0, 0, 0, none⟩, [.vandn ⟨1, 2, 3, 0, 0, 14, 0, 0, 0, none⟩, .vandn ⟨1, 2, 3, 0, 0, 0, 0, 0, 1, none⟩, .vandn ⟨1, 2, 3, 0, 0, 0, 1, 0, 0, none⟩, .vandn ⟨1, 2, 3, 1, 0, 0, 0, 0, 0, none⟩]),
   (.vshl ⟨1, 2, 3, 0, 0, 6, 0, 0, 0, none⟩, [.vshl ⟨1, 2, 3, 0, 0, 0, 0, 0, 0, none⟩, .vshl ⟨1, 2, 3, 0, 0, 6, 0, 0, 1, none⟩, .vshl ⟨1, 2, 3, 0, 0, 6, 1, 0, 0, none⟩, .vshl ⟨1, 2, 3, 1, 0, 6, 0, 0, 0, none⟩]),
   (.vshr ⟨1, 2, 3, 0, 0, 6, 0, 0, 0, none⟩, [.vshr ⟨1, 2, 3, 0, 0, 0, 0, 0, 0, none⟩, .vshr ⟨1, 2, 3, 0, 0, 6, 0, 0, 1, none⟩, .vshr ⟨1, 2, 3, 0, 0, 6, 1, 0, 0, none⟩, .vshr ⟨1, 2, 3, 1, 0, 6, 0, 0, 0, none⟩]),
   (.vsra ⟨1, 2, 3, 0, 0, 6, 0, 0, 0, none⟩, [.vsra ⟨1, 2, 3, 0, 0, 0, 0, 0, 0, none⟩, .vsra ⟨1, 2, 3, 0, 0, 6, 0, 0, 1, none⟩, .vsra ⟨1, 2, 3, 0, 0, 6, 1, 0, 0, none⟩, .vsra ⟨1, 2, 3, 1, 0, 6, 0, 0, 0, none⟩]),
   (.vscale ⟨1, 2, 3, 0, 0, 0, 0, 0, 0, none⟩, [.vscale ⟨1, 2, 3, 0, 0, 6, 0, 0, 0, none⟩, .vscale ⟨1, 2, 3, 0, 0, 0, 5, 0, 0, none⟩, .vscale ⟨1, 2, 3, 0, 0, 0, 0, 0, 1, none⟩, .vscale ⟨1, 2, 3, 1, 0, 0, 0, 0, 0, none⟩]),
   (.vclass ⟨1, 2, 0, 0, 0, 0, 0, 0, 0, none⟩, [.vclass ⟨1, 2, 0, 0, 0, 6, 0, 0, 0, none⟩, .vclass ⟨1, 2, 0, 0, 0, 0, 1, 0, 0, none⟩, .vclass ⟨1, 2, 0, 0, 0, 0, 0, 0, 1, none⟩, .vclass ⟨1, 2, 1, 0, 0, 0, 0, 0, 0, none⟩]),
   (.vpopc ⟨1, 2, 0, 0, 0, 6, 0, 0, 0, none⟩, [.vpopc ⟨1, 2, 0, 0, 0, 0, 0, 0, 0, none⟩, .vpopc ⟨1, 2, 0, 0, 0, 6, 1, 0, 0, none⟩, .vpopc ⟨1, 2, 0, 0, 0, 6, 0, 0, 1, none⟩, .vpopc ⟨1, 2, 1, 0, 0, 6, 0, 0, 0, none⟩]),
   (.vclz ⟨1, 2, 0, 0, 0, 6, 0, 0, 0, none⟩, [.vclz ⟨1, 2, 0, 0, 0, 0, 0, 0, 0, none⟩, .vclz ⟨1, 2, 0, 0, 0, 6, 1, 0, 0, none⟩, .vclz ⟨1, 2, 0, 0, 0, 6, 0, 0, 1, none⟩, .vclz ⟨1, 2, 1, 0, 0, 6, 0, 0, 0, none⟩]),
   (.vmaddi ⟨1, 2, 3, 4, 0, 6, 0, 0, 0, none⟩, [.vmaddi ⟨1, 2, 3, 4, 0, 0, 0, 0, 0, none⟩, .vmaddi ⟨1, 2, 3, 4, 0, 6, 1, 0, 0, none⟩, .vmaddi ⟨1, 2, 3, 4, 0, 6, 0, 0, 1, none⟩]),
   (.vrcp ⟨1, 2, 0, 0, 0, 0, 0, 0, 0, none⟩, [.vrcp ⟨1, 2, 0, 0, 0, 6, 0, 0, 0, none⟩, .vrcp ⟨1, 2, 0, 0, 0, 0, 5, 0, 0, none⟩, .vrcp ⟨1, 2, 0, 0, 0, 0, 0, 0, 1, none⟩, .vrcp ⟨1, 2, 1, 0, 0, 0, 0, 0, 0, none⟩]),
   (.vrsq ⟨1, 2, 0, 0, 0, 0, 0, 0, 0, none⟩, [.vrsq ⟨1, 2, 0, 0, 0, 6, 0, 0, 0, none⟩, .vrsq ⟨1, 2, 0, 0, 0, 0, 5, 0, 0, none⟩, .vrsq ⟨1, 2, 0, 0, 0, 0, 0, 0, 1, none⟩, .vrsq ⟨1, 2, 1, 0, 0, 0, 0, 0, 0, none⟩]),
   (.vrint ⟨1, 2, 0, 0, 0, 0, 0, 0, 0, none⟩, [.vrint ⟨1, 2, 0, 0, 0, 6, 0, 0, 0, none⟩, .vrint ⟨1, 2, 0, 0, 0, 0, 5, 0, 0, none⟩, .vrint ⟨1, 2, 0, 0, 0, 0, 0, 0, 1, none⟩, .vrint ⟨1, 2, 1, 0, 0, 0, 0, 0, 0, none⟩]),
   (.vcpsgn ⟨1, 2, 3, 0, 0, 0, 0, 0, 0, none⟩, [.vcpsgn ⟨1, 2, 3, 0, 0, 6, 0, 0, 0, none⟩, .vcpsgn ⟨1, 2, 3, 0, 0, 0, 1, 0, 0, none⟩, .vcpsgn ⟨1, 2, 3, 0, 0, 0, 0, 0, 1, none⟩, .vcpsgn ⟨1, 2, 3, 1, 0, 0, 0, 0, 0, none⟩]),
   (.vcmp ⟨1, 2, 3, 0, 0, 0, 0, 0, 0, none⟩, [.vcmp ⟨1, 2, 3, 0, 0, 0, 0, 0, 7, none⟩, .vcmp ⟨1, 2, 3, 0, 0, 6, 0, 0, 6, none⟩, .vcmp ⟨1, 2, 3, 0, 0, 14, 0, 0, 0, none⟩, .vcmp ⟨1, 2, 3, 0, 0, 0, 1, 0, 0, none⟩, .vcmp ⟨1, 2, 3, 1, 0, 0, 0, 0, 0, none⟩])]

/-- Operations of slot V that meet every check, each beside ones that fail one check. -/
def checksV2 : List (Instr × List Instr) :=
  [(.vsel ⟨1, 2, 3, 4, 0, 0, 0, 0, 0, none⟩, [.vsel ⟨1, 2, 3, 4, 0, 14, 0, 0, 0, none⟩, .vsel ⟨1, 2, 3, 4, 0, 0, 1, 0, 0, none⟩, .vsel ⟨1, 2, 3, 4, 0, 0, 0, 0, 1, none⟩]),
   (.vperm ⟨1, 2, 3, 4, 0, 0, 0, 0, 0, none⟩, [.vperm ⟨1, 2, 3, 4, 0, 14, 0, 0, 0, none⟩, .vperm ⟨1, 2, 3, 4, 0, 0, 1, 0, 0, none⟩, .vperm ⟨1, 2, 3, 4, 0, 0, 0, 0, 1, none⟩]),
   (.vmov ⟨1, 2, 0, 0, 0, 14, 0, 0, 0, none⟩, [.vmov ⟨1, 2, 0, 0, 0, 15, 0, 0, 0, none⟩, .vmov ⟨1, 2, 0, 0, 0, 14, 1, 0, 0, none⟩, .vmov ⟨1, 2, 0, 0, 0, 14, 0, 0, 1, none⟩, .vmov ⟨1, 2, 1, 0, 0, 14, 0, 0, 0, none⟩]),
   (.vbcst ⟨1, 2, 0, 0, 0, 0, 0, 0, 0, none⟩, [.vbcst ⟨1, 2, 0, 0, 0, 0, 0, 0, 16, none⟩, .vbcst ⟨1, 2, 0, 0, 0, 14, 0, 0, 0, none⟩, .vbcst ⟨1, 2, 0, 0, 0, 0, 1, 0, 0, none⟩, .vbcst ⟨1, 2, 1, 0, 0, 0, 0, 0, 0, none⟩]),
   (.vslide ⟨1, 2, 3, 0, 0, 0, 0, 0, 0, none⟩, [.vslide ⟨1, 2, 3, 0, 0, 0, 0, 0, 16, none⟩, .vslide ⟨1, 2, 3, 0, 0, 14, 0, 0, 0, none⟩, .vslide ⟨1, 2, 3, 0, 0, 0, 1, 0, 0, none⟩, .vslide ⟨1, 2, 3, 1, 0, 0, 0, 0, 0, none⟩]),
   (.vzip ⟨1, 2, 3, 0, 0, 0, 0, 0, 0, none⟩, [.vzip ⟨1, 2, 3, 0, 0, 0, 0, 0, 2, none⟩, .vzip ⟨1, 2, 3, 0, 0, 14, 0, 0, 0, none⟩, .vzip ⟨1, 2, 3, 0, 0, 0, 1, 0, 0, none⟩, .vzip ⟨1, 2, 3, 1, 0, 0, 0, 0, 0, none⟩]),
   (.vunzip ⟨1, 2, 3, 0, 0, 0, 0, 0, 0, none⟩, [.vunzip ⟨1, 2, 3, 0, 0, 0, 0, 0, 2, none⟩, .vunzip ⟨1, 2, 3, 0, 0, 14, 0, 0, 0, none⟩, .vunzip ⟨1, 2, 3, 0, 0, 0, 1, 0, 0, none⟩, .vunzip ⟨1, 2, 3, 1, 0, 0, 0, 0, 0, none⟩]),
   (.viota ⟨1, 0, 0, 0, 0, 6, 0, 0, 0, none⟩, [.viota ⟨1, 1, 0, 0, 0, 6, 0, 0, 0, none⟩, .viota ⟨1, 0, 0, 0, 0, 0, 0, 0, 0, none⟩, .viota ⟨1, 0, 0, 0, 0, 6, 1, 0, 0, none⟩, .viota ⟨1, 0, 0, 0, 0, 6, 0, 0, 1, none⟩]),
   (.vcvt ⟨1, 2, 0, 0, 0, 0, 0, 0, 1, none⟩, [.vcvt ⟨1, 2, 0, 0, 0, 0, 0, 0, 17, none⟩, .vcvt ⟨1, 2, 0, 0, 0, 0, 0, 0, 14, none⟩, .vcvt ⟨1, 2, 0, 0, 0, 14, 0, 0, 1, none⟩, .vcvt ⟨1, 2, 0, 0, 0, 0, 5, 0, 1, none⟩, .vcvt ⟨1, 2, 0, 0, 0, 0, 0, 1, 1, none⟩, .vcvt ⟨1, 2, 1, 0, 0, 0, 0, 0, 1, none⟩]),
   (.vwiden ⟨1, 2, 0, 0, 0, 0, 0, 0, 1, none⟩, [.vwiden ⟨1, 2, 0, 0, 0, 0, 0, 0, 0, none⟩, .vwiden ⟨1, 2, 0, 0, 0, 0, 0, 0, 33, none⟩, .vwiden ⟨1, 2, 0, 0, 0, 0, 5, 0, 1, none⟩]),
   (.vpack ⟨1, 2, 0, 0, 0, 1, 0, 0, 0, none⟩, [.vpack ⟨1, 2, 0, 0, 0, 0, 0, 0, 0, none⟩, .vpack ⟨1, 2, 0, 0, 0, 1, 0, 0, 32, none⟩, .vpack ⟨1, 2, 0, 0, 0, 1, 5, 0, 0, none⟩]),
   (.vamax ⟨1, 2, 0, 0, 0, 0, 0, 0, 3, none⟩, [.vamax ⟨1, 2, 0, 0, 1, 0, 0, 0, 3, none⟩, .vamax ⟨1, 2, 0, 0, 0, 6, 0, 0, 3, none⟩, .vamax ⟨1, 2, 0, 0, 0, 0, 0, 0, 2, none⟩, .vamax ⟨1, 2, 0, 0, 0, 0, 0, 0, 19, none⟩, .vamax ⟨1, 505, 0, 0, 0, 0, 0, 0, 3, none⟩, .vamax ⟨1, 2, 1, 0, 0, 0, 0, 0, 3, none⟩, .vamax ⟨1, 2, 0, 0, 0, 0, 1, 0, 3, none⟩]),
   (.vqnt ⟨1, 2, 3, 0, 0, 3, 0, 0, 0, none⟩, [.vqnt ⟨1, 2, 3, 0, 0, 2, 0, 0, 0, none⟩, .vqnt ⟨1, 2, 3, 0, 0, 3, 0, 0, 3, none⟩, .vqnt ⟨1, 2, 3, 0, 0, 3, 0, 0, 16, none⟩, .vqnt ⟨1, 509, 3, 0, 0, 3, 0, 0, 0, none⟩, .vqnt ⟨1, 2, 3, 0, 0, 3, 5, 0, 0, none⟩, .vqnt ⟨1, 2, 3, 0, 0, 4, 0, 1, 0, none⟩, .vqnt ⟨1, 2, 3, 1, 0, 3, 0, 0, 0, none⟩]),
   (.vdqnt ⟨1, 2, 3, 0, 0, 0, 0, 0, 3, none⟩, [.vdqnt ⟨1, 2, 3, 0, 0, 3, 0, 0, 3, none⟩, .vdqnt ⟨1, 2, 3, 0, 0, 0, 0, 0, 2, none⟩, .vdqnt ⟨1, 2, 3, 0, 0, 1, 0, 0, 35, none⟩, .vdqnt ⟨1, 2, 3, 0, 0, 0, 0, 1, 3, none⟩, .vdqnt ⟨1, 2, 3, 0, 0, 0, 5, 0, 3, none⟩, .vdqnt ⟨1, 2, 3, 1, 0, 0, 0, 0, 3, none⟩])]

/-- Operations of slot V that meet every check, each beside ones that fail one check. -/
def checksV3 : List (Instr × List Instr) :=
  [(.vrsum ⟨1, 2, 0, 0, 0, 0, 0, 0, 0, none⟩, [.vrsum ⟨1, 2, 0, 0, 0, 14, 0, 0, 0, none⟩, .vrsum ⟨1, 2, 0, 0, 0, 0, 0, 0, 1, none⟩, .vrsum ⟨1, 2, 0, 0, 0, 0, 5, 0, 0, none⟩, .vrsum ⟨1, 2, 0, 0, 0, 6, 1, 0, 0, none⟩, .vrsum ⟨1, 2, 1, 0, 0, 0, 0, 0, 0, none⟩]),
   (.vrmax ⟨1, 2, 0, 0, 0, 0, 0, 0, 0, none⟩, [.vrmax ⟨1, 2, 0, 0, 0, 14, 0, 0, 0, none⟩, .vrmax ⟨1, 2, 0, 0, 0, 0, 0, 0, 1, none⟩, .vrmax ⟨1, 2, 0, 0, 0, 0, 1, 0, 0, none⟩, .vrmax ⟨1, 2, 1, 0, 0, 0, 0, 0, 0, none⟩]),
   (.vrmin ⟨1, 2, 0, 0, 0, 0, 0, 0, 0, none⟩, [.vrmin ⟨1, 2, 0, 0, 0, 14, 0, 0, 0, none⟩, .vrmin ⟨1, 2, 0, 0, 0, 0, 0, 0, 1, none⟩, .vrmin ⟨1, 2, 0, 0, 0, 0, 1, 0, 0, none⟩, .vrmin ⟨1, 2, 1, 0, 0, 0, 0, 0, 0, none⟩]),
   (.vrdot ⟨1, 2, 3, 0, 0, 0, 0, 0, 0, none⟩, [.vrdot ⟨1, 2, 3, 0, 0, 8, 0, 0, 0, none⟩, .vrdot ⟨1, 2, 3, 0, 0, 0, 0, 0, 1, none⟩, .vrdot ⟨1, 2, 3, 0, 0, 0, 5, 0, 0, none⟩, .vrdot ⟨1, 2, 3, 1, 0, 0, 0, 0, 0, none⟩]),
   (.vlacc ⟨1, 2, 0, 0, 0, 14, 0, 0, 0, none⟩, [.vlacc ⟨1, 2, 0, 0, 0, 0, 0, 0, 0, none⟩, .vlacc ⟨1, 2, 0, 0, 0, 14, 0, 0, 5, none⟩, .vlacc ⟨1, 2, 1, 0, 0, 14, 0, 0, 0, none⟩, .vlacc ⟨1, 2, 0, 0, 0, 14, 1, 0, 0, none⟩]),
   (.vlarnd ⟨1, 2, 0, 0, 0, 0, 0, 0, 0, none⟩, [.vlarnd ⟨1, 2, 0, 0, 0, 6, 0, 0, 0, none⟩, .vlarnd ⟨1, 2, 0, 0, 0, 0, 0, 0, 1, none⟩, .vlarnd ⟨1, 2, 0, 0, 0, 0, 5, 0, 0, none⟩, .vlarnd ⟨1, 2, 0, 0, 0, 0, 0, 1, 0, none⟩, .vlarnd ⟨1, 2, 1, 0, 0, 0, 0, 0, 0, none⟩]),
   (.vlscale ⟨1, 2, 0, 0, 0, 8, 0, 0, 0, none⟩, [.vlscale ⟨1, 2, 0, 0, 0, 0, 0, 0, 0, none⟩, .vlscale ⟨1, 2, 0, 0, 1, 8, 0, 0, 0, none⟩, .vlscale ⟨1, 2, 0, 0, 0, 8, 0, 0, 1, none⟩, .vlscale ⟨1, 2, 0, 0, 0, 8, 1, 0, 0, none⟩, .vlscale ⟨1, 2, 1, 0, 0, 8, 0, 0, 0, none⟩]),
   (.vld ⟨1, 2, 0, 0, 0, 0, 0, 0, 0, 0, none⟩, [.vld ⟨1, 2, 0, 0, 0, 15, 0, 0, 0, 0, none⟩, .vld ⟨1, 2, 1, 0, 0, 0, 0, 0, 0, 0, none⟩, .vld ⟨1, 2, 0, 0, 0, 0, 5, 0, 0, 0, none⟩, .vld ⟨1, 2, 0, 0, 0, 0, 0, 1, 0, 0, none⟩, .vld ⟨1, 2, 0, 0, 0, 0, 0, 0, 0, 3, none⟩]),
   (.vst ⟨1, 2, 0, 0, 0, 0, 0, 0, 0, 0, none⟩, [.vst ⟨1, 2, 0, 0, 0, 15, 0, 0, 0, 0, none⟩, .vst ⟨1, 2, 1, 0, 0, 0, 0, 0, 0, 0, none⟩, .vst ⟨1, 2, 0, 0, 0, 0, 5, 0, 0, 0, none⟩, .vst ⟨1, 2, 0, 0, 0, 0, 0, 0, 0, 2, none⟩]),
   (.vldx ⟨1, 2, 0, 0, 0, 0, 0, 0, 0, 0, none⟩, [.vldx ⟨1, 2, 0, 0, 0, 14, 0, 0, 0, 0, none⟩, .vldx ⟨1, 2, 0, 0, 0, 0, 5, 0, 0, 0, none⟩, .vldx ⟨1, 2, 0, 0, 0, 0, 0, 1, 0, 0, none⟩, .vldx ⟨1, 2, 0, 0, 0, 0, 0, 0, 0, 3, none⟩]),
   (.vstx ⟨1, 2, 0, 0, 0, 0, 0, 0, 0, 0, none⟩, [.vstx ⟨1, 2, 0, 0, 0, 14, 0, 0, 0, 0, none⟩, .vstx ⟨1, 2, 0, 0, 0, 0, 5, 0, 0, 0, none⟩, .vstx ⟨1, 2, 0, 0, 0, 0, 0, 0, 0, 2, none⟩]),
   (.vldb ⟨1, 2, 0, 0, 0, 0, 0, 0, 0, 0, none⟩, [.vldb ⟨1, 2, 0, 0, 0, 14, 0, 0, 0, 0, none⟩, .vldb ⟨1, 2, 1, 0, 0, 0, 0, 0, 0, 0, none⟩, .vldb ⟨1, 2, 0, 0, 0, 0, 5, 0, 0, 0, none⟩, .vldb ⟨1, 2, 0, 0, 0, 0, 0, 0, 0, 3, none⟩]),
   (.xferv ⟨1, 2, 0, 0, 0, 0⟩, [.xferv ⟨1, 2, 0, 0, 0, 14⟩, .xferv ⟨1, 2, 1, 1, 0, 0⟩, .xferv ⟨1, 2, 0, 0, 0, 3⟩, .xferv ⟨1, 2, 16, 0, 0, 0⟩])]

/-- R52: the checks accept and refuse them. -/
theorem test_wellformed_v :
    (checksV0 ++ checksV1 ++ checksV2 ++ checksV3).all (fun e => e.1.wf && e.2.all (fun i => !i.wf)) = true := by
  decide +kernel

/-- Operations of slot M that meet every check, each beside ones that fail one check. -/
def checksM0 : List (Instr × List Instr) :=
  [(.mset ⟨0, 0, 0, 0, 0, 0, none⟩, [.mset ⟨0, 0, 0, 1, 0, 0, none⟩, .mset ⟨0, 1, 0, 0, 0, 0, none⟩, .mset ⟨0, 0, 1, 0, 0, 0, none⟩]),
   (.msetHi ⟨0, 0, 0, 1, 0, 0, none⟩, [.msetHi ⟨0, 0, 0, 0, 0, 0, none⟩, .msetHi ⟨0, 1, 0, 1, 0, 0, none⟩, .msetHi ⟨0, 0, 1, 1, 0, 0, none⟩]),
   (.maddM ⟨0, 0, 0, 0, 0, 0, none⟩, [.maddM ⟨0, 0, 0, 2, 0, 0, none⟩, .maddM ⟨0, 0, 1, 0, 0, 0, none⟩, .maddM ⟨0, 0, 0, 1, 0, 1, none⟩, .maddM ⟨0, 0, 0, 1, 0, 0, some 1⟩]),
   (.mmov ⟨0, 0, 0, 0, 0, 0, none⟩, [.mmov ⟨0, 0, 0, 1, 0, 0, none⟩, .mmov ⟨0, 0, 1, 0, 0, 0, none⟩, .mmov ⟨0, 0, 0, 0, 0, 1, none⟩, .mmov ⟨0, 0, 0, 0, 0, 0, some 1⟩]),
   (.xferm ⟨1, 2, 0, none⟩, [.xferm ⟨1, 2, 0, some 1⟩]),
   (.saff ⟨0, 0, 0, 0, 0, 0, 0, 0, 0, none⟩, [.saff ⟨29, 0, 0, 0, 0, 0, 0, 0, 0, none⟩, .saff ⟨0, 0, 0, 0, 0, 0, 3, 0, 0, none⟩, .saff ⟨0, 0, 0, 0, 0, 0, 24, 0, 0, none⟩, .saff ⟨0, 0, 0, 0, 0, 0, 9, 0, 0, none⟩, .saff ⟨0, 0, 0, 16, 0, 0, 0, 0, 0, none⟩, .saff ⟨0, 0, 0, 1, 0, 0, 8, 0, 0, none⟩, .saff ⟨0, 0, 0, 0, 0, 0, 0, 1, 0, none⟩, .saff ⟨0, 0, 0, 0, 0, 0, 8, 16, 0, none⟩]),
   (.sind ⟨0, 0, 0, 0, 0, 0, 0, 0, 0, none⟩, [.sind ⟨29, 0, 0, 0, 0, 0, 0, 0, 0, none⟩, .sind ⟨0, 0, 0, 0, 0, 0, 3, 0, 0, none⟩, .sind ⟨0, 0, 0, 0, 0, 0, 16, 0, 0, none⟩, .sind ⟨0, 0, 0, 16, 0, 0, 0, 0, 0, none⟩, .sind ⟨0, 0, 0, 0, 0, 0, 0, 1, 0, none⟩]),
   (.saffw ⟨0, 0, 0, 16, 0, 0, 0, 0, 0, none⟩, [.saffw ⟨29, 0, 0, 16, 0, 0, 0, 0, 0, none⟩, .saffw ⟨0, 0, 0, 16, 0, 0, 1, 0, 0, none⟩, .saffw ⟨0, 0, 0, 16, 0, 0, 4, 0, 0, none⟩, .saffw ⟨0, 0, 0, 16, 0, 0, 8, 0, 0, none⟩, .saffw ⟨0, 0, 0, 16, 0, 0, 0, 16, 0, none⟩, .saffw ⟨0, 0, 0, 0, 0, 0, 0, 0, 0, none⟩]),
   (.sindw ⟨0, 0, 0, 16, 0, 0, 0, 0, 0, none⟩, [.sindw ⟨29, 0, 0, 16, 0, 0, 0, 0, 0, none⟩, .sindw ⟨0, 0, 0, 16, 0, 0, 1, 0, 0, none⟩, .sindw ⟨0, 0, 0, 16, 0, 0, 4, 0, 0, none⟩, .sindw ⟨0, 0, 0, 16, 0, 0, 8, 0, 0, none⟩, .sindw ⟨0, 0, 0, 16, 0, 0, 0, 16, 0, none⟩, .sindw ⟨0, 0, 0, 0, 0, 0, 0, 0, 0, none⟩]),
   (.srec ⟨0, 0, 0, 0, 0, 0, 0, 0, 0, none⟩, [.srec ⟨0, 0, 0, 0, 0, 0, 8, 0, 0, none⟩, .srec ⟨0, 0, 0, 0, 0, 0, 32, 0, 0, none⟩, .srec ⟨0, 0, 0, 16, 0, 0, 0, 0, 0, none⟩, .srec ⟨0, 1, 0, 0, 0, 0, 0, 0, 0, none⟩, .srec ⟨0, 0, 0, 0, 1, 0, 0, 0, 0, none⟩, .srec ⟨0, 0, 0, 0, 0, 0, 0, 0, 16, none⟩, .srec ⟨0, 0, 0, 0, 0, 0, 0, 0, 0, some 16⟩]),
   (.swin ⟨0, 0, 0, 0, 0, 0, 0, 0, 0, none⟩, [.swin ⟨29, 0, 0, 0, 0, 0, 0, 0, 0, none⟩, .swin ⟨0, 0, 0, 0, 0, 0, 3, 0, 0, none⟩, .swin ⟨0, 0, 0, 0, 0, 0, 8, 0, 0, none⟩, .swin ⟨0, 0, 0, 16, 0, 0, 0, 0, 0, none⟩, .swin ⟨0, 0, 0, 0, 0, 0, 0, 1, 0, none⟩]),
   (.smcast ⟨0, 0, 0, 0, 0, 0, 0, 0, 0, none⟩, [.smcast ⟨28, 0, 0, 0, 0, 0, 0, 0, 0, none⟩, .smcast ⟨0, 0, 0, 0, 0, 0, 3, 0, 0, none⟩, .smcast ⟨0, 0, 0, 0, 0, 0, 8, 0, 0, none⟩, .smcast ⟨0, 0, 0, 16, 0, 0, 0, 0, 0, none⟩, .smcast ⟨0, 0, 0, 0, 0, 0, 0, 16, 0, none⟩]),
   (.temit ⟨0, 0, 0, 0, 0, 0, 0, 0, 0, none⟩, [.temit ⟨1, 0, 0, 0, 0, 0, 0, 0, 0, none⟩, .temit ⟨0, 0, 0, 1, 0, 0, 0, 0, 0, none⟩, .temit ⟨0, 0, 0, 0, 1, 0, 0, 0, 0, none⟩, .temit ⟨0, 0, 0, 0, 0, 0, 0, 0, 4096, none⟩, .temit ⟨0, 0, 0, 0, 0, 0, 1, 0, 0, none⟩]),
   (.tcons ⟨0, 0, 0, 0, 0, 0, 0, 0, 0, none⟩, [.tcons ⟨0, 1, 0, 0, 0, 0, 0, 0, 0, none⟩, .tcons ⟨0, 0, 1, 0, 0, 0, 0, 0, 0, none⟩, .tcons ⟨0, 0, 0, 1, 0, 0, 0, 0, 0, none⟩, .tcons ⟨0, 0, 0, 0, 1, 0, 0, 0, 0, none⟩, .tcons ⟨0, 0, 0, 0, 0, 0, 0, 0, 16, none⟩, .tcons ⟨0, 0, 0, 0, 0, 0, 1, 0, 0, none⟩])]

/-- Operations of slot M that meet every check, each beside ones that fail one check. -/
def checksM1 : List (Instr × List Instr) :=
  [(.scopy ⟨0, 0, 0, 0, 0, 0, 0, 0, 0, none⟩, [.scopy ⟨28, 0, 0, 0, 0, 0, 0, 0, 0, none⟩, .scopy ⟨0, 0, 0, 0, 0, 0, 1, 0, 0, none⟩, .scopy ⟨0, 0, 0, 1, 0, 0, 0, 0, 0, none⟩, .scopy ⟨0, 0, 0, 0, 0, 0, 0, 16, 0, none⟩]),
   (.sfill ⟨0, 0, 0, 0, 0, 0, 0, 0, 0, none⟩, [.sfill ⟨28, 0, 0, 0, 0, 0, 0, 0, 0, none⟩, .sfill ⟨0, 0, 0, 0, 0, 0, 4, 0, 0, none⟩, .sfill ⟨0, 0, 0, 1, 0, 0, 0, 0, 0, none⟩]),
   (.sdual ⟨0, 0, 0, 0, 0, 0, 0, 0, 0, none⟩, [.sdual ⟨28, 0, 0, 0, 0, 0, 0, 0, 0, none⟩, .sdual ⟨0, 0, 0, 0, 0, 0, 1, 0, 0, none⟩, .sdual ⟨0, 0, 0, 1, 0, 0, 0, 0, 0, none⟩]),
   (.scancel ⟨0, 0, 0, 0, 0, 0, 0, 0, 0, none⟩, [.scancel ⟨1, 0, 0, 0, 0, 0, 0, 0, 0, none⟩, .scancel ⟨0, 1, 0, 0, 0, 0, 0, 0, 0, none⟩, .scancel ⟨0, 0, 0, 1, 0, 0, 0, 0, 0, none⟩, .scancel ⟨0, 0, 0, 0, 1, 0, 0, 0, 0, none⟩, .scancel ⟨0, 0, 0, 0, 0, 0, 0, 0, 1, none⟩, .scancel ⟨0, 0, 0, 0, 0, 0, 0, 0, 0, some 1⟩, .scancel ⟨0, 0, 0, 0, 0, 0, 1, 0, 0, none⟩]),
   (.spref ⟨0, 0, 0, 0, 0, 0, 0, 0, 0, none⟩, [.spref ⟨29, 0, 0, 0, 0, 0, 0, 0, 0, none⟩, .spref ⟨0, 0, 0, 0, 0, 0, 32, 0, 0, none⟩, .spref ⟨0, 0, 0, 1, 0, 0, 0, 0, 0, none⟩]),
   (.mnfeed ⟨0, 0, 0, 0, 0, 0, 0, 0, 0, none⟩, [.mnfeed ⟨30, 0, 0, 0, 0, 0, 0, 0, 0, none⟩, .mnfeed ⟨0, 0, 0, 0, 0, 0, 8, 0, 0, none⟩, .mnfeed ⟨0, 0, 0, 1, 0, 0, 0, 0, 0, none⟩, .mnfeed ⟨0, 0, 0, 0, 0, 0, 0, 1, 0, none⟩]),
   (.mndrain ⟨0, 0, 0, 0, 0, 0, 0, 0, 0, none⟩, [.mndrain ⟨31, 0, 0, 0, 0, 0, 0, 0, 0, none⟩, .mndrain ⟨29, 0, 0, 0, 0, 0, 1, 0, 0, none⟩, .mndrain ⟨0, 0, 0, 0, 0, 0, 2, 0, 0, none⟩, .mndrain ⟨0, 0, 0, 1, 0, 0, 0, 0, 0, none⟩, .mndrain ⟨0, 0, 0, 0, 0, 0, 0, 1, 0, none⟩]),
   (.nsdot ⟨0, 0, 0, 0, 0, 0, 0, 0, 0, none⟩, [.nsdot ⟨28, 0, 0, 0, 0, 0, 0, 0, 0, none⟩, .nsdot ⟨0, 0, 0, 0, 0, 0, 1, 0, 0, none⟩, .nsdot ⟨0, 0, 0, 1, 0, 0, 0, 0, 0, none⟩, .nsdot ⟨0, 0, 0, 0, 0, 0, 0, 1, 0, none⟩]),
   (.grecv ⟨0, 0, 0, 0, 0, 0, 0, 0, 0, none⟩, [.grecv ⟨0, 0, 0, 0, 0, 0, 4, 0, 0, none⟩, .grecv ⟨0, 0, 0, 1, 0, 0, 0, 0, 0, none⟩, .grecv ⟨0, 0, 0, 0, 0, 0, 0, 1, 0, none⟩]),
   (.sbar ⟨0, 0, 0, 1, 0, 0, none⟩, [.sbar ⟨0, 0, 0, 0, 0, 0, none⟩, .sbar ⟨0, 0, 0, 4, 0, 0, none⟩, .sbar ⟨0, 0, 0, 9, 0, 0, none⟩, .sbar ⟨0, 0, 0, 1, 0, 0, some 65536⟩, .sbar ⟨1, 0, 0, 1, 0, 0, none⟩]),
   (.swload ⟨0, 0, 0, 0, 0, 0, none⟩, [.swload ⟨0, 0, 0, 1, 0, 0, none⟩, .swload ⟨1, 0, 0, 0, 0, 0, none⟩, .swload ⟨0, 0, 1, 0, 0, 0, none⟩, .swload ⟨0, 0, 0, 0, 0, 1, none⟩, .swload ⟨0, 0, 0, 0, 0, 0, some 1⟩]),
   (.swact ⟨0, 0, 0, 0, 0, 0, none⟩, [.swact ⟨0, 0, 0, 1, 0, 0, none⟩, .swact ⟨1, 0, 0, 0, 0, 0, none⟩, .swact ⟨0, 1, 0, 0, 0, 0, none⟩, .swact ⟨0, 0, 1, 0, 0, 0, none⟩, .swact ⟨0, 0, 0, 0, 0, 1, none⟩, .swact ⟨0, 0, 0, 0, 0, 0, some 1⟩]),
   (.cfgload ⟨0, 0, 0, 0, 0, 0, none⟩, [.cfgload ⟨0, 0, 0, 2, 0, 0, none⟩, .cfgload ⟨1, 0, 0, 0, 0, 0, none⟩, .cfgload ⟨0, 0, 1, 0, 0, 0, none⟩, .cfgload ⟨0, 0, 0, 0, 0, 1, none⟩, .cfgload ⟨0, 0, 0, 0, 0, 0, some 1⟩]),
   (.cfgpref ⟨0, 0, 0, 0, 0, 0, none⟩, [.cfgpref ⟨0, 0, 0, 1, 0, 0, none⟩, .cfgpref ⟨1, 0, 0, 0, 0, 0, none⟩, .cfgpref ⟨0, 0, 1, 0, 0, 0, none⟩, .cfgpref ⟨0, 0, 0, 0, 0, 1, none⟩, .cfgpref ⟨0, 0, 0, 0, 0, 0, some 1⟩])]

/-- Operations of slot M that meet every check, each beside ones that fail one check. -/
def checksM2 : List (Instr × List Instr) :=
  [(.cfgact ⟨0, 0, 0, 0, 0, 0, none⟩, [.cfgact ⟨0, 0, 0, 2, 0, 0, none⟩, .cfgact ⟨1, 0, 0, 0, 0, 0, none⟩, .cfgact ⟨0, 1, 0, 0, 0, 0, none⟩, .cfgact ⟨0, 0, 1, 0, 0, 0, none⟩, .cfgact ⟨0, 0, 0, 0, 0, 1, none⟩, .cfgact ⟨0, 0, 0, 0, 0, 0, some 1⟩]),
   (.afire ⟨0, 0, 0, 0, 0, 0, none⟩, [.afire ⟨0, 0, 0, 16, 0, 0, none⟩, .afire ⟨1, 0, 0, 0, 0, 0, none⟩, .afire ⟨0, 1, 0, 0, 0, 0, none⟩, .afire ⟨0, 0, 1, 0, 0, 0, none⟩, .afire ⟨0, 0, 0, 0, 0, 1, none⟩, .afire ⟨0, 0, 0, 0, 0, 0, some 1⟩]),
   (.aflush ⟨0, 0, 0, 0, 0, 0, none⟩, [.aflush ⟨0, 0, 0, 16, 0, 0, none⟩, .aflush ⟨1, 0, 0, 0, 0, 0, none⟩, .aflush ⟨0, 1, 0, 0, 0, 0, none⟩, .aflush ⟨0, 0, 1, 0, 0, 0, none⟩, .aflush ⟨0, 0, 0, 0, 0, 1, none⟩, .aflush ⟨0, 0, 0, 0, 0, 0, some 1⟩]),
   (.adepth ⟨0, 0, 0, 0, 0, 0, none⟩, [.adepth ⟨0, 0, 0, 1, 0, 0, none⟩, .adepth ⟨0, 0, 0, 0, 0, 32768, none⟩, .adepth ⟨1, 0, 0, 0, 0, 0, none⟩]),
   (.mnopen ⟨0, 0, 0, 0, 0, 0, none⟩, [.mnopen ⟨0, 0, 0, 4, 0, 0, none⟩, .mnopen ⟨0, 30, 0, 0, 0, 0, none⟩, .mnopen ⟨1, 0, 0, 0, 0, 0, none⟩, .mnopen ⟨0, 0, 1, 0, 0, 0, none⟩, .mnopen ⟨0, 0, 0, 0, 0, 1, none⟩, .mnopen ⟨0, 0, 0, 0, 0, 0, some 1⟩]),
   (.mnflush ⟨0, 0, 0, 0, 0, 0, none⟩, [.mnflush ⟨0, 0, 0, 1, 0, 0, none⟩, .mnflush ⟨1, 0, 0, 0, 0, 0, none⟩, .mnflush ⟨0, 1, 0, 0, 0, 0, none⟩, .mnflush ⟨0, 0, 1, 0, 0, 0, none⟩, .mnflush ⟨0, 0, 0, 0, 0, 1, none⟩, .mnflush ⟨0, 0, 0, 0, 0, 0, some 1⟩]),
   (.mnclose ⟨0, 0, 0, 0, 0, 0, none⟩, [.mnclose ⟨0, 0, 0, 1, 0, 0, none⟩, .mnclose ⟨1, 0, 0, 0, 0, 0, none⟩, .mnclose ⟨0, 1, 0, 0, 0, 0, none⟩, .mnclose ⟨0, 0, 1, 0, 0, 0, none⟩, .mnclose ⟨0, 0, 0, 0, 0, 1, none⟩, .mnclose ⟨0, 0, 0, 0, 0, 0, some 1⟩]),
   (.mncloseA ⟨0, 0, 0, 1, 0, 0, none⟩, [.mncloseA ⟨0, 0, 0, 0, 0, 0, none⟩, .mncloseA ⟨1, 0, 0, 1, 0, 0, none⟩, .mncloseA ⟨0, 1, 0, 1, 0, 0, none⟩, .mncloseA ⟨0, 0, 1, 1, 0, 0, none⟩, .mncloseA ⟨0, 0, 0, 1, 0, 1, none⟩, .mncloseA ⟨0, 0, 0, 1, 0, 0, some 1⟩]),
   (.launch ⟨0, 0, 0, 0, 0, 0, none⟩, [.launch ⟨0, 0, 0, 1, 0, 0, none⟩, .launch ⟨0, 0, 0, 0, 0, 1024, none⟩, .launch ⟨1, 0, 0, 0, 0, 0, none⟩]),
   (.spawn ⟨0, 0, 0, 0, 0, 0, none⟩, [.spawn ⟨0, 0, 0, 2, 0, 0, none⟩, .spawn ⟨1, 0, 0, 0, 0, 0, none⟩]),
   (.jinit ⟨0, 0, 0, 0, 0, 0, none⟩, [.jinit ⟨0, 0, 0, 1, 0, 0, none⟩, .jinit ⟨0, 1, 0, 0, 0, 0, none⟩]),
   (.pgreq ⟨0, 0, 0, 0, 0, 0, none⟩, [.pgreq ⟨0, 0, 0, 3, 0, 0, none⟩, .pgreq ⟨1, 0, 0, 0, 0, 0, none⟩, .pgreq ⟨0, 1, 0, 0, 0, 0, none⟩, .pgreq ⟨0, 0, 1, 0, 0, 0, none⟩, .pgreq ⟨0, 0, 0, 0, 0, 1, none⟩, .pgreq ⟨0, 0, 0, 0, 0, 0, some 1⟩]),
   (.pgreqRel ⟨0, 0, 0, 4, 0, 0, none⟩, [.pgreqRel ⟨0, 0, 0, 3, 0, 0, none⟩, .pgreqRel ⟨0, 0, 0, 7, 0, 0, none⟩, .pgreqRel ⟨1, 0, 0, 4, 0, 0, none⟩, .pgreqRel ⟨0, 1, 0, 4, 0, 0, none⟩, .pgreqRel ⟨0, 0, 1, 4, 0, 0, none⟩, .pgreqRel ⟨0, 0, 0, 4, 0, 1, none⟩, .pgreqRel ⟨0, 0, 0, 4, 0, 0, some 1⟩]),
   (.sstat ⟨0, 0, 0, 0, 0, 0, none⟩, [.sstat ⟨0, 0, 0, 17, 0, 0, none⟩, .sstat ⟨0, 1, 0, 0, 0, 0, none⟩, .sstat ⟨0, 0, 1, 0, 0, 0, none⟩, .sstat ⟨0, 0, 0, 0, 0, 1, none⟩, .sstat ⟨0, 0, 0, 0, 0, 0, some 1⟩])]

/-- Operations of slot M that meet every check, each beside ones that fail one check. -/
def checksM3 : List (Instr × List Instr) :=
  [(.lapin ⟨0, 0, 0, 0, 0, 0, none⟩, [.lapin ⟨0, 0, 0, 1, 0, 0, none⟩, .lapin ⟨1, 0, 0, 0, 0, 0, none⟩, .lapin ⟨0, 0, 1, 0, 0, 0, none⟩, .lapin ⟨0, 0, 0, 0, 0, 1, none⟩, .lapin ⟨0, 0, 0, 0, 0, 0, some 1⟩]),
   (.lapinRel ⟨0, 0, 0, 1, 0, 0, none⟩, [.lapinRel ⟨0, 0, 0, 0, 0, 0, none⟩, .lapinRel ⟨1, 0, 0, 1, 0, 0, none⟩, .lapinRel ⟨0, 1, 0, 1, 0, 0, none⟩, .lapinRel ⟨0, 0, 1, 1, 0, 0, none⟩, .lapinRel ⟨0, 0, 0, 1, 0, 1, none⟩, .lapinRel ⟨0, 0, 0, 1, 0, 0, some 1⟩]),
   (.publish ⟨0, 0, 0, 0, 0, 0, none⟩, [.publish ⟨0, 0, 0, 1, 0, 0, none⟩, .publish ⟨1, 0, 0, 0, 0, 0, none⟩, .publish ⟨0, 0, 0, 0, 0, 1, none⟩, .publish ⟨0, 0, 0, 0, 0, 0, some 1⟩])]

/-- R52: the checks accept and refuse them. -/
theorem test_wellformed_m :
    (checksM0 ++ checksM1 ++ checksM2 ++ checksM3).all (fun e => e.1.wf && e.2.all (fun i => !i.wf)) = true := by
  decide +kernel

/-- Operations of slot B that meet every check, each beside ones that fail one check. -/
def checksB0 : List (Instr × List Instr) :=
  [(.loop ⟨0, 4, 8, none⟩, [.loop ⟨0, 4, 0, none⟩]),
   (.loopr ⟨0, 8, none⟩, [.loopr ⟨0, 0, none⟩, .loopr ⟨0, 8, some 1⟩]),
   (.loops ⟨0, 0, 8, none⟩, [.loops ⟨0, 0, 0, none⟩, .loops ⟨0, 0, 8, some 16⟩]),
   (.wait ⟨0, 0, 1, 0, 2, 0, 0, none⟩, [.wait ⟨0, 0, 1, 0, 2, 0, 5, none⟩, .wait ⟨0, 0, 1, 0, 2, 0, 0, some 1⟩, .wait ⟨0, 0, 1, 1, 2, 1, 0, some 1⟩]),
   (.acquire ⟨0, 0, 1, 0, 2, 0, 0, none⟩, [.acquire ⟨0, 0, 1, 0, 2, 0, 2, none⟩, .acquire ⟨0, 0, 1, 0, 2, 0, 0, some 1⟩]),
   (.release ⟨0, 0, 1, 0, 0, 0, none⟩, [.release ⟨0, 0, 1, 0, 0, 2, none⟩, .release ⟨0, 0, 1, 0, 0, 0, some 1⟩]),
   (.atom ⟨0, 0, 1, 0, 2, 0, 0, none⟩, [.atom ⟨0, 0, 1, 0, 2, 0, 9, none⟩, .atom ⟨0, 0, 1, 0, 2, 0, 0, some 1⟩]),
   (.atomnr ⟨0, 0, 1, 0, 0, 0, none⟩, [.atomnr ⟨0, 0, 1, 0, 0, 9, none⟩, .atomnr ⟨0, 0, 1, 0, 0, 0, some 1⟩]),
   (.fence ⟨0, 0, 0⟩, [.fence ⟨0, 0, 6⟩]),
   (.bind ⟨0, 0, 1, 2, 3, 0⟩, [.bind ⟨0, 0, 1, 2, 3, 6⟩]),
   (.evwait ⟨0, 0, 1⟩, [.evwait ⟨0, 0, 0⟩]),
   (.calwait ⟨0, 0, 0, none⟩, [.calwait ⟨0, 0, 471, none⟩, .calwait ⟨0, 0, 1, some 1⟩]),
   (.xferb ⟨0, 0, 0, 0, 0⟩, [.xferb ⟨3, 0, 0, 0, 0⟩, .xferb ⟨2, 4, 0, 0, 0⟩, .xferb ⟨0, 0, 0, 64, 0⟩, .xferb ⟨0, 0, 0, 0, 1⟩, .xferb ⟨0, 0, 1, 0, 0⟩, .xferb ⟨1, 0, 1, 0, 14⟩])]

/-- R52: the checks accept and refuse them. -/
theorem test_wellformed_b :
    (checksB0).all (fun e => e.1.wf && e.2.all (fun i => !i.wf)) = true := by
  decide +kernel

/-- R274 to R276: a state whose address space 0, generation 7, maps its first two 64 KiB pages through five tables. -/
def walkSt : Machine.State :=
  let w := fun (m : Machine.Mem) (e : Nat × Nat) => m.writeLE e.1 e.2 8
  { Machine.State.reset with
    mem := [(0x5000, 0x100001), (0x5008, 7), (0x100000, 0x200001), (0x200000, 0x300001), (0x300000, 0x400001),
            (0x400000, 0x500001), (0x500000, 0x1000F), (0x500008, 0x2000F)].foldl w []
    win := Machine.State.reset.win.write Machine.wASTBASE 0x5000 }

/-- R275, R276: a walk gives the page's address and fills the TLB with its page and the walk cache with its five tables. -/
theorem test_walk_fills :
    (walkSt.xlate 0 0 7 false 0x123 false).1 = .ok 0x10123 ∧ ((walkSt.xlate 0 0 7 false 0x123 false).2.tlb 0).length = 1 ∧
    ((walkSt.xlate 0 0 7 false 0x123 false).2.walks 0).map (·.table) = [0x100000, 0x200000, 0x300000, 0x400000, 0x500000] := by
  decide +kernel

/-- R276: with every table in the walk cache, the next walk begins at one of them, or at the address-space entry; each gives
the same page, and another generation hits none. -/
theorem test_walk_cache :
    let s := (walkSt.xlate 0 0 7 false 0x123 false).2
    (s.walks 0).all (fun w => decide (s.walkFrom w false 0x10123 = s.walkAst 0 7 false 0x10123)) = true ∧
    (s.xlate 0 0 6 false 0x10123 false).1 = .fail 4 := by
  decide +kernel

end Sys2Proof.Tests
end

/-! ## The issue of a bundle: its operations alone, its records, its end (R7, R12, R44 to R46, R116) -/

namespace Sys2Proof.Laws

open Sys2Proof.Machine

/-! ### A slot operation alone -/

/-- Whether a slot operation alone also ends its issue (`commit`): it may hold, or it leaves something in the issue's
buffer. The others deliver their results at once. -/
def endsItsIssue : Instr → Bool
  | .ld _ | .lds _ | .st _ | .ldx _ | .ldxs _ | .stx _ | .wrcr _ | .setcr _ | .clrcr _
  | .greq _ | .gwr _ | .gwrm _ | .gtagwT _ | .gtagwC _ | .gbin _ | .gprnd _ | .ghand _ | .gfence _
  | .br _ | .call _ | .ret _ | .brx _ | .loop _ | .loopr _ | .loops _ | .waitc _ | .wait _ | .fence _
  | .acquire _ | .acquireX _ | .release _ | .releaseX _ | .bind _ | .unbind _ | .unbindAll _
  | .atom _ | .atomnr _ | .atomcas _ | .join _ | .pwait _ | .evwait _ | .yield _ | .exit _ | .trap _ | .eret _
  | .svc _ | .bkpt _ | .plog _ | .vmlog _ | .lci _ | .stkclr _ | .ifence _ | .calwait _
  | .vld _ | .vst _ | .vldx _ | .vstx _ | .vldb _
  | .saff _ | .saffw _ | .sind _ | .sindw _ | .srec _ | .swin _ | .smcast _ | .temit _ | .tcons _ | .scopy _
  | .sfill _ | .sbar _ | .swload _ | .swact _ | .cfgload _ | .cfgact _ | .afire _ | .adepth _ | .mnopen _
  | .mnfeed _ | .mndrain _ | .nsdot _ | .launch _ | .spawn _ | .pgreq _ | .spref _ | .grecv _ | .sdual _
  | .publish _ | .cfgpref _ => true
  | _ => false

/-- An operation of gallery cores is checked for its core first (R355); the others go on. -/
def onItsCore (i : Instr) (s : State) (r : Host.Outcome State Fault Refusal) : Host.Outcome State Fault Refusal :=
  if galleryOp i then galOnly s r else r

theorem onItsCore_of_allowed {i : Instr} {s : State} (h : galleryOp i = false ∨ isGal s.cur = true)
    (r : Host.Outcome State Fault Refusal) : onItsCore i s r = r := by
  unfold onItsCore galOnly
  cases h with
  | inl h => simp [h]
  | inr h => simp [h]

/-- A slot operation alone is its hold and its effect in a bundle, at the address it computes: each arm of `exec` is made of
the arms of `holdOp` and `runOp`. -/
theorem exec_eq_runOp {i : Instr} (h : i.slot.isSome = true) (s : State) :
    exec i s = onItsCore i s (if endsItsIssue i then finishHold s (holdOp i (Machine.baseOf i s.cx) s) (runOp i (Machine.baseOf i s.cx) s)
      else finish s (runOp i (Machine.baseOf i s.cx) s)) := by
  cases i <;> cases h <;> rfl

/-- Where its hold does not keep it and its core has it, only the end of the issue tells an operation alone from its
effect in a bundle. -/
theorem exec_of_noHold {i : Instr} {s : State} (hslot : i.slot.isSome = true) (hhold : holdOp i (Machine.baseOf i s.cx) s = none)
    (hcore : galleryOp i = false ∨ isGal s.cur = true) :
    exec i s = finish s (runOp i (Machine.baseOf i s.cx) s) ∨ exec i s = finishHold s none (runOp i (Machine.baseOf i s.cx) s) := by
  rw [exec_eq_runOp hslot, onItsCore_of_allowed hcore, hhold]
  cases endsItsIssue i with
  | false => exact .inl rfl
  | true => exact .inr rfl

/-- R7: what an operation leaves alone is what it leaves in its bundle, up to the end of its issue. -/
theorem operationsAlone : OperationsAlone := by
  intro i s t e a hslot hhold hcore
  obtain h | h := exec_of_noHold hslot hhold hcore
  · exact ⟨fun hr => .inl (by rw [h, hr, finish_ok]), fun hr => by rw [h, hr, finish_trap],
      fun hr => by rw [h, hr, finish_trapIn]⟩
  · exact ⟨fun hr => .inr (by rw [h, hr, finishHold_ok]), fun hr => by rw [h, hr, finishHold_trap],
      fun hr => by rw [h, hr, finishHold_trapIn]⟩

/-! ### Sticky records -/

/-- A record at a re-issue: the same operation, its address one stride on (R44, R45). -/
def reissued (r : StickyRec) : StickyRec := { r with addr := r.addr + strideOf r.op }

theorem planRec_present (k : Nat) (i nop : Instr) (r : StickyRec) (c : Ctx) :
    planRec false k (some i) nop r c = if k = 0 then { op := i, addr := Machine.baseOf i c } else reissued r := rfl

/-- What a slot's record is at issue 0: a present operation with the address it computes, else the record again. -/
def firstRec (present : Option Instr) (r : StickyRec) (c : Ctx) : StickyRec :=
  match present with
  | some i => { op := i, addr := Machine.baseOf i c }
  | none => reissued r

theorem planRec_first {k : Nat} (hk : k = 0) (present : Option Instr) (nop : Instr) (r : StickyRec) (c : Ctx) :
    planRec false k present nop r c = firstRec present r c := by
  cases present with
  | none => rfl
  | some i => rw [planRec_present, if_pos hk, firstRec]

theorem planRec_later {k : Nat} (hk : k ≠ 0) (present : Option Instr) (nop : Instr) (r : StickyRec) (c : Ctx) :
    planRec false k present nop r c = reissued r := by
  cases present with
  | none => rfl
  | some i => rw [planRec_present, if_neg hk]

/-- The stride is STEP times the unit of the form, and zero for an operation without STEP (R45). -/
theorem strideOf_eq_stepOf (i : Instr) :
    strideOf i = ((stepOf i).map fun su => su.1.signExtend 64 * BitVec.ofNat 64 su.2).getD 0 := by
  cases i <;> rfl

/-- An issue that is not skipped executes its three records, and B where it is the last (R44). -/
theorem plan_ops {p : Plan} (h : p.skip = false) :
    p.ops = [(0, p.recA.op, p.recA.addr), (1, p.recV.op, p.recV.addr), (2, p.recM.op, p.recM.addr)] ++
      (if p.k = p.b.rep then p.b.b.toList.map (fun i => (3, i, 0)) else []) := by
  unfold Plan.ops Plan.last
  cases p.b.b with
  | none => simp [h]
  | some i => simp [h]

/-- An operation with no source but its guard reads that alone. -/
theorem under_nil (c : Ctx) (gp : BitVec 4) : under c gp [] = [rP gp] := by rw [under, ite_self]

/-- The loads of the AM form read only their guard at a re-issue (R45). -/
theorem readsOf_ld_again (f : AM) (c : Ctx) : readsOf (.ld f) false c = [rP f.gp] := under_nil c f.gp

/-- R12, R34, R44, R45: how sticky records issue again. -/
theorem stickyReissue : StickyReissue := by
  intro c pc b p again hskip
  refine ⟨fun hk => ?_, fun hk => ?_, plan_ops hskip, rfl, fun f => readsOf_ld_again f c, fun i => ?_⟩
  · exact ⟨planRec_first hk .., planRec_first hk .., planRec_first hk ..⟩
  · exact ⟨planRec_later hk .., planRec_later hk .., planRec_later hk ..⟩
  · rw [strideOf_eq_stepOf]
    cases stepOf i with
    | none => rfl
    | some su => rfl

/-! ### The end of an issue -/

/-- The bundle at `h` ends loop `n`, which still counts (R116). -/
def EndsLoop (h : W64) (c : Ctx) (n : Nat) : Prop := c.cr (12 + n) = h ∧ c.rlc n ≠ 0

/-- What the loop-end check of loop `n` delivers: its counter, one less. -/
def countDown (c : Ctx) (n : Nat) : Ctx := c.deliver (.lc n) ((c.rlc n - 1).setWidth 512) 1 3

/-- Where a counting loop `n` goes: back to LOOPB, or past its end with the last count. -/
def backEdge (c : Ctx) (n : Nat) : Option W64 := if c.rlc n = 1 then none else some (c.cr (8 + n))

theorem backEdge_getD (c : Ctx) (n : Nat) (next : W64) :
    (backEdge c n).getD next = if c.rlc n = 1 then next else c.cr (8 + n) := by
  unfold backEdge
  split
  · rfl
  · rfl

@[simp] theorem deliver_buf (c : Ctx) (d : Dst) (v : W512) (lat slot : Nat) : (c.deliver d v lat slot).buf = c.buf := rfl
@[simp] theorem deliver_cr (c : Ctx) (d : Dst) (v : W512) (lat slot n : Nat) : (c.deliver d v lat slot).cr n = c.cr n := rfl

/-- The loop-end check delivers counters, and changes nothing else. -/
theorem loopEnd_frame (h : W64) (l : List Nat) (c : Ctx) :
    ∃ pend seq, (loopEnd h l c).2 = { c with pend := pend, seq := seq } := by
  induction l generalizing c with
  | nil => exact ⟨c.pend, c.seq, rfl⟩
  | cons n rest ih =>
    simp only [loopEnd]
    split
    · split
      · exact ⟨_, _, rfl⟩
      · obtain ⟨pend, seq, heq⟩ := ih (c.deliver (.lc n) ((loopVal n c.buf.lcNow (c.rlc n) - 1).setWidth 512) 1 3)
        exact ⟨pend, seq, heq⟩
    · exact ih c

/-- A loop that the bundle does not end, or that counts no more, is passed by. -/
theorem loopEnd_cons_of_not {h : W64} {n : Nat} {c : Ctx} (hbuf : c.buf = {}) (hno : ¬ EndsLoop h c n) (rest : List Nat) :
    loopEnd h (n :: rest) c = loopEnd h rest c := by
  unfold EndsLoop at hno
  rw [loopEnd]
  simp only [hbuf, loopVal, List.find?_nil, Option.map_none, Option.getD_none, if_neg hno]

/-- The first loop that the bundle ends counts down, and ends the check where its back edge is taken. -/
theorem loopEnd_cons_of_ends {h : W64} {n : Nat} {c : Ctx} (hbuf : c.buf = {}) (hends : EndsLoop h c n) (rest : List Nat) :
    loopEnd h (n :: rest) c =
      if c.rlc n = 1 then loopEnd h rest (countDown c n) else (some (c.cr (8 + n)), countDown c n) := by
  unfold EndsLoop at hends
  rw [loopEnd]
  simp only [hbuf, deliver_buf, deliver_cr, loopVal, List.find?_nil, Option.map_none, Option.getD_none, if_pos hends, ite_not,
    countDown]

theorem loopEnd_none {h : W64} {l : List Nat} {c : Ctx} (hbuf : c.buf = {}) (hno : ∀ n ∈ l, ¬ EndsLoop h c n) :
    loopEnd h l c = (none, c) := by
  induction l with
  | nil => rfl
  | cons n rest ih =>
    rw [loopEnd_cons_of_not hbuf (hno n (.head _)), ih fun m hm => hno m (.tail _ hm)]

/-- Where the bundle ends one loop alone, its counter falls, and its back edge is taken while it counts (R116). -/
theorem loopEnd_one {h : W64} {l : List Nat} {c : Ctx} {n : Nat} (hbuf : c.buf = {}) (hl : l.Nodup) (hn : n ∈ l)
    (hends : EndsLoop h c n) (hothers : ∀ m ∈ l, m ≠ n → ¬ EndsLoop h c m) :
    loopEnd h l c = (backEdge c n, countDown c n) := by
  induction l with
  | nil => cases hn
  | cons m rest ih =>
    obtain ⟨hm, hrest⟩ := List.nodup_cons.mp hl
    by_cases hmn : m = n
    · subst hmn
      have hlater : loopEnd h rest (countDown c m) = (none, countDown c m) :=
        loopEnd_none hbuf fun k hk => hothers k (.tail _ hk) fun heq => hm (heq ▸ hk)
      rw [loopEnd_cons_of_ends hbuf hends, hlater, backEdge]
      split
      · rfl
      · rfl
    · rw [loopEnd_cons_of_not hbuf (hothers m (.head _) hmn)]
      exact ih hrest ((List.mem_cons.mp hn).resolve_left (Ne.symm hmn)) fun k hk => hothers k (.tail _ hk)

/-- The back edge and the deliveries of an issue: the loop-end check belongs to the last issue (R116). -/
def loopsOf (p : Plan) (c : Ctx) : Option W64 × Ctx := if p.k = p.b.rep then loopEnd p.pc [3, 2, 1, 0] c else (none, c)

/-- The end of an issue that left nothing in its buffer: time passes, the records and the issue index go on, and the last
issue goes where its loops say. -/
theorem endIssue_eq {c : Ctx} (p : Plan) (hshadow : c.shadow = none) (hbuf : c.buf = {}) :
    endIssue p c =
      { (loopsOf p c).2 with
        ctime := c.ctime + 1
        buf := { next := if p.k = p.b.rep then some ((loopsOf p c).1.getD c.after) else none }
        recA := p.recA.after .anop
        recV := p.recV.after .vnop
        recM := p.recM.after .mnop
        k := if p.k = p.b.rep then 0 else p.k + 1
        skip := false } := by
  by_cases hlast : p.k = p.b.rep
  · obtain ⟨pend, seq, hframe⟩ := loopEnd_frame p.pc [3, 2, 1, 0] c
    simp [endIssue, loopsOf, Plan.last, hlast, hbuf, hframe, Ctx.advance, Ctx.inh, hshadow, Ctx.after]
  · simp [endIssue, loopsOf, Plan.last, hlast, hbuf, Ctx.advance, Ctx.inh, hshadow]

/-- R44, R46, R116: the end of an issue. -/
theorem issueEnds : IssueEnds := by
  intro p c n hshadow hbuf hn after loops
  have hafter : after = _ := endIssue_eq p hshadow hbuf
  refine ⟨congrArg Ctx.ctime hafter, congrArg Ctx.recA hafter, congrArg Ctx.recV hafter, congrArg Ctx.recM hafter,
    fun hk => ?_, fun hk => ?_⟩
  · simp [hafter, hk, loopsOf]
  · have hfour : ∀ m ∈ [3, 2, 1, 0], m < 4 := by decide
    refine ⟨by simp [hafter, hk], fun hno => ?_, fun hothers hends => ?_⟩
    · have hloop : loopsOf p c = (none, c) := by
        rw [loopsOf, if_pos hk, loopEnd_none hbuf fun m hm => hno m (hfour m hm)]
      simp [hafter, hk, hloop]
    · have hloop : loopsOf p c = (backEdge c n, countDown c n) := by
        rw [loopsOf, if_pos hk, loopEnd_one hbuf (by decide) (by simp; omega) hends fun m hm => hothers m (hfour m hm)]
      simp [hafter, hk, hloop, backEdge_getD, countDown]

/-- Settles O44: each arm of `exec` is made of the arms of `holdOp` and `runOp`; the records go on by their strides; the
loop-end check delivers counters alone. -/
theorem issueAndReissue : Obligations.IssueAndReissue := ⟨operationsAlone, stickyReissue, issueEnds⟩

end Sys2Proof.Laws

/-! ## Scratchpad reads and stores of an issue (R20, R98 to R102, R140 to R144, R267, R268, R293) -/

namespace Sys2Proof.Laws

open Sys2Proof.Machine

/-! ### Little-endian bytes -/

theorem little_succ (m : Mem) (a n : Nat) : little m a (n + 1) = (m.read a).toNat + 256 * little m (a + 1) n := by
  have hshift : ∀ i, (m.read (a + (i + 1))).toNat * 2 ^ (8 * (i + 1)) = 256 * ((m.read (a + 1 + i)).toNat * 2 ^ (8 * i)) := by
    intro i
    rw [show a + (i + 1) = a + 1 + i by omega, show 8 * (i + 1) = 8 * i + 8 by omega, pow_add]
    ring
  simp only [little, List.range_succ_eq_map, List.map_cons, List.map_map, List.sum_cons, Function.comp_def, Nat.succ_eq_add_one,
    hshift, List.sum_map_mul_left]
  simp

/-- The bytes that a load reads are those of the statements (R2). -/
theorem readLE_eq_little (m : Mem) (a n : Nat) : m.readLE a n = little m a n := by
  induction n generalizing a with
  | zero => rfl
  | succ n ih => rw [little_succ, Mem.readLE, ih]

theorem readLE_lt (m : Mem) (a n : Nat) : m.readLE a n < 2 ^ (8 * n) := by
  induction n generalizing a with
  | zero => simp [Mem.readLE]
  | succ n ih =>
    have hlow := (m.read a).isLt
    have hhigh := ih (a + 1)
    rw [Mem.readLE, show 8 * (n + 1) = 8 * n + 8 by omega, pow_add]
    omega

theorem natToBytes_eq_map (v n : Nat) : natToBytes v n = (List.range n).map fun k => BitVec.ofNat 8 (v / 2 ^ (8 * k)) := by
  induction n generalizing v with
  | zero => rfl
  | succ n ih =>
    have hshift : ∀ k, v / 256 / 2 ^ (8 * k) = v / 2 ^ (8 * (k + 1)) := by
      intro k
      rw [Nat.div_div_eq_div_mul, show 8 * (k + 1) = 8 + 8 * k by omega, pow_add]
      norm_num
    simp [natToBytes, ih, List.range_succ_eq_map, Function.comp_def, hshift]

/-- The value a scalar load delivers: extended by its sign, or with zeros (R98). -/
theorem loadVal_eq {signed : Bool} {n x : Nat} (hn : n ≠ 0) (hx : x < 2 ^ (8 * n)) :
    loadVal signed n x =
      if signed = true ∧ 2 ^ (8 * n - 1) ≤ x then BitVec.ofInt 64 ((x : Int) - 2 ^ (8 * n)) else BitVec.ofNat 64 x := by
  have hn8 : 8 * n ≠ 0 := by omega
  cases signed with
  | false => simp [loadVal]
  | true =>
    by_cases hneg : 2 ^ (8 * n - 1) ≤ x
    · simp [loadVal, sext, Nat.mod_eq_of_lt hx, hn8, hneg]
    · simp [loadVal, sext, Nat.mod_eq_of_lt hx, hn8, hneg]

/-! ### Scratchpads -/

@[simp] theorem setPad_setPad (s : State) (i : PadId) (p q : Pad) : (s.setPad i p).setPad i q = s.setPad i q := by
  cases i with
  | tile t => simp [State.setPad, modTile_eq]
  | cluster k => simp [State.setPad, modCluster_eq]
  | gal g => simp [State.setPad, modGal_eq]

theorem forall_mem_span {a n : Nat} {P : Nat → Prop} : (∀ o ∈ span a n, P o) ↔ ∀ k < n, P (a + k) := by
  simp [span]

theorem hitsBad_of_clean {p : Pad} (h : p.bad = []) (offs : List Nat) : p.hitsBad offs = false := by
  simp [Pad.hitsBad, h]

/-- Emptying granules leaves every other one as it was (R267). -/
theorem setEmpty_has (p : Pad) (offs : List Nat) (g : Nat) :
    (p.setEmpty offs).full.has g = (p.full.has g && decide (∀ o ∈ offs, g ≠ o / 16)) := by
  have hgone : (offs.map (· / 16)).elem g = false ↔ ∀ o ∈ offs, g ≠ o / 16 := by
    simp [ne_comm]
  rw [Bool.eq_iff_iff]
  simp only [Pad.setEmpty, has_iff, List.mem_filter, Bool.not_eq_true', hgone, Bool.and_eq_true, decide_eq_true_eq]

/-! ### Accesses to cells: what they change of the scratchpads -/

/-- `t` is `s` but for what its scratchpads and the units around them hold. -/
structure PadsOnly (s t : State) : Prop where
  cur : t.cur = s.cur
  ctxs : t.ctxs = s.ctxs
  mem : t.mem = s.mem
  tick : t.tick = s.tick

theorem PadsOnly.refl (s : State) : PadsOnly s s := ⟨rfl, rfl, rfl, rfl⟩

theorem PadsOnly.trans {s t u : State} (h : PadsOnly s t) (h' : PadsOnly t u) : PadsOnly s u :=
  ⟨h'.cur.trans h.cur, h'.ctxs.trans h.ctxs, h'.mem.trans h.mem, h'.tick.trans h.tick⟩

theorem PadsOnly.setPad (s : State) (i : PadId) (p : Pad) : PadsOnly s (s.setPad i p) :=
  ⟨setPad_cur .., setPad_ctxs .., setPad_mem .., setPad_tick ..⟩

theorem PadsOnly.ctx {s t : State} (h : PadsOnly s t) (n : Nat) : t.ctx n = s.ctx n := by simp [State.ctx, h.ctxs]

theorem PadsOnly.cx {s t : State} (h : PadsOnly s t) : t.cx = s.cx := by rw [State.cx, State.cx, h.cur, h.ctx]

/-- And their words and errors are the same: what accesses that read leave, and those that only change granules. -/
structure SameWords (s t : State) : Prop extends PadsOnly s t where
  words : ∀ j, (t.pad j).mem = (s.pad j).mem
  bad : ∀ j, (t.pad j).bad = (s.pad j).bad

theorem SameWords.refl (s : State) : SameWords s s := ⟨.refl s, fun _ => rfl, fun _ => rfl⟩

theorem SameWords.trans {s t u : State} (h : SameWords s t) (h' : SameWords t u) : SameWords s u :=
  ⟨h.toPadsOnly.trans h'.toPadsOnly, fun j => (h'.words j).trans (h.words j), fun j => (h'.bad j).trans (h.bad j)⟩

theorem SameWords.setPad {s : State} {i : PadId} {p : Pad} (hm : p.mem = (s.pad i).mem) (hb : p.bad = (s.pad i).bad) :
    SameWords s (s.setPad i p) := by
  refine ⟨.setPad s i p, fun j => ?_, fun j => ?_⟩
  · rw [pad_setPad]; split
    · next h => rw [← h, hm]
    · rfl
  · rw [pad_setPad]; split
    · next h => rw [← h, hb]
    · rfl

theorem cellsEmpty_cons (s : State) (c : Cell) (cs : List Cell) :
    s.cellsEmpty (c :: cs) = (s.setPad c.pad ((s.pad c.pad).setEmpty (span c.off c.n))).cellsEmpty cs := rfl

theorem granted_cons (s : State) (t : Nat) (c : Cell) (cs : List Cell) :
    s.granted t (c :: cs) = (s.setPad c.pad ((s.pad c.pad).grant (padBank c.pad c.off) t)).granted t cs := rfl

theorem cellsEmpty_sameWords (s : State) (cs : List Cell) : SameWords s (s.cellsEmpty cs) := by
  induction cs generalizing s with
  | nil => exact .refl s
  | cons c cs ih =>
    rw [cellsEmpty_cons]
    refine .trans ?_ (ih _)
    exact .setPad rfl rfl

theorem granted_sameWords (s : State) (t : Nat) (cs : List Cell) : SameWords s (s.granted t cs) := by
  induction cs generalizing s with
  | nil => exact .refl s
  | cons c cs ih =>
    rw [granted_cons]
    refine .trans ?_ (ih _)
    exact .setPad rfl rfl

/-- A grant of the banks leaves the granules as they are. -/
theorem granted_full (s : State) (t : Nat) (cs : List Cell) (j : PadId) : ((s.granted t cs).pad j).full = (s.pad j).full := by
  induction cs generalizing s with
  | nil => rfl
  | cons c cs ih =>
    rw [granted_cons, ih, pad_setPad]
    split
    · next h => rw [← h]; rfl
    · rfl

/-- `.FEC` empties the granules of its cells, and no others (R267). -/
theorem cellsEmpty_has (s : State) (cs : List Cell) (j : PadId) (g : Nat) :
    ((s.cellsEmpty cs).pad j).full.has g =
      ((s.pad j).full.has g && decide (∀ x ∈ cs, x.pad = j → ∀ k < x.n, g ≠ (x.off + k) / 16)) := by
  induction cs generalizing s with
  | nil => simp [State.cellsEmpty]
  | cons c cs ih =>
    rw [cellsEmpty_cons, ih, pad_setPad]
    by_cases h : c.pad = j
    · subst h
      rw [if_pos rfl, setEmpty_has, Bool.eq_iff_iff]
      simp [forall_mem_span, and_assoc]
    · simp [h]

/-! ### A read at its issue -/

/-- What waits of a read with qualifier q: it is of this issue, and a qualified one needs full granules. -/
def asked (q : Nat) (w : FeWait) (s : State) : FeWait := { w with need := q != 0, iss := s.cx.iss, at_ := s.tick }

/-- The result of a read that has not been performed. -/
def openRead (dst : Dst) (mask : W512) (slot : Nat) (w : FeWait) (s : State) : Pend :=
  { dst := dst, val := 0, mask := mask, pos := s.cx.now + s.cx.loadLat, slot := slot, arrived := false
    ready := s.tick + cellsCycles w.cells, load := true }

/-- A context with one more read in its load class. -/
def countLoad (c : Ctx) (e : Pend) : Ctx := { c.push e with ld := c.ld + 1 }

/-- A read that waits stays pending, unperformed (R20, R293). -/
theorem issueLoad_waits {dst : Dst} {mask : W512} {slot q : Nat} {w : FeWait} {s : State}
    (h : s.readWaits s.cur s.cx s.cx.seq (asked q w s) = true) :
    issueLoad dst mask slot q w s = s.setCx (countLoad s.cx { openRead dst mask slot w s with fe := some (asked q w s) }) :=
  if_pos h

/-- What a read that is performed at its issue leaves of the scratchpads: `.FEC` empties, and a qualified one is granted. -/
def readPads (q : Nat) (w : FeWait) (s : State) : State :=
  let t := if w.clear then s.cellsEmpty w.cells else s
  if q != 0 then t.granted (tileOf s.cur) w.cells else t

theorem readPads_sameWords (q : Nat) (w : FeWait) (s : State) : SameWords s (readPads q w s) := by
  have hempty : SameWords s (if w.clear then s.cellsEmpty w.cells else s) := by
    split
    · exact cellsEmpty_sameWords ..
    · exact .refl s
  unfold readPads
  dsimp only
  split
  · exact hempty.trans (granted_sameWords ..)
  · exact hempty

theorem readPads_has (q : Nat) (w : FeWait) (s : State) (j : PadId) (g : Nat) :
    ((readPads q w s).pad j).full.has g =
      ((s.pad j).full.has g && (!w.clear || decide (∀ x ∈ w.cells, x.pad = j → ∀ k < x.n, g ≠ (x.off + k) / 16))) := by
  have hempty : (((if w.clear then s.cellsEmpty w.cells else s).pad j).full.has g) =
      ((s.pad j).full.has g && (!w.clear || decide (∀ x ∈ w.cells, x.pad = j → ∀ k < x.n, g ≠ (x.off + k) / 16))) := by
    cases w.clear with
    | true => exact cellsEmpty_has ..
    | false => simp
  unfold readPads
  dsimp only
  split
  · rw [granted_full, hempty]
  · exact hempty

/-- An unqualified read changes no scratchpad. -/
theorem readPads_plain {w : FeWait} (h : w.clear = false) (s : State) : readPads 0 w s = s := by
  simp [readPads, h]

/-- A read that waits for nothing is performed at its issue: its value is read before the stores of its bundle (R20). -/
theorem issueLoad_reads {dst : Dst} {mask : W512} {slot q : Nat} {w : FeWait} {s : State}
    (h : s.readWaits s.cur s.cx s.cx.seq (asked q w s) = false) (hbad : s.cellsBad w.cells = false) :
    issueLoad dst mask slot q w s = (readPads q w s).setCx
      (countLoad s.cx { openRead dst mask slot w s with val := (s.feValue (asked q w s)).1, flags := (s.feValue (asked q w s)).2 }) := by
  have hread : s.readCells (tileOf s.cur) (asked q w s) =
      (((s.feValue (asked q w s)).1, (s.feValue (asked q w s)).2, none), readPads q w s) := by
    simp only [State.readCells, asked, hbad]
    rfl
  have hcx := (readPads_sameWords q w s).toPadsOnly.cx
  unfold asked at h hread
  simp only [issueLoad, h, hread, modCx_eq, hcx]
  rfl

/-- The issue of a read alone ends with the read in its class. -/
theorem commit_countLoad {t : State} {c : Ctx} {e : Pend} (hbuf : c.buf = {}) :
    commit (t.setCx (countLoad c e)) = t.setCx (issued (countLoad c e)) :=
  commit_setCx hbuf

/-- Whether a read waits at its issue: behind an access that waits, or, a qualified one, for its granules or its turn. -/
theorem readWaits_asked (q : Nat) (w : FeWait) (s : State) :
    s.readWaits s.cur s.cx s.cx.seq (asked q w s) = true ↔
      (s.cx.feBefore s.cx.iss = true ∨ s.cx.storeBefore s.cx.iss = true) ∨
      (q ≠ 0 ∧ ¬ ((∀ x ∈ w.cells, ∀ k < x.n, (s.pad x.pad).isFull (x.off + k) = true) ∧
        s.beaten { tile := s.cur / 2, at_ := s.tick, ctx := s.cur, seq := s.cx.seq, take := w.clear, fill := false
                   cells := w.cells } = false)) := by
  have hfull : s.cellsFull w.cells = true ↔ ∀ x ∈ w.cells, ∀ k < x.n, (s.pad x.pad).isFull (x.off + k) = true := by
    simp [State.cellsFull, span]
  rw [← hfull]
  simp [State.readWaits, asked, tileOf, imp_iff_not_or]

/-! ### Scalar loads -/

/-- A read of one cell changes the scratchpad of that cell alone. -/
theorem readPads_single {w : FeWait} {x : Cell} (hcells : w.cells = [x]) {q : Nat} (hq : q ≠ 0) (s : State) :
    readPads q w s = s.setPad x.pad ((readPads q w s).pad x.pad) := by
  cases hclear : w.clear with
  | true => simp [readPads, hcells, hq, hclear, State.cellsEmpty, State.granted]
  | false => simp [readPads, hcells, hq, hclear, State.granted]

/-- The read of a scalar load of n bytes at l, whose pointer is p. -/
def scalarRead (l : PadLoc) (n : Nat) (q : BitVec 2) (p : W64) (signed : Bool) : FeWait :=
  { cells := [⟨l.pad, l.off, n, 0⟩], clear := q == 2, addr := p, signed := signed }

theorem galQ_of_tile {s : State} (hcur : s.cur < 512) (q : BitVec 2) : galQ s q = false := by
  have hgal : isGal s.cur = false := by simp [isGal]; omega
  simp [galQ, hgal]

theorem checkScalar_ok {s : State} {p : W64} {n slot : Nat} {l : PadLoc} (hloc : s.localLoc p n = .ok l) (hal : p.toNat % n = 0) :
    s.checkScalar p n slot = .ok l := by
  simp [State.checkScalar, hloc, hal]

/-- A scalar load whose checks pass issues its read (R98, R100). -/
theorem loadA_ok {s : State} {gp : BitVec 4} {rd : BitVec 6} {sz q : BitVec 2} {signed : Bool} {p : W64} {l : PadLoc}
    (hcur : s.cur < 512) (hguard : s.cx.guard gp = true) (hloc : s.localLoc p (2 ^ sz.toNat) = .ok l)
    (hal : p.toNat % 2 ^ sz.toNat = 0) :
    loadA gp rd sz q signed p s =
      .ok (issueLoad (.a rd.toNat) (BitVec.allOnes 512) 0 q.toNat (scalarRead l (2 ^ sz.toNat) q p signed) s) := by
  have hcheck : s.checkScalar p (szBytes sz) 0 = .ok l := checkScalar_ok hloc hal
  simp only [loadA, galQ_of_tile hcur, hguard, hcheck]
  rfl

/-- A scalar load's pending result is that of the statements, but for its value (R98, R16). -/
theorem openRead_scalar (s : State) (rd : BitVec 6) (l : PadLoc) (n : Nat) (q : BitVec 2) (p : W64) (signed : Bool) :
    openRead (.a rd.toNat) (BitVec.allOnes 512) 0 (scalarRead l n q p signed) s = { loaded s rd l 0 with val := 0 } := by
  obtain ⟨pad, off⟩ := l
  cases pad with
  | tile t => rfl
  | cluster k => rfl
  | gal g => rfl

theorem feValue_scalar {s : State} {l : PadLoc} {n : Nat} {q : BitVec 2} {p : W64} {signed : Bool} (hn : n ≠ 0) (m : Nat) :
    let x := little (s.pad l.pad).mem l.off n
    s.feValue (asked m (scalarRead l n q p signed) s) =
      ((if signed = true ∧ 2 ^ (8 * n - 1) ≤ x then BitVec.ofInt 64 ((x : Int) - 2 ^ (8 * n)) else BitVec.ofNat 64 x).setWidth 512, 0) := by
  dsimp only
  rw [← readLE_eq_little, ← loadVal_eq hn (readLE_lt ..)]
  rfl

theorem qual_toNat_ne_zero {q : BitVec 2} : q.toNat ≠ 0 ↔ q ≠ 0 := by
  rw [Ne, Ne, BitVec.toNat_eq]
  rfl

/-- R98 to R102: a scalar load alone, in each of its forms, issues its read where its class has room. -/
theorem loadsScalar {s : State} {i : Instr} {gp : BitVec 4} {rd : BitVec 6} {sz q : BitVec 2} {signed : Bool} {p : W64}
    (hexec : exec i s = finishHold s (holdLoad gp s) (loadA gp rd sz q signed p s))
    (hbuf : s.cx.buf = {}) (hld : s.cx.ld < 4095) (hcur : s.cur < 512) (hguard : s.cx.guard gp = true) :
    LoadsScalar s i rd sz q p signed := by
  unfold LoadsScalar
  intro n l hloc hal hbad x e after behind granted
  have hn : n ≠ 0 := by positivity
  have hhold : holdLoad gp s = none := by simp [holdLoad, hld]
  let w := scalarRead l n q p signed
  have hissue : exec i s = .next (commit (issueLoad (.a rd.toNat) (BitVec.allOnes 512) 0 q.toNat w s)) := by
    rw [hexec, hhold, loadA_ok hcur hguard hloc hal, finishHold_ok]
  have hwaits : s.readWaits s.cur s.cx s.cx.seq (asked q.toNat w s) = true ↔ behind ∨ q ≠ 0 ∧ ¬ granted := by
    rw [readWaits_asked, qual_toNat_ne_zero]
    simp [w, scalarRead, behind, granted]
  have hreads : ¬ behind → (q ≠ 0 → granted) → exec i s = .next ((readPads q.toNat w s).setCx (after e)) := by
    intro hfree hgo
    have hnow : s.readWaits s.cur s.cx s.cx.seq (asked q.toNat w s) = false := by
      rw [← Bool.not_eq_true, hwaits]
      exact fun h => h.elim hfree fun h => h.2 (hgo h.1)
    have hclean : s.cellsBad w.cells = false := by simp [State.cellsBad, w, scalarRead, hitsBad_of_clean hbad]
    rw [hissue, issueLoad_reads hnow hclean, commit_countLoad hbuf, feValue_scalar hn, openRead_scalar]
    rfl
  refine ⟨fun ⟨hfree, hq⟩ => ?_, fun ⟨hfree, hq, hgo⟩ => ⟨(readPads q.toNat w s).pad l.pad, ?_, ?_, fun g => ?_⟩,
    fun h => ⟨asked q.toNat w s, ?_, rfl, ?_, rfl, rfl, rfl⟩⟩
  · subst hq
    rw [hreads hfree fun h => (h rfl).elim, show (0 : BitVec 2).toNat = 0 from rfl, readPads_plain rfl]
  · rw [hreads hfree fun _ => hgo, readPads_single (x := ⟨l.pad, l.off, n, 0⟩) rfl (qual_toNat_ne_zero.mpr hq)]
    simp
  · exact (readPads_sameWords ..).words l.pad
  · rw [readPads_has]
    simp [w, scalarRead, bne]
  · rw [hissue, issueLoad_waits (hwaits.mpr h), commit_countLoad hbuf, openRead_scalar]
    rfl
  · rw [Bool.eq_iff_iff]
    simpa [asked] using qual_toNat_ne_zero

/-- Settles O2: each form is the read of one cell, performed at its issue or left pending. -/
theorem scalarLoadResults : Obligations.ScalarLoadResults := by
  intro s f x hbuf hld hcur p px
  refine ⟨fun hguard => ⟨?_, ?_⟩, fun hguard => ⟨?_, ?_⟩⟩
  · exact loadsScalar (gp := f.gp) rfl hbuf hld hcur hguard
  · exact loadsScalar (gp := f.gp) rfl hbuf hld hcur hguard
  · exact loadsScalar (gp := x.gp) rfl hbuf hld hcur hguard
  · exact loadsScalar (gp := x.gp) rfl hbuf hld hcur hguard

/-! ### Stores at the end of an issue -/

theorem presentOffs_some (off : Nat) (l : List Byte) : presentOffs off (l.map some) = span off l.length := by
  induction l generalizing off with
  | nil => rfl
  | cons b t ih => simp [presentOffs, ih, span, List.range_succ_eq_map, Function.comp_def, Nat.add_assoc, Nat.add_comm 1]

theorem length_natToBytes (v n : Nat) : (natToBytes v n).length = n := by simp [natToBytes_eq_map]

/-- Adding numbers to a set keeps what it had. -/
theorem has_foldl_add (f : Nat → Nat) (offs : List Nat) (d : NatSet) (g : Nat) :
    (offs.foldl (fun d o => d.add (f o)) d).has g = (d.has g || decide (∃ o ∈ offs, g = f o)) := by
  induction offs generalizing d with
  | nil => simp
  | cons o t ih =>
    rw [List.foldl_cons, ih, has_add, Bool.eq_iff_iff]
    simp
    tauto

theorem exists_mem_span {a n : Nat} {P : Nat → Prop} : (∃ o ∈ span a n, P o) ↔ ∃ k < n, P (a + k) := by
  simp [span]

/-- The store of one element: the low bytes of `v` at the cell x. -/
def cellStore (v : Nat) (full : Bool) (addr : W64) (slot : Nat) (x : Cell) : StoreOp :=
  { pad := x.pad, off := x.off, bytes := (natToBytes v x.n).map some, setFull := full, addr := addr, slot := slot }

/-- A scratchpad after the store of one element, granted to tile t where it is an `.EF` one (R20, R267, R268). -/
def storedPad (t : Nat) (o : StoreOp) (p : Pad) : Pad :=
  if o.setFull then ((p.write o.off o.bytes).1.setFull (presentOffs o.off o.bytes)).grant (padBank o.pad o.off) t
  else (p.write o.off o.bytes).1

theorem applyStores_cons {s : State} {o : StoreOp} (h : (s.pad o.pad).bad = []) (rest : List StoreOp) :
    applyStores s (o :: rest) = applyStores (s.setPad o.pad (storedPad (tileOf s.cur) o (s.pad o.pad))) rest := by
  simp [applyStores, Pad.write, h, storedPad]

theorem storedPad_bad {p : Pad} (hclean : p.bad = []) (t : Nat) (o : StoreOp) : (storedPad t o p).bad = [] := by
  cases hfull : o.setFull with
  | true => simp [storedPad, hfull, Pad.write, Pad.setFull, Pad.grant, hclean]
  | false => simp [storedPad, hfull, Pad.write, hclean]

/-- Some stores meet no uncorrectable word (R397). -/
def StoresClean (s : State) (l : List StoreOp) : Prop := ∀ o ∈ l, (s.pad o.pad).bad = []

theorem StoresClean.rest {s : State} {o : StoreOp} {l : List StoreOp} (h : StoresClean s (o :: l)) :
    StoresClean (s.setPad o.pad (storedPad (tileOf s.cur) o (s.pad o.pad))) l := by
  intro x hx
  rw [pad_setPad]
  split
  · exact storedPad_bad (h o (.head _)) ..
  · exact h x (.tail _ hx)

theorem applyStores_padsOnly {s : State} {l : List StoreOp} (h : StoresClean s l) : PadsOnly s (applyStores s l) := by
  induction l generalizing s with
  | nil => exact .refl s
  | cons o l ih =>
    rw [applyStores_cons (h o (.head _))]
    exact (PadsOnly.setPad ..).trans (ih h.rest)

theorem applyStores_setCx {s : State} {l : List StoreOp} (h : StoresClean s l) (c : Ctx) :
    applyStores (s.setCx c) l = (applyStores s l).setCx c := by
  induction l generalizing s with
  | nil => rfl
  | cons o l ih =>
    have hfirst : ((s.setCx c).pad o.pad).bad = [] := h o (.head _)
    rw [applyStores_cons (h o (.head _)), applyStores_cons hfirst, ← ih h.rest, setPad_setCx]
    rfl

section
variable {p : Pad} (t v : Nat) (full : Bool) (addr : W64) (slot : Nat) (x : Cell)

/-- The bytes of the element stand at its cell, and every other byte is as it was. -/
theorem storedPad_read (hclean : p.bad = []) (a : Nat) : (storedPad t (cellStore v full addr slot x) p).mem.read a =
    if x.off ≤ a ∧ a < x.off + x.n then BitVec.ofNat 8 (v / 2 ^ (8 * (a - x.off))) else p.mem.read a := by
  have hmem : (storedPad t (cellStore v full addr slot x) p).mem = p.mem.writeMasked x.off ((natToBytes v x.n).map some) := by
    cases full with
    | true => simp [storedPad, cellStore, Pad.write, Pad.setFull, Pad.grant, hclean]
    | false => simp [storedPad, cellStore, Pad.write, hclean]
  rw [hmem, read_writeMasked, List.length_map, length_natToBytes]
  split
  · next h =>
    have hlt : a - x.off < x.n := by omega
    simp [natToBytes_eq_map, hlt]
  · rfl

/-- An `.EF` store fills the granules of its bytes; no other store changes one (R267). -/
theorem storedPad_full (g : Nat) : (storedPad t (cellStore v full addr slot x) p).full.has g =
    (p.full.has g || (full && decide (∃ k < x.n, g = (x.off + k) / 16))) := by
  cases full with
  | true =>
    have hfull : (storedPad t (cellStore v true addr slot x) p).full =
        (span x.off x.n).foldl (fun f o => f.add (o / 16)) p.full := by
      simp [storedPad, cellStore, Pad.write, Pad.setFull, Pad.grant, presentOffs_some, length_natToBytes]
    rw [hfull, has_foldl_add]
    simp only [exists_mem_span, Bool.true_and]
  | false => simp [storedPad, cellStore, Pad.write]

/-- A store clears the zero-summary bits of the blocks it touches (R268). -/
theorem storedPad_dirty (b : Nat) : (storedPad t (cellStore v full addr slot x) p).dirty.has b =
    (p.dirty.has b || decide (∃ k < x.n, b = (x.off + k) / 1024)) := by
  have hdirty : (storedPad t (cellStore v full addr slot x) p).dirty =
      (span x.off x.n).foldl (fun d o => d.add (o / 1024)) p.dirty := by
    cases full with
    | true => simp [storedPad, cellStore, Pad.write, Pad.setFull, Pad.grant, presentOffs_some, length_natToBytes]
    | false => simp [storedPad, cellStore, Pad.write, presentOffs_some, length_natToBytes]
  rw [hdirty, has_foldl_add]
  simp only [exists_mem_span]

end

/-- An issue that left stores alone ends with them performed or waiting, and its context goes on. -/
theorem commit_of_stores {s : State} {l : List StoreOp} (h : s.cx.buf = { stores := l }) :
    commit s = (commitStores s).modCx fun c => { c with buf := {}, iss := c.iss + 1 } := by
  simp [commit, h, Ctx.setLoops, applyFinal]

/-- Stores of an issue behind which no load waits are performed as it ends (R20). -/
theorem commitStores_performed {s : State} {o : StoreOp} {l : List StoreOp} (h : s.cx.buf = { stores := o :: l })
    (hstq : s.cx.stq = []) (hload : s.cx.loadUpTo s.cx.iss = false) : commitStores s = applyStores s (o :: l) := by
  simp [commitStores, h, hstq, hload]

/-- Waiting stores stay while a load before the first of them waits (R20). -/
theorem performStores_kept {s : State} {o : StoreOp} {l : List StoreOp} (hstq : s.cx.stq = o :: l)
    (hload : s.cx.loadUpTo o.iss = true) : performStores s = s.setCx s.cx := by
  have hwaits : s.storeWaits o l = true := by simp [State.storeWaits, hload]
  have hkept : performQueue none (o :: l) s = s.setCx { s.cx with stq := o :: l } := if_pos (by simp [hwaits])
  rw [performStores, if_neg (by simp [hstq]), hstq, hkept, ← hstq]

/-- Stores of an issue behind a load that waits are kept, unperformed (R20, R293). -/
theorem commitStores_kept {s : State} {o : StoreOp} {l : List StoreOp} (h : s.cx.buf = { stores := o :: l })
    (hstq : s.cx.stq = []) (hload : s.cx.loadUpTo s.cx.iss = true) :
    commitStores s = s.setCx { s.cx with stq := (o :: l).map fun o => { o with iss := s.cx.iss } } := by
  have hqueue : commitStores s =
      performStores (s.setCx { s.cx with stq := s.cx.stq ++ s.cx.buf.stores.map fun o => { o with iss := s.cx.iss } }) := by
    rw [commitStores, if_neg (by simp [h]), if_neg (by simp [hload])]
    rfl
  rw [hqueue, hstq, List.nil_append, h, List.map_cons, performStores_kept (by rw [cx_setCx]) (by rw [cx_setCx]; exact hload),
    cx_setCx, setCx_setCx]

/-- A context whose issue has left some stores. -/
def withStores (c : Ctx) (l : List StoreOp) : Ctx := { c with buf := { stores := l } }

/-- An issue that left stores, performed as it ends. -/
theorem commit_withStores_performed {s : State} {c : Ctx} {o : StoreOp} {l : List StoreOp} (hbuf : c.buf = {}) (hstq : c.stq = [])
    (hload : c.loadUpTo c.iss = false) (hclean : StoresClean s (o :: l)) :
    commit (s.setCx (withStores c (o :: l))) = (applyStores s (o :: l)).setCx (issued c) := by
  rw [commit_of_stores (by rw [cx_setCx]; rfl), commitStores_performed (by rw [cx_setCx]; rfl) (by rw [cx_setCx]; exact hstq)
    (by rw [cx_setCx]; exact hload), applyStores_setCx hclean, modCx_eq, setCx_setCx, cx_setCx]
  simp [withStores, issued, hbuf]

/-- An issue that left stores, kept behind a load that waits. -/
theorem commit_withStores_kept {s : State} {c : Ctx} {o : StoreOp} {l : List StoreOp} (hbuf : c.buf = {}) (hstq : c.stq = [])
    (hload : c.loadUpTo c.iss = true) :
    commit (s.setCx (withStores c (o :: l))) =
      s.setCx (issued { c with stq := (o :: l).map fun o => { o with iss := c.iss } }) := by
  rw [commit_of_stores (by rw [cx_setCx]; rfl), commitStores_kept (by rw [cx_setCx]; rfl) (by rw [cx_setCx]; exact hstq)
    (by rw [cx_setCx]; exact hload), modCx_eq, setCx_setCx, setCx_setCx, cx_setCx, cx_setCx]
  simp [withStores, issued, hbuf]

/-! ### The hold of an `.EF` store (R101, R143, R267) -/

/-- The tick from which an `.EF` store of a slot holds its bundle. -/
def efSince (s : State) (slot : Nat) (p : W64) : Nat := match s.cx.fehOf slot p with | some h => h.at_ | none => s.tick

/-- Whether a granule that an `.EF` store fills is full, or its turn at the banks has not come. -/
def EfBlocked (s : State) (slot : Nat) (p : W64) (cs : List Cell) : Prop :=
  (∃ x ∈ cs, ∃ k < x.n, (s.pad x.pad).isFull (x.off + k) = true) ∨
    s.beaten { tile := s.cur / 2, at_ := efSince s slot p, ctx := s.cur, seq := 0, take := true, fill := true, cells := cs } = true

theorem fehOf_some {c : Ctx} {slot : Nat} {p : W64} {h : FeHold} (hof : c.fehOf slot p = some h) : h.slot = slot ∧ h.addr = p := by
  have := List.find?_some hof
  simpa using this

/-- What an `.EF` store that holds its bundle leaves: its hold, begun before or now. -/
theorem holdFe_eq (s : State) (slot : Nat) (p : W64) (cs : List Cell) : ∃ h : FeHold,
    s.holdFe slot p cs = s.setCx { s.cx with feh := h :: s.cx.feh.filter (fun o => o.slot != slot) } ∧
    h.slot = slot ∧ h.addr = p ∧ h.cells = cs ∧ h.at_ = efSince s slot p ∧ h.hit = true := by
  cases hof : s.cx.fehOf slot p with
  | none => exact ⟨_, rfl, by simp [hof], by simp [hof], rfl, by simp [hof, efSince], rfl⟩
  | some h =>
    obtain ⟨hslot, haddr⟩ := fehOf_some hof
    exact ⟨_, rfl, by simp [hof, hslot], by simp [hof, haddr], rfl, by simp [hof, efSince], rfl⟩

theorem holdEf_eq_some {s : State} {slot : Nat} {p : W64} {cs : List Cell}
    (h : s.cx.feBefore s.cx.iss = true ∨ EfBlocked s slot p cs) : holdEf slot p cs s = some (s.holdFe slot p cs) := by
  have hsome : s.cellsSomeFull cs = true ↔ ∃ x ∈ cs, ∃ k < x.n, (s.pad x.pad).isFull (x.off + k) = true := by
    simp [State.cellsSomeFull, span]
  unfold EfBlocked at h
  rw [← hsome] at h
  refine if_pos ?_
  rcases h with h | h | h
  · simp [h]
  · simp [h]
  · simp only [Bool.or_eq_true]
    exact .inr h

theorem holdEf_eq_none {s : State} {slot : Nat} {p : W64} {cs : List Cell} (hstq : s.cx.stq = [])
    (hload : s.cx.feBefore s.cx.iss = false) (h : ¬ EfBlocked s slot p cs) : holdEf slot p cs s = none := by
  have hsome : s.cellsSomeFull cs = true ↔ ∃ x ∈ cs, ∃ k < x.n, (s.pad x.pad).isFull (x.off + k) = true := by
    simp [State.cellsSomeFull, span]
  unfold EfBlocked at h
  rw [← hsome, not_or, Bool.not_eq_true, Bool.not_eq_true] at h
  refine if_neg ?_
  obtain ⟨hempty, hturn⟩ := h
  have hstore : s.cx.storeBefore s.cx.iss = false := by simp [Ctx.storeBefore, hstq]
  simp only [hload, hstore, hempty, Bool.or_false, Bool.false_or]
  exact Bool.eq_false_iff.mp hturn

/-- A full/empty load of an earlier issue that waits is a load that a store waits for. -/
theorem feBefore_of_loadUpTo {c : Ctx} {iss : Nat} (h : c.loadUpTo iss = false) : c.feBefore iss = false := by
  rw [Ctx.feBefore, List.any_eq_false]
  rw [Ctx.loadUpTo, List.any_eq_false] at h
  intro e he
  have := h e he
  cases hfe : e.fe with
  | none => simp
  | some w =>
    simp only [hfe, Bool.and_eq_true, decide_eq_true_eq, not_and] at this ⊢
    intro harr _ hlt
    exact this harr (by omega)

/-! ### Scalar stores -/

/-- A context with one more store in its store class. -/
def countStore (c : Ctx) : Ctx := { c with st := c.st + 1 }

/-- A scalar store whose checks pass leaves its bytes in the issue's buffer (R98, R100). -/
theorem storeA_ok {s : State} {gp : BitVec 4} {rd : BitVec 6} {sz q : BitVec 2} {p : W64} {l : PadLoc}
    (hbuf : s.cx.buf = {}) (hcur : s.cur < 512) (hguard : s.cx.guard gp = true) (hloc : s.localLoc p (2 ^ sz.toNat) = .ok l)
    (hal : p.toNat % 2 ^ sz.toNat = 0) :
    storeA gp rd sz q p s = .ok (s.setCx (withStores (countStore s.cx)
      [cellStore (s.cx.ra rd).toNat (q == 1) p 0 ⟨l.pad, l.off, 2 ^ sz.toNat, 0⟩])) := by
  have hcheck : s.checkScalar p (szBytes sz) 0 = .ok l := checkScalar_ok hloc hal
  simp only [storeA, galQ_of_tile hcur, hguard, hcheck, modCx_eq, hbuf]
  rfl

theorem holdStore_ef {s : State} {gp : BitVec 4} {sz : BitVec 2} {p : W64} {l : PadLoc}
    (hst : s.cx.st < 4095) (hguard : s.cx.guard gp = true) (hloc : s.localLoc p (2 ^ sz.toNat) = .ok l)
    (hal : p.toNat % 2 ^ sz.toNat = 0) : holdStore gp sz 1 p s = holdEf 0 p [⟨l.pad, l.off, 2 ^ sz.toNat, 0⟩] s := by
  have hcheck : s.checkScalar p (szBytes sz) 0 = .ok l := checkScalar_ok hloc hal
  simp only [holdStore, hguard, hcheck, Bool.not_true, if_neg (Nat.not_le.mpr hst)]
  rfl

theorem holdStore_plain {s : State} {gp : BitVec 4} {sz q : BitVec 2} {p : W64} (hst : s.cx.st < 4095) (hq : q ≠ 1) :
    holdStore gp sz q p s = none := by
  simp only [holdStore, if_neg (Nat.not_le.mpr hst), if_neg hq, ite_self]

/-- R98 to R102: a scalar store alone, in each of its forms, leaves its bytes at the end of its issue. -/
theorem storesScalar {s : State} {i : Instr} {gp : BitVec 4} {rd : BitVec 6} {sz q : BitVec 2} {p : W64}
    (hexec : exec i s = finishHold s (holdStore gp sz q p s) (storeA gp rd sz q p s))
    (hbuf : s.cx.buf = {}) (hst : s.cx.st < 4095) (hcur : s.cur < 512) (hguard : s.cx.guard gp = true) :
    StoresScalar s i rd sz q p := by
  unfold StoresScalar
  intro n l hloc hal hbad hstq since blocked
  let x : Cell := ⟨l.pad, l.off, n, 0⟩
  let v := (s.cx.ra rd).toNat
  have hop := storeA_ok (rd := rd) (q := q) hbuf hcur hguard hloc hal
  have hone : (∃ y ∈ [x], ∃ k < y.n, (s.pad y.pad).isFull (y.off + k) = true) ↔ ∃ k < n, (s.pad l.pad).isFull (l.off + k) = true := by
    simp [x]
  have hblocked : EfBlocked s 0 p [x] ↔ blocked := or_congr hone Iff.rfl
  have hrun : holdStore gp sz q p s = none → exec i s = .next (commit (s.setCx (withStores (countStore s.cx) [cellStore v (q == 1) p 0 x]))) := by
    intro hhold
    rw [hexec, hhold, hop, finishHold_ok]
  refine ⟨fun hload hgo => ?_, fun ⟨hload, hq⟩ => ?_, fun hq hwait => ?_⟩
  · have hhold : holdStore gp sz q p s = none := by
      by_cases hq : q = 1
      · subst hq
        rw [holdStore_ef hst hguard hloc hal]
        exact holdEf_eq_none hstq (feBefore_of_loadUpTo hload) (hblocked.not.mpr (hgo rfl))
      · exact holdStore_plain hst hq
    have hclean : StoresClean s [cellStore v (q == 1) p 0 x] := by
      intro o ho
      rw [List.mem_singleton.mp ho]
      exact hbad
    refine ⟨storedPad (tileOf s.cur) (cellStore v (q == 1) p 0 x) (s.pad l.pad), ?_, storedPad_read _ _ _ _ _ _ hbad,
      storedPad_full _ _ _ _ _ _, storedPad_dirty _ _ _ _ _ _, storedPad_bad hbad ..⟩
    rw [hrun hhold, commit_withStores_performed (c := countStore s.cx) hbuf hstq hload hclean, applyStores_cons hbad]
    rfl
  · refine ⟨{ cellStore v (q == 1) p 0 x with iss := s.cx.iss }, ?_, rfl, rfl, rfl, beq_eq_false_iff_ne.mpr hq, ?_⟩
    · rw [hrun (holdStore_plain hst hq), commit_withStores_kept (c := countStore s.cx) hbuf hstq hload]
      rfl
    · simp [cellStore, natToBytes_eq_map, x, v]
  · subst hq
    obtain ⟨h, hholds, hprops⟩ := holdFe_eq s 0 p [x]
    refine ⟨h, ?_, hprops⟩
    rw [hexec, holdStore_ef hst hguard hloc hal, holdEf_eq_some (hwait.imp_right hblocked.mpr), finishHold_hold, hholds]

/-- Settles O3: each form is the store of one cell, performed as its issue ends, kept, or held. -/
theorem scalarStoreResults : Obligations.ScalarStoreResults := by
  intro s f x hbuf hst hcur p px
  refine ⟨fun hguard => ?_, fun hguard => ?_⟩
  · exact storesScalar (gp := f.gp) rfl hbuf hst hcur hguard
  · exact storesScalar (gp := x.gp) rfl hbuf hst hcur hguard

end Sys2Proof.Laws

/-! ## Vector scratchpad accesses (R127, R140 to R144) -/

namespace Sys2Proof.Laws

open Sys2Proof.Machine

/-! ### Lanes -/

theorem mem_lanes {c : Ctx} {vm : BitVec 4} {n k : Nat} : k ∈ c.lanes vm n ↔ k < n ∧ (c.rvm vm.toNat).getLsbD k = true := by
  simp [Ctx.lanes, Ctx.on]

theorem lanes_nodup (c : Ctx) (vm : BitVec 4) (n : Nat) : (c.lanes vm n).Nodup := List.nodup_range.filter _

theorem lanes_eq_nil {c : Ctx} {vm : BitVec 4} {n : Nat} (h : ∀ k < n, (c.rvm vm.toNat).getLsbD k = false) : c.lanes vm n = [] := by
  rw [List.eq_nil_iff_forall_not_mem]
  intro k hk
  obtain ⟨hlt, hon⟩ := mem_lanes.mp hk
  simp [h k hlt] at hon

theorem lanes_ne_nil {c : Ctx} {vm : BitVec 4} {n : Nat} (h : ∃ k < n, (c.rvm vm.toNat).getLsbD k = true) : c.lanes vm n ≠ [] := by
  obtain ⟨k, hlt, hon⟩ := h
  exact List.ne_nil_of_mem (mem_lanes.mpr ⟨hlt, hon⟩)

/-- Whole lanes fill a register (R127). -/
theorem tyWidth_mul_div (t : Nat) (h : 0 < tyWidth t) : tyWidth t * (512 / tyWidth t) = 512 := by
  unfold tyWidth at h ⊢
  split at h <;> simp_all

theorem shiftedOnes_testBit (w i b : Nat) (hw : 0 < w) : ((2 ^ w - 1) <<< (w * i)).testBit b = decide (b / w = i) := by
  rw [Nat.testBit_shiftLeft, Nat.testBit_two_pow_sub_one, Bool.eq_iff_iff]
  simp only [ge_iff_le, Bool.and_eq_true, decide_eq_true_eq, Nat.div_eq_iff hw]
  rw [Nat.mul_comm]
  omega

/-- The mask of some lanes has their bits. -/
theorem laneMask_testBit {w : Nat} (hw : 0 < w) (l : List Nat) (b : Nat) : (laneMask w l).testBit b = decide (b / w ∈ l) := by
  induction l with
  | nil => simp [laneMask]
  | cons i t ih =>
    rw [laneMask, Nat.testBit_or, ih, shiftedOnes_testBit w i b hw, Bool.eq_iff_iff]
    simp [or_comm]

/-- The bits that a vector load writes are those of its active lanes (R127). -/
theorem loadMask_getLsbD {c : Ctx} {vm : BitVec 4} {t b : Nat} (hw : 0 < tyWidth t) (hb : b < 512) :
    (BitVec.ofNat 512 (laneMask (tyWidth t) (c.lanes vm (512 / tyWidth t)))).getLsbD b = (c.rvm vm.toNat).getLsbD (b / tyWidth t) := by
  have hlane : b / tyWidth t < 512 / tyWidth t := by
    rw [Nat.div_lt_iff_lt_mul hw, Nat.mul_comm, tyWidth_mul_div t hw]
    exact hb
  rw [BitVec.getLsbD_ofNat, laneMask_testBit hw, Bool.eq_iff_iff]
  simp [hb, mem_lanes, hlane]

theorem laneOf_testBit (x : W512) (w k j : Nat) : (laneOf x w k).testBit j = (decide (j < w) && x.getLsbD (w * k + j)) := by
  rw [laneOf, Nat.testBit_mod_two_pow, Nat.testBit_div_two_pow, BitVec.testBit_toNat, Nat.add_comm]

/-- Every bit of some lane codes stands in its own lane. -/
theorem packLanes_testBit {w : Nat} (l : List (Nat × Coded)) (i j : Nat) (hj : j < w) :
    (packLanes w l).1.testBit (w * i + j) = decide (∃ e ∈ l, e.1 = i ∧ e.2.1.testBit j = true) := by
  have hw : 0 < w := by omega
  induction l with
  | nil => simp [packLanes]
  | cons e t ih =>
    obtain ⟨k, c⟩ := e
    have hhere : ((c.1 % 2 ^ w) <<< (w * k)).testBit (w * i + j) = (decide (k = i) && c.1.testBit j) := by
      rw [Nat.testBit_shiftLeft, Nat.testBit_mod_two_pow]
      obtain hlt | heq | hgt := Nat.lt_trichotomy k i
      · have hstep : w * (k + 1) ≤ w * i := Nat.mul_le_mul_left w hlt
        rw [Nat.mul_succ] at hstep
        have hout : ¬ w * i + j - w * k < w := by omega
        simp [hout, hlt.ne]
      · subst heq
        simp [hj]
      · have hstep : w * (i + 1) ≤ w * k := Nat.mul_le_mul_left w hgt
        rw [Nat.mul_succ] at hstep
        have hout : ¬ w * k ≤ w * i + j := by omega
        simp [hout, hgt.ne']
    rw [packLanes, Nat.testBit_or, ih, hhere, Bool.eq_iff_iff]
    simp [or_comm]

/-- Lane codes put together give each lane its own code. -/
theorem laneOf_packLanes {w i : Nat} {c : Coded} {l : List (Nat × Coded)} (hfit : w * (i + 1) ≤ 512) (hnd : (l.map (·.1)).Nodup)
    (hmem : (i, c) ∈ l) : laneOf (BitVec.ofNat 512 (packLanes w l).1) w i = c.1 % 2 ^ w := by
  refine Nat.eq_of_testBit_eq fun j => ?_
  rw [laneOf_testBit, Nat.testBit_mod_two_pow]
  by_cases hj : j < w
  · have hin : w * i + j < 512 := by rw [Nat.mul_succ] at hfit; omega
    have hown : (∃ e ∈ l, e.1 = i ∧ e.2.1.testBit j = true) ↔ c.1.testBit j = true := by
      constructor
      · rintro ⟨e, he, rfl, hbit⟩
        rwa [List.inj_on_of_nodup_map hnd he hmem rfl] at hbit
      · exact fun hbit => ⟨_, hmem, rfl, hbit⟩
    rw [BitVec.getLsbD_ofNat, packLanes_testBit l i j hj, Bool.eq_iff_iff]
    simp [hj, hin, hown]
  · simp [hj]

/-! ### The cells of an access -/

theorem vlAddr_eq (f : VL) (c : Ctx) : vlAddr f c = vectorBase f c := by
  have hbase : (c.rv f.va.toNat).extractLsb' 0 64 = BitVec.ofNat 64 (c.rv f.va.toNat).toNat := by
    apply BitVec.eq_of_toNat_eq
    simp [BitVec.extractLsb'_toNat]
  rw [vlAddr, hbase]
  rfl

theorem checkElems_lanes {s : State} {k : VKind} {fmt wm : Nat} {la : Bool} {l : List (Nat × W64)} {cs : List Cell}
    (h : s.checkElems k fmt wm la l = .ok cs) : cs.map (·.lane) = l.map (·.1) := by
  induction l generalizing cs with
  | nil =>
    cases h
    rfl
  | cons e t ih =>
    obtain ⟨i, q⟩ := e
    rw [State.checkElems] at h
    split at h
    · cases h
    · split at h
      · cases h
      · split at h
        · cases h
        · split at h
          · cases h
          · next hrest =>
            cases h
            rw [List.map_cons, List.map_cons, ih hrest]

/-- The lanes that an access of a kind has cells for: one lane of a single access, and every active lane of the others. -/
def cellLanes (k : VKind) (l : List Nat) : List Nat := if k = .single then l.take 1 else l

theorem vlElems_lanes (k : VKind) (f : VL) (c : Ctx) (p : W64) (wm : Nat) :
    (vlElems k f c p wm).map (·.1) = cellLanes k (c.lanes f.vm (512 / tyWidth f.ty.toNat)) := by
  cases k with
  | contig => simp [vlElems, cellLanes, Function.comp_def]
  | indexed => simp [vlElems, cellLanes, Function.comp_def]
  | single =>
    simp only [vlElems, cellLanes, if_pos]
    cases c.lanes f.vm (512 / tyWidth f.ty.toNat) with
    | nil => rfl
    | cons i t => rfl

/-- The cells of an access are those of its lanes, in ascending order (R141, R142). -/
theorem vlCells_lanes {s : State} {k : VKind} {f : VL} {store : Bool} {p : W64} {cs : List Cell} {mf : Nat}
    (h : s.vlCells k f store p = .ok (cs, mf)) :
    cs.map (·.lane) = cellLanes k (s.cx.lanes f.vm (512 / tyWidth f.ty.toNat)) := by
  unfold State.vlCells at h
  dsimp only at h
  split at h
  · next hnone =>
    cases h
    rw [List.isEmpty_iff.mp hnone]
    simp [cellLanes]
  · split at h
    · cases h
    · next l _ =>
      generalize (if s.fmtAt l = 0xF ∨ f.ty.toNat = tyLA then f.ty.toNat else s.fmtAt l) = fmt at h
      split at h
      · cases h
      · split at h
        · cases h
        · split at h
          · cases h
          · next hcells =>
            cases h
            rw [checkElems_lanes hcells, vlElems_lanes]

theorem vlCells_none {s : State} {f : VL} (h : s.cx.lanes f.vm (512 / tyWidth f.ty.toNat) = []) (k : VKind) (store : Bool) (p : W64) :
    s.vlCells k f store p = .ok ([], f.ty.toNat) := by
  simp [State.vlCells, h]

/-- An access with an active lane has a cell. -/
theorem cells_ne_nil {s : State} {k : VKind} {f : VL} {store : Bool} {p : W64} {cs : List Cell} {mf : Nat}
    (h : s.vlCells k f store p = .ok (cs, mf)) (hon : s.cx.lanes f.vm (512 / tyWidth f.ty.toNat) ≠ []) : cs ≠ [] := by
  rintro rfl
  have hlanes := vlCells_lanes h
  cases hl : s.cx.lanes f.vm (512 / tyWidth f.ty.toNat) with
  | nil => exact hon hl
  | cons i t => simp [hl, cellLanes] at hlanes; split at hlanes <;> simp at hlanes

/-- The cells of an access that is not single are those of different lanes of the register. -/
theorem cells_lanes_nodup {s : State} {k : VKind} {f : VL} {store : Bool} {p : W64} {cs : List Cell} {mf : Nat}
    (h : s.vlCells k f store p = .ok (cs, mf)) (hk : k ≠ .single) :
    (cs.map (·.lane)).Nodup ∧ ∀ x ∈ cs, x.lane < 512 / tyWidth f.ty.toNat := by
  have hlanes := vlCells_lanes h
  rw [cellLanes, if_neg hk] at hlanes
  refine ⟨hlanes ▸ lanes_nodup .., fun x hx => ?_⟩
  exact (mem_lanes.mp (hlanes ▸ List.mem_map_of_mem hx)).1

/-! ### Vector loads -/

/-- The read of a vector load: a single access reads its element for lane 0 (R141). -/
def vectorRead (k : VKind) (f : VL) (p : W64) (cs : List Cell) (mf : Nat) (c : Ctx) : FeWait :=
  { cells := if k = .single then cs.map (fun x => { x with lane := 0 }) else cs, clear := f.q == 2, addr := p
    conv := some { mf := mf, ty := f.ty.toNat, rm := f.rm.toNat, sm := f.sm.toNat, key := c.cr 3
                   src := if c.inh then 1 else 0, n := c.now, bcst := k == .single } }

/-- The mask of the active lanes of a vector access. -/
def activeMask (f : VL) (c : Ctx) : W512 :=
  BitVec.ofNat 512 (laneMask (tyWidth f.ty.toNat) (c.lanes f.vm (512 / tyWidth f.ty.toNat)))

theorem loadV_off {s : State} {f : VL} (h : s.cx.lanes f.vm (512 / tyWidth f.ty.toNat) = []) (k : VKind) (p : W64) :
    loadV k f p s = .ok s := by
  simp only [loadV, vlCells_none h]

/-- A vector load whose checks pass issues its read. -/
theorem loadV_ok {s : State} {k : VKind} {f : VL} {p : W64} {cs : List Cell} {mf : Nat} (hcells : s.vlCells k f false p = .ok (cs, mf))
    (hne : cs ≠ []) :
    loadV k f p s = .ok (issueLoad (.v f.vd.toNat) (activeMask f s.cx) 1 f.q.toNat (vectorRead k f p cs mf s.cx) s) := by
  obtain ⟨x, rest, rfl⟩ := List.exists_cons_of_ne_nil hne
  simp only [loadV, hcells]
  rfl

/-- What holds of some bytes of the cells of an access holds of those its read names. -/
theorem forall_vectorRead_cells {k : VKind} {f : VL} {p : W64} {cs : List Cell} {mf : Nat} {c : Ctx} {P : PadId → Nat → Nat → Prop} :
    (∀ x ∈ (vectorRead k f p cs mf c).cells, P x.pad x.off x.n) ↔ ∀ x ∈ cs, P x.pad x.off x.n := by
  cases k with
  | single => simp [vectorRead]
  | contig => rfl
  | indexed => rfl

/-- The code that element x of a vector load delivers (R141); a single access converts its element once, as lane 0's. -/
def loadCode (s : State) (k : VKind) (f : VL) (mf : Nat) (x : Cell) : Nat :=
  let raw := little (s.pad x.pad).mem x.off x.n
  if mf = f.ty.toNat then raw
  else (convert (decodeVal mf raw) f.ty.toNat
    { rm := f.rm.toNat, sm := f.sm.toNat
      u := if f.rm = 4 then stochU (s.cx.cr 3) (if s.cx.inh then 1 else 0) s.cx.now (if k = .single then 0 else x.lane) else 0 }).1

/-- The conversion of a vector load (R141). -/
def loadConv (k : VKind) (f : VL) (mf : Nat) (c : Ctx) : VConv :=
  { mf := mf, ty := f.ty.toNat, rm := f.rm.toNat, sm := f.sm.toNat, key := c.cr 3, src := if c.inh then 1 else 0, n := c.now
    bcst := k == .single }

theorem loadConv_load (s : State) (k : VKind) (f : VL) (mf : Nat) (x : Cell) :
    ((loadConv k f mf s.cx).load (if k = .single then 0 else x.lane) ((s.pad x.pad).mem.readLE x.off x.n)).1 =
      loadCode s k f mf x := by
  have hrm : f.rm.toNat = 4 ↔ f.rm = 4 := by rw [BitVec.toNat_eq]; rfl
  simp only [VConv.load, loadConv, loadCode, readLE_eq_little, hrm]
  split
  · rfl
  · rfl

theorem fits_of_lane_lt {t i : Nat} (hw : 0 < tyWidth t) (hi : i < 512 / tyWidth t) : tyWidth t * (i + 1) ≤ 512 :=
  (Nat.mul_le_mul_left _ hi).trans (tyWidth_mul_div t hw).le

/-- The register value of a vector load has the code of each element in its lane (R141). -/
theorem feValue_lanes {s : State} {k : VKind} {f : VL} {p : W64} {cs : List Cell} {mf : Nat}
    (hcells : s.vlCells k f false p = .ok (cs, mf)) (hk : k ≠ .single) (hw : 0 < tyWidth f.ty.toNat) (m : Nat) {x : Cell} (hx : x ∈ cs) :
    laneOf (s.feValue (asked m (vectorRead k f p cs mf s.cx) s)).1 (tyWidth f.ty.toNat) x.lane =
      loadCode s k f mf x % 2 ^ tyWidth f.ty.toNat := by
  obtain ⟨hnd, hlt⟩ := cells_lanes_nodup hcells hk
  let codes := cs.map fun x => (x.lane, (loadConv k f mf s.cx).load x.lane ((s.pad x.pad).mem.readLE x.off x.n))
  have hvalue : (s.feValue (asked m (vectorRead k f p cs mf s.cx) s)).1 =
      BitVec.ofNat 512 (packLanes (tyWidth f.ty.toNat) codes).1 := by
    cases k with
    | single => exact absurd rfl hk
    | contig => rfl
    | indexed => rfl
  have hcodes : (codes.map (·.1)).Nodup := by simpa [codes, Function.comp_def] using hnd
  rw [hvalue, laneOf_packLanes (fits_of_lane_lt hw (hlt x hx)) hcodes (List.mem_map_of_mem hx), ← loadConv_load, if_neg hk]

/-- The register value of a single access has the code of its element in every lane (R140). -/
theorem feValue_single {s : State} {f : VL} {p : W64} {cs : List Cell} {mf : Nat}
    (hcells : s.vlCells .single f false p = .ok (cs, mf)) (hw : 0 < tyWidth f.ty.toNat) (m : Nat) {x : Cell} (hx : x ∈ cs) {i : Nat}
    (hi : i < 512 / tyWidth f.ty.toNat) :
    laneOf (s.feValue (asked m (vectorRead .single f p cs mf s.cx) s)).1 (tyWidth f.ty.toNat) i =
      loadCode s .single f mf x % 2 ^ tyWidth f.ty.toNat := by
  obtain rfl : cs = [x] := by
    have hlen : cs.length ≤ 1 := by
      have hlanes := congrArg List.length (vlCells_lanes hcells)
      rw [cellLanes, if_pos rfl, List.length_map, List.length_take] at hlanes
      omega
    match cs, hx, hlen with
    | [y], hx, _ => rw [List.mem_singleton.mp hx]
  let codes := (List.range (512 / tyWidth f.ty.toNat)).map fun i =>
    (i, (((loadConv .single f mf s.cx).load 0 ((s.pad x.pad).mem.readLE x.off x.n)).1, 0))
  have hvalue : (s.feValue (asked m (vectorRead .single f p [x] mf s.cx) s)).1 =
      BitVec.ofNat 512 (packLanes (tyWidth f.ty.toNat) codes).1 := rfl
  have hcodes : (codes.map (·.1)).Nodup := by simpa [codes, Function.comp_def] using List.nodup_range
  rw [hvalue, laneOf_packLanes (fits_of_lane_lt hw hi) hcodes (List.mem_map_of_mem (List.mem_range.mpr hi)), ← loadConv_load, if_pos rfl]

/-- What a vector load leaves pending, performed at its issue or not. -/
def vectorPend (k : VKind) (f : VL) (p : W64) (cs : List Cell) (mf : Nat) (s : State) : Pend :=
  let w := vectorRead k f p cs mf s.cx
  let e := openRead (.v f.vd.toNat) (activeMask f s.cx) 1 w s
  let a := asked f.q.toNat w s
  if s.readWaits s.cur s.cx s.cx.seq a then { e with fe := some a } else { e with val := (s.feValue a).1, flags := (s.feValue a).2 }

section
variable {s : State} {k : VKind} {f : VL} {p : W64} {cs : List Cell} {mf : Nat}

/-- Whether a vector load waits at its issue. -/
theorem vectorRead_waits : s.readWaits s.cur s.cx s.cx.seq (asked f.q.toNat (vectorRead k f p cs mf s.cx) s) = true ↔
    (s.cx.feBefore s.cx.iss = true ∨ s.cx.storeBefore s.cx.iss = true) ∨
    (f.q ≠ 0 ∧ ¬ ((∀ x ∈ cs, ∀ i < x.n, (s.pad x.pad).isFull (x.off + i) = true) ∧
      s.beaten { tile := s.cur / 2, at_ := s.tick, ctx := s.cur, seq := s.cx.seq, take := f.q == 2, fill := false
                 cells := if k = .single then cs.map (fun x => { x with lane := 0 }) else cs } = false)) := by
  rw [readWaits_asked, qual_toNat_ne_zero,
    forall_vectorRead_cells (P := fun j off n => ∀ i < n, (s.pad j).isFull (off + i) = true)]
  rfl

theorem vectorPend_of_waits
    (h : s.readWaits s.cur s.cx s.cx.seq (asked f.q.toNat (vectorRead k f p cs mf s.cx) s) = true) :
    issueLoad (.v f.vd.toNat) (activeMask f s.cx) 1 f.q.toNat (vectorRead k f p cs mf s.cx) s =
      s.setCx (countLoad s.cx (vectorPend k f p cs mf s)) ∧ (vectorPend k f p cs mf s).fe ≠ none := by
  have hpend : vectorPend k f p cs mf s = _ := if_pos h
  rw [issueLoad_waits h, hpend]
  exact ⟨rfl, Option.some_ne_none _⟩

theorem vectorPend_of_reads (hclean : ∀ j, (s.pad j).bad = [])
    (h : s.readWaits s.cur s.cx s.cx.seq (asked f.q.toNat (vectorRead k f p cs mf s.cx) s) = false) :
    issueLoad (.v f.vd.toNat) (activeMask f s.cx) 1 f.q.toNat (vectorRead k f p cs mf s.cx) s =
      (readPads f.q.toNat (vectorRead k f p cs mf s.cx) s).setCx (countLoad s.cx (vectorPend k f p cs mf s)) ∧
    (vectorPend k f p cs mf s).fe = none ∧
    (vectorPend k f p cs mf s).val = (s.feValue (asked f.q.toNat (vectorRead k f p cs mf s.cx) s)).1 := by
  have hpend : vectorPend k f p cs mf s = _ := if_neg (Bool.eq_false_iff.mp h)
  have hbad : s.cellsBad (vectorRead k f p cs mf s.cx).cells = false := by
    simp [State.cellsBad, hitsBad_of_clean (hclean _)]
  rw [issueLoad_reads h hbad, hpend]
  exact ⟨rfl, rfl, rfl⟩

/-- The result of a vector load: its register, its position, and the bits that its active lanes write (R16, R19, R127). -/
theorem vectorPend_frame : (vectorPend k f p cs mf s).dst = .v f.vd.toNat ∧
    (vectorPend k f p cs mf s).pos = s.cx.now + (if s.cx.cr 1 = 1 then 4 else 6) ∧ (vectorPend k f p cs mf s).load = true ∧
    (vectorPend k f p cs mf s).arrived = false ∧ (vectorPend k f p cs mf s).lost = none ∧
    (vectorPend k f p cs mf s).mask = activeMask f s.cx := by
  unfold vectorPend
  dsimp only
  split
  · exact ⟨rfl, rfl, rfl, rfl, rfl, rfl⟩
  · exact ⟨rfl, rfl, rfl, rfl, rfl, rfl⟩

end

theorem holdVload_room {s : State} {f : VL} (hld : s.cx.ld < 4095) : holdVload f s = none := by
  simp [holdVload, hld]

/-- Settles O14: a vector load is the read of its cells, performed at its issue or left pending. -/
theorem vectorLoadResults : Obligations.VectorLoadResults := by
  intro s f i k hform hbuf hld hclean c ty w on
  have hexec : exec i s = finishHold s none (loadV k f (vectorBase f c) s) := by
    rw [← vlAddr_eq, ← holdVload_room (f := f) hld]
    obtain ⟨rfl, rfl⟩ | ⟨rfl, rfl⟩ | ⟨rfl, rfl⟩ := hform
    · rfl
    · rfl
    · rfl
  constructor
  · intro hoff
    rw [hexec, loadV_off (lanes_eq_nil hoff), finishHold_ok, commit_idle hbuf]
    rfl
  · intro hon cs mf hcells behind granted raw code
    have hw : 0 < w := by
      obtain ⟨j, hj, -⟩ := hon
      exact Nat.pos_of_ne_zero fun h => by simp [h] at hj
    let R := vectorRead k f (vectorBase f c) cs mf c
    let e := vectorPend k f (vectorBase f c) cs mf s
    rw [loadV_ok hcells (cells_ne_nil hcells (lanes_ne_nil hon)), finishHold_ok] at hexec
    have hwaits : s.readWaits s.cur s.cx s.cx.seq (asked f.q.toNat R s) = true ↔ behind ∨ (f.q ≠ 0 ∧ ¬ granted) := vectorRead_waits
    have hreads : ¬ behind → (f.q = 0 ∨ granted) → s.readWaits s.cur s.cx s.cx.seq (asked f.q.toNat R s) = false := by
      intro hfree hgo
      rw [← Bool.not_eq_true, hwaits]
      exact fun h => h.elim hfree fun h => hgo.elim h.1 h.2
    have hperformed : ¬ behind → (f.q = 0 ∨ granted) → exec i s = .next ((readPads f.q.toNat R s).setCx (issued (countLoad c e))) := by
      intro hfree hgo
      rw [hexec, (vectorPend_of_reads hclean (hreads hfree hgo)).1, commit_countLoad hbuf]
    obtain ⟨hdst, hpos, hload, harr, hlost, hmask⟩ :=
      vectorPend_frame (s := s) (k := k) (f := f) (p := vectorBase f c) (cs := cs) (mf := mf)
    refine ⟨e, hdst, hpos, hload, harr, hlost, fun b hb => hmask ▸ loadMask_getLsbD hw hb, ⟨?_, ?_, ?_⟩, ?_⟩
    · rintro ⟨hfree, hq⟩
      rw [hperformed hfree (.inl hq), hq, show (0 : BitVec 2).toNat = 0 from rfl, readPads_plain (by simp [R, vectorRead, hq])]
      rfl
    · rintro ⟨hfree, -, hgo⟩
      have hpads := readPads_sameWords f.q.toNat R s
      refine ⟨_, hperformed hfree (.inr hgo), cx_setCx .., hpads.mem, fun j => ⟨hpads.words j, fun g => ?_⟩⟩
      rw [pad_setCx, readPads_has,
        decide_eq_decide.mpr (forall_vectorRead_cells (P := fun i off n => i = j → ∀ k < n, g ≠ (off + k) / 16))]
      rfl
    · intro h
      obtain ⟨hissue, hfe⟩ := vectorPend_of_waits (hwaits.mpr h)
      refine ⟨hfe, ?_⟩
      rw [hexec, hissue, commit_countLoad hbuf]
      rfl
    · rintro ⟨hfree, hgo⟩
      obtain ⟨-, hfe, hval⟩ := vectorPend_of_reads hclean (hreads hfree hgo)
      refine ⟨hfe, fun hk x hx => ?_, fun hk x hx j hj => ?_⟩
      · exact hval ▸ feValue_lanes hcells hk hw _ hx
      · subst hk
        exact hval ▸ feValue_single hcells hw _ hx hj

/-! ### Vector stores -/

theorem lane_eq_laneOf (w i : Nat) (x : W512) : lane w i x = laneOf x w i := by
  rw [lane, laneOf, BitVec.extractLsb'_toNat, Nat.shiftRight_eq_div_pow]

/-- The code that a vector store writes of element x (R141). -/
def storeCode (f : VL) (mf : Nat) (c : Ctx) (x : Cell) : Nat :=
  let v := laneOf (c.rv f.vd.toNat) (tyWidth f.ty.toNat) x.lane
  if mf = f.ty.toNat then v else (convert (decodeVal f.ty.toNat v) mf (c.rnd f.rm.toNat f.sm.toNat x.lane)).1

theorem storeElem_code (f : VL) (mf : Nat) (c : Ctx) (x : Cell) : (storeElem f mf c x.lane).1 = storeCode f mf c x := by
  simp only [storeElem, storeCode, lane_eq_laneOf]
  split
  · rfl
  · rfl

/-- The flags that the elements of a vector store raise; without a conversion there is none (R141). -/
def storeFlags (f : VL) (mf : Nat) (c : Ctx) (cs : List Cell) : Nat := cs.foldl (fun a x => a ||| (storeElem f mf c x.lane).2) 0

theorem storeFlags_eq_zero {f : VL} {mf : Nat} (h : mf = f.ty.toNat) (c : Ctx) (cs : List Cell) : storeFlags f mf c cs = 0 := by
  have hzero : ∀ x : Cell, (storeElem f mf c x.lane).2 = 0 := fun x => by simp [storeElem, h]
  simp [storeFlags, hzero]

/-- The stores of a vector store, an element each. -/
def cellStores (f : VL) (mf : Nat) (c : Ctx) (p : W64) (cs : List Cell) : List StoreOp :=
  cs.map fun x => cellStore (storeCode f mf c x) (f.q == 1) p 1 x

/-- The flags of a store, pending for the next position (R129). -/
def flagsPend (c : Ctx) (flags : Nat) : Pend := { dst := .none, val := 0, mask := 0, pos := c.now + 1, slot := 1, flags := flags }

/-- A context with one more store in its class, and the flags of the store pending where it raised some. -/
def flagStore (c : Ctx) (flags : Nat) : Ctx := if flags = 0 then countStore c else countStore (c.push (flagsPend c flags))

theorem flagStore_frame (c : Ctx) (flags : Nat) :
    (flagStore c flags).buf = c.buf ∧ (flagStore c flags).stq = c.stq ∧ (flagStore c flags).iss = c.iss ∧ (flagStore c flags).st = c.st + 1 := by
  unfold flagStore
  split
  · exact ⟨rfl, rfl, rfl, rfl⟩
  · exact ⟨rfl, rfl, rfl, rfl⟩

theorem any_insertPend (P : Pend → Bool) (e : Pend) (l : List Pend) : (insertPend e l).any P = (P e || l.any P) := by
  induction l with
  | nil => rfl
  | cons x t ih =>
    rw [insertPend]
    split
    · rw [List.any_cons, ih, List.any_cons, Bool.or_left_comm]
    · rfl

/-- Flags that are pending are no load that a store waits for. -/
theorem flagStore_loadUpTo (c : Ctx) (flags iss : Nat) : (flagStore c flags).loadUpTo iss = c.loadUpTo iss := by
  unfold flagStore
  split
  · rfl
  · simp [Ctx.loadUpTo, Ctx.results, countStore, Ctx.push, any_insertPend, flagsPend]

theorem storeV_off {s : State} {f : VL} (h : s.cx.lanes f.vm (512 / tyWidth f.ty.toNat) = []) (k : VKind) (p : W64) :
    storeV k f p s = .ok s := by
  simp only [storeV, vlCells_none h]

/-- A vector store whose checks pass leaves its elements in the issue's buffer, and its flags pending. -/
theorem storeV_ok {s : State} {k : VKind} {f : VL} {p : W64} {cs : List Cell} {mf : Nat} (hbuf : s.cx.buf = {})
    (hcells : s.vlCells k f true p = .ok (cs, mf)) (hne : cs ≠ []) :
    storeV k f p s = .ok (s.setCx (withStores (flagStore s.cx (storeFlags f mf s.cx cs)) (cellStores f mf s.cx p cs))) := by
  obtain ⟨x, rest, rfl⟩ := List.exists_cons_of_ne_nil hne
  have hops : ((x :: rest).map fun x => (x, storeElem f mf s.cx x.lane)).map (fun o =>
      ({ pad := o.1.pad, off := o.1.off, bytes := (natToBytes o.2.1 o.1.n).map some, setFull := f.q == 1, addr := p, slot := 1 } : StoreOp)) =
      cellStores f mf s.cx p (x :: rest) := by
    simp only [cellStores, List.map_map, Function.comp_def, storeElem_code]
    rfl
  have hflags : ((x :: rest).map fun x => (x, storeElem f mf s.cx x.lane)).foldl (fun a o => a ||| o.2.2) 0 =
      storeFlags f mf s.cx (x :: rest) := by
    rw [storeFlags, List.foldl_map]
  simp only [storeV, hcells, modCx_eq, hops, hflags, hbuf, List.nil_append, flagStore]
  split
  · rfl
  · rfl

theorem storesClean_of_clean {s : State} (h : ∀ j, (s.pad j).bad = []) (l : List StoreOp) : StoresClean s l := fun o _ => h o.pad

@[simp] theorem cellStore_pad (v : Nat) (full : Bool) (addr : W64) (slot : Nat) (x : Cell) :
    (cellStore v full addr slot x).pad = x.pad := rfl

section
variable {s : State} (hclean : ∀ j, (s.pad j).bad = []) (f : VL) (mf : Nat) (c : Ctx) (p : W64)
include hclean

/-- The stores of an access from its second element on meet no uncorrectable word either. -/
theorem clean_after (o : StoreOp) (j : PadId) : ((s.setPad o.pad (storedPad (tileOf s.cur) o (s.pad o.pad))).pad j).bad = [] := by
  rw [pad_setPad]
  split
  · exact storedPad_bad (hclean _) ..
  · exact hclean j

/-- Each element lies at its cell, the highest last, and no other byte changes (R141). -/
theorem cellStores_read (cs : List Cell) (j : PadId) (a : Nat) :
    ((applyStores s (cellStores f mf c p cs)).pad j).mem.read a = cs.foldl (fun b x =>
      if x.pad = j ∧ x.off ≤ a ∧ a < x.off + x.n then BitVec.ofNat 8 (storeCode f mf c x / 2 ^ (8 * (a - x.off))) else b)
      ((s.pad j).mem.read a) := by
  induction cs generalizing s with
  | nil => rfl
  | cons x t ih =>
    rw [cellStores, List.map_cons, applyStores_cons (hclean _), List.foldl_cons]
    refine (ih (clean_after hclean _)).trans (congrArg (fun b => t.foldl _ b) ?_)
    rw [pad_setPad, cellStore_pad]
    by_cases h : x.pad = j
    · subst h
      rw [if_pos rfl, storedPad_read _ _ _ _ _ _ (hclean _)]
      simp
    · rw [if_neg h, if_neg fun h' => h h'.1]

/-- An `.EF` store fills the granules of its elements, and no other store changes one (R268). -/
theorem cellStores_full (cs : List Cell) (j : PadId) (g : Nat) :
    ((applyStores s (cellStores f mf c p cs)).pad j).full.has g =
      ((s.pad j).full.has g || (f.q == 1 && decide (∃ x ∈ cs, x.pad = j ∧ ∃ k < x.n, g = (x.off + k) / 16))) := by
  induction cs generalizing s with
  | nil => simp [cellStores, applyStores]
  | cons x t ih =>
    rw [cellStores, List.map_cons, applyStores_cons (hclean _)]
    refine (ih (clean_after hclean _)).trans ?_
    rw [pad_setPad, cellStore_pad]
    by_cases h : x.pad = j
    · subst h
      rw [if_pos rfl, storedPad_full, Bool.eq_iff_iff]
      simp [or_assoc, and_or_left]
    · rw [if_neg h]
      simp [h]

end

theorem holdVstore_off {s : State} {f : VL} (h : s.cx.lanes f.vm (512 / tyWidth f.ty.toNat) = []) (k : VKind) (p : W64) :
    holdVstore k f p s = none := by
  simp [holdVstore, h]

theorem holdVstore_plain {s : State} {k : VKind} {f : VL} {p : W64} (hst : s.cx.st < 4095) (hq : f.q ≠ 1) :
    holdVstore k f p s = none := by
  simp only [holdVstore, if_neg (Nat.not_le.mpr hst), if_neg hq, ite_self]

theorem holdVstore_ef {s : State} {k : VKind} {f : VL} {p : W64} {cs : List Cell} {mf : Nat} (hst : s.cx.st < 4095) (hq : f.q = 1)
    (hon : s.cx.lanes f.vm (512 / tyWidth f.ty.toNat) ≠ []) (hcells : s.vlCells k f true p = .ok (cs, mf)) :
    holdVstore k f p s = holdEf 1 p cs s := by
  simp only [holdVstore, List.isEmpty_iff, if_neg hon, if_neg (Nat.not_le.mpr hst), if_pos hq, hcells]

/-- Settles O15: a vector store is the stores of its cells, performed as its issue ends, kept, or held. -/
theorem vectorStoreResults : Obligations.VectorStoreResults := by
  intro s f i k hform hbuf hst hclean hstq c ty w on
  have hexec : exec i s = finishHold s (holdVstore k f (vectorBase f c) s) (storeV k f (vectorBase f c) s) := by
    rw [← vlAddr_eq]
    obtain ⟨rfl, rfl⟩ | ⟨rfl, rfl⟩ := hform
    · rfl
    · rfl
  constructor
  · intro hoff
    have hnone := lanes_eq_nil hoff
    rw [hexec, holdVstore_off hnone, storeV_off hnone, finishHold_ok, commit_idle hbuf]
    rfl
  · intro hactive cs mf hcells code since blocked
    have hon := lanes_ne_nil hactive
    let c' := flagStore c (storeFlags f mf c cs)
    let ops := cellStores f mf c (vectorBase f c) cs
    obtain ⟨hbuf', hstq', hiss', hst'⟩ := flagStore_frame c (storeFlags f mf c cs)
    have hload' := flagStore_loadUpTo c (storeFlags f mf c cs) c.iss
    obtain ⟨o, rest, hops⟩ : ∃ o rest, ops = o :: rest :=
      List.exists_cons_of_ne_nil (by simpa [ops, cellStores] using cells_ne_nil hcells hon)
    have hrun : holdVstore k f (vectorBase f c) s = none → exec i s = .next (commit (s.setCx (withStores c' ops))) := by
      intro hhold
      rw [hexec, hhold, storeV_ok hbuf hcells (cells_ne_nil hcells hon), finishHold_ok]
    refine ⟨fun hq hwait => ?_, fun ⟨hload, hq⟩ => ?_, fun hload hgo => ?_⟩
    · obtain ⟨h, hholds, hprops⟩ := holdFe_eq s 1 (vectorBase f c) cs
      refine ⟨h, ?_, hprops⟩
      rw [hexec, holdVstore_ef hst hq hon hcells, holdEf_eq_some hwait, finishHold_hold, hholds]
    · refine ⟨_, hrun (holdVstore_plain hst hq), ?_⟩
      rw [hops, commit_withStores_kept (hbuf'.trans hbuf) (hstq'.trans hstq) (by rw [hiss', hload', hload]), ← hops]
      refine ⟨rfl, fun j => rfl, by rw [cx_setCx]; exact hst', ?_⟩
      rw [cx_setCx]
      simp [issued, ops, cellStores, cellStore, hiss', Function.comp_def]
    · have hhold : holdVstore k f (vectorBase f c) s = none := by
        by_cases hq : f.q = 1
        · rw [holdVstore_ef hst hq hon hcells]
          exact holdEf_eq_none hstq (feBefore_of_loadUpTo hload) (hgo hq)
        · exact holdVstore_plain hst hq
      have hcommit : commit (s.setCx (withStores c' ops)) = (applyStores s ops).setCx (issued c') := by
        rw [hops, commit_withStores_performed (hbuf'.trans hbuf) (hstq'.trans hstq) (by rw [hiss', hload', hload])
          (storesClean_of_clean hclean _)]
      have hpads : PadsOnly s (applyStores s ops) := applyStores_padsOnly (storesClean_of_clean hclean ops)
      refine ⟨_, (hrun hhold).trans (congrArg _ hcommit), hpads.mem, fun n hn => ?_, ?_, fun j a => ?_, fun j g => ?_⟩
      · rw [ctx_setCx, if_neg (by rw [hpads.cur]; exact hn.symm), hpads.ctx]
      · rw [cx_setCx]
        by_cases hflags : storeFlags f mf c cs = 0
        · exact .inl (congrArg issued (if_pos hflags))
        · exact .inr ⟨fun h => hflags (storeFlags_eq_zero h ..), flagsPend c _, rfl, rfl, congrArg issued (if_neg hflags)⟩
      · exact cellStores_read hclean ..
      · exact cellStores_full hclean ..

end Sys2Proof.Laws

/-! ## Deliveries and holds (R10, R13, R14, R16, R121, R391) -/

namespace Sys2Proof.Laws

open Sys2Proof.Machine

/-! ### Deliveries -/

/-- Whether a pending result takes effect when the results at position t do (R13, R321, R397). -/
def takesEffect (t : Nat) (e : Pend) : Bool := e.due t && e.lost.isNone && e.trapped.isNone

theorem settleList_cons_takes {t : Nat} {e : Pend} (h : takesEffect t e = true) (c : Ctx) (late rest : List Pend) :
    settleList t c late (e :: rest) = settleList t (c.applyPend e) (cutOlder e late) rest := if_pos h

theorem settleList_cons_waits {t : Nat} {e : Pend} (h : takesEffect t e = false) (c : Ctx) (late rest : List Pend) :
    settleList t c late (e :: rest) = settleList t c (e :: late) rest := if_neg (Bool.eq_false_iff.mp h)

/-- Results take effect in the order of the list; those that wait have no part in it (R14). -/
theorem settleList_fst (t : Nat) (c : Ctx) (late l : List Pend) :
    (settleList t c late l).1 = (l.filter (takesEffect t)).foldl Ctx.applyPend c := by
  induction l generalizing c late with
  | nil => rfl
  | cons e rest ih =>
    cases h : takesEffect t e with
    | true => rw [settleList_cons_takes h, ih, List.filter_cons_of_pos h, List.foldl_cons]
    | false => rw [settleList_cons_waits h, ih, List.filter_cons_of_neg (Bool.eq_false_iff.mp h)]

theorem filter_insertPend {P : Pend → Bool} {e : Pend} (he : P e = false) (l : List Pend) : (insertPend e l).filter P = l.filter P := by
  induction l with
  | nil => simp [insertPend, he]
  | cons x t ih =>
    rw [insertPend]
    split
    · rw [List.filter_cons, List.filter_cons, ih]
    · rw [List.filter_cons, he]
      rfl

theorem mend_pending (c : Ctx) (l : List Pend) (n : Nat) (d : Dst) (mask : W512) :
    Ctx.mend { c with pend := l, seq := n } d mask = { c.mend d mask with pend := l, seq := n } := by
  unfold Ctx.mend
  split
  · rfl
  · split
    · rfl
    · split
      · rfl
      · rfl
    · rfl

theorem writeDst_pending (c : Ctx) (l : List Pend) (n : Nat) (d : Dst) (mask v : W512) :
    Ctx.writeDst { c with pend := l, seq := n } d mask v = { c.writeDst d mask v with pend := l, seq := n } := by
  unfold Ctx.writeDst
  rw [mend_pending]
  cases d with
  | a k => dsimp only; split <;> rfl
  | p k => dsimp only; split <;> rfl
  | vm k => dsimp only; split <;> rfl
  | v k => rfl
  | m k => rfl
  | lc k => rfl
  | none => rfl

/-- A result has the same effect whatever else is pending. -/
theorem applyPend_pending (c : Ctx) (l : List Pend) (n : Nat) (e : Pend) :
    Ctx.applyPend { c with pend := l, seq := n } e = { c.applyPend e with pend := l, seq := n } := by
  unfold Ctx.applyPend
  rw [writeDst_pending]
  split
  · rfl
  · dsimp only
    split
    · rfl
    · rfl

theorem foldl_applyPend_pending (c : Ctx) (l : List Pend) (n : Nat) (es : List Pend) :
    es.foldl Ctx.applyPend { c with pend := l, seq := n } = { es.foldl Ctx.applyPend c with pend := l, seq := n } := by
  induction es generalizing c with
  | nil => rfl
  | cons e t ih => rw [List.foldl_cons, applyPend_pending, ih, List.foldl_cons]

/-- A result of a later position changes no register when the others take effect (R13). -/
theorem settle_push_later_a {c : Ctx} {e : Pend} (h : c.now < e.pos) : (c.push e).settle.a = c.settle.a := by
  have hwaits : takesEffect c.now { e with seq := c.seq } = false := by simp [takesEffect, Pend.due, h]
  have hnow : (c.push e).now = c.now := rfl
  have hpush : c.push e = { c with pend := insertPend { e with seq := c.seq } c.pend, seq := c.seq + 1 } := rfl
  have hpend : (c.push e).pend = insertPend { e with seq := c.seq } c.pend := rfl
  unfold Ctx.settle
  dsimp only
  rw [settleList_fst, settleList_fst, hnow, hpend, filter_insertPend hwaits, hpush, foldl_applyPend_pending]

/-- One pending result that is due takes effect, and none is left. -/
theorem settle_one {c : Ctx} {e : Pend} (hp : c.pend = [e]) (h : takesEffect c.now e = true) :
    c.settle = { c.applyPend e with pend := [] } := by
  rw [Ctx.settle, hp, settleList_cons_takes h]
  rfl

/-- One pending result of a later position waits. -/
theorem settle_one_later {c : Ctx} {e : Pend} (hp : c.pend = [e]) (h : takesEffect c.now e = false) :
    c.settle = { c with pend := [e] } := by
  rw [Ctx.settle, hp, settleList_cons_waits h]
  rfl

/-- Two that are due take effect in their order (R14). -/
theorem settle_two {c : Ctx} {e f : Pend} (hp : c.pend = [e, f]) (he : takesEffect c.now e = true) (hf : takesEffect c.now f = true) :
    c.settle = { (c.applyPend e).applyPend f with pend := [] } := by
  rw [Ctx.settle, hp, settleList_cons_takes he, settleList_cons_takes hf]
  rfl

/-- A whole result without flags, with its data, that neither was lost nor trapped. -/
def WholeResult (e : Pend) (d : Dst) (v : W64) : Prop :=
  e.dst = d ∧ e.mask = BitVec.allOnes 512 ∧ e.val = v.setWidth 512 ∧ e.arrived = true ∧ e.lost = none ∧ e.trapped = none ∧ e.flags = 0

theorem WholeResult.takesEffect {e : Pend} {d : Dst} {v : W64} (h : WholeResult e d v) (t : Nat) :
    takesEffect t e = decide (e.pos ≤ t) := by
  obtain ⟨-, -, -, harr, hlost, htrap, -⟩ := h
  simp [Laws.takesEffect, Pend.due, harr, hlost, htrap]

theorem WholeResult.applyPend {e : Pend} {d : Dst} {v : W64} (h : WholeResult e d v) (c : Ctx) :
    c.applyPend e = c.writeDst d (BitVec.allOnes 512) (v.setWidth 512) := by
  obtain ⟨hdst, hmask, hval, -, hlost, htrap, hflags⟩ := h
  simp [Ctx.applyPend, hdst, hmask, hval, hlost, htrap, hflags]

theorem blend_whole (old v : W512) : blend (BitVec.allOnes 512) old v = v := by
  rw [blend, BitVec.not_allOnes, BitVec.and_zero, BitVec.and_allOnes, BitVec.zero_or]

theorem mend_clean {c : Ctx} (hbad : c.badRegs = []) (d : Dst) (mask : W512) : c.mend d mask = c := by
  simp [Ctx.mend, hbad]

/-- A whole result for an A register stands there (R13); `badRegs` lists the registers with an uncorrectable word. -/
theorem writeDst_a {c : Ctx} {n : Nat} (hbad : c.badRegs = []) (hn : n ≠ 0) (v : W64) :
    c.writeDst (.a n) (BitVec.allOnes 512) (v.setWidth 512) = { c with a := c.a.write n v } := by
  have hcut : (v.setWidth 512).setWidth 64 = v := BitVec.setWidth_setWidth_of_le _ (by decide) |>.trans (BitVec.setWidth_eq v)
  unfold Ctx.writeDst
  simp only [mend_clean hbad, if_neg hn, blend_whole, hcut]

theorem writeDst_fixed {c : Ctx} (hbad : c.badRegs = []) {d : Dst} (hd : d = .a 0 ∨ d = .p 0 ∨ d = .vm 0) (mask v : W512) :
    c.writeDst d mask v = c := by
  obtain rfl | rfl | rfl := hd
  · simp [Ctx.writeDst, mend_clean hbad]
  · simp [Ctx.writeDst, mend_clean hbad]
  · simp [Ctx.writeDst, mend_clean hbad]

/-- R13, R14, R10: which results take effect, in which order, and which are discarded. -/
theorem deliveriesTakeEffect : DeliveriesTakeEffect := by
  intro c e f n v w full hn hbad
  have hdue : ∀ {e d v}, WholeResult e d v → e.pos ≤ c.now → takesEffect c.now e = true := fun h hpos => by
    rw [h.takesEffect, decide_eq_true hpos]
  have hfixed : ∀ {d}, d = .a 0 ∨ d = .p 0 ∨ d = .vm 0 → c.pend = [e] → WholeResult e d v → e.pos ≤ c.now →
      c.settle = { c with pend := [] } := fun hd hp he hpos => by
    rw [settle_one hp (hdue he hpos), he.applyPend, writeDst_fixed hbad hd]
  refine ⟨fun hp he => ⟨fun hpos => ?_, fun hpos => ?_⟩, fun hp he hf hpe hpf => ?_, fun hp he hpos => ?_, fun hp he hpos => ?_,
    fun hp he hpos => ?_, fun L hL => ?_⟩
  · rw [settle_one hp (hdue he hpos), WholeResult.applyPend he, writeDst_a hbad hn]
    exact ⟨by simp [regs_read_write], rfl, fun k hk => by simp [regs_read_write, hk.symm]⟩
  · have hwaits : takesEffect c.now e = false := by rw [WholeResult.takesEffect he, decide_eq_false (Nat.not_le.mpr hpos)]
    rw [settle_one_later hp hwaits]
    exact ⟨rfl, rfl⟩
  · rw [settle_two hp (hdue he hpe) (hdue hf hpf), WholeResult.applyPend he, writeDst_a hbad hn, WholeResult.applyPend hf,
      writeDst_a (c := { c with a := c.a.write n v }) hbad hn]
    exact ⟨by simp [regs_read_write], rfl⟩
  · rw [hfixed (.inl rfl) hp he hpos]
    exact ⟨rfl, rfl, rfl⟩
  · rw [hfixed (.inr (.inl rfl)) hp he hpos]
    exact ⟨rfl, rfl⟩
  · rw [hfixed (.inr (.inr rfl)) hp he hpos]
    exact ⟨rfl, rfl⟩
  · have hlater := settle_push_later_a (c := c) (e := { dst := .a 5, val := v.setWidth 512, mask := BitVec.allOnes 512, pos := c.now + L, slot := 0 })
      (Nat.lt_add_of_pos_right hL)
    exact congrArg (fun a => RegFile.read a 5) hlater

/-! ### Holds -/

theorem keepFe_cr (c : Ctx) (m n : Nat) : (c.keepFe m).cr n = c.cr n := rfl

/-- What an ERET waits for is not what its bundle's `.EF` stores wait for (R385). -/
theorem eretHolds_keepFe (s : State) (m : Nat) (ops : List (Nat × Instr × W64)) :
    (s.modCx (·.keepFe m)).eretHolds ops = s.eretHolds ops := by
  have hone : ∀ f, (holdEret f (s.modCx (·.keepFe m))).isSome = (holdEret f s).isSome := by
    intro f
    have hsame : ((s.cx.keepFe m).guardB f.gp f.gn && (s.cx.keepFe m).inh && (s.cx.keepFe m).pend.any (fun e => !e.arrived)) =
      (s.cx.guardB f.gp f.gn && s.cx.inh && s.cx.pend.any (fun e => !e.arrived)) := rfl
    simp only [holdEret, modCx_eq, cx_setCx, hsame]
    split
    · rfl
    · rfl
  simp only [State.eretHolds, hone]

theorem eretHolds_iff {s : State} {ops : List (Nat × Instr × W64)} :
    s.eretHolds ops = true ↔ ∃ o ∈ ops, ∃ f, o.2.1 = .eret f ∧ holdEret f s ≠ none := by
  rw [State.eretHolds, List.any_eq_true]
  refine exists_congr fun o => and_congr_right fun _ => ?_
  cases o.2.1
  case eret f => simp [Option.isSome_iff_ne_none]
  all_goals simp

/-- Whether the holds that stand after `m` slots hold end with STREAM_PENDING (R391, log entry 27). -/
def streamPends (p : Plan) (m : Nat) (s : State) : Bool :=
  (s.cx.cr 0x81).getLsbD 2 && (s.cx.cr 7).getLsbD 0 && !(m == 1 && s.eretHolds p.ops)

/-- What the preparation finds where `m` slots hold in the end (R121, R391). -/
def heldPrep (p : Plan) (m : Nat) (s : State) : Prep × State :=
  (if m = 0 then .go p else if streamPends p m s then .trap p.pc { cause := .streamPending, whole := true } 0 else .idle,
    s.modCx (·.keepFe m))

/-- Every slot is asked for its hold, and again where one holds: how many hold in the end. -/
def askTwice (p : Plan) (s : State) : Nat × State :=
  let r := askHolds p.ops (s.modCx (·.askFe))
  if r.1 = 0 then r else askHolds p.ops r.2

/-- What the slots hold for in the end decides; outside profile L4 no read of a register holds (R22). -/
theorem prepHolds_eq {p : Plan} {s : State} (hskip : p.skip = false) (hprof : s.cx.cr 1 = 0) :
    prepHolds p s = heldPrep p (askTwice p s).1 (askTwice p s).2 := by
  have hread : (s.cx.cr 1 == 1) = false := by rw [hprof]; rfl
  have hdecides : prepHolds p s =
      let r := askTwice p s
      let s := r.2.modCx (·.keepFe r.1)
      if r.1 = 0 then (.go p, s)
      else if (s.cx.cr 0x81).getLsbD 2 && (s.cx.cr 7).getLsbD 0 && !(r.1 == 1 && s.eretHolds p.ops) then
        (.trap p.pc { cause := .streamPending, whole := true } 0, s)
      else (.idle, s) := by
    rw [prepHolds]
    simp only [hskip, hread, Bool.false_and, if_neg Bool.false_ne_true]
    rfl
  rw [hdecides, heldPrep, streamPends]
  simp only [eretHolds_keepFe]
  simp only [modCx_eq, cx_setCx, keepFe_cr]
  split
  · rfl
  · split
    · rfl
    · rfl

/-- R16, R22, R121, R391: when a bundle issues, holds, or takes STREAM_PENDING. -/
theorem heldBundles : HeldBundles := by
  intro p s s4 s5 n m c hskip hprof hfirst hsecond
  have hask : askHolds p.ops (s.modCx (·.askFe)) = (n, s4) := hfirst
  have hagain : n ≠ 0 → askTwice p s = (m, s5) := fun hn => by
    rw [askTwice, hask]
    exact (if_neg hn).trans (hsecond hn)
  refine ⟨fun hn => ?_, fun hn hm => ?_, fun hn hm => ⟨fun hheld hsfh hev => ?_, fun hidle => ?_⟩⟩
  · have hnone : askTwice p s = (0, s4) := by rw [askTwice, hask, hn]; rfl
    exact ⟨s4.modCx (·.keepFe 0), by rw [prepHolds_eq hskip hprof, hnone, heldPrep, if_pos rfl], rfl⟩
  · exact ⟨s5.modCx (·.keepFe 0), by rw [prepHolds_eq hskip hprof, hagain hn, hm, heldPrep, if_pos rfl], rfl⟩
  · have hpends : streamPends p m s5 = true := by
      have hother : (m == 1 && s5.eretHolds p.ops) = false := by
        rw [← Bool.not_eq_true, Bool.and_eq_true, beq_iff_eq, eretHolds_iff]
        rintro ⟨hone, o, ho, f, hf, hholds⟩
        exact hholds ((hheld.resolve_left fun h => h hone) o ho f hf)
      rw [streamPends, hsfh, hev, hother]; rfl
    exact ⟨_, by rw [prepHolds_eq hskip hprof, hagain hn, heldPrep, if_neg hm, if_pos hpends]⟩
  · have hpends : ¬ streamPends p m s5 = true := by
      obtain h | h | ⟨f, hb, hone, hlast, hholds⟩ := hidle
      · rw [streamPends, h]; simp
      · rw [streamPends, h]; simp
      · have heret : s5.eretHolds p.ops = true :=
          eretHolds_iff.mpr ⟨(3, .eret f, 0), by simp [Plan.ops, hskip, hb, hlast], f, rfl, hholds⟩
        rw [streamPends, hone, heret]; simp
    exact ⟨s5.modCx (·.keepFe m), by rw [prepHolds_eq hskip hprof, hagain hn, heldPrep, if_neg hm, if_neg hpends], rfl⟩

/-- Settles O45: of the pending results those that are due take effect in their order; the slots are asked for their holds,
and again where one holds. -/
theorem deliveriesAndHolds : Obligations.DeliveriesAndHolds := ⟨deliveriesTakeEffect, heldBundles⟩

end Sys2Proof.Laws

/-! ## Reset values (R24, R26, R157, R260, R351, R353, R402, R417, R446, R454) -/

namespace Sys2Proof.Laws

open Sys2Proof.Machine

/-- A file that nothing has written reads zero (R24, R26). -/
@[simp] theorem read_nil {w : Nat} (n : Nat) : RegFile.read ([] : RegFile w) n = 0 := rfl

theorem reset_ctx (n : Nat) : State.reset.ctx n = {} := rfl
theorem reset_tile (t : Nat) : State.reset.tile t = {} := rfl
theorem reset_cluster (k : Nat) : State.reset.cluster k = {} := rfl
theorem reset_gal (g : Nat) : State.reset.gal g = {} := rfl
theorem reset_die (d : Nat) : State.reset.die d = {} := rfl

/-- A0 to a63 of a context that nothing has written read zero. -/
theorem empty_ra (r : BitVec 6) : ({} : Ctx).ra r = 0 := by simp [Ctx.ra]

/-- Of its predicates p0 alone is true. -/
theorem empty_rp (r : Nat) : ({} : Ctx).rp r = decide (r = 0) := by
  rw [Bool.eq_iff_iff]
  simp [Ctx.rp]

/-- Settles O55: no unit has a record after reset, so each reads its default. -/
theorem resetValues : Obligations.ResetValues := by
  refine ⟨fun n => ?_, fun t => ?_, fun k => ?_, fun g => ?_, fun d => ?_, rfl, rfl, rfl, rfl, rfl, rfl, rfl, by decide, by decide, by decide⟩
  · rw [reset_ctx]
    exact ⟨rfl, rfl, empty_ra, fun _ => rfl, fun _ => rfl, empty_rp, fun _ => rfl, fun _ => rfl, rfl, rfl, rfl, rfl, rfl, rfl⟩
  · rw [reset_tile]
    exact ⟨rfl, rfl, rfl, rfl, rfl, rfl, rfl, fun _ => rfl, rfl, by decide, by decide⟩
  · rw [reset_cluster]
    exact ⟨rfl, rfl, fun _ => rfl, by decide⟩
  · rw [reset_gal]
    exact ⟨rfl, rfl, fun _ => rfl⟩
  · rw [reset_die]
    exact ⟨rfl, rfl, rfl⟩

end Sys2Proof.Laws

/-! ## The fetch of a bundle and its issue (R31 to R34, R42, R44, R52, R124, R378, R385) -/

namespace Sys2Proof.Laws

open Sys2Proof.Machine

/-! ### Text that has been fetched -/

theorem headerOk_ne_zero {h : W32} (hh : headerOk h = true) : h ≠ 0 := by
  rintro rfl
  revert hh
  decide

/-- A header begins a bundle of whole words (R30). -/
theorem bundleBytes_words (h : W32) : 4 ≤ bundleBytes h ∧ bundleBytes h / 4 * 4 = bundleBytes h := by
  unfold bundleBytes
  omega

/-- The words kept from an offset of a line on, where the line has them all. -/
theorem textWords_eq {c : Ctx} {pc : W64} {before : List (Option W32)} {ws : List W32} {n : Nat}
    (hlen : before.length = pc.toNat % 64 / 4) (hline : mapGet [] c.text (pc.toNat / 64) = before ++ ws.map some)
    (hn : n ≤ ws.length) : c.textWords pc n = some (ws.take n) := by
  have hcut : ((mapGet [] c.text (pc.toNat / 64)).drop (pc.toNat % 64 / 4)).take n = (ws.take n).map some := by
    rw [hline, ← hlen, List.drop_left, List.map_take]
  unfold Ctx.textWords
  simp only [hcut]
  rw [if_pos]
  · simp [Function.comp_def]
  · suffices h : ∀ x ∈ (ws.map some).take n, x.isSome = true by simpa [hn] using h
    intro x hx
    obtain ⟨w, _, rfl⟩ := List.mem_map.1 (List.mem_of_mem_take hx)
    rfl

theorem textWord_eq {c : Ctx} {pc : W64} {before : List (Option W32)} {ws : List W32} {h : W32}
    (hlen : before.length = pc.toNat % 64 / 4) (hline : mapGet [] c.text (pc.toNat / 64) = before ++ (h :: ws).map some) :
    c.textWord pc = some h := by
  simp [Ctx.textWord, hline, ← hlen]

/-- Words that are kept need no reading (R124). -/
theorem needText_kept {s : State} {pc : W64} {n : Nat} {ws : List W32} (h : s.cx.textWords pc n = some ws) :
    s.needText pc n = (.ok, s) := by
  rw [State.needText, if_pos (by simp [h])]

/-- At an aligned place of the text, a seek goes by the word that stands there (R32, R53). -/
theorem seek_word {s t : State} {pc : W64} (hal : pc.toNat % 4 = 0) (hlt : pc.toNat < s.cx.textLen)
    (hneed : s.needText pc 1 = (.ok, t)) (fuel : Nat) :
    seek (fuel + 1) pc s =
      if (t.cx.textWord pc).getD 0 = 0 then seek fuel (pc + 4) t else (.header pc ((t.cx.textWord pc).getD 0), t) := by
  rw [seek, if_neg (by omega)]
  simp only [hneed]

/-- A seek that finds a header where it begins. -/
theorem seekAt_header {s : State} {pc : W64} {h : W32} {ws : List W32} (hal : pc.toNat % 4 = 0) (hlt : pc.toNat < s.cx.textLen)
    (hneed : s.cx.textWords pc 1 = some ws) (hword : s.cx.textWord pc = some h) (hne : h ≠ 0) : s.seekAt pc = (.header pc h, s) := by
  rw [State.seekAt, seek_word hal hlt (needText_kept hneed), hword, Option.getD_some, if_neg hne]

/-- What the fetch makes of the words behind a good header (R52, R385). -/
def decoded (s : State) (pc : W64) (h : W32) (ws : List W32) : Fetched :=
  match decodeBundle (isGal s.cur) h ws with
  | .ok b => .bundle pc b
  | .error e =>
    if s.cx.skip then .bundle pc (skipBundle (isGal s.cur) h ws)
    else match e with
      | .illegalBundle => .trap pc { cause := .illegalBundle, whole := true }
      | .illegalOp sl => .trap pc { cause := .illegalOp, slot := Slot.num sl }

theorem decoded_ok {s : State} {pc : W64} {h : W32} {ws : List W32} {b : Bundle} (hb : decodeBundle (isGal s.cur) h ws = .ok b) :
    decoded s pc h ws = .bundle pc b := by
  rw [decoded, hb]

theorem decoded_skip {s : State} {pc : W64} {h : W32} {ws : List W32} {e : BundleErr} (hskip : s.cx.skip = true)
    (he : decodeBundle (isGal s.cur) h ws = .error e) : decoded s pc h ws = .bundle pc (skipBundle (isGal s.cur) h ws) := by
  simp only [decoded, he, hskip, if_true]

theorem decoded_illegalBundle {s : State} {pc : W64} {h : W32} {ws : List W32} (hskip : s.cx.skip = false)
    (he : decodeBundle (isGal s.cur) h ws = .error .illegalBundle) :
    decoded s pc h ws = .trap pc { cause := .illegalBundle, whole := true } := by
  simp only [decoded, he, hskip, Bool.false_eq_true, if_false]

theorem decoded_illegalOp {s : State} {pc : W64} {h : W32} {ws : List W32} {sl : Slot} (hskip : s.cx.skip = false)
    (he : decodeBundle (isGal s.cur) h ws = .error (.illegalOp sl)) :
    decoded s pc h ws = .trap pc { cause := .illegalOp, slot := Slot.num sl } := by
  simp only [decoded, he, hskip, Bool.false_eq_true, if_false]

/-- R385: what ERET.SKIP consumes has the REP of the header. -/
theorem skipBundle_rep (gal : Bool) (h : W32) (ws : List W32) : (skipBundle gal h ws).rep = h.toNat / 2 ^ 21 % 2 ^ 6 := by
  simp [skipBundle, fld, BitVec.extractLsb'_toNat, Nat.shiftRight_eq_div_pow]

/-- A bundle that leaves its line or the text is illegal (R31, R52). -/
theorem fetch_outside {s : State} {h : W32} (hseek : s.seekAt s.cx.pc = (.header s.cx.pc h, s)) (hh : headerOk h = true)
    (hout : 64 < s.cx.pc.toNat % 64 + bundleBytes h ∨ s.cx.textLen < s.cx.pc.toNat + bundleBytes h) :
    s.fetch = (.trap s.cx.pc { cause := .illegalBundle, whole := true }, s) := by
  rw [State.fetch, hseek]
  simp only [hh, if_pos hout]
  rfl

/-- A bundle that is kept whole is decoded. -/
theorem fetch_kept {s : State} {h : W32} {ws : List W32} (hseek : s.seekAt s.cx.pc = (.header s.cx.pc h, s)) (hh : headerOk h = true)
    (hin : ¬ (64 < s.cx.pc.toNat % 64 + bundleBytes h ∨ s.cx.textLen < s.cx.pc.toNat + bundleBytes h))
    (hwords : s.cx.textWords s.cx.pc (bundleBytes h / 4) = some ws) : s.fetch = (decoded s s.cx.pc h (ws.drop 1), s) := by
  rw [State.fetch, hseek]
  simp only [hh, if_neg hin, needText_kept hwords, hwords, Option.getD_some, decoded]
  cases decodeBundle (isGal s.cur) h (ws.drop 1) with
  | ok b => rfl
  | error e =>
    cases s.cx.skip with
    | true => rfl
    | false => cases e <;> rfl

/-- R31 to R34, R42, R52, R124, R385 where the line has been fetched. -/
theorem fetch_keptText {s : State} {h : W32} {ws : List W32} (ht : TextAt s h ws) :
    let pc := s.cx.pc
    (64 < pc.toNat % 64 + bundleBytes h ∨ s.cx.textLen < pc.toNat + bundleBytes h →
      s.fetch = (.trap pc { cause := .illegalBundle, whole := true }, s)) ∧
    (pc.toNat % 64 + bundleBytes h ≤ 64 → pc.toNat + bundleBytes h ≤ s.cx.textLen →
      s.fetch = (decoded s pc h (ws.take (bundleBytes h / 4 - 1)), s)) := by
  obtain ⟨hal, hlt, hh, hlen, before, hbefore, hline⟩ := ht
  obtain ⟨hfour, hwhole⟩ := bundleBytes_words h
  have hword := textWord_eq hbefore hline
  have hone : s.cx.textWords s.cx.pc 1 = some [h] := textWords_eq hbefore hline (by simp)
  have hseek := seekAt_header hal hlt hone hword (headerOk_ne_zero hh)
  refine ⟨fetch_outside hseek hh, fun hkeeps hends => ?_⟩
  have hwords : s.cx.textWords s.cx.pc (bundleBytes h / 4) = some ((h :: ws).take (bundleBytes h / 4)) :=
    textWords_eq hbefore hline (by rw [List.length_cons]; omega)
  rw [fetch_kept hseek hh (by omega) hwords]
  obtain ⟨k, hk⟩ : ∃ k, bundleBytes h / 4 = k + 1 := ⟨bundleBytes h / 4 - 1, by omega⟩
  rw [hk]
  rfl

/-- R31 to R34, R42, R52, R124, R385: the bundle or the trap that the kept line holds. -/
theorem fetchReadsKeptText {s : State} {h : W32} {ws : List W32} (ht : TextAt s h ws) :
    let pc := s.cx.pc
    let found := fun (r : Fetched) => s.fetch = (r, s)
    let illegal : Fetched := .trap pc { cause := .illegalBundle, whole := true }
    let words := ws.take (bundleBytes h / 4 - 1)
    (64 < pc.toNat % 64 + bundleBytes h ∨ s.cx.textLen < pc.toNat + bundleBytes h → found illegal) ∧
    (pc.toNat % 64 + bundleBytes h ≤ 64 → pc.toNat + bundleBytes h ≤ s.cx.textLen →
      (∀ b, decodeBundle (isGal s.cur) h words = .ok b → found (.bundle pc b)) ∧
      (∀ e, s.cx.skip = true → decodeBundle (isGal s.cur) h words = .error e →
        ∃ b, found (.bundle pc b) ∧ b.bytes = bundleBytes h ∧ b.rep = h.toNat / 2 ^ 21 % 2 ^ 6) ∧
      (s.cx.skip = false → decodeBundle (isGal s.cur) h words = .error .illegalBundle → found illegal) ∧
      (∀ sl, s.cx.skip = false → decodeBundle (isGal s.cur) h words = .error (.illegalOp sl) →
        found (.trap pc { cause := .illegalOp, slot := match sl with | .a => 0 | .v => 1 | .m => 2 | .b => 3 }))) := by
  intro pc found illegal words
  obtain ⟨houtside, hinside⟩ := fetch_keptText ht
  refine ⟨houtside, fun hkeeps hends => ?_⟩
  have hfetch := hinside hkeeps hends
  refine ⟨fun b hb => ?_, fun e hskip he => ?_, fun hskip he => ?_, fun sl hskip he => ?_⟩
  · exact hfetch.trans (by rw [decoded_ok hb])
  · exact ⟨_, hfetch.trans (by rw [decoded_skip hskip he]), rfl, skipBundle_rep _ h _⟩
  · exact hfetch.trans (by rw [decoded_illegalBundle hskip he])
  · refine hfetch.trans ?_
    rw [decoded_illegalOp hskip he]
    cases sl <;> rfl

/-! ### Text that is read -/

/-- `t` is `s` with other lines of text from line `n` on: its memory is the same, and so is its context but for them. -/
structure LinesFrom (n : Nat) (s t : State) : Prop where
  mem : t.mem = s.mem
  cx : t.cx = { s.cx with text := t.cx.text }
  text : ∀ k < n, mapGet [] t.cx.text k = mapGet [] s.cx.text k

theorem LinesFrom.refl (n : Nat) (s : State) : LinesFrom n s s := ⟨rfl, rfl, fun _ _ => rfl⟩

theorem LinesFrom.step {n : Nat} {s t : State} (ws : List (Option W32)) (h : LinesFrom (n + 1) (s.modCx (·.keepLine n ws)) t) :
    LinesFrom n s t := by
  obtain ⟨hmem, hcx, htext⟩ := h
  refine ⟨hmem, ?_, fun k hk => (htext k (by omega)).trans ?_⟩
  · rw [hcx, State.modCx, cx_setCx]
    rfl
  · rw [State.modCx, cx_setCx]
    exact mapGet_mapPut_ne _ _ _ (by omega)

/-- Fetching ahead keeps no line before the one it begins at (R124). -/
theorem readAhead_linesFrom (n : Nat) (s : State) (line : Nat) : LinesFrom line s (s.readAhead line n) := by
  induction n generalizing s line with
  | zero => exact .refl line s
  | succ n ih =>
    rw [State.readAhead]
    split
    · exact .refl line s
    · dsimp only
      split
      · exact .step _ (ih _ _)
      · exact .refl line s

/-- A line of memory without errors is its 16 words. -/
theorem lineAt_clean {s : State} (h : s.badPa = []) {a k : Nat} (hk : k < 16) :
    (s.lineAt a)[k]? = some (some (BitVec.ofNat 32 (s.mem.readLE (a + 4 * k) 4))) := by
  simp [State.lineAt, State.lostPa, h, hk]

/-- A line of which nothing was kept is kept as it was read. -/
theorem keepLine_word {c : Ctx} {line k : Nat} {ws : List (Option W32)} (hnone : mapGet [] c.text line = []) (hk : k < 16) :
    (mapGet [] (c.keepLine line ws).text line)[k]?.join = ws[k]?.join := by
  simp [Ctx.keepLine, hnone, hk]

/-- What reading the line of PC leaves, through a translation to `pa` that leaves `s1` (R42). -/
theorem readText_reads {s s1 : State} {pc : W64} {pa : Nat}
    (hx : s.xlate s.cur s.cx.asid s.cx.gen false (s.cx.textVa pc) false = (.ok pa, s1)) (hland : s1.landing = none) :
    ∃ t, s.readText pc = (.ok, t) ∧
      LinesFrom (pc.toNat / 64 + 1) (({ s1 with free := s1.free + 1 } : State).modCx (·.keepLine (pc.toNat / 64) (s1.lineAt (pa - pc.toNat % 64)))) t := by
  rw [State.readText]
  simp only [hx, hland, Option.isSome_none, Bool.false_and, Bool.false_eq_true, if_false, State.fresh]
  refine ⟨_, rfl, ?_⟩
  split
  · exact .refl _ _
  · exact readAhead_linesFrom _ _ _

/-- A landing closes the memory that the text would be read from (R409). -/
theorem readText_closed {s s1 : State} {pc : W64} {pa : Nat}
    (hx : s.xlate s.cur s.cx.asid s.cx.gen false (s.cx.textVa pc) false = (.ok pa, s1)) (hland : s1.landing ≠ none) (hpa : inHbm pa = true) :
    s.readText pc = (.wait, s1) := by
  rw [State.readText]
  simp only [hx, Option.isSome_iff_ne_none.2 hland, hpa, Bool.and_self, if_true]

theorem needText_missing {s : State} {pc : W64} {n : Nat} (hn : n ≠ 0) (hnone : mapGet [] s.cx.text (pc.toNat / 64) = []) :
    s.cx.textWords pc n = none := by
  simp [Ctx.textWords, hnone, Ne.symm hn]

/-- One word is kept where it has been read. -/
theorem textWords_one {c : Ctx} {pc : W64} {w : W32} (h : c.textWord pc = some w) : (c.textWords pc 1).isSome := by
  unfold Ctx.textWord at h
  obtain ⟨o, ho, rfl⟩ : ∃ o, (mapGet [] c.text (pc.toNat / 64))[pc.toNat % 64 / 4]? = some o ∧ o = some w := by
    simpa [Option.join_eq_some_iff] using h
  obtain ⟨hlt, hget⟩ := List.getElem?_eq_some_iff.1 ho
  simp [Ctx.textWords, List.drop_eq_getElem_cons hlt, hget]

/-- Reading the line of PC, which was not kept, sees to the word at PC. -/
theorem needText_reads {s t : State} {pc : W64} {w : W32} (hnone : mapGet [] s.cx.text (pc.toNat / 64) = [])
    (hread : s.readText pc = (.ok, t)) (hword : t.cx.textWord pc = some w) : s.needText pc 1 = (.ok, t) := by
  rw [State.needText, needText_missing (by decide) hnone]
  simp [hread, textWords_one hword]

theorem needText_waits {s t : State} {pc : W64} (hnone : mapGet [] s.cx.text (pc.toNat / 64) = [])
    (hread : s.readText pc = (.wait, t)) : s.needText pc 1 = (.wait, t) := by
  rw [State.needText, needText_missing (by decide) hnone]
  simp [hread]

/-- The fetch reads the line of PC and then finds what it would find with that line kept (R124). -/
theorem fetch_reads {s t : State} {w : W32} (hal : s.cx.pc.toNat % 4 = 0) (hlt : s.cx.pc.toNat < s.cx.textLen)
    (hnone : mapGet [] s.cx.text (s.cx.pc.toNat / 64) = []) (hread : s.readText s.cx.pc = (.ok, t))
    (hpc : t.cx.pc = s.cx.pc) (hlen : t.cx.textLen = s.cx.textLen) (hword : t.cx.textWord s.cx.pc = some w) :
    s.fetch = t.fetch := by
  obtain ⟨ws, hone⟩ := Option.isSome_iff_exists.1 (textWords_one hword)
  have hseek : s.seekAt s.cx.pc = t.seekAt s.cx.pc := by
    rw [State.seekAt, State.seekAt, hlen, seek_word hal hlt (needText_reads hnone hread hword),
      seek_word hal (by omega) (needText_kept hone)]
  rw [State.fetch, State.fetch, hseek, hpc]

theorem fetch_waits {s t : State} (hal : s.cx.pc.toNat % 4 = 0) (hlt : s.cx.pc.toNat < s.cx.textLen)
    (hnone : mapGet [] s.cx.text (s.cx.pc.toNat / 64) = []) (hread : s.readText s.cx.pc = (.wait, t)) : s.fetch = (.wait, t) := by
  rw [State.fetch, State.seekAt, seek, if_neg (by omega), needText_waits hnone hread]

/-- The words of a line behind PC, up to the line's end (R30). -/
theorem word_in_line {pc : W64} {i : Nat} (hal : pc.toNat % 4 = 0) (hi : i < 16 - pc.toNat % 64 / 4) :
    (pc + BitVec.ofNat 64 (4 * i)).toNat / 64 = pc.toNat / 64 ∧
      (pc + BitVec.ofNat 64 (4 * i)).toNat % 64 / 4 = pc.toNat % 64 / 4 + i := by
  have hpc := pc.isLt
  rw [BitVec.toNat_add, BitVec.toNat_ofNat]
  omega

/-- R42, R124: what reading the line of PC keeps of memory. -/
theorem readText_words {s s1 : State} {pa : Nat} (hal : s.cx.pc.toNat % 4 = 0)
    (hnone : mapGet [] s.cx.text (s.cx.pc.toNat / 64) = [])
    (hx : s.xlate s.cur s.cx.asid s.cx.gen false (s.cx.textVa s.cx.pc) false = (.ok pa, s1)) (hgood : s1.badPa = [])
    (hpa : pa % 64 = s.cx.pc.toNat % 64) (hcx : s1.cx = s.cx) (hland : s1.landing = none) :
    ∃ t, s.readText s.cx.pc = (.ok, t) ∧ t.mem = s1.mem ∧ t.cx = { s.cx with text := t.cx.text } ∧
      ∀ i, i < 16 - s.cx.pc.toNat % 64 / 4 →
        t.cx.textWord (s.cx.pc + BitVec.ofNat 64 (4 * i)) = some (BitVec.ofNat 32 (s1.mem.readLE (pa + 4 * i) 4)) := by
  obtain ⟨t, hread, hmem, htcx, htext⟩ := readText_reads hx hland
  have hold : ({ s1 with free := s1.free + 1 } : State).cx = s.cx := hcx
  rw [State.modCx, hold, cx_setCx] at htcx htext
  refine ⟨t, hread, hmem, htcx, fun i hi => ?_⟩
  obtain ⟨hline, hplace⟩ := word_in_line hal hi
  rw [Ctx.textWord, hline, hplace, htext _ (by omega), keepLine_word hnone (by omega), lineAt_clean hgood (by omega)]
  rw [Option.join_some, show pa - s.cx.pc.toNat % 64 + 4 * (s.cx.pc.toNat % 64 / 4 + i) = pa + 4 * i by omega]

/-- R31 to R34, R42, R52, R124, R385: the fetch goes by the line of PC, kept or read. -/
theorem fetchReadsTheText : FetchReadsTheText := by
  refine ⟨fun s h ws ht => fetchReadsKeptText ht, ?_⟩
  intro s s1 pa c pc hal hlt hnone hx hgood hpa hcx read
  refine ⟨fun hland => ?_, fun hland hin => fetch_waits hal hlt hnone (readText_closed hx hland hin)⟩
  obtain ⟨t, hread, hmem, htcx, hwords⟩ := readText_words hal hnone hx hgood hpa hcx hland
  have ht : read = t := congrArg Prod.snd hread
  have hword := hwords 0 (by omega)
  rw [Nat.mul_zero, BitVec.add_zero] at hword
  rw [ht]
  exact ⟨fetch_reads hal hlt hnone hread (by rw [htcx]) (by rw [htcx]) hword, hmem, hwords⟩

/-! ### The issue of a bundle -/

/-- The event that a step takes from the agenda runs. -/
theorem step_of_agenda {s : State} {d : Due} {rest : List Due} (h : s.agenda = d :: rest) :
    step s = exec d.op { s with agenda := rest, cur := d.cur, unit := d.unit, sub := d.sub } := by
  rw [step, State.takeDue, h]

/-- The preparation of an issue that nothing before its fetch ends (R16, R42, R52). -/
theorem prep_of_ready {s s1 : State} (hcan : s.canIssue s.cur = true) (hs1 : s1 = s.setCx s.cx.settle) (hentry : s1.cx.entryErr = none)
    (hdue : s1.cx.dueHold = false) (hlate : s1.cx.lateTrap = none) :
    prep s = match s1.fetch with
      | (.wait, t) => (.idle, t)
      | (.trap pc e, t) => (.trap pc e 0, t)
      | (.bundle pc b, t) =>
        prepHolds (mkPlan (isGal (t.modCx (fun c => { c with pc := pc, len := b.bytes })).cur) pc b
          (t.modCx (fun c => { c with pc := pc, len := b.bytes })).cx) (t.modCx (fun c => { c with pc := pc, len := b.bytes })) := by
  have hmod : s.modCx (·.settle) = s1 := hs1.symm
  rw [prep, hcan, hmod]
  simp only [Bool.not_true, Bool.false_eq_true, if_false, hentry, hdue, hlate]
  rcases s1.fetch with ⟨_ | _ | _, t⟩ <;> rfl

/-- An issue runs all of its operations, or where one traps none (R52, R378). -/
theorem runPlan_ok {p : Plan} {s t : State} (h : runOps p.first s p.ops = .ok t) :
    runPlan p s = addWeight p.weight (commit (t.setCx (endIssue p t.cx))) := by
  rw [runPlan, h]
  rfl

theorem runPlan_error {p : Plan} {s t : State} {e : TrapInfo} (h : runOps p.first s p.ops = .error (e, t)) :
    runPlan p s = takeTrapHeld e t := by
  rw [runPlan, h]

theorem execBundleIssue_go {s t : State} {p : Plan} (h : prep s = (.go p, t)) : exec .bundleIssue s = .next (runPlan p t) := by
  rw [exec_bundleIssue, execBundleIssue, issueBundle, h]

theorem execBundleIssue_idle {s t : State} (h : prep s = (.idle, t)) : exec .bundleIssue s = .next t := by
  rw [exec_bundleIssue, execBundleIssue, issueBundle, h]

theorem execBundleIssue_trap {s t : State} {pc : W64} {e : TrapInfo} (h : prep s = (.trap pc e 0, t)) :
    exec .bundleIssue s = .next (takeTrapHeld e (t.setCx { t.cx with pc := pc })) := by
  rw [exec_bundleIssue, execBundleIssue, issueBundle, h]
  rfl

/-- R12, R44, R52, R116, R378: the issue runs the bundle that the fetch finds, or takes the trap that it finds. -/
theorem bundleIssueRunsTheBundle : BundleIssueRunsTheBundle := by
  rintro s s1 sf s3 x rest pc ⟨hagenda, hcan, hs1, hentry, hdue, hlate⟩ run
  have hprep := prep_of_ready hcan hs1 hentry hdue hlate
  refine ⟨step_of_agenda hagenda, fun b hf => ?_, fun t hf => ?_, fun hf => ?_⟩
  · rw [hf] at hprep
    refine ⟨fun hgo => ?_, fun hidle => execBundleIssue_idle (hprep.trans hidle)⟩
    have hrun := execBundleIssue_go (hprep.trans hgo)
    exact ⟨fun s4 hran => hrun.trans (by rw [runPlan_ok hran]), fun t s4 hran => hrun.trans (by rw [runPlan_error hran])⟩
  · rw [hf] at hprep
    exact execBundleIssue_trap hprep
  · rw [hf] at hprep
    exact execBundleIssue_idle hprep

/-- Settles O43: the fetch finds the bundle of the text at PC, and the issue runs what the fetch found. -/
theorem stepRunsTheDecodedBundle : Obligations.StepRunsTheDecodedBundle := ⟨fetchReadsTheText, bundleIssueRunsTheBundle⟩

end Sys2Proof.Laws

/-! ## How results arrive, waits end, steps enter their contexts and retire (R16, R18, R122, R157, R166, R293, R321) -/

namespace Sys2Proof.Laws

open Sys2Proof.Machine

/-! ### Results that arrive (R16, R18, R110) -/

/-- Only a fault ends a launch (R169). -/
theorem cancelFault_no_fault {x : Nat} {s : State} (h : ∀ st k pc, (s.ctx x).life ≠ .ended st (some k) pc) : cancelFault x s = s := by
  unfold cancelFault
  split
  next hlife _ => exact absurd hlife (h _ _ _)
  · rfl

theorem cancelFault_no_launch {x : Nat} {s : State} (h : s.launch? (s.ctx x).task.launch = none) : cancelFault x s = s := by
  unfold cancelFault
  rw [h]
  split
  next hl => cases hl
  · rfl

/-- Whether a result ends no step with a fault when it arrives (R379). -/
def Harmless (c : Ctx) (e : Pend) : Prop := c.life = .live ∨ ∃ st pc, c.life = .ended st none pc ∧ e.lost = none

theorem Harmless.no_fault {c : Ctx} {e : Pend} (h : Harmless c e) (st : Nat) (k : Cause) (pc : W64) : c.life ≠ .ended st (some k) pc := by
  obtain h | ⟨_, _, h, _⟩ := h <;> rw [h] <;> simp

/-- A class that a result leaves (R110). -/
def leaveClass (e : Pend) (c : Ctx) : Ctx := if e.load then { c with ld := c.ld - 1 } else { c with sync := c.sync - 1 }

theorem leaveClass_load {e : Pend} (h : e.load = true) (c : Ctx) : leaveClass e c = { c with ld := c.ld - 1 } := if_pos h

theorem leaveClass_life (e : Pend) (c : Ctx) : (leaveClass e c).life = c.life := by
  unfold leaveClass
  split <;> rfl

/-- An arrival outside a handler leaves its class, and does no more unless it is a lost result of an ended step (R110, R379). -/
theorem countArrival_eq {e : Pend} {c : Ctx} (hin : c.shadow = none) (tick : Nat) :
    countArrival e tick c = match c.life, e.lost with
      | .ended st none pc, some _ => { leaveClass e c with life := .ended st (some .dataLost) pc }
      | _, _ => leaveClass e c := by
  rw [← leaveClass_life e c]
  unfold countArrival leaveClass
  cases e.load <;> simp [Ctx.inh, hin] <;> rfl

theorem countArrival_harmless {e : Pend} {c : Ctx} (hin : c.shadow = none) (h : Harmless c e) (tick : Nat) :
    countArrival e tick c = leaveClass e c := by
  rw [countArrival_eq hin]
  obtain h | ⟨st, pc, h, hlost⟩ := h
  · rw [h]
  · rw [h, hlost]

/-- What a list of results takes from the classes of a context when those of it that are present arrive. -/
def leaveClasses (tick : Nat) (l : List Pend) (c : Ctx) : Ctx :=
  { c with ld := c.ld - (l.filter (fun e => e.present tick && e.load)).length
           sync := c.sync - (l.filter (fun e => e.present tick && !e.load)).length }

theorem leaveClasses_cons (tick : Nat) (e : Pend) (l : List Pend) (c : Ctx) :
    leaveClasses tick (e :: l) c = leaveClasses tick l (if e.present tick then leaveClass e c else c) := by
  unfold leaveClasses leaveClass
  cases hp : e.present tick <;> cases hl : e.load <;> simp [hp, hl, Nat.sub_sub, Nat.add_comm]

/-- A result that has arrived where its data is present. -/
def arriveNow (tick : Nat) (e : Pend) : Pend := if e.present tick then { e with arrived := true } else e

/-- Results that wait for no granule, and end no step, arrive (R16, R18). -/
theorem arriveAll_harmless {x : Nat} {l : List Pend} (hfe : ∀ e ∈ l, e.fe = none) {s : State} (hin : (s.ctx x).shadow = none)
    (hharm : ∀ e ∈ l, Harmless (s.ctx x) e) :
    (arriveAll x s l).1 = l.map (arriveNow s.tick) ∧
      ∃ ctxs, (arriveAll x s l).2 = { s with ctxs := ctxs } ∧ ({ s with ctxs := ctxs } : State).ctx x = leaveClasses s.tick l (s.ctx x) := by
  induction l generalizing s with
  | nil => exact ⟨rfl, s.ctxs, rfl, by simp [leaveClasses, State.ctx]⟩
  | cons e l ih =>
    have hperform : performFe e s = (e, s) := by rw [performFe, hfe e List.mem_cons_self]
    rw [arriveAll]
    simp only [hperform]
    cases hp : e.present s.tick with
    | false =>
      obtain ⟨h1, ctxs, h2, h3⟩ := ih (fun e he => hfe e (List.mem_cons_of_mem _ he)) hin (fun e he => hharm e (List.mem_cons_of_mem _ he))
      refine ⟨by simp [h1, arriveNow, hp], ctxs, by simpa using h2, ?_⟩
      rw [h3, leaveClasses_cons, hp]
      rfl
    | true =>
      have he := hharm e List.mem_cons_self
      have hnow : s.modCtx x (countArrival e s.tick) = s.setCtx x (leaveClass e (s.ctx x)) := by
        rw [State.modCtx, countArrival_harmless hin he]
      have hkeep : cancelFault x (s.setCtx x (leaveClass e (s.ctx x))) = s.setCtx x (leaveClass e (s.ctx x)) :=
        cancelFault_no_fault (by rw [ctx_setCtx_self, leaveClass_life]; exact he.no_fault)
      have hshadow : (leaveClass e (s.ctx x)).shadow = none := by unfold leaveClass; split <;> exact hin
      obtain ⟨h1, ctxs, h2, h3⟩ := ih (s := s.setCtx x (leaveClass e (s.ctx x))) (fun e he => hfe e (List.mem_cons_of_mem _ he))
        (by rw [ctx_setCtx_self, hshadow]) (fun f hf => by
          rw [ctx_setCtx_self, Harmless, leaveClass_life]
          exact hharm f (List.mem_cons_of_mem _ hf))
      simp only [if_true, hnow, hkeep]
      refine ⟨by simp [h1, arriveNow, hp], ctxs, h2.trans rfl, ?_⟩
      rw [leaveClasses_cons, hp, if_pos rfl]
      exact h3.trans (by rw [ctx_setCtx_self]; rfl)

/-- What RESULT_ARRIVES leaves where nothing is set aside for a handler and no store waits. -/
theorem resultArrives_unset {s t : State} {l : List Pend} (hin : s.cx.shadow = none) (harr : arriveAll s.cur s s.cx.pend = (l, t))
    (hcur : t.cur = s.cur) (hst : t.cx.stq = []) : exec .resultArrives s = .next (flushSync (t.setCx { t.cx with pend := l })) := by
  have hshadow : arriveShadow s = s := by rw [arriveShadow, hin]
  have hpend : t.modCtx s.cur (fun c => { c with pend := l }) = t.setCx { t.cx with pend := l } := by rw [← hcur]; rfl
  have hstores : performStores (t.setCx { t.cx with pend := l }) = t.setCx { t.cx with pend := l } := by
    rw [performStores, cx_setCx, hst]
    rfl
  rw [exec_resultArrives, execResultArrives]
  simp only [hshadow, harr, hpend, hstores]

/-- No request goes out where the first that is kept still waits, or none is (R293). -/
theorem flushSync_kept {s : State} (h : ∀ e rest, s.cx.syq = e :: rest → s.behind s.cur e.1 = true) : flushSync s = s.setCx s.cx := by
  have hgo : s.cx.syq.takeWhile (fun e => !s.behind s.cur e.1) = [] := by
    cases hq : s.cx.syq with
    | nil => rfl
    | cons e rest => simp [h e rest hq]
  simp [flushSync, hgo, State.modCx]

/-- What RESULT_ARRIVES leaves where no request is kept either. -/
theorem resultArrives_settled {s t : State} {l : List Pend} (hin : s.cx.shadow = none)
    (harr : arriveAll s.cur s s.cx.pend = (l, t)) (hcur : t.cur = s.cur) (hst : t.cx.stq = []) (hsy : t.cx.syq = []) :
    exec .resultArrives s = .next (t.setCx { t.cx with pend := l }) := by
  rw [resultArrives_unset hin harr hcur hst, flushSync_kept (by simp [hsy]), cx_setCx, setCx_setCx]

/-- R16, R18, R110 where no load waits for a granule. -/
theorem presentResultsArrive (s : State) (hin : s.cx.shadow = none) (hst : s.cx.stq = []) (hsy : s.cx.syq = [])
    (hharm : ∀ e ∈ s.cx.pend, Harmless s.cx e) (hfe : ∀ e ∈ s.cx.pend, e.fe = none) :
    ∃ ctxs, exec .resultArrives s = .next (({ s with ctxs := ctxs } : State).setCx
      { leaveClasses s.tick s.cx.pend s.cx with pend := s.cx.pend.map (arriveNow s.tick) }) := by
  obtain ⟨hlist, ctxs, hstate, hctx⟩ := arriveAll_harmless (x := s.cur) hfe hin hharm
  have hcx : ({ s with ctxs := ctxs } : State).cx = leaveClasses s.tick s.cx.pend s.cx := hctx
  refine ⟨ctxs, (resultArrives_settled hin (Prod.ext hlist hstate) rfl ?_ ?_).trans ?_⟩
  · rw [hcx]; exact hst
  · rw [hcx]; exact hsy
  · rw [hcx]

/-- Whether a result without a granule to wait for is present (R16). -/
theorem present_eq {e : Pend} (h : e.fe = none) (tick : Nat) :
    e.present tick = (!e.arrived && decide (e.ready ≤ tick) && (e.load || e.tag == 1)) := by
  simp [Pend.present, h]

/-- The result of a lost load after the end of its step is the step's fault (R379). -/
theorem lostResultArrives {s : State} {e : Pend} {st : Nat} {pc a : W64} (hin : s.cx.shadow = none) (hst : s.cx.stq = [])
    (hsy : s.cx.syq = []) (hlife : s.cx.life = .ended st none pc) (hpend : s.cx.pend = [e]) (hfe : e.fe = none) (hload : e.load = true)
    (harr : e.arrived = false) (hready : e.ready ≤ s.tick) (hlost : e.lost = some a) (hlaunch : s.launch? s.cx.task.launch = none) :
    ∃ s', exec .resultArrives s = .next s' ∧ s'.cx.life = .ended st (some .dataLost) pc ∧ s'.cx.ld = s.cx.ld - 1 := by
  have hnow : e.present s.tick = true := by simp [present_eq hfe, harr, hready, hload]
  have hcount : countArrival e s.tick s.cx = { s.cx with ld := s.cx.ld - 1, life := .ended st (some .dataLost) pc } := by
    rw [countArrival_eq hin, hlife, hlost, leaveClass_load hload]
  have hperform : performFe e s = (e, s) := by rw [performFe, hfe]
  have hcancel : cancelFault s.cur (s.setCx (countArrival e s.tick s.cx)) = s.setCx (countArrival e s.tick s.cx) := by
    refine cancelFault_no_launch ?_
    rw [State.setCx, ctx_setCtx_self, hcount]
    exact hlaunch
  have hall : arriveAll s.cur s s.cx.pend = ([{ e with arrived := true }], s.setCx (countArrival e s.tick s.cx)) := by
    rw [hpend]
    simp only [arriveAll, hperform, hnow, if_true]
    exact congrArg (Prod.mk _) hcancel
  have hdone := resultArrives_settled hin hall rfl (by rw [cx_setCx, hcount]; exact hst) (by rw [cx_setCx, hcount]; exact hsy)
  exact ⟨_, hdone, by rw [cx_setCx, cx_setCx, hcount], by rw [cx_setCx, cx_setCx, hcount]⟩

/-! ### A load that waits for full granules (R101, R267, R397) -/

/-- Whether the one load of a context still waits: for its granules, or for its turn at a bank. -/
theorem readWaits_alone {s : State} {e : Pend} {w : FeWait} (hin : s.cx.shadow = none) (hst : s.cx.stq = []) (hpend : s.cx.pend = [e])
    (hfe : e.fe = some w) (hneed : w.need = true) :
    s.readWaits s.cur s.cx e.seq w = (!s.cellsFull w.cells ||
      s.beaten { tile := s.cur / 2, at_ := w.at_, ctx := s.cur, seq := e.seq, take := w.clear, fill := false, cells := w.cells }) := by
  simp [State.readWaits, Ctx.feBefore, Ctx.storeBefore, Ctx.results, hin, hst, hpend, hfe, hneed, tileOf]

/-- A load that waits leaves everything as it is. -/
theorem arriveAll_waits {s : State} {e : Pend} {w : FeWait} (hfe : e.fe = some w) (hwaits : s.readWaits s.cur s.cx e.seq w = true) :
    arriveAll s.cur s [e] = ([e], s) := by
  have hperform : performFe e s = (e, s) := by rw [performFe, hfe]; exact if_pos hwaits
  have hnow : e.present s.tick = false := by simp [Pend.present, hfe]
  simp only [arriveAll, hperform, hnow, Bool.false_eq_true, if_false]

/-- What a load that waits no more has read. -/
def performed (s : State) (e : Pend) (w : FeWait) : Pend :=
  { e with val := (s.feValue w).1, flags := if e.dst = .none then 0 else (s.feValue w).2, fe := none, ready := max e.ready s.tick
           lost := if s.cellsBad w.cells then some w.addr else none }

/-- A load that waits no more reads its granules, and leaves them as its qualifier says (R101, R267). -/
theorem performFe_reads {s : State} {e : Pend} {w : FeWait} (hfe : e.fe = some w) (hneed : w.need = true)
    (hwaits : s.readWaits s.cur s.cx e.seq w = false) : performFe e s = (performed s e w, readPads 1 w s) := by
  have hread : s.readCells (tileOf s.cur) w =
      (((s.feValue w).1, (s.feValue w).2, if s.cellsBad w.cells then some w.addr else none), readPads 1 w s) := by
    simp only [State.readCells, hneed]
    rfl
  rw [performFe, hfe]
  simp only [hwaits, hread, performed]
  rfl

theorem readPads_full {w : FeWait} (h : w.clear = false) (q : Nat) (s : State) (j : PadId) :
    ((readPads q w s).pad j).full = (s.pad j).full := by
  unfold readPads
  rw [h]
  dsimp only
  split
  · exact granted_full ..
  · rfl

/-- The performed load of a live step arrives (R16, R101). -/
theorem waitingLoadArrives {s : State} {e : Pend} {w : FeWait} (hin : s.cx.shadow = none) (hst : s.cx.stq = []) (hsy : s.cx.syq = [])
    (hlife : s.cx.life = .live) (hpend : s.cx.pend = [e]) (hfe : e.fe = some w) (hneed : w.need = true) (hload : e.load = true)
    (harr : e.arrived = false) (hready : e.ready ≤ s.tick) (hwaits : s.readWaits s.cur s.cx e.seq w = false) :
    exec .resultArrives s = .next ((readPads 1 w s).setCx
      { s.cx with ld := s.cx.ld - 1, pend := [{ performed s e w with arrived := true }] }) := by
  obtain ⟨hcur, _, _, htick⟩ := (readPads_sameWords 1 w s).toPadsOnly
  have hctx : (readPads 1 w s).ctx s.cur = s.cx := (readPads_sameWords 1 w s).toPadsOnly.ctx _
  have hnow : (performed s e w).present (readPads 1 w s).tick = true := by
    rw [htick]
    simp [Pend.present, performed, harr, hready, hload]
  have hcount : countArrival (performed s e w) (readPads 1 w s).tick s.cx = { s.cx with ld := s.cx.ld - 1 } := by
    rw [countArrival_harmless hin (.inl hlife), leaveClass_load (e := performed s e w) hload]
  have hcancel : cancelFault s.cur ((readPads 1 w s).modCtx s.cur (countArrival (performed s e w) (readPads 1 w s).tick)) =
      (readPads 1 w s).setCx { s.cx with ld := s.cx.ld - 1 } := by
    rw [State.modCtx, hctx, hcount, State.setCx, hcur]
    refine cancelFault_no_fault ?_
    rw [ctx_setCtx_self]
    simp [hlife]
  have hall : arriveAll s.cur s s.cx.pend =
      ([{ performed s e w with arrived := true }], (readPads 1 w s).setCx { s.cx with ld := s.cx.ld - 1 }) := by
    rw [hpend]
    simp only [arriveAll, performFe_reads hfe hneed hwaits, hnow, if_true, hcancel]
  rw [resultArrives_settled hin hall hcur (by rw [cx_setCx]; exact hst) (by rw [cx_setCx]; exact hsy), cx_setCx, setCx_setCx]

/-- R16, R18, R101, R110, R267, R397: the results of a context whose data is present arrive. -/
theorem resultsArrive : ResultsArrive := by
  intro s hin hst hsy c now
  refine ⟨fun hlife hfe => ?_, ?_, ?_⟩
  · have hharm : ∀ e ∈ s.cx.pend, Harmless s.cx e := fun e he =>
      hlife.imp id (fun ⟨st, pc, hended, hlost⟩ => ⟨st, pc, hended, hlost e he⟩)
    have hnow : ∀ e ∈ s.cx.pend, e.present s.tick = now e := fun e he => present_eq (hfe e he) s.tick
    obtain ⟨ctxs, hexec⟩ := presentResultsArrive s hin hst hsy hharm hfe
    refine ⟨_, hexec, ?_⟩
    simp only [cx_setCx]
    refine ⟨List.map_congr_left fun e he => by rw [arriveNow, hnow e he], ?_, ?_, rfl, rfl, rfl, rfl, fun _ => rfl⟩
    · exact congrArg (fun l => c.ld - List.length l) (List.filter_congr fun e he => by rw [hnow e he])
    · exact congrArg (fun l => c.sync - List.length l) (List.filter_congr fun e he => by rw [hnow e he])
  · intro e st pc a hlife hpend hfe hload harr hready hlost hlaunch
    exact lostResultArrives hin hst hsy hlife hpend hfe hload harr hready hlost hlaunch
  · intro e w k hlife hpend hfe hneed hcells hload harr hdst first
    have hwaits := readWaits_alone hin hst hpend hfe hneed
    refine ⟨fun hblocked => ?_, fun hfull hfirst hready => ?_⟩
    · have hstays : s.readWaits s.cur s.cx e.seq w = true := by
        rw [hwaits]
        obtain hempty | hbeaten := hblocked
        · rw [hempty]; rfl
        · rw [Bool.eq_true_of_not_eq_false hbeaten, Bool.or_true]
      have hall : arriveAll s.cur s s.cx.pend = ([e], s) := by rw [hpend, arriveAll_waits hfe hstays]
      exact ⟨_, resultArrives_settled hin hall rfl hst hsy, by rw [cx_setCx, ← hpend]⟩
    · have hgoes : s.readWaits s.cur s.cx e.seq w = false := by rw [hwaits, hfull, hfirst]; rfl
      have hwords := readPads_sameWords 1 w s
      refine ⟨_, { performed s e w with arrived := true }, waitingLoadArrives hin hst hsy hlife hpend hfe hneed hload harr hready hgoes, ?_⟩
      refine ⟨by rw [cx_setCx], rfl, rfl, rfl, rfl, rfl, by rw [cx_setCx], rfl, hwords.words, fun hclear i hi => ?_,
        fun hkeep p => readPads_full hkeep 1 s p⟩
      rw [pad_setCx, Pad.isFull, readPads_has, hclear]
      simp only [Bool.not_true, Bool.false_or, Bool.and_eq_false_iff, decide_eq_false_iff_not]
      exact .inr fun hno => hno k (by rw [hcells]; exact List.mem_singleton_self k) rfl i hi rfl

/-! ### Requests that are kept (R293, R308) -/

/-- The one request that is kept goes out when it follows no access that waits. -/
theorem flushSync_goes {s : State} {iss : Nat} {r : SyncReq} (hq : s.cx.syq = [(iss, r)]) (hgo : s.behind s.cur iss = false) :
    flushSync s = (s.setCx { s.cx with syq := [] }).resend { r with who := .ctx s.cur } := by
  have htaken : [(iss, r)].takeWhile (fun e => !s.behind s.cur e.1) = [(iss, r)] := by simp [hgo]
  rw [flushSync]
  simp only [State.modCx, hq, htaken]
  rfl

/-- A request goes to the end of the queue of its engine, as it was made where that is an engine of this package. -/
theorem resend_queue {s : State} {r : SyncReq} (h : s.engineOf r.ptr ≠ 2) :
    ((s.resend r).die (s.engineOf r.ptr)).queue = (s.die (s.engineOf r.ptr)).queue ++ [r] := by
  rw [State.resend, State.modDie, die_setDie_self, if_neg h]

theorem resend_cx (s : State) (r : SyncReq) : (s.resend r).cx = s.cx := rfl

theorem resend_mem (s : State) (r : SyncReq) : (s.resend r).mem = s.mem := rfl

/-- An issue is behind nothing where no load and no store waits (R293). -/
theorem behind_none {s : State} (hin : s.cx.shadow = none) (hst : s.cx.stq = []) (hfe : ∀ e ∈ s.cx.pend, e.fe = none) (iss : Nat) :
    s.behind s.cur iss = false := by
  have hload : s.cx.feBefore iss = false := by
    simp only [Ctx.feBefore, Ctx.results, hin, List.nil_append, List.any_eq_false]
    intro e he
    simp [hfe e he]
  change (s.cx.feBefore iss || s.cx.storeBefore iss) = false
  rw [hload, Ctx.storeBefore, hst]
  rfl

/-- An issue is behind the load of an earlier one that waits (R293). -/
theorem behind_load {s : State} {e : Pend} {w : FeWait} {iss : Nat} (hin : s.cx.shadow = none) (hpend : s.cx.pend = [e])
    (hfe : e.fe = some w) (harr : e.arrived = false) (hneed : w.need = true) (hiss : w.iss < iss) : s.behind s.cur iss = true := by
  have hload : s.cx.feBefore iss = true := by simp [Ctx.feBefore, Ctx.results, hin, hpend, hfe, harr, hneed, hiss]
  change (s.cx.feBefore iss || s.cx.storeBefore iss) = true
  rw [hload, Bool.true_or]

theorem arriveNow_fe (tick : Nat) (e : Pend) : (arriveNow tick e).fe = e.fe := by
  unfold arriveNow
  split <;> rfl

/-- R293, R308: a kept request goes when nothing before it waits, and is kept until then. -/
theorem keptRequestsGo : KeptRequestsGo := by
  intro s iss r hin hst hlife hq d
  refine ⟨fun hfe hd => ?_, fun e w hpend hfe harr hneed hiss hfull => ?_⟩
  · obtain ⟨hlist, ctxs, hstate, hctx⟩ := arriveAll_harmless (x := s.cur) hfe hin (fun _ _ => .inl hlife)
    have hcx : ({ s with ctxs := ctxs } : State).cx = leaveClasses s.tick s.cx.pend s.cx := hctx
    have hexec := resultArrives_unset hin (Prod.ext hlist hstate) rfl (by rw [hcx]; exact hst)
    rw [hcx, flushSync_goes (iss := iss) (r := r) (by rw [cx_setCx]; exact hq)] at hexec
    · exact ⟨_, hexec, by rw [resend_cx, cx_setCx], resend_queue (r := { r with who := .ctx s.cur }) hd, rfl⟩
    · refine behind_none (by rw [cx_setCx]; exact hin) (by rw [cx_setCx]; exact hst) (fun e he => ?_) iss
      rw [cx_setCx] at he
      obtain ⟨f, hf, rfl⟩ := List.mem_map.1 he
      exact (arriveNow_fe _ f).trans (hfe f hf)
  · have hwaits : s.readWaits s.cur s.cx e.seq w = true := by rw [readWaits_alone hin hst hpend hfe hneed, hfull]; rfl
    have hall : arriveAll s.cur s s.cx.pend = ([e], s) := by rw [hpend, arriveAll_waits hfe hwaits]
    have hexec := resultArrives_unset hin hall rfl hst
    rw [flushSync_kept] at hexec
    · exact ⟨_, hexec, by rw [cx_setCx, cx_setCx, ← hpend], fun _ => rfl⟩
    · intro f rest hf
      rw [cx_setCx] at hf
      obtain ⟨rfl, -⟩ := List.cons.inj (hq.symm.trans hf)
      exact behind_load (by rw [cx_setCx]; exact hin) (by rw [cx_setCx]) hfe harr hneed hiss

/-! ### The ends of a stall and of a full/empty wait (R122, R321) -/

/-- R122: a stall ends once its cycles have passed. -/
theorem yieldEnds : YieldEnds := by
  refine fun s => ⟨fun hne hle => ?_, fun hlt => ?_⟩
  · rw [exec_yieldEnd, execYieldEnd, if_pos ⟨hne, hle⟩]
    rfl
  · rw [exec_yieldEnd, execYieldEnd, if_neg (by omega)]

/-- The context that the time-outs of its loads leave, outside a handler (R321). -/
def timedOutCtx (limit tick : Nat) (c : Ctx) : Ctx :=
  timeOut tick (c.pend.filter (fun e => e.timedOut limit)) { c with pend := c.pend.filter (fun e => !e.timedOut limit), shadow := none }

theorem toNat_fld_low (x : W64) : (fld x 0 32).toNat = x.toNat % 2 ^ 32 := by simp [fld, BitVec.extractLsb'_toNat]

/-- The trap of the first hold of an `.EF` store that has waited longer than a limit, if one has (R321). -/
def holdTimeOut (limit : Nat) (s : State) : Host.Outcome State Fault Refusal :=
  match s.cx.feh.find? (fun h => decide (limit < h.tick)) with
  | some h => .next (if s.cx.life = .live then takeTrapHeld { cause := .feTimeout, slot := h.slot, addr := h.addr } s else s)
  | none => .next s

/-- FE_TIMEOUT ends no wait where the limit is 0, nor any of a context that is being saved (R321, R422). -/
theorem feTimeout_off {s : State} (h : (s.cx.cr 0x50).toNat % 2 ^ 32 = 0 ∨ (s.tile (s.cur / 2)).saves.any (fun v => v.ctx == s.cur) = true) :
    exec .feTimeout s = .next s := by
  rw [exec_feTimeout, execFeTimeout]
  refine if_pos ?_
  rw [toNat_fld_low, tileOf]
  simpa using h

/-- Outside a handler, FE_TIMEOUT ends the loads of a live step that have waited longer than the limit, then a hold. -/
theorem feTimeout_outside {s : State} {limit : Nat} (hin : s.cx.shadow = none) (hlimit : (s.cx.cr 0x50).toNat % 2 ^ 32 = limit)
    (hne : limit ≠ 0) (hsaved : (s.tile (s.cur / 2)).saves.any (fun v => v.ctx == s.cur) = false)
    (hlife : (timedOutCtx limit s.tick s.cx).life = .live) :
    exec .feTimeout s = holdTimeOut limit (s.setCx (timedOutCtx limit s.tick s.cx)) := by
  have hkeep : cancelFault s.cur (s.setCx (timedOutCtx limit s.tick s.cx)) = s.setCx (timedOutCtx limit s.tick s.cx) := by
    refine cancelFault_no_fault ?_
    rw [ctx_setCx, if_pos rfl, hlife]
    simp
  have hexec : exec .feTimeout s = holdTimeOut limit (cancelFault s.cur (s.setCx (timedOutCtx limit s.tick s.cx))) := by
    rw [exec_feTimeout, execFeTimeout]
    simp only [toNat_fld_low, hlimit, tileOf, hsaved, hne, decide_false, Bool.or_false, Bool.false_eq_true, if_false, State.modCx, hin,
      List.append_nil, Option.map_none]
    rfl
  rw [hexec, hkeep]

/-- The one load of a context that has waited longer than the limit leaves its class, and is a trap of a later bundle (R321). -/
theorem timedOutCtx_out {limit tick : Nat} {c : Ctx} {e : Pend} {w : FeWait} (hin : c.shadow = none) (hlife : c.life = .live)
    (hpend : c.pend = [e]) (hfe : e.fe = some w) (hneed : w.need = true) (harr : e.arrived = false) (hout : limit < w.tick) :
    timedOutCtx limit tick c = { c with
      pend := [], ld := c.ld - 1
      deferred := c.deferred ++ [{ cause := .feTimeout, whole := true, defer := true, addr := w.addr }] } := by
  have htimed : e.timedOut limit = true := by simp [Pend.timedOut, hfe, hneed, harr, hout]
  simp [timedOutCtx, hpend, htimed, timeOut, Ctx.inh, hlife, hfe, hin]

/-- No time-out changes a context whose waiting loads are within the limit. -/
theorem timedOutCtx_within {limit tick : Nat} {c : Ctx} (hin : c.shadow = none) (hwithin : ∀ e ∈ c.pend, e.timedOut limit = false) :
    timedOutCtx limit tick c = c := by
  have hgone : c.pend.filter (fun e => e.timedOut limit) = [] := List.filter_eq_nil_iff.2 fun e he => by simp [hwithin e he]
  have hkept : c.pend.filter (fun e => !e.timedOut limit) = c.pend := List.filter_eq_self.2 fun e he => by simp [hwithin e he]
  rw [timedOutCtx, hgone, hkept, ← hin]
  rfl

/-- A bundle without a request of its own gives up only what it asked of the queues (R233). -/
theorem leaveHolds_idle {s : State} (hhold : s.cx.hold = .none) (hpwr : s.cx.pwr = .none) :
    leaveHolds s.cur s = s.setCx s.cx.unaskAll := by
  have habandon : abandon s.cur s = s := by
    have h : (s.ctx s.cur).hold = .none := hhold
    rw [abandon, h]
  have hdrop : dropPower s.cur s = s := by
    have h : (s.ctx s.cur).pwr = .none := hpwr
    rw [dropPower, h]
  have hkeep : ({ s.cx.unaskAll with hold := .none, pwr := .none } : Ctx) = s.cx.unaskAll := by
    rw [Ctx.unaskAll, hhold, hpwr]
  rw [leaveHolds, habandon, hdrop]
  exact congrArg s.setCx hkeep

/-- R321: a full/empty access that has waited longer than the limit ends. -/
theorem fullEmptyTimeouts : FullEmptyTimeouts := by
  intro s hin hlife c limit saved
  refine ⟨feTimeout_off, fun e w hne hsaved hfeh hpend hfe hneed harr => ⟨fun hout => ?_, fun hle => ?_⟩,
    fun h hne hsaved hpend hfeh hhold hpwr => ?_⟩
  · have hctx := timedOutCtx_out (tick := s.tick) hin hlife hpend hfe hneed harr hout
    rw [feTimeout_outside hin rfl hne hsaved (by rw [hctx]; exact hlife), hctx, holdTimeOut, cx_setCx]
    simp only [c, hfeh]
    rfl
  · have hctx : timedOutCtx limit s.tick s.cx = s.cx := timedOutCtx_within hin fun f hf => by
      rw [hpend, List.mem_singleton] at hf
      subst hf
      simp [Pend.timedOut, hfe, hle]
    rw [feTimeout_outside hin rfl hne hsaved (by rw [hctx]; exact hlife), hctx, holdTimeOut, cx_setCx, hfeh]
    rfl
  · have hctx : timedOutCtx limit s.tick s.cx = s.cx := timedOutCtx_within hin (by simp [hpend, c])
    have hexec := feTimeout_outside hin rfl hne hsaved (by rw [hctx]; exact hlife)
    rw [hctx, holdTimeOut, cx_setCx, hfeh] at hexec
    refine ⟨fun hout => ?_, fun hle => ?_⟩
    · have hfind : [h].find? (fun h => decide (limit < h.tick)) = some h := by simp [hout]
      have hleave := leaveHolds_idle (s := s.setCx s.cx) (by rw [cx_setCx]; exact hhold) (by rw [cx_setCx]; exact hpwr)
      rw [cx_setCx, setCx_setCx] at hleave
      rw [hexec, hfind]
      simp only [hlife, if_true, takeTrapHeld]
      rw [hleave]
    · have hfind : [h].find? (fun h => decide (limit < h.tick)) = none := by simp [hle]
      rw [hexec, hfind]

/-! ### Steps that enter their contexts (R24, R42, R156, R157) -/

theorem writes_append (f : RegFile 64) (l l' : List (Nat × W64)) : f.writes (l ++ l') = (f.writes l).writes l' :=
  List.foldl_append

/-- Writes of other registers leave a register as it was. -/
theorem read_writes_other {f : RegFile 64} {l : List (Nat × W64)} {n : Nat} (h : ∀ e ∈ l, e.1 ≠ n) : (f.writes l).read n = f.read n := by
  induction l generalizing f with
  | nil => rfl
  | cons e l ih =>
    have hrest := ih (f := f.write e.1 e.2) fun e' he' => h e' (List.mem_cons_of_mem _ he')
    refine hrest.trans ?_
    rw [regs_read_write, if_neg (h e List.mem_cons_self)]

/-- The last write of a register stands. -/
theorem read_writes_last {f : RegFile 64} {l l' : List (Nat × W64)} {n : Nat} {v : W64} (h : ∀ e ∈ l', e.1 ≠ n) :
    (f.writes (l ++ (n, v) :: l')).read n = v := by
  rw [writes_append]
  change (((f.writes l).write n v).writes l').read n = v
  rw [read_writes_other h, regs_read_write, if_pos rfl]

/-- Each register that a file is filled with takes its value (R24). -/
theorem read_fill (a : Nat) (l : List W64) {i : Nat} (h : i < l.length) : (RegFile.fill a l).read (a + i) = (l[i]?).getD 0 := by
  induction l using List.reverseRecOn with
  | nil => simp at h
  | append_singleton l x ih =>
    have hfill : RegFile.fill a (l ++ [x]) = (RegFile.fill a l).write (a + l.length) x := by
      rw [RegFile.fill, List.length_append, List.length_singleton, List.range_succ, List.map_append,
        List.zip_append (by simp), writes_append]
      rfl
    rw [hfill, regs_read_write]
    by_cases hi : i = l.length
    · simp [hi]
    · have hlt : i < l.length := by simp at h; omega
      rw [if_neg (by omega), ih hlt, List.getElem?_append_left hlt]

/-- The keys of the coordinates of a step are registers from 0x12 on (R157). -/
theorem coords_key {coords : List W64} {e : Nat × W64} (h : e ∈ ((List.range coords.length).map (0x12 + ·)).zip coords) : 0x12 ≤ e.1 := by
  obtain ⟨i, -, hi⟩ := List.mem_map.1 (List.of_mem_zip h).1
  omega

/-- R157: a step begins with the profile of its code object. -/
theorem entryCrs_profile (s : State) (x : Nat) (k : Task) (l : Launch) (prof : Nat) :
    (s.entryCrs x k l prof).read 1 = BitVec.ofNat 64 prof := by
  rw [State.entryCrs, writes_append, writes_append, read_writes_other (by simp),
    read_writes_other fun e he => by have := coords_key he; omega]
  exact read_writes_last (l := []) (by simp)

/-- R321: a step begins with the limit of full/empty waits at its reset value. -/
theorem entryCrs_limit (s : State) (x : Nat) (k : Task) (l : Launch) (prof : Nat) : (s.entryCrs x k l prof).read 0x50 = 0x100000 := by
  rw [State.entryCrs, writes_append]
  exact read_writes_last (l := [_, _, _, _]) (by simp)

/-- The context of a step that enters with what its header says (R24, R42). -/
def enteredCtx (x : Nat) (k : Task) (l : Launch) (prof off len : Nat) (s : State) : Ctx :=
  { life := .live, pc := k.entry, a := RegFile.fill 1 k.args, crs := s.entryCrs x k l prof, task := k, asid := l.asid, gen := l.gen
    code := l.code, textOff := off, textLen := len, stall := s.tick + 1, born := s.tick }

theorem enterStep_header (x : Nat) (k : Task) (l : Launch) (prof off len : Nat) (s : State) :
    enterStep x k l (.ok (prof, off, len)) s = s.setCtx x (enteredCtx x k l prof off len s) := rfl

/-- The head of a dispatch lane enters once its header has been read (R42, R156). -/
theorem enterLane_disp {x : Nat} {k : Task} {l : Launch} {h : Except TrapInfo (Nat × Nat × Nat)} {s s1 : State} (hparked : k.parked = none)
    (hchild : k.child = false) (hl : s.launch? k.launch = some l)
    (hread : s.readHeader x l.asid l.gen l.code k.entry = (some h, s1)) :
    execStepEntry.enterLane x (some (false, k)) s =
      enterStep x k l h (s1.setTile (x / 2) { s1.tile (x / 2) with disp := (s1.tile (x / 2)).disp.drop 1 }) := by
  have hwaits : s.childWaits k = false := by rw [State.childWaits, hchild, Bool.false_and]
  simp only [execStepEntry.enterLane, hparked, hl, hwaits, hread, Bool.false_eq_true, if_false]
  rfl

/-- A free context of a running tile without resume entries takes from the lanes (R156, R432). -/
theorem exec_stepEntry_lane {s : State} (hx : s.cur < 512) (hfrozen : s.frozen = false) (hpctl : s.pctl ≠ 3) (hfree : s.ctxFree s.cur = true)
    (hrun : (s.tile (s.cur / 2)).freeze ≤ s.tick) (hresume : (s.tile (s.cur / 2)).resume = []) :
    exec .stepEntry s = .next (execStepEntry.enterLane s.cur (s.tile (s.cur / 2)).laneHead s) := by
  have hstop : s.tileStopped (tileOf s.cur) = false := by
    rw [State.tileStopped, hfrozen, Tile.frozenAt, tileOf]
    simp [hrun]
  have hnone : s.firstResume s.cur = none := by
    rw [State.firstResume, tileOf, hresume]
    rfl
  have hgo : (decide (512 ≤ s.cur) || s.tileStopped (tileOf s.cur) || s.pctl == 3 || !s.ctxFree s.cur) = false := by
    simp [hx, hstop, hpctl, hfree]
  rw [exec_stepEntry, execStepEntry]
  simp only [hgo, hnone]
  rfl

/-- R24, R42, R156, R157, R159: a step enters a free context. -/
theorem stepEntersContext : StepEntersContext := by
  intro s k rest l s1 prof off len hx hfrozen hpctl hfree t T hrun hresume hchildLane hdisp hparked hchild hl hread
  have hlane : T.laneHead = some (false, k) := by rw [Tile.laneHead, hchildLane, hdisp]
  have hexec := exec_stepEntry_lane hx hfrozen hpctl hfree hrun hresume
  rw [hlane, enterLane_disp hparked hchild hl hread, enterStep_header] at hexec
  refine ⟨_, hexec, rfl, rfl, rfl, rfl, rfl, rfl, rfl, rfl, rfl, fun i hi => ?_, rfl, rfl, rfl, rfl, rfl, rfl, rfl, rfl, rfl, rfl,
    entryCrs_profile .., entryCrs_limit ..⟩
  rw [Nat.add_comm]
  exact read_fill 1 k.args hi

/-! ### Steps that retire (R166, R168, R320) -/

/-- `t` has the launches, the memory, the allocations and the steps of `s`. -/
structure SameHoldings (s t : State) : Prop where
  launches : t.launches = s.launches
  mem : t.mem = s.mem
  allocs : ∀ n, (t.tile n).allocs = (s.tile n).allocs
  task : ∀ n, (t.ctx n).task = (s.ctx n).task

theorem SameHoldings.refl (s : State) : SameHoldings s s := ⟨rfl, rfl, fun _ => rfl, fun _ => rfl⟩

theorem SameHoldings.trans {s t u : State} (h : SameHoldings s t) (h' : SameHoldings t u) : SameHoldings s u :=
  ⟨h'.launches.trans h.launches, h'.mem.trans h.mem, fun n => (h'.allocs n).trans (h.allocs n), fun n => (h'.task n).trans (h.task n)⟩

theorem SameHoldings.foldl {α : Type} {f : State → α → State} (h : ∀ s a, SameHoldings s (f s a)) (l : List α) (s : State) :
    SameHoldings s (l.foldl f s) := by
  induction l generalizing s with
  | nil => exact .refl s
  | cons a l ih => exact (h s a).trans (ih _)

theorem SameHoldings.modCtx (s : State) (n : Nat) {f : Ctx → Ctx} (h : ∀ c, (f c).task = c.task) : SameHoldings s (s.modCtx n f) := by
  refine ⟨rfl, rfl, fun _ => rfl, fun m => ?_⟩
  rw [State.modCtx, ctx_setCtx]
  split
  next hn => rw [h, hn]
  · rfl

theorem SameHoldings.modTile (s : State) (n : Nat) {f : Tile → Tile} (h : ∀ T, (f T).allocs = T.allocs) : SameHoldings s (s.modTile n f) := by
  refine ⟨rfl, rfl, fun m => ?_, fun _ => rfl⟩
  rw [State.modTile, tile_setTile]
  split
  next hn => rw [h, hn]
  · rfl

theorem leaveNet_holdings (k id : Nat) (s : State) : SameHoldings s (leaveNet k id s) := by
  unfold leaveNet
  dsimp only
  split
  · exact ⟨rfl, rfl, fun _ => rfl, fun _ => rfl⟩
  · exact ⟨rfl, rfl, fun _ => rfl, fun _ => rfl⟩

theorem undraw_holdings (s : State) (n : Nat) : SameHoldings s (s.undraw n) := ⟨rfl, rfl, fun _ => rfl, fun _ => rfl⟩

theorem dequeue_holdings (s : State) (f : PwrReq → Bool) : SameHoldings s (s.dequeue f) := ⟨rfl, rfl, fun _ => rfl, fun _ => rfl⟩

theorem dropPower_holdings (n : Nat) (s : State) : SameHoldings s (dropPower n s) := by
  unfold dropPower
  split
  · refine .trans (undraw_holdings s _) (SameHoldings.modCtx _ n ?_)
    exact fun _ => rfl
  · refine .trans (dequeue_holdings s _) (SameHoldings.modCtx _ n ?_)
    exact fun _ => rfl
  · exact .refl s

theorem releaseReserves_holdings (n : Nat) (s : State) : SameHoldings s (releaseReserves n s) := by
  unfold releaseReserves
  refine .trans (dequeue_holdings s _) (SameHoldings.foldl (fun t cls => ?_) (List.range 3) _)
  split
  · have hdrop : SameHoldings t (t.dropReserve (tileOf n) cls) := .modTile t (tileOf n) fun _ => rfl
    exact hdrop.trans (undraw_holdings _ _)
  · exact .refl t

/-- What leaves with an ended step before its allocation are its feeds, its power request and its reserves (R345, R416). -/
theorem freeCtx_clears (x : Nat) (s : State) :
    ∃ u, SameHoldings s u ∧ freeCtx x s = (freeAlloc (tileOf x) (u.ctx x).task.sid u).setCtx x {} := by
  have hleave : SameHoldings s (((s.ctx x).commands.map (·.1)).foldl (fun s h => leaveNet (clOf x) (x * 16 + h) s) s) :=
    .foldl (fun t h => leaveNet_holdings (clOf x) (x * 16 + h) t) _ s
  unfold freeCtx
  exact ⟨_, (hleave.trans (dropPower_holdings x _)).trans (releaseReserves_holdings x _), rfl⟩

/-- R166: the context of a retired step is free, its allocation is released, and the launches and memory are as before. -/
theorem freeCtx_frees (x : Nat) (s : State) :
    (freeCtx x s).ctx x = {} ∧ (freeCtx x s).launches = s.launches ∧ (freeCtx x s).mem = s.mem ∧
      ((freeCtx x s).tile (tileOf x)).allocs = (s.tile (tileOf x)).allocs.filter (fun a => decide (a.owner ≠ (s.ctx x).task.sid)) := by
  obtain ⟨u, ⟨hlaunches, hmem, hallocs, htask⟩, hfree⟩ := freeCtx_clears x s
  rw [hfree]
  refine ⟨ctx_setCtx_self .., hlaunches, hmem, ?_⟩
  rw [tile_setCtx, freeAlloc, State.modTile, tile_setTile_self, htask]
  dsimp only
  rw [hallocs]
  exact List.filter_congr fun a _ => by rw [Bool.eq_iff_iff]; simp

/-- `t` is `s` but for the loans of its contexts (R320). -/
structure LoansOnly (s t : State) : Prop where
  rest : t = { s with ctxs := t.ctxs }
  ctx : ∀ n, ∃ loans, t.ctx n = { s.ctx n with loans := loans }

theorem LoansOnly.refl (s : State) : LoansOnly s s := ⟨rfl, fun n => ⟨(s.ctx n).loans, rfl⟩⟩

theorem LoansOnly.trans {s t u : State} (h : LoansOnly s t) (h' : LoansOnly t u) : LoansOnly s u := by
  refine ⟨by rw [h'.rest, h.rest], fun n => ?_⟩
  obtain ⟨a, ha⟩ := h.ctx n
  obtain ⟨b, hb⟩ := h'.ctx n
  exact ⟨b, by rw [hb, ha]⟩

theorem LoansOnly.foldl {α : Type} {f : State → α → State} (h : ∀ s a, LoansOnly s (f s a)) (l : List α) (s : State) :
    LoansOnly s (l.foldl f s) := by
  induction l generalizing s with
  | nil => exact .refl s
  | cons a l ih => exact (h s a).trans (ih _)

/-- Lending changes loans record by record. -/
theorem LoansOnly.map (s : State) (g : Nat × Ctx → List (Nat × Nat)) :
    LoansOnly s { s with ctxs := s.ctxs.map (fun p => (p.1, { p.2 with loans := g p })) } := by
  refine ⟨rfl, fun n => ?_⟩
  have hget : ∀ m : Map Ctx, ∃ loans, mapGet ({} : Ctx) (m.map (fun p => (p.1, { p.2 with loans := g p }))) n = { mapGet ({} : Ctx) m n with loans := loans } := by
    intro m
    induction m with
    | nil => exact ⟨[], rfl⟩
    | cons p m ih =>
      by_cases hp : p.1 = n
      · exact ⟨g p, by simp [mapGet, mapGet?, hp]⟩
      · simpa [mapGet, mapGet?, hp] using ih
  exact hget s.ctxs

theorem relend_loansOnly (s : State) : LoansOnly s s.relend := by
  rw [State.relend]
  exact (LoansOnly.map s fun _ => []).trans (.foldl (fun t _ => LoansOnly.map t _) _ _)

theorem launch?_modLaunch {s : State} {i : Nat} {l : Launch} (h : s.launch? i = some l) (f : Launch → Launch) :
    (s.modLaunch i f).launch? i = some (f l) := by
  rw [State.modLaunch, h]
  simp [State.launch?, mapGet?_mapPut]

theorem modLaunch_launches (s : State) (i : Nat) (f : Launch → Launch) : s.modLaunch i f = { s with launches := (s.modLaunch i f).launches } := by
  unfold State.modLaunch
  split <;> rfl

/-- A launch counts a retired step once, and once more where it ended with a cause (R168, R169). -/
theorem count_counts (l : Launch) (lin : W64) (t st : Nat) (cause : Option Cause) (pc : W64) :
    (l.count lin t st cause pc).retired = l.retired + 1 ∧
      (l.count lin t st cause pc).nfault = l.nfault + (if cause.isSome then 1 else 0) ∧
      (l.count lin t st cause pc).live = l.live ∧ (l.count lin t st cause pc).cancel = l.cancel := by
  unfold Launch.count
  cases cause with
  | some c => exact ⟨rfl, rfl, rfl, rfl⟩
  | none =>
    by_cases hst : st = 0
    · simp [hst]
    · simp [hst]

/-- A launch that a step has left counts one live step less, in its team too (R166). -/
def oneFewer (k : Task) (l : Launch) : Launch :=
  { l with live := l.live - 1
           teams := match mapGet? k.team l.teams with
             | some x => mapPut k.team { x with live := x.live - 1 } l.teams
             | none => l.teams }

/-- A step that is no child leaves its launch alone. -/
theorem stepGone_root {k : Task} (hk : k.child = false) (s : State) : stepGone k s = s.modLaunch k.launch (oneFewer k) := by
  unfold stepGone
  rw [hk]
  rfl

/-- A launch counts a step that retires and is no child, and of the state nothing else changes (R166, R168). -/
theorem countRetired {k : Task} (hk : k.child = false) {s : State} {l : Launch} (hl : s.launch? k.launch = some l) (t st : Nat)
    (cause : Option Cause) (pc : W64) :
    ∃ l' ls, stepGone k (s.modLaunch k.launch (fun l => l.count k.lin t st cause pc)) = { s with launches := ls } ∧
      mapGet? k.launch ls = some l' ∧ l'.retired = l.retired + 1 ∧ l'.nfault = l.nfault + (if cause.isSome then 1 else 0) ∧
      l'.live = l.live - 1 ∧ l'.cancel = l.cancel := by
  obtain ⟨hretired, hnfault, hlive, hcancel⟩ := count_counts l k.lin t st cause pc
  have hcounted := launch?_modLaunch hl (fun l => l.count k.lin t st cause pc)
  have hgone := launch?_modLaunch hcounted (oneFewer k)
  rw [stepGone_root hk]
  refine ⟨_, _, (modLaunch_launches ..).trans ?_, hgone, hretired, hnfault, congrArg (· - 1) hlive, hcancel⟩
  rw [modLaunch_launches s]

/-- What STEP_RETIRE leaves of an ended step without faulted commands whose counts are all zero (R166). -/
theorem exec_stepRetire_quiet {s : State} {st : Nat} {cause : Option Cause} {pc : W64} (hx : s.cur < 512) (hsaving : s.saving s.cur = false)
    (hfrozen : s.frozen = false) (hlife : s.cx.life = .ended st cause pc) (hfaulted : s.anyFaulted s.cur = false) (hquiet : s.cx.quiet = true) :
    exec .stepRetire s = .next (stepGone s.cx.task
      ((freeCtx s.cur s).modLaunch s.cx.task.launch (fun l => l.count s.cx.task.lin (tileOf s.cur) st cause pc))).relend := by
  have hlife' : (s.ctx s.cur).life = .ended st cause pc := hlife
  have hquiet' : (s.ctx s.cur).quiet = true := hquiet
  rw [exec_stepRetire, execStepRetire]
  simp only [Nat.not_le.2 hx, hsaving, hfrozen, hlife', hfaulted, hquiet', Bool.false_eq_true, or_self, if_false, Bool.not_true]
  rfl

/-- R166, R168: a quiet ended step retires. -/
theorem stepRetires : StepRetires := by
  intro s l st cause pc x c hx hsaving hfrozen hlife hfaulted hld hst hstr harr hsync hjcnt hchild hl
  have hquiet : s.cx.quiet = true := by
    change c.quiet = true
    simp [Ctx.quiet, hld, hst, hstr, harr, hsync, hjcnt]
  obtain ⟨hctx, hlaunches, hmem, hallocs⟩ := freeCtx_frees x s
  have hl1 : (freeCtx x s).launch? c.task.launch = some l := by rw [State.launch?, hlaunches]; exact hl
  obtain ⟨l', ls, hcount, hl', hretired, hnfault, hlive, hcancel⟩ := countRetired hchild hl1 (tileOf x) st cause pc
  have hexec := exec_stepRetire_quiet hx hsaving hfrozen hlife hfaulted hquiet
  rw [hcount] at hexec
  generalize freeCtx x s = u at *
  obtain ⟨hrelend, hloans⟩ := relend_loansOnly { u with launches := ls }
  obtain ⟨loans, hfree⟩ := hloans x
  have hempty : ({ u with launches := ls } : State).ctx x = {} := hctx
  rw [hempty] at hfree
  refine ⟨_, l', hexec, ?_, ?_, hretired, hnfault, hlive, hcancel, by rw [hfree], by rw [hfree], ?_⟩
  · rw [hrelend]; exact hl'
  · rw [hrelend]; exact hmem
  · rw [hrelend]; exact hallocs

/-- R166: an ended step with a class that is not zero stays. -/
theorem stepStaysWhileCounted : StepStaysWhileCounted := by
  intro s hfaulted hquiet
  have hquiet' : (s.ctx s.cur).quiet = false := hquiet
  rw [exec_stepRetire, execStepRetire]
  split
  · rfl
  · simp only [hfaulted, hquiet', Bool.false_eq_true, if_false, Bool.not_false, if_true]
    split <;> rfl

/-- Settles O24: events of a context, one by one. -/
theorem contextAndStepEvents : Obligations.ContextAndStepEvents :=
  ⟨resultsArrive, keptRequestsGo, yieldEnds, fullEmptyTimeouts, stepEntersContext, stepRetires, stepStaysWhileCounted⟩

end Sys2Proof.Laws

/-! ## The encoding and the decoder (family 02): O48, O5 to O8, O47, O49 to O51, O60 -/

namespace Sys2Proof.Laws
open Sys2Proof.Machine

/-- R355: a tile has no operation of the gallery cores, so its bundle decoder refuses GBDRAIN's own bundle. -/
theorem decodeBundle_gbdrain_tile :
    decodeBundle false 0x88000000 [0xD8000000] = .error (.illegalOp .a) := by decide

/-- Refutes O48: GBDRAIN with its fields zero is well-formed, and its word 0xD8000000 decodes back to it, but `decodeBundle false`
decodes for a tile, which has no operation of the gallery cores (R355), and refuses the bundle that holds the word alone. -/
theorem not_encodeDecodeRoundTrip : ¬ Obligations.EncodeDecodeRoundTrip := by
  intro h
  obtain ⟨-, hd, ws, b, hsolo, hb, -⟩ :=
    h (.gbdrain { rd := 0, gp := 0 }) .a 0xD8000000 none (by decide) (by decide)
  have hwords : hd = 0x88000000 ∧ ws = [0xD8000000] := by simpa [soloWords, eq_comm] using hsolo
  rw [hwords.1, hwords.2, decodeBundle_gbdrain_tile] at hb
  cases hb

/-- Settles O47: each word is decoded by evaluation. -/
theorem specWordsDecode : Obligations.SpecWordsDecode :=
  ⟨rfl, rfl, rfl, rfl, rfl, rfl, rfl, rfl, rfl⟩

end Sys2Proof.Laws

namespace Sys2Proof.Laws
open Sys2Proof.Machine

/-! ### A bundle that does not decode traps when it issues (R52) -/

/-- R52: the issue of a bundle takes the trap that the fetch finds for it. -/
theorem issueTraps_of_fetch {gal : Bool} {h : W32} {ws : List W32} {t : TrapInfo}
    (hfetch : ∀ (s : State) (more : List W32), s.cx.skip = false → TextAt s h (ws ++ more) → isGal s.cur = gal →
      s.cx.pc.toNat % 64 + bundleBytes h ≤ 64 → s.cx.pc.toNat + bundleBytes h ≤ s.cx.textLen →
      s.fetch = (.trap s.cx.pc t, s)) : IssueTraps gal h ws t := by
  intro s s1 x rest more hissue hskip htext hgal hline hend
  have hcur : s1.cur = x := by rw [hissue.2.2.1]; rfl
  obtain ⟨hstep, -, htrap, -⟩ := bundleIssueRunsTheBundle s s1 s1 s1 x rest s1.cx.pc hissue
  rw [hstep, htrap t (hfetch s1 more hskip htext (hcur.symm ▸ hgal) hline hend)]

/-- R52 step 1: words that form no legal bundle. -/
theorem issueTraps_illegalBundle {gal : Bool} {h : W32} {ws : List W32} (hlen : ws.length = bundleBytes h / 4 - 1)
    (hdecode : decodeBundle gal h ws = .error .illegalBundle) :
    IssueTraps gal h ws { cause := .illegalBundle, whole := true } := by
  refine issueTraps_of_fetch fun s more hskip htext hgal hline hend => ?_
  obtain ⟨-, -, hillegal, -⟩ := (fetchReadsKeptText htext).2 hline hend
  rw [← hlen, List.take_left, hgal] at hillegal
  exact hillegal hskip hdecode

/-- The number of a slot in a trap record (R379). -/
def slotNo : Slot → Nat
  | .a => 0
  | .v => 1
  | .m => 2
  | .b => 3

/-- R52 step 2: the word of slot `sl` has no meaning. -/
theorem issueTraps_illegalOp {gal : Bool} {h : W32} {ws : List W32} {sl : Slot} (hlen : ws.length = bundleBytes h / 4 - 1)
    (hdecode : decodeBundle gal h ws = .error (.illegalOp sl)) :
    IssueTraps gal h ws { cause := .illegalOp, slot := slotNo sl } := by
  refine issueTraps_of_fetch fun s more hskip htext hgal hline hend => ?_
  obtain ⟨-, -, -, hillegal⟩ := (fetchReadsKeptText htext).2 hline hend
  rw [← hlen, List.take_left, hgal] at hillegal
  refine (hillegal sl hskip hdecode).trans ?_
  cases sl <;> rfl

/-! ### The bundle of one operation (R29, R30) -/

theorem decodeBundle_soloA (gal : Bool) {w : W32} {d : DecodeErr} (h : decodeSlot .a (w.setWidth 64) none = .error d) :
    decodeBundle gal 0x88000000 [w] = .error (.illegalOp .a) := by
  cases gal <;> simp [decodeBundle, headerOk, slotWords, decodeSlots, fld, h]

theorem decodeBundle_soloB (gal : Bool) {w : W32} {d : DecodeErr} (h : decodeSlot .b (w.setWidth 64) none = .error d) :
    decodeBundle gal 0xC0000000 [w] = .error (.illegalOp .b) := by
  cases gal <;> simp [decodeBundle, headerOk, slotWords, decodeSlots, fld, h]

/-- A 64-bit word is its two halves, the low one first in the text (R30). -/
theorem word64_halves (w : W64) : word64 [w.setWidth 32, (w >>> 32).setWidth 32] = w := by
  have hlow : w.setWidth 32 = fld w 0 32 := BitVec.setWidth_eq_extractLsb' (by decide)
  calc (w >>> 32).setWidth 32 ++ w.setWidth 32 = fld w 32 32 ++ fld w 0 32 := by rw [hlow]; rfl
    _ = fld w 0 64 := BitVec.extractLsb'_append_extractLsb'_eq_extractLsb' rfl
    _ = w := RoundTrip.fld_all w

theorem decodeBundle_soloV {w : W64} {d : DecodeErr} (h : decodeSlot .v w none = .error d) :
    decodeBundle false 0x90000000 [w.setWidth 32, (w >>> 32).setWidth 32] = .error (.illegalOp .v) := by
  simp [decodeBundle, headerOk, slotWords, decodeSlots, fld, word64_halves, h]

theorem decodeBundle_soloM {w : W64} {d : DecodeErr} (h : decodeSlot .m w none = .error d) :
    decodeBundle false 0xA0000000 [w.setWidth 32, (w >>> 32).setWidth 32] = .error (.illegalOp .m) := by
  simp [decodeBundle, headerOk, slotWords, decodeSlots, fld, word64_halves, h]

/-! ### Words of opcode 0 (R50) -/

theorem toNat_fld {n : Nat} (w : BitVec n) (s m : Nat) : (fld w s m).toNat = w.toNat / 2 ^ s % 2 ^ m := by
  simp [fld, Nat.shiftRight_eq_div_pow]

/-- The fields above the value of a word are zero. -/
theorem fld_top_eq_zero {n k m : Nat} {w : BitVec n} (h : w.toNat < 2 ^ k) : (fld w k m).toNat = 0 := by
  rw [toNat_fld, Nat.div_eq_of_lt h, Nat.zero_mod]

theorem decodeA_opZero {w : BitVec 32} (hw : w ≠ 0) (hop : w.toNat < 2 ^ 26) (e : Option W32) :
    decodeA w e = .error .reservedField := by
  rw [decodeA, fld_top_eq_zero hop]
  exact if_neg (by simpa using hw)

theorem decodeB_opZero {w : BitVec 32} (hw : w ≠ 0) (hop : w.toNat < 2 ^ 26) (e : Option W32) :
    decodeB w e = .error .reservedField := by
  rw [decodeB, fld_top_eq_zero hop]
  exact if_neg (by simpa using hw)

theorem decodeV_opZero {w : W64} (hw : w ≠ 0) (hop : w.toNat < 2 ^ 56) (e : Option W32) :
    decodeV w e = .error .reservedField := by
  rw [decodeV, fld_top_eq_zero hop]
  exact if_neg (by simpa using hw)

theorem decodeM_opZero {w : W64} (hw : w ≠ 0) (hop : w.toNat < 2 ^ 56) (e : Option W32) :
    decodeM w e = .error .reservedField := by
  rw [decodeM, fld_top_eq_zero hop]
  exact if_neg (by simpa using hw)

/-- The low half of a word below 2 ^ 26 keeps its value. -/
theorem lowWord_opZero {w : W64} (hw : w ≠ 0) (hop : w.toNat < 2 ^ 26) :
    w.setWidth 32 ≠ 0 ∧ (w.setWidth 32).toNat < 2 ^ 26 := by
  refine ⟨fun h => hw ?_, ?_⟩ <;> bv_omega

/-- Settles O50: the decoders refuse a word of opcode 0 that is not zero, so the fetch finds the trap of its slot. -/
theorem nopWords : Obligations.NopWords := by
  refine ⟨rfl, rfl, rfl, rfl, fun s => ⟨rfl, rfl, rfl, rfl, fun a => ⟨rfl, rfl, rfl, rfl⟩⟩, fun gal w hw hop => ?_,
    fun w hw hop => ?_⟩
  · obtain ⟨hlow, hlowOp⟩ := lowWord_opZero hw hop
    have ha := (RoundTrip.slot_a (w.setWidth 32) none).trans (decodeA_opZero hlow hlowOp none)
    have hb := (RoundTrip.slot_b (w.setWidth 32) none).trans (decodeB_opZero hlow hlowOp none)
    exact ⟨issueTraps_illegalOp (sl := .a) (by simp [bundleBytes, fld]) (decodeBundle_soloA gal ha),
      issueTraps_illegalOp (sl := .b) (by simp [bundleBytes, fld]) (decodeBundle_soloB gal hb)⟩
  · exact ⟨issueTraps_illegalOp (sl := .v) (by simp [bundleBytes, fld]) (decodeBundle_soloV (decodeV_opZero hw hop none)),
      issueTraps_illegalOp (sl := .m) (by simp [bundleBytes, fld]) (decodeBundle_soloM (decodeM_opZero hw hop none))⟩

end Sys2Proof.Laws

namespace Sys2Proof.Laws
open Sys2Proof.Machine

/-! ### Words put together from their fields (R55 to R58)

One lemma a word layout: opcode, fields and zero fields, from the top bit down, are the word they were read from. -/

/-- The bits of a word above and a field below them are adjacent bits of the word. -/
theorem glue {n k t : Nat} {w : BitVec k} {x : BitVec n} (hx : x = fld w t n) (s m : Nat) (ht : t = s + m := by rfl) :
    x ++ fld w s m = fld w s (n + m) := by
  rw [hx]
  exact BitVec.extractLsb'_append_extractLsb'_eq_extractLsb' ht

/-- The same where the field has one value alone. -/
theorem glueConst {n m k s t : Nat} {w : BitVec k} {x : BitVec n} {y : BitVec m} (hx : x = fld w t n)
    (hy : (fld w s m == y) = true) (ht : t = s + m := by rfl) : x ++ y = fld w s (n + m) := by
  rw [← eq_of_beq hy]
  exact glue hx s m ht

theorem word_ofAR {w : BitVec 32} {op : BitVec 6} {k : BitVec 4} (hop : op = fld w 26 6) (hz : (fld w 4 4 == k) = true) :
    op ++ (ofAR w).rd ++ (ofAR w).ra ++ (ofAR w).rb ++ k ++ (ofAR w).gp = w :=
  (glue (glueConst (glue (glue (glue hop 20 6) 14 6) 8 6) hz) 0 4).trans (RoundTrip.fld_all w)

theorem word_ofAR1 {w : BitVec 32} {op : BitVec 6} {k : BitVec 4} (hop : op = fld w 26 6)
    (hz : (zeroAR1 w && fld w 4 4 == k) = true) :
    op ++ (ofAR1 w).rd ++ (ofAR1 w).ra ++ 0#6 ++ k ++ (ofAR1 w).gp = w := by
  obtain ⟨z0, z1⟩ := Bool.and_eq_true_iff.1 hz
  exact (glue (glueConst (glueConst (glue (glue hop 20 6) 14 6) z0) z1) 0 4).trans (RoundTrip.fld_all w)

theorem word_ofARn {w : BitVec 32} {op : BitVec 6} (hop : op = fld w 26 6) :
    op ++ (ofARn w).rd ++ (ofARn w).ra ++ (ofARn w).rb ++ (ofARn w).fn ++ (ofARn w).gp = w :=
  (glue (glue (glue (glue (glue hop 20 6) 14 6) 8 6) 4 4) 0 4).trans (RoundTrip.fld_all w)

theorem word_ofAI {w : BitVec 32} {op : BitVec 6} {e : Option W32} (hop : op = fld w 26 6) :
    op ++ (ofAI w e).rd ++ (ofAI w e).ra ++ (ofAI w e).imm ++ (ofAI w e).gp = w :=
  (glue (glue (glue (glue hop 20 6) 14 6) 4 10) 0 4).trans (RoundTrip.fld_all w)

theorem word_ofAI0 {w : BitVec 32} {op : BitVec 6} {e : Option W32} (hop : op = fld w 26 6) (hz : zeroAI0 w = true) :
    op ++ (ofAI0 w e).rd ++ 0#6 ++ (ofAI0 w e).imm ++ (ofAI0 w e).gp = w :=
  (glue (glue (glueConst (glue hop 20 6) hz) 4 10) 0 4).trans (RoundTrip.fld_all w)

theorem word_ofAM {w : BitVec 32} {op : BitVec 6} {e : Option W32} (hop : op = fld w 26 6) :
    op ++ (ofAM w e).rd ++ (ofAM w e).ra ++ (ofAM w e).step ++ (ofAM w e).sz ++ (ofAM w e).q ++ (ofAM w e).gp = w :=
  (glue (glue (glue (glue (glue (glue hop 20 6) 14 6) 8 6) 6 2) 4 2) 0 4).trans (RoundTrip.fld_all w)

theorem word_ofAX {w : BitVec 32} {op : BitVec 6} (hop : op = fld w 26 6) :
    op ++ (ofAX w).rd ++ (ofAX w).ra ++ (ofAX w).rb ++ (ofAX w).sz ++ (ofAX w).q ++ (ofAX w).gp = w :=
  (glue (glue (glue (glue (glue (glue hop 20 6) 14 6) 8 6) 6 2) 4 2) 0 4).trans (RoundTrip.fld_all w)

theorem word_ofAR1n {w : BitVec 32} {op : BitVec 6} (hop : op = fld w 26 6) (hz : zeroAR1n w = true) :
    op ++ (ofAR1n w).rd ++ (ofAR1n w).ra ++ 0#6 ++ (ofAR1n w).fn ++ (ofAR1n w).gp = w :=
  (glue (glue (glueConst (glue (glue hop 20 6) 14 6) hz) 4 4) 0 4).trans (RoundTrip.fld_all w)

theorem word_ofAT {w : BitVec 32} {op : BitVec 6} (hop : op = fld w 26 6) :
    op ++ (ofAT w).rd ++ (ofAT w).sf ++ (ofAT w).src ++ (ofAT w).sel ++ (ofAT w).gp = w :=
  (glue (glue (glue (glue (glue hop 20 6) 18 2) 9 9) 4 5) 0 4).trans (RoundTrip.fld_all w)

theorem word_ofACRr {w : BitVec 32} {op : BitVec 6} (hop : op = fld w 26 6) (hz : zeroACRr w = true) :
    op ++ (ofACRr w).reg ++ 0#6 ++ (ofACRr w).num ++ (ofACRr w).gp = w :=
  (glue (glue (glueConst (glue hop 20 6) hz) 4 10) 0 4).trans (RoundTrip.fld_all w)

theorem word_ofACRw {w : BitVec 32} {op : BitVec 6} (hop : op = fld w 26 6) (hz : zeroACRw w = true) :
    op ++ 0#6 ++ (ofACRw w).reg ++ (ofACRw w).num ++ (ofACRw w).gp = w :=
  (glue (glue (glue (glueConst hop hz) 14 6) 4 10) 0 4).trans (RoundTrip.fld_all w)

theorem word_ofAD {w : BitVec 32} {op : BitVec 6} {k : BitVec 4} (hop : op = fld w 26 6)
    (hz : (zeroAD w && fld w 4 4 == k) = true) :
    op ++ (ofAD w).rd ++ 0#12 ++ k ++ (ofAD w).gp = w := by
  obtain ⟨z0, z1⟩ := Bool.and_eq_true_iff.1 hz
  exact (glue (glueConst (glueConst (glue hop 20 6) z0) z1) 0 4).trans (RoundTrip.fld_all w)

theorem word_ofASn {w : BitVec 32} {op : BitVec 6} (hop : op = fld w 26 6) (hz : zeroASn w = true) :
    op ++ 0#6 ++ (ofASn w).ra ++ (ofASn w).rb ++ (ofASn w).fn ++ (ofASn w).gp = w :=
  (glue (glue (glue (glue (glueConst hop hz) 14 6) 8 6) 4 4) 0 4).trans (RoundTrip.fld_all w)

theorem word_ofAS1 {w : BitVec 32} {op : BitVec 6} (hop : op = fld w 26 6) (hz : zeroAS1 w = true) :
    op ++ 0#6 ++ (ofAS1 w).ra ++ 0#10 ++ (ofAS1 w).gp = w := by
  obtain ⟨z0, z1⟩ := Bool.and_eq_true_iff.1 hz
  exact (glue (glueConst (glue (glueConst hop z0) 14 6) z1) 0 4).trans (RoundTrip.fld_all w)

theorem word_ofBJ {w : BitVec 32} {op : BitVec 6} {e : Option W32} (hop : op = fld w 26 6) :
    op ++ (ofBJ w e).gp ++ (ofBJ w e).gn ++ (ofBJ w e).ofs = w :=
  (glue (glue (glue hop 22 4) 21 1) 0 21).trans (RoundTrip.fld_all w)

theorem word_ofBG {w : BitVec 32} {op : BitVec 6} {k : BitVec 9} (hop : op = fld w 26 6)
    (hz : (zeroBG w && fld w 0 9 == k) = true) :
    op ++ (ofBG w).gp ++ (ofBG w).gn ++ 0#12 ++ k = w := by
  obtain ⟨z0, z1⟩ := Bool.and_eq_true_iff.1 hz
  exact (glueConst (glueConst (glue (glue hop 22 4) 21 1) z0) z1).trans (RoundTrip.fld_all w)

theorem word_ofBL {w : BitVec 32} {op : BitVec 6} {e : Option W32} (hop : op = fld w 26 6) :
    op ++ (ofBL w e).lc ++ (ofBL w e).cnt ++ (ofBL w e).last = w :=
  (glue (glue (glue hop 24 2) 12 12) 0 12).trans (RoundTrip.fld_all w)

theorem word_ofBLr {w : BitVec 32} {op : BitVec 6} {e : Option W32} (hop : op = fld w 26 6) (hz : zeroBLr w = true) :
    op ++ (ofBLr w e).lc ++ 0#12 ++ (ofBLr w e).last = w :=
  (glue (glueConst (glue hop 24 2) hz) 0 12).trans (RoundTrip.fld_all w)

theorem word_ofBLs {w : BitVec 32} {op : BitVec 6} {e : Option W32} (hop : op = fld w 26 6) (hz : zeroBLs w = true) :
    op ++ (ofBLs w e).lc ++ 0#8 ++ (ofBLs w e).hnd ++ (ofBLs w e).last = w :=
  (glue (glue (glueConst (glue hop 24 2) hz) 12 4) 0 12).trans (RoundTrip.fld_all w)

theorem word_ofBW {w : BitVec 32} {op : BitVec 6} (hop : op = fld w 26 6) (hz : zeroBW w = true) :
    op ++ (ofBW w).gp ++ 0#2 ++ (ofBW w).nld ++ (ofBW w).nst ++ (ofBW w).nstr ++ (ofBW w).narr ++ (ofBW w).nsync = w :=
  (glue (glue (glue (glue (glue (glueConst (glue hop 22 4) hz) 16 4) 12 4) 8 4) 4 4) 0 4).trans (RoundTrip.fld_all w)

theorem word_ofBSy {w : BitVec 32} {op : BitVec 6} {e : Option W32} (hop : op = fld w 26 6) (hz : zeroBSy w = true) :
    op ++ (ofBSy w e).gp ++ (ofBSy w e).gn ++ (ofBSy w e).va ++ (ofBSy w e).vb ++ (ofBSy w e).vd ++ (ofBSy w e).imm ++
      0#4 ++ (ofBSy w e).fn = w :=
  (glue (glueConst (glue (glue (glue (glue (glue (glue hop 22 4) 21 1) 17 4) 13 4) 9 4) 8 1) hz) 0 4).trans
    (RoundTrip.fld_all w)

theorem word_ofBFe {w : BitVec 32} {op : BitVec 6} (hop : op = fld w 26 6) (hz : zeroBFe w = true) :
    op ++ (ofBFe w).gp ++ (ofBFe w).gn ++ 0#18 ++ (ofBFe w).scope = w :=
  (glue (glueConst (glue (glue hop 22 4) 21 1) hz) 0 3).trans (RoundTrip.fld_all w)

theorem word_ofBPt {w : BitVec 32} {op : BitVec 6} {k : BitVec 9} (hop : op = fld w 26 6)
    (hz : (zeroBPt w && fld w 0 9 == k) = true) :
    op ++ (ofBPt w).gp ++ (ofBPt w).gn ++ (ofBPt w).va ++ 0#8 ++ k = w := by
  obtain ⟨z0, z1⟩ := Bool.and_eq_true_iff.1 hz
  exact (glueConst (glueConst (glue (glue (glue hop 22 4) 21 1) 17 4) z0) z1).trans (RoundTrip.fld_all w)

theorem word_ofBSn {w : BitVec 32} {op : BitVec 6} {e : Option W32} (hop : op = fld w 26 6) (hz : zeroBSn w = true) :
    op ++ (ofBSn w e).gp ++ (ofBSn w e).gn ++ (ofBSn w e).va ++ (ofBSn w e).vb ++ 0#4 ++ (ofBSn w e).imm ++ 0#4 ++
      (ofBSn w e).fn = w := by
  obtain ⟨z0, z1⟩ := Bool.and_eq_true_iff.1 hz
  exact (glue (glueConst (glue (glueConst (glue (glue (glue (glue hop 22 4) 21 1) 17 4) 13 4) z0) 8 1) z1) 0 4).trans
    (RoundTrip.fld_all w)

theorem word_ofBBi {w : BitVec 32} {op : BitVec 6} (hop : op = fld w 26 6) (hz : zeroBBi w = true) :
    op ++ (ofBBi w).gp ++ (ofBBi w).gn ++ (ofBBi w).va ++ (ofBBi w).vb ++ (ofBBi w).vd ++ 0#6 ++ (ofBBi w).scope = w :=
  (glue (glueConst (glue (glue (glue (glue (glue hop 22 4) 21 1) 17 4) 13 4) 9 4) hz) 0 3).trans (RoundTrip.fld_all w)

theorem word_ofBCa {w : BitVec 32} {op : BitVec 6} (hop : op = fld w 26 6) (hz : zeroBCa w = true) :
    op ++ (ofBCa w).gp ++ (ofBCa w).gn ++ (ofBCa w).va ++ (ofBCa w).vb ++ (ofBCa w).vd ++ 0#9 = w :=
  (glueConst (glue (glue (glue (glue (glue hop 22 4) 21 1) 17 4) 13 4) 9 4) hz).trans (RoundTrip.fld_all w)

theorem word_ofBPo {w : BitVec 32} {op : BitVec 6} (hop : op = fld w 26 6) (hz : zeroBPo w = true) :
    op ++ (ofBPo w).gp ++ (ofBPo w).gn ++ (ofBPo w).port ++ 0#16 ++ (ofBPo w).dir = w :=
  (glue (glueConst (glue (glue (glue hop 22 4) 21 1) 17 4) hz) 0 1).trans (RoundTrip.fld_all w)

theorem word_ofBMa {w : BitVec 32} {op : BitVec 6} (hop : op = fld w 26 6) (hz : zeroBMa w = true) :
    op ++ (ofBMa w).gp ++ (ofBMa w).gn ++ 0#13 ++ (ofBMa w).mask = w :=
  (glue (glueConst (glue (glue hop 22 4) 21 1) hz) 0 8).trans (RoundTrip.fld_all w)

theorem word_ofBNx {w : BitVec 32} {op : BitVec 6} {e : Option W32} (hop : op = fld w 26 6) (hz : zeroBNx w = true) :
    op ++ (ofBNx w e).gp ++ (ofBNx w e).gn ++ 0#12 ++ (ofBNx w e).n = w :=
  (glue (glueConst (glue (glue hop 22 4) 21 1) hz) 0 9).trans (RoundTrip.fld_all w)

theorem word_ofBN {w : BitVec 32} {op : BitVec 6} (hop : op = fld w 26 6) (hz : zeroBN w = true) :
    op ++ (ofBN w).gp ++ (ofBN w).gn ++ 0#12 ++ (ofBN w).n = w :=
  (glue (glueConst (glue (glue hop 22 4) 21 1) hz) 0 9).trans (RoundTrip.fld_all w)

theorem word_ofBEr {w : BitVec 32} {op : BitVec 6} (hop : op = fld w 26 6) (hz : zeroBEr w = true) :
    op ++ (ofBEr w).gp ++ (ofBEr w).gn ++ 0#20 ++ (ofBEr w).skip = w :=
  (glue (glueConst (glue (glue hop 22 4) 21 1) hz) 0 1).trans (RoundTrip.fld_all w)

theorem word_ofBSv {w : BitVec 32} {op : BitVec 6} (hop : op = fld w 26 6) (hz : zeroBSv w = true) :
    op ++ (ofBSv w).gp ++ (ofBSv w).gn ++ (ofBSv w).va ++ 0#4 ++ (ofBSv w).vd ++ (ofBSv w).n = w :=
  (glue (glue (glueConst (glue (glue (glue hop 22 4) 21 1) 17 4) hz) 9 4) 0 9).trans (RoundTrip.fld_all w)

theorem word_ofBLg {w : BitVec 32} {op : BitVec 6} (hop : op = fld w 26 6) (hz : zeroBLg w = true) :
    op ++ (ofBLg w).gp ++ (ofBLg w).gn ++ (ofBLg w).va ++ (ofBLg w).vb ++ (ofBLg w).vd ++ 0#5 ++ (ofBLg w).tt = w :=
  (glue (glueConst (glue (glue (glue (glue (glue hop 22 4) 21 1) 17 4) 13 4) 9 4) hz) 0 4).trans (RoundTrip.fld_all w)

theorem word_ofBLc {w : BitVec 32} {op : BitVec 6} {e : Option W32} (hop : op = fld w 26 6) (hz : zeroBLc w = true) :
    op ++ (ofBLc w e).lc ++ (ofBLc w e).cnt ++ 0#12 = w :=
  (glueConst (glue (glue hop 24 2) 12 12) hz).trans (RoundTrip.fld_all w)

theorem word_ofBX {w : BitVec 32} {op : BitVec 6} (hop : op = fld w 26 6) (hz : zeroBX w = true) :
    op ++ (ofBX w).dk ++ (ofBX w).dst ++ (ofBX w).sf ++ (ofBX w).src ++ (ofBX w).ty ++ 0#6 = w :=
  (glueConst (glue (glue (glue (glue (glue hop 24 2) 20 4) 19 1) 10 9) 6 4) hz).trans (RoundTrip.fld_all w)

theorem word_ofVR {w : BitVec 64} {op : BitVec 8} {e : Option W32} (hop : op = fld w 56 8) (hz : zeroVR w = true) :
    op ++ (ofVR w e).vd ++ (ofVR w e).va ++ (ofVR w e).vb ++ (ofVR w e).vc ++ (ofVR w e).vm ++ (ofVR w e).ty ++
      (ofVR w e).rm ++ (ofVR w e).sm ++ (ofVR w e).fn ++ 0#2 = w :=
  (glueConst (glue (glue (glue (glue (glue (glue (glue (glue (glue hop 47 9) 38 9) 29 9) 20 9) 16 4) 12 4) 9 3) 8 1) 2 6) hz).trans
    (RoundTrip.fld_all w)

theorem word_ofVL {w : BitVec 64} {op : BitVec 8} {e : Option W32} (hop : op = fld w 56 8) :
    op ++ (ofVL w e).vd ++ (ofVL w e).va ++ (ofVL w e).vb ++ (ofVL w e).ofs ++ (ofVL w e).vm ++ (ofVL w e).ty ++
      (ofVL w e).rm ++ (ofVL w e).sm ++ (ofVL w e).step ++ (ofVL w e).q = w :=
  (glue (glue (glue (glue (glue (glue (glue (glue (glue (glue hop 47 9) 38 9) 29 9) 20 9) 16 4) 12 4) 9 3) 8 1) 2 6) 0 2).trans
    (RoundTrip.fld_all w)

theorem word_ofVX {w : BitVec 64} {op : BitVec 8} (hop : op = fld w 56 8) (hz : zeroVX w = true) :
    op ++ (ofVX w).vd ++ (ofVX w).src ++ (ofVX w).lane ++ (ofVX w).bc ++ 0#15 ++ (ofVX w).vm ++ (ofVX w).ty ++ 0#12 = w := by
  obtain ⟨z0, z1⟩ := Bool.and_eq_true_iff.1 hz
  exact (glueConst (glue (glue (glueConst (glue (glue (glue (glue hop 47 9) 41 6) 36 5) 35 1) z0) 16 4) 12 4) z1).trans
    (RoundTrip.fld_all w)

theorem word_ofMR {w : BitVec 64} {op : BitVec 8} {e : Option W32} (hop : op = fld w 56 8) (hz : zeroMR w = true) :
    op ++ (ofMR w e).md ++ (ofMR w e).ma ++ (ofMR w e).mb ++ (ofMR w e).fn ++ (ofMR w e).gp ++ 0#15 ++ (ofMR w e).imm = w :=
  (glue (glueConst (glue (glue (glue (glue (glue hop 51 5) 46 5) 41 5) 35 6) 31 4) hz) 0 16).trans (RoundTrip.fld_all w)

theorem word_ofMX {w : BitVec 64} {op : BitVec 8} {e : Option W32} (hop : op = fld w 56 8) (hz : zeroMX w = true) :
    op ++ (ofMX w e).md ++ (ofMX w e).src ++ 0#4 ++ 0#6 ++ (ofMX w e).gp ++ 0#15 ++ 0#16 = w := by
  simp only [zeroMX, Bool.and_eq_true] at hz
  obtain ⟨⟨⟨z0, z1⟩, z2⟩, z3⟩ := hz
  exact (glueConst (glueConst (glue (glueConst (glueConst (glue (glue hop 51 5) 45 6) z0) z1) 31 4) z2) z3).trans
    (RoundTrip.fld_all w)

theorem word_ofMS {w : BitVec 64} {op : BitVec 8} {e : Option W32} (hop : op = fld w 56 8) :
    op ++ (ofMS w e).mp ++ (ofMS w e).mb ++ (ofMS w e).sh ++ (ofMS w e).port ++ (ofMS w e).step ++ (ofMS w e).gp ++
      (ofMS w e).fn ++ (ofMS w e).follow ++ (ofMS w e).imm = w :=
  (glue (glue (glue (glue (glue (glue (glue (glue (glue hop 51 5) 46 5) 42 4) 37 5) 31 6) 27 4) 21 6) 16 5) 0 16).trans
    (RoundTrip.fld_all w)


/-! ### The decoders accept no word but the one that encodes what they read (R52, R54) -/

/-- What `r` decodes from the word `w` of slot `sl` with extension `e` is well-formed, of the slot, and encodes to `w`. -/
def Exact (sl : Slot) (w : W64) (e : Option W32) (r : Except DecodeErr Instr) : Prop :=
  ∀ i, r = .ok i → i.wf = true ∧ i.slot = some sl ∧ ∃ e', encode i = some (sl, w, e') ∧ (e' = none ∨ e' = e)

theorem Exact.error {sl : Slot} {w : W64} {e : Option W32} (d : DecodeErr) : Exact sl w e (.error d) := by
  intro i h
  cases h

theorem Exact.ite {sl : Slot} {w : W64} {e : Option W32} {c : Prop} [Decidable c] {r t : Except DecodeErr Instr}
    (hr : Exact sl w e r) (ht : Exact sl w e t) : Exact sl w e (if c then r else t) := by
  split
  · exact hr
  · exact ht

theorem Exact.accept {sl : Slot} {w : W64} {e : Option W32} {z : Bool} {i : Instr} (hslot : i.slot = some sl)
    (hext : i.extOf = none ∨ i.extOf = e) (hencode : z = true → encode i = some (sl, w, i.extOf)) :
    Exact sl w e (accept z i) := by
  intro j hj
  rw [Sys2Proof.accept] at hj
  split at hj
  next hok =>
    cases hj
    obtain ⟨hz, hwf⟩ := Bool.and_eq_true_iff.1 hok
    exact ⟨hwf, hslot, i.extOf, hencode hz, hext⟩
  · cases hj

/-- An entry of the A slot's decoder, by its layout's lemma. -/
theorem exactA {w : BitVec 32} {e : Option W32} {z : Bool} {i : Instr} {op : BitVec 6} (hslot : i.slot = some .a)
    (hext : i.extOf = none ∨ i.extOf = e) (hword : op = fld w 26 6 → z = true → encodeA i = w)
    (hop : (fld w 26 6).toNat = op.toNat) : Exact .a (w.setWidth 64) e (accept z i) :=
  .accept hslot hext fun hz => by rw [encode, hslot, ← hword (BitVec.eq_of_toNat_eq hop.symm) hz]

/-- The zero word is the NOP's. -/
theorem exactA_nop {w : BitVec 32} {e : Option W32} (hw : w = 0) : Exact .a (w.setWidth 64) e (.ok .anop) := by
  rintro i ⟨⟩
  exact ⟨rfl, rfl, none, by rw [hw]; rfl, .inl rfl⟩

/-- An entry of the B slot's decoder, by its layout's lemma. -/
theorem exactB {w : BitVec 32} {e : Option W32} {z : Bool} {i : Instr} {op : BitVec 6} (hslot : i.slot = some .b)
    (hext : i.extOf = none ∨ i.extOf = e) (hword : op = fld w 26 6 → z = true → encodeB i = w)
    (hop : (fld w 26 6).toNat = op.toNat) : Exact .b (w.setWidth 64) e (accept z i) :=
  .accept hslot hext fun hz => by rw [encode, hslot, ← hword (BitVec.eq_of_toNat_eq hop.symm) hz]

/-- The zero word is the NOP's. -/
theorem exactB_nop {w : BitVec 32} {e : Option W32} (hw : w = 0) : Exact .b (w.setWidth 64) e (.ok .bnop) := by
  rintro i ⟨⟩
  exact ⟨rfl, rfl, none, by rw [hw]; rfl, .inl rfl⟩

/-- An entry of the V slot's decoder, by its layout's lemma. -/
theorem exactV {w : W64} {e : Option W32} {z : Bool} {i : Instr} {op : BitVec 8} (hslot : i.slot = some .v)
    (hext : i.extOf = none ∨ i.extOf = e) (hword : op = fld w 56 8 → z = true → encodeV i = w)
    (hop : (fld w 56 8).toNat = op.toNat) : Exact .v w e (accept z i) :=
  .accept hslot hext fun hz => by rw [encode, hslot, ← hword (BitVec.eq_of_toNat_eq hop.symm) hz]

/-- The zero word is the NOP's. -/
theorem exactV_nop {w : W64} {e : Option W32} (hw : w = 0) : Exact .v w e (.ok .vnop) := by
  rintro i ⟨⟩
  exact ⟨rfl, rfl, none, by rw [hw]; rfl, .inl rfl⟩

/-- An entry of the M slot's decoder, by its layout's lemma. -/
theorem exactM {w : W64} {e : Option W32} {z : Bool} {i : Instr} {op : BitVec 8} (hslot : i.slot = some .m)
    (hext : i.extOf = none ∨ i.extOf = e) (hword : op = fld w 56 8 → z = true → encodeM i = w)
    (hop : (fld w 56 8).toNat = op.toNat) : Exact .m w e (accept z i) :=
  .accept hslot hext fun hz => by rw [encode, hslot, ← hword (BitVec.eq_of_toNat_eq hop.symm) hz]

/-- The zero word is the NOP's. -/
theorem exactM_nop {w : W64} {e : Option W32} (hw : w = 0) : Exact .m w e (.ok .mnop) := by
  rintro i ⟨⟩
  exact ⟨rfl, rfl, none, by rw [hw]; rfl, .inl rfl⟩

theorem decodeA_exact (w : BitVec 32) (e : Option W32) : Exact .a (w.setWidth 64) e (decodeA w e) := by
  rw [decodeA]
  split
  case h_1 =>
    split
    case isTrue hw => exact exactA_nop (eq_of_beq hw)
    case isFalse => exact .error _
  case h_2 | h_3 | h_4 | h_5 | h_6 | h_7 | h_8 | h_9 | h_10 | h_26 | h_28 | h_29 | h_31 | h_39 | h_54 =>
    exact exactA rfl (.inl rfl) word_ofAR ‹_›
  case h_13 | h_14 | h_15 | h_53 =>
    exact exactA rfl (.inl rfl) word_ofAR1 ‹_›
  case h_16 | h_32 | h_49 | h_50 | h_51 | h_59 =>
    exact exactA rfl (.inl rfl) (fun h _ => word_ofARn h) ‹_›
  case h_17 | h_18 | h_19 | h_20 | h_21 | h_22 | h_23 | h_25 | h_47 =>
    exact exactA rfl (.inr rfl) (fun h _ => word_ofAI h) ‹_›
  case h_24 | h_46 =>
    exact exactA rfl (.inr rfl) word_ofAI0 ‹_›
  case h_33 | h_34 | h_35 =>
    exact exactA rfl (.inr rfl) (fun h _ => word_ofAM h) ‹_›
  case h_36 | h_37 | h_38 =>
    exact exactA rfl (.inl rfl) (fun h _ => word_ofAX h) ‹_›
  case h_40 | h_48 =>
    exact exactA rfl (.inl rfl) word_ofAR1n ‹_›
  case h_41 =>
    exact exactA rfl (.inl rfl) (fun h _ => word_ofAT h) ‹_›
  case h_42 =>
    exact exactA rfl (.inl rfl) word_ofACRr ‹_›
  case h_43 | h_44 | h_45 =>
    exact exactA rfl (.inl rfl) word_ofACRw ‹_›
  case h_57 | h_58 =>
    exact exactA rfl (.inl rfl) word_ofASn ‹_›
  case h_60 =>
    exact exactA rfl (.inl rfl) word_ofAS1 ‹_›
  case h_11 | h_12 | h_30 =>
    exact .ite (exactA rfl (.inl rfl) word_ofAR ‹_›) (exactA rfl (.inl rfl) word_ofAR ‹_›)
  case h_27 =>
    exact .ite (exactA rfl (.inl rfl) word_ofAR ‹_›)
      (.ite (exactA rfl (.inl rfl) word_ofAR ‹_›) (exactA rfl (.inl rfl) word_ofAR ‹_›))
  case h_52 =>
    exact .ite (exactA rfl (.inl rfl) word_ofAR1 ‹_›) (exactA rfl (.inl rfl) word_ofAR1 ‹_›)
  case h_55 =>
    exact .ite (exactA rfl (.inl rfl) word_ofAD ‹_›) (exactA rfl (.inl rfl) word_ofAD ‹_›)
  case h_56 =>
    exact .ite (exactA rfl (.inl rfl) word_ofAR1 ‹_›) (exactA rfl (.inl rfl) word_ofAD ‹_›)
  case _ => exact .error _

theorem decodeB_exact (w : BitVec 32) (e : Option W32) : Exact .b (w.setWidth 64) e (decodeB w e) := by
  rw [decodeB]
  split
  case h_1 =>
    split
    case isTrue hw => exact exactB_nop (eq_of_beq hw)
    case isFalse => exact .error _
  case h_2 | h_3 =>
    exact exactB rfl (.inr rfl) (fun h _ => word_ofBJ h) ‹_›
  case h_4 | h_5 | h_19 | h_32 | h_33 =>
    exact exactB rfl (.inl rfl) word_ofBG ‹_›
  case h_6 =>
    exact exactB rfl (.inr rfl) (fun h _ => word_ofBL h) ‹_›
  case h_7 =>
    exact exactB rfl (.inr rfl) word_ofBLr ‹_›
  case h_8 =>
    exact exactB rfl (.inr rfl) word_ofBLs ‹_›
  case h_9 =>
    exact exactB rfl (.inl rfl) word_ofBW ‹_›
  case h_10 | h_16 =>
    exact exactB rfl (.inr rfl) word_ofBSy ‹_›
  case h_11 =>
    exact exactB rfl (.inl rfl) word_ofBFe ‹_›
  case h_17 =>
    exact exactB rfl (.inr rfl) word_ofBSn ‹_›
  case h_14 =>
    exact exactB rfl (.inl rfl) word_ofBBi ‹_›
  case h_18 =>
    exact exactB rfl (.inl rfl) word_ofBCa ‹_›
  case h_20 =>
    exact exactB rfl (.inl rfl) word_ofBPo ‹_›
  case h_21 =>
    exact exactB rfl (.inl rfl) word_ofBMa ‹_›
  case h_22 | h_34 =>
    exact exactB rfl (.inr rfl) word_ofBNx ‹_›
  case h_23 | h_24 | h_27 =>
    exact exactB rfl (.inl rfl) word_ofBN ‹_›
  case h_25 =>
    exact exactB rfl (.inl rfl) word_ofBEr ‹_›
  case h_26 =>
    exact exactB rfl (.inl rfl) word_ofBSv ‹_›
  case h_28 | h_29 =>
    exact exactB rfl (.inl rfl) word_ofBLg ‹_›
  case h_30 =>
    exact exactB rfl (.inr rfl) word_ofBLc ‹_›
  case h_31 =>
    exact exactB rfl (.inl rfl) word_ofBX ‹_›
  case h_12 =>
    exact .ite (exactB rfl (.inl rfl) word_ofBPt ‹_›) (exactB rfl (.inr rfl) word_ofBSy ‹_›)
  case h_13 =>
    exact .ite (exactB rfl (.inl rfl) word_ofBPt ‹_›) (exactB rfl (.inr rfl) word_ofBSn ‹_›)
  case h_15 =>
    exact .ite (exactB rfl (.inl rfl) word_ofBG ‹_›) (exactB rfl (.inl rfl) word_ofBPt ‹_›)
  case _ => exact .error _

theorem decodeV_exact (w : W64) (e : Option W32) : Exact .v w e (decodeV w e) := by
  rw [decodeV]
  split
  case h_1 =>
    split
    case isTrue hw => exact exactV_nop (eq_of_beq hw)
    case isFalse => exact .error _
  case h_2 | h_3 | h_4 | h_5 | h_6 | h_7 | h_8 | h_9 | h_10 | h_11 | h_12 | h_13 | h_14 | h_15 | h_16 | h_17 | h_18 |
      h_19 | h_20 | h_21 | h_22 | h_23 | h_24 | h_25 | h_26 | h_27 | h_28 | h_29 | h_30 | h_31 | h_32 | h_33 | h_34 |
      h_35 | h_36 | h_37 | h_38 | h_39 | h_40 | h_41 | h_42 | h_43 | h_44 | h_45 | h_46 | h_52 | h_54 | h_55 | h_56 =>
    exact exactV rfl (.inr rfl) word_ofVR ‹_›
  case h_47 | h_48 | h_49 | h_50 | h_51 =>
    exact exactV rfl (.inr rfl) (fun h _ => word_ofVL h) ‹_›
  case h_53 =>
    exact exactV rfl (.inl rfl) word_ofVX ‹_›
  case _ => exact .error _

theorem decodeM_exact (w : W64) (e : Option W32) : Exact .m w e (decodeM w e) := by
  rw [decodeM]
  split
  case h_1 =>
    split
    case isTrue hw => exact exactM_nop (eq_of_beq hw)
    case isFalse => exact .error _
  case h_3 | h_4 | h_18 | h_19 | h_20 | h_21 | h_22 | h_23 | h_24 | h_25 | h_26 | h_28 | h_32 | h_33 | h_34 | h_39 |
      h_41 | h_42 =>
    exact exactM rfl (.inr rfl) word_ofMR ‹_›
  case h_5 =>
    exact exactM rfl (.inr rfl) word_ofMX ‹_›
  case h_6 | h_7 | h_8 | h_9 | h_10 | h_11 | h_12 | h_13 | h_14 | h_15 | h_16 | h_17 | h_27 | h_29 | h_31 | h_36 |
      h_37 | h_38 =>
    exact exactM rfl (.inr rfl) (fun h _ => word_ofMS h) ‹_›
  case h_2 | h_30 | h_35 | h_40 =>
    exact .ite (exactM rfl (.inr rfl) word_ofMR ‹_›) (exactM rfl (.inr rfl) word_ofMR ‹_›)
  case _ => exact .error _

/-- A word below 2 ^ 32 is its low half. -/
theorem setWidth_lowWord {w : W64} (h : w.toNat < 2 ^ 32) : (w.setWidth 32).setWidth 64 = w := by
  apply BitVec.eq_of_toNat_eq
  simp only [BitVec.toNat_setWidth]
  omega

theorem decodeSlot_exact {sl : Slot} {w : W64} (e : Option W32) (hw : sl = .a ∨ sl = .b → w.toNat < 2 ^ 32) :
    Exact sl w e (decodeSlot sl w e) := by
  cases sl with
  | a =>
    have h := decodeA_exact (w.setWidth 32) e
    rwa [setWidth_lowWord (hw (.inl rfl))] at h
  | b =>
    have h := decodeB_exact (w.setWidth 32) e
    rwa [setWidth_lowWord (hw (.inr rfl))] at h
  | v => exact decodeV_exact w e
  | m => exact decodeM_exact w e

/-! ### Opcodes without an entry -/

theorem decodeA_unallocated {w : BitVec 32} {e : Option W32} (hop : 0x3C ≤ (fld w 26 6).toNat) :
    decodeA w e = .error .unallocated := by
  rw [decodeA]
  split
  case h_61 => rfl
  all_goals omega

theorem decodeB_unallocated {w : BitVec 32} {e : Option W32} (hop : 0x22 ≤ (fld w 26 6).toNat) :
    decodeB w e = .error .unallocated := by
  rw [decodeB]
  split
  case h_35 => rfl
  all_goals omega

theorem decodeV_unallocated {w : W64} {e : Option W32} (hop : 0x38 ≤ (fld w 56 8).toNat) :
    decodeV w e = .error .unallocated := by
  rw [decodeV]
  split
  case h_57 => rfl
  all_goals omega

theorem decodeM_unallocated {w : W64} {e : Option W32} (hop : 0x2A ≤ (fld w 56 8).toNat) :
    decodeM w e = .error .unallocated := by
  rw [decodeM]
  split
  case h_43 => rfl
  all_goals omega

/-- The opcode field of an A or B word that stands in 64 bits. -/
theorem toNat_fld_setWidth (w : W64) : (fld (w.setWidth 32) 26 6).toNat = w.toNat / 2 ^ 26 % 2 ^ 6 := by
  rw [toNat_fld, BitVec.toNat_setWidth]
  omega

/-- Settles O49: layout by layout, a word that the decoder accepts is put together from the fields it was read into. -/
theorem decodingIsExact : Obligations.DecodingIsExact := by
  refine ⟨fun sl w e i hw h => decodeSlot_exact e hw i h, fun w e => ⟨fun hop => ?_, fun hop => ?_, fun hop => ?_, fun hop => ?_⟩⟩
  · exact decodeA_unallocated (by rwa [toNat_fld_setWidth])
  · exact decodeB_unallocated (by rwa [toNat_fld_setWidth])
  · exact decodeV_unallocated (by rw [toNat_fld]; omega)
  · exact decodeM_unallocated (by rw [toNat_fld]; omega)

end Sys2Proof.Laws

namespace Sys2Proof.Laws
open Sys2Proof.Machine

/-! ### Once-only operations (R46) -/

/-- An operation of the list of R46. -/
def OnceOnlyListed (i : Instr) : Prop :=
  (∃ f, i = .wrcr f) ∨ (∃ f, i = .setcr f) ∨ (∃ f, i = .clrcr f) ∨ (∃ f, i = .vlscale f) ∨ (∃ f, i = .scancel f) ∨
  (∃ f, i = .swload f) ∨ (∃ f, i = .swact f) ∨ (∃ f, i = .cfgload f) ∨ (∃ f, i = .cfgact f) ∨ (∃ f, i = .cfgpref f) ∨
  (∃ f, i = .aflush f) ∨ (∃ f, i = .adepth f) ∨ (∃ f, i = .mnopen f) ∨ (∃ f, i = .mnflush f) ∨ (∃ f, i = .mnclose f) ∨
  (∃ f, i = .mncloseA f) ∨ (∃ f, i = .launch f) ∨ (∃ f, i = .spawn f) ∨ (∃ f, i = .jinit f) ∨ (∃ f, i = .pgreq f) ∨
  (∃ f, i = .pgreqRel f) ∨ (∃ f, i = .lapin f) ∨ (∃ f, i = .lapinRel f) ∨ (∃ f, i = .publish f)

theorem onceOnlyOp_iff (i : Instr) : onceOnlyOp i = true ↔ OnceOnlyListed i := by
  constructor
  · intro h
    unfold onceOnlyOp at h
    split at h
    case h_25 => cases h
    all_goals simp [OnceOnlyListed]
  · rintro (⟨f, rfl⟩ | ⟨f, rfl⟩ | ⟨f, rfl⟩ | ⟨f, rfl⟩ | ⟨f, rfl⟩ | ⟨f, rfl⟩ | ⟨f, rfl⟩ | ⟨f, rfl⟩ | ⟨f, rfl⟩ | ⟨f, rfl⟩ | ⟨f, rfl⟩ |
      ⟨f, rfl⟩ | ⟨f, rfl⟩ | ⟨f, rfl⟩ | ⟨f, rfl⟩ | ⟨f, rfl⟩ | ⟨f, rfl⟩ | ⟨f, rfl⟩ | ⟨f, rfl⟩ | ⟨f, rfl⟩ | ⟨f, rfl⟩ | ⟨f, rfl⟩ |
      ⟨f, rfl⟩ | ⟨f, rfl⟩) <;> rfl

theorem stickyRec_after_once {r : StickyRec} (nop : Instr) (h : onceOnlyOp r.op = true) : (r.after nop).op = nop := by
  rw [StickyRec.after, if_pos h]

/-- A word of the A slot is once-only by its opcode. -/
theorem onceOnlyWord_a {w : BitVec 32} {op : BitVec 6} (hop : fld w 26 6 = op) (hmem : op.toNat ∈ [0x2A, 0x2B, 0x2C]) :
    onceOnlyWord .a (w.setWidth 64) = true := by
  have hlow : fld (w.setWidth 64) 26 6 = op := (BitVec.extractLsb'_setWidth_of_le (by decide)).trans hop
  simpa [onceOnlyWord, hlow] using hmem

/-- A word of the M slot is once-only by its opcode. -/
theorem onceOnlyWord_m {w : W64} {op : BitVec 8} (hop : fld w 56 8 = op)
    (hmem : op.toNat ∈ [0x10, 0x12, 0x13, 0x14, 0x15, 0x29, 0x17, 0x18, 0x19, 0x1B, 0x1D, 0x1F, 0x20, 0x21, 0x22, 0x27, 0x28]) :
    onceOnlyWord .m w = true := by
  simpa [onceOnlyWord, hop] using hmem

theorem onceOnlyWord_wordMR {op : BitVec 8} (f : MR)
    (hmem : op.toNat ∈ [0x10, 0x12, 0x13, 0x14, 0x15, 0x29, 0x17, 0x18, 0x19, 0x1B, 0x1D, 0x1F, 0x20, 0x21, 0x22, 0x27, 0x28]) :
    onceOnlyWord .m (op ++ f.md ++ f.ma ++ f.mb ++ f.fn ++ f.gp ++ 0#15 ++ f.imm) = true :=
  onceOnlyWord_m (RoundTrip.wordMR op f).1 hmem

/-- R46: the word of a once-only operation is once-only. -/
theorem onceOnlyWord_encode {i : Instr} {sl : Slot} {w : W64} {e : Option W32} (honce : onceOnlyOp i = true)
    (henc : encode i = some (sl, w, e)) : onceOnlyWord sl w = true := by
  rcases (onceOnlyOp_iff i).1 honce with ⟨f, rfl⟩ | ⟨f, rfl⟩ | ⟨f, rfl⟩ | ⟨f, rfl⟩ | ⟨f, rfl⟩ | ⟨f, rfl⟩ | ⟨f, rfl⟩ | ⟨f, rfl⟩ |
    ⟨f, rfl⟩ | ⟨f, rfl⟩ | ⟨f, rfl⟩ | ⟨f, rfl⟩ | ⟨f, rfl⟩ | ⟨f, rfl⟩ | ⟨f, rfl⟩ | ⟨f, rfl⟩ | ⟨f, rfl⟩ | ⟨f, rfl⟩ | ⟨f, rfl⟩ |
    ⟨f, rfl⟩ | ⟨f, rfl⟩ | ⟨f, rfl⟩ | ⟨f, rfl⟩ | ⟨f, rfl⟩ <;> cases henc
  case inl => exact onceOnlyWord_a (RoundTrip.wordACRw 0x2A f).1 (by decide)
  case inr.inl => exact onceOnlyWord_a (RoundTrip.wordACRw 0x2B f).1 (by decide)
  case inr.inr.inl => exact onceOnlyWord_a (RoundTrip.wordACRw 0x2C f).1 (by decide)
  case inr.inr.inr.inl =>
    have hop : fld (encodeV (.vlscale f)) 56 8 = 0x33#8 := (RoundTrip.wordVR 0x33 f).1
    rw [onceOnlyWord, hop]
    rfl
  case inr.inr.inr.inr.inl => exact onceOnlyWord_m (RoundTrip.wordMS 0x10 f).1 (by decide)
  all_goals exact onceOnlyWord_wordMR f (by decide)

/-- R46: a bundle with a repeat that holds a once-only word is no legal bundle. -/
theorem decodeBundle_onceOnly_repeat {gal : Bool} {h : W32} {ws : List W32} {sl : Slot} {w : W64}
    (hin : (slotWords h ws).1.contains (sl, w) = true) (honce : onceOnlyWord sl w = true) (hrep : fld h 21 6 ≠ 0) :
    decodeBundle gal h ws = .error .illegalBundle := by
  have hany : (slotWords h ws).1.any (fun p => onceOnlyWord p.1 p.2) = true :=
    List.any_eq_true.2 ⟨(sl, w), List.contains_iff_mem.1 hin, honce⟩
  have hrep' : ((fld h 21 6).toNat != 0) = true := by simpa using fun hz => hrep (BitVec.eq_of_toNat_eq hz)
  rw [decodeBundle]
  simp only [hany, hrep', Bool.and_self, if_true, ite_self]

/-- Settles O51: the list is the model's, and each of its words is once-only. -/
theorem onceOnlyOperations : Obligations.OnceOnlyOperations := by
  refine ⟨onceOnlyOp_iff, fun p c _ => ⟨stickyRec_after_once _, stickyRec_after_once _, stickyRec_after_once _⟩,
    fun i sl w e h ws gal _ honce henc hin hrep hlen => ?_⟩
  have hrep' : fld h 21 6 ≠ 0 := fun hz => hrep (by rw [← toNat_fld, hz]; rfl)
  refine issueTraps_illegalBundle (by omega) (decodeBundle_onceOnly_repeat hin (onceOnlyWord_encode honce henc) hrep')

end Sys2Proof.Laws

namespace Sys2Proof.Laws
open Sys2Proof.Machine

/-! ### A guard that fails (R38) -/

/-- Nothing is left but, at most, an ILLEGAL_OP trap. -/
def Idle (s : State) (r : Res) : Prop := r = .ok s ∨ ∃ t : TrapInfo, t.cause = .illegalOp ∧ r = .trap t

theorem idle_loadA {gp : BitVec 4} {s : State} (hoff : s.cx.guard gp = false) (rd : BitVec 6) (sz q : BitVec 2) (signed : Bool)
    (p : W64) : Idle s (loadA gp rd sz q signed p s) := by
  unfold loadA
  split
  · exact .inr ⟨_, rfl, rfl⟩
  · exact .inl (if_pos (by rw [hoff]; rfl))

theorem idle_storeA {gp : BitVec 4} {s : State} (hoff : s.cx.guard gp = false) (rd : BitVec 6) (sz q : BitVec 2) (p : W64) :
    Idle s (storeA gp rd sz q p s) := by
  unfold storeA
  split
  · exact .inr ⟨_, rfl, rfl⟩
  · exact .inl (if_pos (by rw [hoff]; rfl))

theorem idle_crOp {gp : BitVec 4} {s : State} (hoff : s.cx.guard gp = false) (fields : CrInfo → W64) (num : Nat)
    (w : Except Cause CrWrite) : Idle s (crOp fields num gp w s) := by
  unfold crOp
  split_ifs with hfields hguard
  · exact .inr ⟨_, rfl, rfl⟩
  · exact .inl rfl
  · exact absurd hoff (by simpa using hguard)

theorem idle_rdcr {f : ACR} {s : State} (hoff : s.cx.guard f.gp = false) : Idle s (opRdcr f s) := by
  unfold opRdcr
  split
  · exact .inr ⟨_, rfl, rfl⟩
  · exact .inl (if_pos (by rw [hoff]; rfl))

theorem idle_xfera {f : AT} {s : State} (hoff : s.cx.guard f.gp = false) : Idle s (opXfera f s) := by
  unfold opXfera
  split
  · exact .inr ⟨_, rfl, rfl⟩
  · exact .inl (alu_off hoff)

/-- R38: in its bundle, an operation whose guard fails leaves its state. -/
theorem runOp_guardOff {i : Instr} {gp : BitVec 4} {s : State} (hg : guardOf i = some gp) (hoff : s.cx.guard gp = false) (p : W64) :
    Idle s (runOp i p s) := by
  have hnot : (!s.cx.guard gp) = true := by rw [hoff]; rfl
  cases i <;> cases hg
  case add.refl | sub.refl | and.refl | or.refl | xor.refl | andn.refl | shl.refl | shr.refl | sra.refl | min.refl | minu.refl |
      max.refl | maxu.refl | abs.refl | clz.refl | popc.refl | cmp.refl | addi.refl | andi.refl | ori.refl | xori.refl | shli.refl |
      shri.refl | srai.refl | movi.refl | movhi.refl | mul.refl | mulh.refl | mulhu.refl | mulhsu.refl | madd.refl | bfx.refl |
      bfxs.refl | bfi.refl | lea.refl | aspq.refl | aspc.refl | addpc.refl | muli.refl | ext.refl =>
    exact .inl (alu_off hoff)
  case mset.refl | msetHi.refl | maddM.refl | mmov.refl | xferm.refl => exact .inl (mreg_off hoff)
  case ld.refl | lds.refl | ldx.refl | ldxs.refl => exact idle_loadA hoff ..
  case st.refl | stx.refl => exact idle_storeA hoff ..
  case wrcr.refl | setcr.refl | clrcr.refl => exact idle_crOp hoff ..
  case rdcr.refl => exact idle_rdcr hoff
  case xfera.refl => exact idle_xfera hoff
  case gfence.refl => exact .inl (if_neg (by simp [hoff]))
  case scancel.refl | lapinRel.refl => exact .inl (congrArg Res.ok (if_neg (by simp [hoff])))
  all_goals exact .inl (if_pos hnot)

/-- R38: an operation whose guard fails holds its bundle for nothing. -/
theorem holdOp_guardOff {i : Instr} {gp : BitVec 4} {s : State} (hg : guardOf i = some gp) (hoff : s.cx.guard gp = false) (p : W64) :
    holdOp i p s = none := by
  have hcmd : ∀ (f : MS) (counted : Bool), f.gp = gp → holdCmd f counted s = none := by
    rintro f counted rfl
    simp [holdCmd, hoff]
  cases i <;> cases hg
  case ld.refl | lds.refl | ldx.refl | ldxs.refl => simp [holdOp, holdLoad, hoff]
  case st.refl | stx.refl => simp [holdOp, holdStore, hoff]
  case greq.refl | gwr.refl | gwrm.refl | ghand.refl => simp [holdOp, holdTag, hoff]
  case gtagwT.refl | gtagwC.refl => simp [holdOp, holdGtagw, hoff]
  case gbin.refl => simp [holdOp, holdGbin, hoff]
  case gfence.refl => simp [holdOp, holdGfence, hoff]
  case saff.refl | saffw.refl | sind.refl | sindw.refl | srec.refl | swin.refl | temit.refl | scopy.refl | sfill.refl | mnfeed.refl |
      mndrain.refl | spref.refl | grecv.refl | sdual.refl => exact hcmd _ _ rfl
  case smcast.refl => simp [holdOp, holdSmcast, hcmd, hoff]
  case nsdot.refl => simp [holdOp, holdNsdot, hcmd, hoff]
  case tcons.refl => simp [holdOp, holdTcons, hoff]
  case sbar.refl => simp [holdOp, holdSbar, hoff]
  case swload.refl | cfgload.refl | launch.refl | publish.refl => simp [holdOp, holdStr, hoff]
  case swact.refl => simp [holdOp, holdSwact, hoff]
  case cfgact.refl => simp [holdOp, holdCfgact, hoff]
  case afire.refl => simp [holdOp, holdAfire, hoff]
  case adepth.refl => simp [holdOp, holdAdepth, hoff]
  case mnopen.refl => simp [holdOp, holdMnopen, hoff]
  case spawn.refl => simp [holdOp, holdSpawn, hoff]
  case cfgpref.refl => simp [holdOp, holdCfgpref, hoff]
  all_goals rfl

theorem slot_of_guard {i : Instr} {gp : BitVec 4} (hg : guardOf i = some gp) : i.slot.isSome = true := by
  cases i <;> cases hg <;> rfl

/-- A state with nothing buffered for the end of its issue: the end only counts it. -/
theorem commit_passes {s : State} (hbuf : s.cx.buf = {}) : Host.Outcome.next (commit s) = passes s := by
  rw [commit_idle hbuf]
  rfl

/-- Settles O60: what the operation leaves in its bundle, with the end of its issue where it ends it; on a tile an operation of
the gallery cores takes its ILLEGAL_OP. -/
theorem failingGuardsDoNothing : Obligations.FailingGuardsDoNothing := by
  intro i gp s hg hoff hbuf
  rw [exec_eq_runOp (slot_of_guard hg), holdOp_guardOff hg hoff]
  by_cases hcore : galleryOp i = false ∨ isGal s.cur = true
  · rw [onItsCore_of_allowed hcore]
    rcases runOp_guardOff hg hoff (Machine.baseOf i s.cx) with hrun | ⟨t, hcause, hrun⟩
    · rw [hrun, finish_ok, finishHold_ok, commit_passes hbuf]
      split
      · exact .inl (.inr (.inr rfl))
      · exact .inl (.inl rfl)
    · rw [hrun, finish_trap, finishHold_trap, ite_self]
      exact .inr ⟨t, hcause, rfl⟩
  · obtain ⟨hgallery, htile⟩ := not_or.1 hcore
    rw [onItsCore, galOnly, if_pos (by simpa using hgallery), if_neg htile]
    exact .inr ⟨_, rfl, rfl⟩

end Sys2Proof.Laws

namespace Sys2Proof.Laws
open Sys2Proof.Machine

/-! ### The end of an issue that leaves one thing (R13, R20) -/

/-- An operation that ends its issue and leaves the state as it is. -/
theorem finishHold_passes {s : State} (hbuf : s.cx.buf = {}) : finishHold s none (.ok s) = passes s :=
  commit_passes hbuf

/-- An operation that ends its issue and leaves a context. -/
theorem finishHold_setCx {s : State} {c : Ctx} (hbuf : c.buf = {}) :
    finishHold s none (.ok (s.setCx c)) = .next (s.setCx (issued c)) := by
  rw [finishHold_ok, commit_setCx hbuf]
  rfl

/-- The same where it leaves the context as it is. -/
theorem finishHold_setCx_self {s : State} {c : Ctx} (hbuf : s.cx.buf = {}) (hc : c = s.cx) :
    finishHold s none (.ok (s.setCx c)) = passes s := by
  subst hc
  exact finishHold_setCx hbuf

/-- The end of an issue with a final act alone (R116, R123). -/
theorem commit_final {s : State} (hbuf : s.cx.buf = {}) (x : Final) :
    commit (s.modBuf (fun b => { b with final := x })) =
      applyFinal s.cx.pc { s.cx with buf := { final := x } } x (s.setCx (issued s.cx)) := by
  have hempty : ({ s.cx with buf := {} } : Ctx) = s.cx := by rw [← hbuf]
  simp [State.modBuf, modCx_eq, commit, commitStores, hbuf, Ctx.setLoops, issued]

/-- A B operation with a final act, where its guard holds. -/
theorem finishHold_finalB {s : State} {gp : BitVec 4} {gn : BitVec 1} (hbuf : s.cx.buf = {}) (hg : s.cx.guardB gp gn = true)
    (x : Final) : finishHold s none (finalB gp gn x s) =
      .next (applyFinal s.cx.pc { s.cx with buf := { final := x } } x (s.setCx (issued s.cx))) := by
  rw [finalB, if_pos hg, finishHold_ok, commit_final hbuf]

/-! ### Waits (R119 to R121) -/

/-- A context that has received nothing observes nothing (R288). -/
theorem observe_nothing {c : Ctx} (h : c.grecvd = []) (on : Nat → Bool) : c.observe on = c := by
  simp [Ctx.observe, h]

theorem isGal_of_tile {x : Nat} (h : x < 512) : isGal x = false := by
  simp [isGal, Nat.not_le.2 h]

/-- A count is above a limit of R119 that is not "any". -/
theorem above_eq_false {n : Nat} {lim : BitVec 4} : above n lim = false ↔ lim = 15 ∨ n ≤ lim.toNat := by
  by_cases h : lim = 15#4 <;> simp [above, h]

/-- Whether every class of a context is within the limits of a WAITC (R119). -/
def Within (c : Ctx) (w : BW) : Prop :=
  (w.nld = 15 ∨ c.ld ≤ w.nld.toNat) ∧ (w.nst = 15 ∨ c.st ≤ w.nst.toNat) ∧ (w.nstr = 15 ∨ c.str ≤ w.nstr.toNat) ∧
  (w.narr = 15 ∨ c.arr ≤ w.narr.toNat) ∧ (w.nsync = 15 ∨ c.sync ≤ w.nsync.toNat)

theorem above_none_iff (c : Ctx) (w : BW) :
    (above c.ld w.nld || above c.st w.nst || above c.str w.nstr || above c.arr w.narr || above c.sync w.nsync) = false ↔
      Within c w := by
  simp only [Bool.or_eq_false_iff, above_eq_false, Within, and_assoc]

theorem exec_waitc_within {s : State} {w : BW} (hbuf : s.cx.buf = {}) (hrecv : s.cx.grecvd = []) (htile : s.cur < 512)
    (hin : Within s.cx w) : exec (.waitc w) s = passes s := by
  have hhold : holdWaitc w s = none := by simp [holdWaitc, (above_none_iff s.cx w).2 hin]
  rw [exec_waitc, execWaitc, hhold, opWaitc, isGal_of_tile htile]
  simp only [Bool.false_and, Bool.false_eq_true, if_false]
  split
  · exact finishHold_setCx_self hbuf (observe_nothing hrecv _)
  · exact finishHold_passes hbuf

theorem exec_waitc_above {s : State} {w : BW} (htile : s.cur < 512) (hg : s.cx.guard w.gp = true)
    (hout : ¬ Within s.cx w) : exec (.waitc w) s = .next s := by
  have habove := Bool.eq_true_of_not_eq_false (mt (above_none_iff s.cx w).1 hout)
  have hhold : holdWaitc w s = some s := by simp only [holdWaitc, isGal_of_tile htile, hg, habove]; rfl
  rw [exec_waitc, execWaitc, hhold]
  rfl

theorem exec_join_done {s : State} {j : BG} (hbuf : s.cx.buf = {}) (htile : s.cur < 512) (hzero : s.cx.jcnt = 0) :
    exec (.join j) s = passes s := by
  have hhold : holdJoin j s = none := by simp [holdJoin, hzero]
  rw [exec_join, execJoin, hhold, opJoin, isGal_of_tile htile]
  exact finishHold_passes hbuf

theorem exec_join_waits {s : State} {j : BG} (htile : s.cur < 512) (hg : s.cx.guardB j.gp j.gn = true) (hcount : s.cx.jcnt ≠ 0) :
    exec (.join j) s = .next s := by
  have hhold : holdJoin j s = some s := by simp [holdJoin, isGal_of_tile htile, hg, hcount]
  rw [exec_join, execJoin, hhold]
  rfl

/-- Of EVSTAT, an EVWAIT names the bits of its mask (R120). -/
theorem evwait_mask_eq_zero (r : W64) (m : BitVec 8) :
    (r &&& m.setWidth 64 == 0) = true ↔ ∀ k < 8, m.getLsbD k = true → r.getLsbD k = false := by
  rw [beq_iff_eq]
  constructor
  · intro h k hk hm
    have hbit := congrArg (·.getLsbD k) h
    simpa [hm, Nat.lt_trans hk (by decide : 8 < 64)] using hbit
  · intro h
    refine BitVec.eq_of_getLsbD_eq fun k hk => ?_
    by_cases hm : m.getLsbD k = true
    · simp [h k (BitVec.lt_of_getLsbD hm) hm]
    · simp [hm]

theorem exec_evwait_met {s : State} {e : BMa} (hbuf : s.cx.buf = {}) (hrecv : s.cx.grecvd = []) (htile : s.cur < 512)
    (hmet : ∃ k < 8, e.mask.getLsbD k = true ∧ (s.cx.cr 7).getLsbD k = true) : exec (.evwait e) s = passes s := by
  have hmask : (s.cx.cr 7 &&& e.mask.setWidth 64 == 0) = false := by
    obtain ⟨k, hk, hm, hr⟩ := hmet
    refine Bool.eq_false_iff.2 fun h => ?_
    rw [(evwait_mask_eq_zero _ _).1 h k hk hm] at hr
    cases hr
  have hhold : holdEvwait e s = none := by simp only [holdEvwait, hmask, Bool.and_false, Bool.false_eq_true, if_false]
  rw [exec_evwait, execEvwait, hhold, opEvwait, isGal_of_tile htile]
  simp only [Bool.false_eq_true, if_false]
  split
  · exact finishHold_setCx_self hbuf (observe_nothing hrecv _)
  · exact finishHold_passes hbuf

theorem exec_evwait_waits {s : State} {e : BMa} (htile : s.cur < 512) (hg : s.cx.guardB e.gp e.gn = true)
    (hnone : ∀ k < 8, e.mask.getLsbD k = true → (s.cx.cr 7).getLsbD k = false) : exec (.evwait e) s = .next s := by
  have hhold : holdEvwait e s = some s := by
    simp only [holdEvwait, isGal_of_tile htile, hg, (evwait_mask_eq_zero _ _).2 hnone]
    rfl
  rw [exec_evwait, execEvwait, hhold]
  rfl

theorem exec_pwait_ready {s : State} {p : BPo} (hbuf : s.cx.buf = {}) (htile : s.cur < 512) (hbound : s.portBound p = true)
    (hready : s.portReady p = true) : exec (.pwait p) s = passes s := by
  have hhold : holdPwait p s = none := by simp [holdPwait, hready]
  rw [exec_pwait, execPwait, hhold, opPwait, isGal_of_tile htile, hbound]
  simpa using finishHold_passes hbuf

theorem exec_pwait_waits {s : State} {p : BPo} (htile : s.cur < 512) (hg : s.cx.guardB p.gp p.gn = true)
    (hbound : s.portBound p = true) (hready : s.portReady p = false) : exec (.pwait p) s = .next s := by
  have hhold : holdPwait p s = some s := by simp [holdPwait, isGal_of_tile htile, hg, hbound, hready]
  rw [exec_pwait, execPwait, hhold]
  rfl

theorem exec_pwait_unbound {s : State} {p : BPo} (htile : s.cur < 512) (hg : s.cx.guardB p.gp p.gn = true)
    (hbound : s.portBound p = false) : exec (.pwait p) s = .next (takeTrap { cause := .portUnbound, slot := 3 } s) := by
  have hhold : holdPwait p s = none := by simp [holdPwait, hbound]
  rw [exec_pwait, execPwait, hhold, opPwait, isGal_of_tile htile, hg, hbound]
  rfl

/-- R119, R120, R121: the waits. -/
theorem waitResults : WaitResults := by
  intro s w j e p hbuf hrecv htile c within quiet
  exact ⟨fun hg => ⟨exec_waitc_within hbuf hrecv htile, exec_waitc_above htile hg⟩,
    fun hg => ⟨exec_join_done hbuf htile, exec_join_waits htile hg⟩,
    fun hg => ⟨exec_evwait_met hbuf hrecv htile, exec_evwait_waits htile hg⟩,
    fun hg => ⟨exec_pwait_ready hbuf htile, exec_pwait_waits htile hg, exec_pwait_unbound htile hg⟩⟩

/-! ### YIELD, CALWAIT, FENCE and IFENCE (R122, R124, R315, R410) -/

theorem exec_yield_on {s : State} {y : BNx} (hbuf : s.cx.buf = {}) (hg : s.cx.guardB y.gp y.gn = true) :
    exec (.yield y) s = .next (s.setCx (issued { s.cx with stall := max s.cx.stall (s.tick + 1 + nOf y) })) := by
  rw [exec_yield, execYield]
  refine (finishHold_finalB hbuf hg (.yield (nOf y))).trans ?_
  simp only [applyFinal, modCx_eq, cx_setCx, setCx_setCx]
  rfl

/-- R410: CALWAIT may pass outside landings, the tick outside every riser and the next slot w ticks and a riser away. -/
theorem calClear_iff (s : State) (w : Nat) :
    s.calClear w = true ↔ s.landing = none ∧ 256 < s.calDist ∧ w + 256 ≤ s.calDist := by
  have hnext : s.tick + w + 256 ≤ s.nextSlot ↔ w + 256 ≤ s.calDist := by
    unfold State.calDist
    omega
  by_cases hl : s.landing = none
  · simp [State.calClear, State.inRiser, hl, hnext]
  · simp [State.calClear, hl]

theorem exec_calwait_clear {s : State} {y : BNx} (hbuf : s.cx.buf = {}) (hw : calTicks y ≤ 7520)
    (hclear : s.calClear (calTicks y) = true) : exec (.calwait y) s = passes s := by
  have hhold : holdCalwait y s = none := by simp [holdCalwait, hclear]
  rw [exec_calwait, execCalwait, hhold, opCalwait, if_neg (by simp [hw])]
  exact finishHold_passes hbuf

theorem exec_calwait_waits {s : State} {y : BNx} (hg : s.cx.guardB y.gp y.gn = true) (hw : calTicks y ≤ 7520)
    (hclear : ¬ s.calClear (calTicks y) = true) : exec (.calwait y) s = .next s := by
  have hhold : holdCalwait y s = some s := by simp [holdCalwait, hclear, hg, hw]
  rw [exec_calwait, execCalwait, hhold]
  rfl

theorem exec_calwait_range {s : State} {y : BNx} (hg : s.cx.guardB y.gp y.gn = true) (hw : 7520 < calTicks y) :
    exec (.calwait y) s = .next (takeTrap { cause := .paramRange, slot := 3 } s) := by
  have hhold : holdCalwait y s = none := by simp [holdCalwait, Nat.not_le.2 hw]
  rw [exec_calwait, execCalwait, hhold, opCalwait, if_pos (by simp [hg, hw])]
  rfl

/-- R315: no access of the step waits at a full or empty word, nor those of a handler's program. -/
def NoneWaits (c : Ctx) : Prop :=
  (∀ e, e ∈ c.pend ∨ (∃ h, c.shadow = some h ∧ e ∈ h.pend) → e.fe = none ∨ e.arrived = true) ∧ c.stq = []

theorem mem_results {c : Ctx} {e : Pend} : e ∈ c.results ↔ e ∈ c.pend ∨ ∃ h, c.shadow = some h ∧ e ∈ h.pend := by
  cases hs : c.shadow with
  | none => simp [Ctx.results, hs]
  | some h => simp [Ctx.results, hs, or_comm]

theorem fence_waits_iff (c : Ctx) :
    (c.results.any (fun e => e.fe.isSome && !e.arrived) || !c.stq.isEmpty) = true ↔ ¬ NoneWaits c := by
  rw [← Bool.not_eq_false, not_iff_not, Bool.or_eq_false_iff, List.any_eq_false]
  refine and_congr (forall_congr' fun e => ?_) (by simp)
  rw [← mem_results]
  refine imp_congr_right fun _ => ?_
  cases e.fe <;> simp

theorem exec_fence_waits {s : State} {f : BFe} (hg : s.cx.guardB f.gp f.gn = true) (hwaits : ¬ NoneWaits s.cx) :
    exec (.fence f) s = .next s := by
  have hhold : holdFence f s = some s := by
    rw [holdFence, hg, (fence_waits_iff s.cx).2 hwaits]
    rfl
  rw [exec_fence, execFence, hhold]
  rfl

theorem exec_fence_done {s : State} {f : BFe} (hdone : NoneWaits s.cx) : exec (.fence f) s = finishHold s none (opFence f s) := by
  have hhold : holdFence f s = none := by
    rw [holdFence, Bool.eq_false_iff.2 fun h => (fence_waits_iff s.cx).1 h hdone, Bool.and_false]
    rfl
  rw [exec_fence, execFence, hhold]

theorem exec_ifence_on {s : State} {i : BG} (hbuf : s.cx.buf = {}) (hg : s.cx.guardB i.gp i.gn = true) :
    exec (.ifence i) s = .next (s.setCx (issued { s.cx with text := [] })) := by
  rw [exec_ifence, execIfence, opIfence, if_pos hg]
  exact finishHold_setCx hbuf

theorem exec_ifence_off {s : State} {i : BG} (hbuf : s.cx.buf = {}) (hg : s.cx.guardB i.gp i.gn = false) :
    exec (.ifence i) s = passes s := by
  rw [exec_ifence, execIfence, opIfence, hg]
  exact finishHold_passes hbuf

/-- R122, R124, R315, R410: YIELD, CALWAIT, FENCE and IFENCE. -/
theorem yieldFenceCalwaitResults : YieldFenceCalwaitResults := by
  intro s y f i hbuf c w
  refine ⟨fun hg => ⟨exec_yield_on hbuf hg, fun hw => ⟨fun hl hd hn => ?_, fun hout => ?_⟩, exec_calwait_range hg⟩,
    fun hg => ⟨fun hdone hscope => ?_, fun hdone hscope => ?_, exec_fence_waits hg⟩, exec_ifence_on hbuf, exec_ifence_off hbuf⟩
  · exact exec_calwait_clear hbuf hw ((calClear_iff s w).2 ⟨hl, hd, hn⟩)
  · refine exec_calwait_waits hg hw fun hclear => ?_
    obtain ⟨hl, hd, hn⟩ := (calClear_iff s w).1 hclear
    rcases hout with h | h | h
    · exact h hl
    · omega
    · omega
  · rw [exec_fence_done hdone, opFence, if_neg (by simp [hscope])]
    exact finishHold_passes hbuf
  · rw [exec_fence_done hdone, opFence, if_pos (Bool.and_eq_true_iff.2 ⟨hg, decide_eq_true hscope⟩)]
    exact finishHold_setCx hbuf

/-! ### EXIT, TRAP, BKPT, SVC and STKCLR (R51, R123, R384) -/

/-- A load whose place stays delivers nothing (R25). -/
theorem mem_discard {l : List Pend} {e : Pend} (h : e ∈ Machine.discard l) : e.dst = .none ∧ e.flags = 0 ∧ e.load = true := by
  obtain ⟨e', he', rfl⟩ := List.mem_map.1 h
  have hload := (List.mem_filter.1 he').2
  exact ⟨rfl, rfl, (Bool.and_eq_true_iff.1 hload).1⟩

/-- R123, R379: a step without a trap that waits ends with no cause. -/
theorem endStep_life {c : Ctx} (hshadow : c.shadow = none) (hdeferred : c.deferred = [])
    (hpend : ∀ e ∈ c.pend, e.lost = none ∧ e.trapped = none) (st : Nat) (pc : W64) :
    (c.endStep st none pc).life = .ended st none pc := by
  have hfind : c.pend.find? (fun e => e.lost.isSome || e.trapped.isSome) = none := by
    refine List.find?_eq_none.2 fun e he => ?_
    obtain ⟨hlost, htrapped⟩ := hpend e he
    simp [hlost, htrapped]
  simp [Ctx.endStep, hshadow, hdeferred, hfind]

theorem exec_exit_on {s : State} {f : BN} (hbuf : s.cx.buf = {}) (hg : s.cx.guardB f.gp f.gn = true)
    (hlife : ((issued s.cx).endStep f.n.toNat none s.cx.pc).life = .ended f.n.toNat none s.cx.pc) :
    exec (.exit f) s = .next (s.setCx ((issued s.cx).endStep f.n.toNat none s.cx.pc)) := by
  rw [exec_exit, execExit]
  refine (finishHold_finalB hbuf hg (.exit f.n.toNat)).trans ?_
  simp only [applyFinal, modCx_eq, cx_setCx, setCx_setCx]
  rw [cancelFault_no_fault]
  intro st k pc
  rw [setCx_cur, ctx_setCx, if_pos rfl, hlife]
  exact nofun

/-- R384: TRAP and BKPT raise their cause at the end of the issue. -/
theorem finishHold_soft {s : State} {f : BN} (hbuf : s.cx.buf = {}) (hg : s.cx.guardB f.gp f.gn = true) (cause : Cause) :
    finishHold s none (finalB f.gp f.gn (.soft cause f.n.toNat) s) =
      .next (takeTrapAt { cause := cause, slot := 3, soft := true, arg := f.n.toNat } s.cx.pc s.cx.pc (s.setCx (issued s.cx))) := by
  rw [finishHold_finalB hbuf hg, applyFinal, cx_setCx]
  rfl

theorem exec_bkpt_halts {s : State} {f : BN} (hbuf : s.cx.buf = {}) (hg : s.cx.guardB f.gp f.gn = true)
    (hhalt : s.haltable = true) : exec (.bkpt f) s = .next (s.setCx (issued { s.cx with halted := true })) := by
  rw [exec_bkpt, execBkpt, opBkpt, if_pos hhalt]
  refine (finishHold_finalB hbuf hg (.halt f.n.toNat)).trans ?_
  simp only [applyFinal, modCx_eq, cx_setCx, setCx_setCx]
  rfl

theorem exec_stkclr_on {s : State} {g : BG} (hbuf : s.cx.buf = {}) (hg : s.cx.guardB g.gp g.gn = true) :
    exec (.stkclr g) s = .next (s.setCx (issued { s.cx with
      recA := { op := .anop }, recV := { op := .vnop }, recM := { op := .mnop } })) := by
  rw [exec_stkclr, execStkclr]
  refine (finishHold_finalB hbuf hg .clear).trans ?_
  simp only [applyFinal, modCx_eq, cx_setCx, setCx_setCx]
  rfl

theorem exec_svc_asks {s : State} {v : BSv} (hg : s.cx.guardB v.gp v.gn = true) (hnone : s.cx.hold = .none) :
    exec (.svc v) s = .next ({ s with free := s.free + 1 }.setCx { s.cx with
      hold := .reply (Config.svcReply v.n.toNat (s.cx.rvm v.va.toNat) s.free) }) := by
  have hhold : holdSvc v s = some ({ s with free := s.free + 1 }.setCx { s.cx with
      hold := .reply (Config.svcReply v.n.toNat (s.cx.rvm v.va.toNat) s.free) }) := by
    simp only [holdSvc, hg, hnone]
    rfl
  rw [exec_svc, execSvc, hhold]
  rfl

theorem exec_svc_replied {s : State} {v : BSv} {r : W64} (hbuf : s.cx.buf = {}) (hg : s.cx.guardB v.gp v.gn = true)
    (hreply : s.cx.hold = .reply r) : exec (.svc v) s =
      .next (s.setCx (issued { s.cx.deliver (.vm v.vd.toNat) (r.setWidth 512) 1 3 with hold := .none })) := by
  have hhold : holdSvc v s = none := by simp [holdSvc, hreply]
  have hop : opSvc v s = .ok (s.setCx { s.cx.deliver (.vm v.vd.toNat) (r.setWidth 512) 1 3 with hold := .none }) := by
    simp only [opSvc, hg, hreply]
    rfl
  rw [exec_svc, execSvc, hhold, hop]
  exact finishHold_setCx hbuf

/-- R123, R384, R51, R50: the system operations. -/
theorem systemOperationResults : SystemOperationResults := by
  intro s f v g hbuf c soft
  refine ⟨fun hg => ⟨fun hshadow hdeferred hpend => ?_, ?_, fun hhalt => ?_, exec_bkpt_halts hbuf hg⟩,
    fun hg => ⟨exec_svc_asks hg, fun r => exec_svc_replied hbuf hg⟩, exec_stkclr_on hbuf, rfl, rfl, rfl, rfl⟩
  · have hlife := endStep_life (c := issued s.cx) hshadow hdeferred hpend f.n.toNat s.cx.pc
    exact ⟨_, exec_exit_on hbuf hg hlife, hlife, fun e he => mem_discard he, rfl, rfl, rfl, rfl, rfl, rfl, rfl, rfl, rfl⟩
  · exact finishHold_soft hbuf hg .software
  · rw [exec_bkpt, execBkpt, opBkpt, hhalt]
    exact finishHold_soft hbuf hg .breakpoint

/-- Settles O8: the waits, the operations on time and order, and the system operations. -/
theorem waitsAndSystemOperations : Obligations.WaitsAndSystemOperations :=
  ⟨waitResults, yieldFenceCalwaitResults, systemOperationResults⟩

end Sys2Proof.Laws

namespace Sys2Proof.Laws
open Sys2Proof.Machine

/-! ### Translations and the context (R272 to R276) -/

theorem walk_setCx (s : State) (c : Ctx) (va table : Nat) (levels : List (Nat × Nat)) :
    walk (s.setCx c) va table levels = walk s va table levels := by
  induction levels generalizing table with
  | nil => rfl
  | cons l rest ih =>
    rw [walk, walk]
    simp only [ih]
    rfl

theorem walkFrom_setCx (s : State) (c : Ctx) (w : WalkEntry) (pool : Bool) (off : Nat) :
    (s.setCx c).walkFrom w pool off = s.walkFrom w pool off := by
  rw [State.walkFrom, State.walkFrom, walk_setCx]

theorem walkTables_setCx (s : State) (c : Ctx) (va : Nat) (w : WalkEntry) (levels : List (Nat × Nat)) :
    walkTables (s.setCx c) va w levels = walkTables s va w levels := by
  induction levels generalizing w with
  | nil => rfl
  | cons l rest ih =>
    rw [walkTables, walkTables]
    simp only [ih]
    rfl

theorem walkStart_setCx (s : State) (c : Ctx) (n asid gen : Nat) (pool : Bool) (off : Nat) :
    (s.setCx c).walkStart n asid gen pool off =
      ((s.walkStart n asid gen pool off).1, (s.walkStart n asid gen pool off).2.setCx c) := by
  unfold State.walkStart
  rw [show (s.setCx c).walks n = s.walks n from rfl]
  split
  · rfl
  · dsimp only [State.fresh]
    rw [show (s.setCx c).free = s.free from rfl]
    split <;> rfl

theorem addTlb_setCx (s : State) (c : Ctx) (n : Nat) (e : TlbEntry) (ws : List WalkEntry) :
    (s.setCx c).addTlb n e ws = (s.addTlb n e ws).setCx c := by
  unfold State.addTlb
  split <;> rfl

/-- A translation does not read the current context, and leaves it as it is. -/
theorem xlate_setCx (s : State) (c : Ctx) (n asid gen : Nat) (pool : Bool) (off : Nat) (write : Bool) :
    (s.setCx c).xlate n asid gen pool off write =
      ((s.xlate n asid gen pool off write).1, (s.xlate n asid gen pool off write).2.setCx c) := by
  unfold State.xlate
  rw [show (s.setCx c).tlb n = s.tlb n from rfl, show (s.setCx c).landing = s.landing from rfl, walkStart_setCx]
  split
  · rfl
  · split
    · rfl
    · rcases s.walkStart n asid gen pool off with ⟨_ | w, t⟩
      · rfl
      · dsimp only
        rw [walkFrom_setCx]
        rcases t.walkFrom w pool off with _ | e
        · rfl
        · dsimp only
          rw [walkTables_setCx, addTlb_setCx]
          rfl

/-- A translation changes no more than a TLB, a walk cache and the count of free choices. -/
theorem xlate_frame (s : State) (n asid gen : Nat) (pool : Bool) (off : Nat) (write : Bool) :
    ∃ f, (s.xlate n asid gen pool off write).2 = { s with free := f } ∨
      ∃ e ws, (s.xlate n asid gen pool off write).2 = ({ s with free := f } : State).addTlb n e ws := by
  have hstart : ∃ f, (s.walkStart n asid gen pool off).2 = { s with free := f } := by
    unfold State.walkStart
    split
    · exact ⟨s.free, rfl⟩
    · dsimp only [State.fresh]
      split <;> exact ⟨s.free + 1, rfl⟩
  obtain ⟨f, hf⟩ := hstart
  unfold State.xlate
  split
  · exact ⟨s.free, .inl rfl⟩
  · split
    · exact ⟨s.free, .inl rfl⟩
    · revert hf
      rcases s.walkStart n asid gen pool off with ⟨_ | w, t⟩
      · exact fun hf => ⟨f, .inl hf⟩
      · rintro rfl
        dsimp only
        split
        · exact ⟨f, .inl rfl⟩
        · exact ⟨f, .inr ⟨_, _, rfl⟩⟩

@[simp] theorem addTlb_cx (s : State) (n : Nat) (e : TlbEntry) (ws : List WalkEntry) : (s.addTlb n e ws).cx = s.cx := by
  unfold State.addTlb
  split <;> rfl

@[simp] theorem addTlb_tick (s : State) (n : Nat) (e : TlbEntry) (ws : List WalkEntry) : (s.addTlb n e ws).tick = s.tick := by
  unfold State.addTlb
  split <;> rfl

theorem xlate_cx (s : State) (n asid gen : Nat) (pool : Bool) (off : Nat) (write : Bool) :
    (s.xlate n asid gen pool off write).2.cx = s.cx := by
  obtain ⟨f, h | ⟨e, ws, h⟩⟩ := xlate_frame s n asid gen pool off write
  · rw [h]; rfl
  · rw [h, addTlb_cx]; rfl

theorem xlate_tick (s : State) (n asid gen : Nat) (pool : Bool) (off : Nat) (write : Bool) :
    (s.xlate n asid gen pool off write).2.tick = s.tick := by
  obtain ⟨f, h | ⟨e, ws, h⟩⟩ := xlate_frame s n asid gen pool off write
  · rw [h]
  · rw [h, addTlb_tick]

/-! ### A read of text leaves of a context its lines alone (R42, R124) -/

/-- Of the context, `t` has other lines of text than `s` at most; and it is the same tick. -/
structure TextOnly (s t : State) : Prop where
  cx : t.cx = { s.cx with text := t.cx.text }
  tick : t.tick = s.tick

theorem TextOnly.refl (s : State) : TextOnly s s := ⟨rfl, rfl⟩

theorem TextOnly.trans {s t u : State} (h : TextOnly s t) (k : TextOnly t u) : TextOnly s u :=
  ⟨by rw [k.cx, h.cx], k.tick.trans h.tick⟩

theorem TextOnly.of_same {s t : State} (hcx : t.cx = s.cx) (htick : t.tick = s.tick) : TextOnly s t :=
  ⟨by rw [hcx], htick⟩

theorem textOnly_keepLine (s : State) (line : Nat) (ws : List (Option W32)) : TextOnly s (s.modCx (·.keepLine line ws)) :=
  ⟨by rw [modCx_eq, cx_setCx]; rfl, rfl⟩

theorem textOnly_xlate (s : State) (n asid gen : Nat) (pool : Bool) (off : Nat) (write : Bool) :
    TextOnly s (s.xlate n asid gen pool off write).2 :=
  .of_same (xlate_cx ..) (xlate_tick ..)

theorem textOnly_readAhead (n : Nat) (s : State) (line : Nat) : TextOnly s (s.readAhead line n) := by
  induction n generalizing s line with
  | zero => exact .refl s
  | succ n ih =>
    rw [State.readAhead]
    split
    · exact .refl s
    · dsimp only
      split
      · exact (textOnly_keepLine ..).trans (ih _ _)
      · exact .refl s

/-- What a read of the line of `pc` at the physical address `pa` leaves: that line, and a free number that follow it (R124). -/
def readLines (pc : W64) (pa : Nat) (t : State) : State :=
  let u := t.fresh.2.modCx (·.keepLine (pc.toNat / 64) (t.lineAt (pa - pc.toNat % 64)))
  if u.cx.textLen ≤ 64 * (pc.toNat / 64 + 1) then u else u.readAhead (pc.toNat / 64 + 1) (Config.fetchAhead t.free)

/-- What a read of text at `pc`, of address `va`, makes of its translation (R42, R409). -/
def readAnswer (pc va : W64) : Xl × State → TextRead × State
  | (.wait, t) => (.wait, t)
  | (.fail sub, t) => (.trap { cause := .streamXlate, sub := sub, whole := true, addr := va }, t)
  | (.lost, t) => (.trap { cause := .dataLost, whole := true, addr := va }, t)
  | (.ok pa, t) => if t.landing.isSome && inHbm pa then (.wait, t) else (.ok, readLines pc pa t)

theorem readText_eq (s : State) (pc : W64) :
    s.readText pc = readAnswer pc (BitVec.ofNat 64 (s.cx.textVa pc))
      (s.xlate s.cur s.cx.asid s.cx.gen false (s.cx.textVa pc) false) := rfl

theorem textOnly_readLines (pc : W64) (pa : Nat) (t : State) : TextOnly t (readLines pc pa t) := by
  have hfresh : TextOnly t t.fresh.2 := .of_same rfl rfl
  unfold readLines
  dsimp only
  split
  · exact hfresh.trans (textOnly_keepLine ..)
  · exact (hfresh.trans (textOnly_keepLine ..)).trans (textOnly_readAhead ..)

theorem textOnly_readAnswer (pc va : W64) (x : Xl × State) : TextOnly x.2 (readAnswer pc va x).2 := by
  rcases x with ⟨pa | _ | _ | _, t⟩
  case ok =>
    simp only [readAnswer]
    split
    · exact .refl t
    · exact textOnly_readLines ..
  all_goals exact .refl t

theorem textOnly_readText (s : State) (pc : W64) : TextOnly s (s.readText pc).2 :=
  (textOnly_xlate ..).trans (textOnly_readAnswer ..)

theorem textOnly_needText (s : State) (pc : W64) (n : Nat) : TextOnly s (s.needText pc n).2 := by
  have hread := textOnly_readText s pc
  rw [State.needText]
  split
  · exact .refl s
  · revert hread
    rcases s.readText pc with ⟨_ | _ | _, t⟩ <;> intro hread
    case ok =>
      dsimp only
      split <;> exact hread
    all_goals exact hread

theorem textOnly_seek (fuel : Nat) (pc : W64) (s : State) : TextOnly s (seek fuel pc s).2 := by
  induction fuel generalizing pc s with
  | zero => exact .refl s
  | succ fuel ih =>
    have hneed := textOnly_needText s pc 1
    rw [seek]
    split
    · exact .refl s
    · revert hneed
      rcases s.needText pc 1 with ⟨_ | _ | _, t⟩ <;> intro hneed
      case ok =>
        dsimp only
        split
        · exact hneed.trans (ih ..)
        · exact hneed
      all_goals exact hneed

/-! ### What a read of text reads of the context -/

/-- `t` is `s` but for the current context, which in `t` has the same text from the same place of the same address space. -/
structure SameText (s t : State) : Prop where
  rest : t = s.setCx t.cx
  text : t.cx.text = s.cx.text
  textLen : t.cx.textLen = s.cx.textLen
  asid : t.cx.asid = s.cx.asid
  gen : t.cx.gen = s.cx.gen
  code : t.cx.code = s.cx.code
  textOff : t.cx.textOff = s.cx.textOff

/-- The same context where the place of the text is as before: what reads of text keep. -/
theorem SameText.of_reads {s t s' t' : State} (h : SameText s t) (hs : TextOnly s s') (ht : TextOnly t t')
    (hrest : t' = s'.setCx t'.cx) (htext : t'.cx.text = s'.cx.text) : SameText s' t' := by
  refine ⟨hrest, htext, ?_, ?_, ?_, ?_, ?_⟩ <;> rw [ht.cx, hs.cx]
  exacts [h.textLen, h.asid, h.gen, h.code, h.textOff]

theorem SameText.textVa {s t : State} (h : SameText s t) (pc : W64) : t.cx.textVa pc = s.cx.textVa pc := by
  rw [Ctx.textVa, Ctx.textVa, h.code, h.textOff]

theorem SameText.textWords {s t : State} (h : SameText s t) (pc : W64) (n : Nat) : t.cx.textWords pc n = s.cx.textWords pc n := by
  rw [Ctx.textWords, Ctx.textWords, h.text]

theorem SameText.textWord {s t : State} (h : SameText s t) (pc : W64) : t.cx.textWord pc = s.cx.textWord pc := by
  rw [Ctx.textWord, Ctx.textWord, h.text]

theorem SameText.keepLine {s t : State} (h : SameText s t) (line : Nat) (ws : List (Option W32)) :
    SameText (s.modCx (·.keepLine line ws)) (t.modCx (·.keepLine line ws)) := by
  refine h.of_reads (textOnly_keepLine ..) (textOnly_keepLine ..) ?_ ?_
  · rw [modCx_eq, modCx_eq, cx_setCx, setCx_setCx]
    conv_lhs => rw [h.rest, setCx_setCx]
    rw [← h.rest]
  · rw [modCx_eq, modCx_eq, cx_setCx, cx_setCx, Ctx.keepLine, Ctx.keepLine, h.text]

/-- The same translation is made for both. -/
theorem SameText.xlate {s t : State} (h : SameText s t) (pc : W64) :
    let xs := s.xlate s.cur s.cx.asid s.cx.gen false (s.cx.textVa pc) false
    let xt := t.xlate t.cur t.cx.asid t.cx.gen false (t.cx.textVa pc) false
    xt.1 = xs.1 ∧ SameText xs.2 xt.2 := by
  intro xs xt
  have hxt : xt = (xs.1, xs.2.setCx t.cx) := by
    have hcur : t.cur = s.cur := by rw [h.rest]; rfl
    change t.xlate t.cur t.cx.asid t.cx.gen false (t.cx.textVa pc) false = _
    rw [h.asid, h.gen, h.textVa, hcur]
    conv_lhs => rw [h.rest]
    exact xlate_setCx ..
  have hcx : xt.2.cx = t.cx := by rw [hxt, cx_setCx]
  refine ⟨by rw [hxt], h.of_reads (textOnly_xlate ..) (textOnly_xlate ..) ?_ ?_⟩
  · rw [hcx, hxt]
  · rw [hcx, h.text, ← xlate_cx s s.cur s.cx.asid s.cx.gen false (s.cx.textVa pc) false]

theorem SameText.lineAt {s t : State} (h : SameText s t) (pa : Nat) : t.lineAt pa = s.lineAt pa := by
  rw [h.rest]
  rfl

theorem SameText.readAhead {s t : State} (h : SameText s t) (line n : Nat) : SameText (s.readAhead line n) (t.readAhead line n) := by
  induction n generalizing s t line with
  | zero => exact h
  | succ n ih =>
    obtain ⟨hx, -⟩ := h.xlate (BitVec.ofNat 64 (64 * line))
    rw [State.readAhead, State.readAhead, h.textLen]
    split
    · exact h
    · dsimp only
      rw [hx]
      split
      · rw [h.lineAt]
        exact ih (h.keepLine ..) _
      · exact h

theorem SameText.fresh {s t : State} (h : SameText s t) : SameText s.fresh.2 t.fresh.2 := by
  refine h.of_reads (.of_same rfl rfl) (.of_same rfl rfl) ?_ h.text
  conv_lhs => rw [h.rest]
  rfl

theorem SameText.readLines {s t : State} (h : SameText s t) (pc : W64) (pa : Nat) :
    SameText (readLines pc pa s) (readLines pc pa t) := by
  have hfree : t.free = s.free := by rw [h.rest]; rfl
  have hkeep := h.fresh.keepLine (pc.toNat / 64) (s.lineAt (pa - pc.toNat % 64))
  unfold Laws.readLines
  dsimp only
  rw [h.lineAt, hfree, hkeep.textLen]
  split
  · exact hkeep
  · exact hkeep.readAhead ..

theorem SameText.readText {s t : State} (h : SameText s t) (pc : W64) :
    (t.readText pc).1 = (s.readText pc).1 ∧ SameText (s.readText pc).2 (t.readText pc).2 := by
  obtain ⟨hx, hsame⟩ := h.xlate pc
  rw [readText_eq, readText_eq, h.textVa]
  rw [h.textVa] at hx hsame
  revert hx hsame
  rcases s.xlate s.cur s.cx.asid s.cx.gen false (s.cx.textVa pc) false with ⟨a, u⟩
  rcases t.xlate t.cur t.cx.asid t.cx.gen false (s.cx.textVa pc) false with ⟨b, v⟩
  rintro hx hsame
  obtain rfl : b = a := hx
  have hland : v.landing = u.landing := by
    have hv : v = u.setCx v.cx := hsame.rest
    rw [hv]
    rfl
  rcases b with pa | sub | _ | _
  case ok =>
    simp only [readAnswer]
    rw [hland]
    split
    · exact ⟨rfl, hsame⟩
    · exact ⟨rfl, hsame.readLines ..⟩
  all_goals exact ⟨rfl, hsame⟩

theorem SameText.needText {s t : State} (h : SameText s t) (pc : W64) (n : Nat) :
    (t.needText pc n).1 = (s.needText pc n).1 ∧ SameText (s.needText pc n).2 (t.needText pc n).2 := by
  obtain ⟨hr, hsame⟩ := h.readText pc
  rw [State.needText, State.needText, h.textWords]
  split
  · exact ⟨rfl, h⟩
  · revert hr hsame
    rcases s.readText pc with ⟨a, u⟩
    rcases t.readText pc with ⟨b, v⟩
    rintro hr hsame
    obtain rfl : b = a := hr
    rcases b with _ | _ | _
    case ok =>
      dsimp only at hsame ⊢
      rw [hsame.textWords, hsame.textVa]
      split <;> exact ⟨rfl, hsame⟩
    all_goals exact ⟨rfl, hsame⟩

/-- R32, R42: a seek finds the same in both, and keeps the same lines. -/
theorem SameText.seek {s t : State} (h : SameText s t) (fuel : Nat) (pc : W64) :
    (seek fuel pc t).1 = (seek fuel pc s).1 ∧ SameText (seek fuel pc s).2 (seek fuel pc t).2 := by
  induction fuel generalizing pc s t with
  | zero => exact ⟨rfl, h⟩
  | succ fuel ih =>
    obtain ⟨hr, hsame⟩ := h.needText pc 1
    rw [Machine.seek, Machine.seek, h.textLen]
    split
    · exact ⟨rfl, h⟩
    · revert hr hsame
      rcases s.needText pc 1 with ⟨a, u⟩
      rcases t.needText pc 1 with ⟨b, v⟩
      rintro hr hsame
      obtain rfl : b = a := hr
      rcases b with _ | _ | _
      case ok =>
        dsimp only at hsame ⊢
        rw [hsame.textWord]
        split
        · exact ih hsame _
        · exact ⟨rfl, hsame⟩
      all_goals exact ⟨rfl, hsame⟩

end Sys2Proof.Laws

namespace Sys2Proof.Laws
open Sys2Proof.Machine

/-! ### Branches (R113, R114) -/

/-- What a branch that is taken leaves of context `c`, with `lost` cycles lost (R114). -/
def branched (s : State) (c : Ctx) (target : W64) (lost : Nat) : Ctx :=
  issued { c with pc := target, stall := max c.stall (s.tick + 1 + lost) }

theorem commit_take {s : State} (hbuf : s.cx.buf = {}) (target : W64) {lost : Nat} (hlost : lost ≠ 0) :
    commit (take target lost s) = s.setCx (branched s s.cx target lost) := by
  rw [commit_quiet] <;> simp [take, State.modBuf, modCx_eq, hbuf, Ctx.setLoops, branched, issued, hlost]

/-- A control-register write of a register that is the context's alone (R106, R107). -/
def putCr (w : CrWrite) (f : RegFile 64) : RegFile 64 := f.write w.num ((f.read w.num &&& ~~~w.mask) ||| (w.val &&& w.mask))

theorem putCr_all (n : Nat) (v : W64) (f : RegFile 64) : putCr { num := n, mask := all64, val := v } f = f.write n v := by
  simp only [putCr, all64, BitVec.not_allOnes, BitVec.and_zero, BitVec.zero_or, BitVec.and_allOnes]

theorem applyCr_link (v : W64) (s : State) :
    applyCr { num := 4, mask := all64, val := v } s = s.setCx { s.cx with crs := s.cx.crs.write 4 v } := by
  rw [← putCr_all]
  rfl

theorem exec_call_taken {s : State} {j : BJ} (hbuf : s.cx.buf = {}) (hg : s.cx.guardB j.gp j.gn = true) :
    exec (.call j) s = .next (s.setCx (branched s { s.cx with crs := s.cx.crs.write 4 s.cx.after } (brTarget j s.cx) 1)) := by
  rw [exec_call, execCall, opCall, if_pos hg, finishHold_ok]
  refine congrArg _ ?_
  simp only [commit, commitStores, take, State.modBuf, modCx_eq, cx_setCx, setCx_setCx, hbuf, List.isEmpty_nil, if_true,
    List.nil_append, List.foldl_cons, List.foldl_nil, applyCr_link, Ctx.setLoops, applyFinal]
  simp [branched, issued]

theorem exec_br_taken {s : State} {j : BJ} (hbuf : s.cx.buf = {}) (hg : s.cx.guardB j.gp j.gn = true) :
    exec (.br j) s = .next (s.setCx (branched s s.cx (brTarget j s.cx) 1)) := by
  rw [exec_br, execBr, opBr, if_pos hg, finishHold_ok, commit_take hbuf _ (by decide)]

theorem finishHold_indirect {s : State} (hbuf : s.cx.buf = {}) (target : W64) :
    (target.toNat % 4 = 0 → finishHold s none (indirect target s) = .next (s.setCx (branched s s.cx target 2))) ∧
    (target.toNat % 4 ≠ 0 →
      finishHold s none (indirect target s) = .next (takeTrap { cause := .illegalBundle, whole := true } s)) := by
  refine ⟨fun h => ?_, fun h => ?_⟩
  · rw [indirect, if_neg (not_not.2 h), finishHold_ok, commit_take hbuf _ (by decide)]
  · rw [indirect, if_pos h, finishHold_trap]

/-- A displacement of words, added to an address (R113). -/
theorem ofInt_add_words {n : Nat} (pc : W64) (x : BitVec n) :
    BitVec.ofInt 64 (pc.toNat + 4 * x.toInt) = pc + x.signExtend 64 * 4 := by
  rw [BitVec.ofInt_add, BitVec.ofInt_mul, BitVec.ofInt_natCast, BitVec.ofNat_toNat, BitVec.setWidth_eq, BitVec.mul_comm]
  rfl

theorem brTarget_eq (j : BJ) (c : Ctx) :
    BitVec.ofInt 64 (c.pc.toNat + 4 * (match j.ext with | some e => e.toInt | none => j.ofs.toInt)) = brTarget j c := by
  unfold brTarget
  cases j.ext <;> exact ofInt_add_words ..

/-- R113, R114, R107: the branches. -/
theorem branchResults : BranchResults := by
  intro s j g hbuf c target goes link through
  have htarget : target = brTarget j c := brTarget_eq j c
  have hpass : finishHold s none (.ok s) = passes s := finishHold_passes hbuf
  refine ⟨fun hg => ⟨?_, ?_⟩, fun hg => ⟨?_, ?_⟩, fun hg => ⟨?_, ?_⟩, fun hg => ⟨?_, ?_⟩⟩
  · rw [htarget]
    exact exec_br_taken hbuf hg
  · rw [htarget]
    exact exec_call_taken hbuf hg
  · rwa [exec_br, execBr, opBr, if_neg (by simpa using hg)]
  · rwa [exec_call, execCall, opCall, if_neg (by simpa using hg)]
  · rw [exec_ret, execRet, opRet, if_pos hg]
    exact finishHold_indirect hbuf _
  · rw [exec_brx, execBrx, opBrx, if_pos hg]
    exact finishHold_indirect hbuf _
  · rwa [exec_ret, execRet, opRet, if_neg (by simpa using hg)]
  · rwa [exec_brx, execBrx, opBrx, if_neg (by simpa using hg)]

/-! ### Loops (R115, R117) -/

/-- E of a loop bundle: the place END12 words behind it (R115). -/
def bodyEnd (c : Ctx) (last : BitVec 12) : W64 := c.pc + BitVec.ofNat 64 (4 * last.toNat)

theorem bodyEnd_eq (c : Ctx) (last : BitVec 12) : c.pc + last.setWidth 64 * 4 = bodyEnd c last := by
  unfold bodyEnd
  congr 1
  bv_omega

/-- What a loop bundle leaves of context `c`: its counter on the way, LOOPB and LOOPE (R115). -/
def looped (c : Ctx) (n : BitVec 2) (cnt : BitVec 32) (last : BitVec 12) : Ctx :=
  { c.deliver (.lc n.toNat) (cnt.setWidth 512) 1 3 with
    crs := (c.crs.write (8 + n.toNat) c.after).write (12 + n.toNat) (bodyEnd c last) }

/-- What a loop bundle leaves in the buffer of its issue. -/
def loopBuf (c : Ctx) (n : BitVec 2) (cnt : BitVec 32) (last : BitVec 12) : IssueBuf :=
  { lcNow := [(n.toNat, cnt)], loopb := [(n.toNat, c.after)], loope := [(n.toNat, bodyEnd c last)] }

/-- The context that a loop bundle leaves before the end of its issue. -/
def loopBuffered (c : Ctx) (n : BitVec 2) (cnt : BitVec 32) (last : BitVec 12) : Ctx :=
  { c.deliver (.lc n.toNat) (cnt.setWidth 512) 1 3 with buf := loopBuf c n cnt last }

theorem loopStart_nonzero {s : State} {n : BitVec 2} {cnt : BitVec 32} {last : BitVec 12} (hbuf : s.cx.buf = {}) (hcnt : cnt ≠ 0) :
    loopStart n.toNat cnt last s = .ok (s.setCx (loopBuffered s.cx n cnt last)) := by
  rw [loopStart]
  simp only [hcnt, if_false, bodyEnd_eq, setLc, State.modBuf, modCx_eq, cx_setCx, setCx_setCx, deliver_buf, hbuf]
  rfl

theorem loopStart_zero {s u : State} {n : BitVec 2} {last : BitVec 12} {pc : Option W64} (hbuf : s.cx.buf = {})
    (hafter : (s.setCx (loopBuffered s.cx n 0 last)).afterBundle (bodyEnd s.cx last) = (pc, u)) :
    loopStart n.toNat 0 last s =
      .ok (u.modBuf (fun b => { b with next := some (pc.getD (bodyEnd s.cx last)), lost := 1 })) := by
  rw [loopStart]
  simp only [if_true, bodyEnd_eq, setLc, State.modBuf, modCx_eq, cx_setCx, setCx_setCx, deliver_buf, hbuf]
  rw [loopBuffered, loopBuf] at hafter
  rw [hafter]

/-- The end of an issue that leaves a loop bundle's buffer, with the place to continue at where it skips its body. -/
theorem commit_looped {s : State} {c : Ctx} {n : BitVec 2} {cnt : BitVec 32} {last : BitVec 12} {text : Map (List (Option W32))}
    {next : Option W64} {lost : Nat}
    (hcx : s.cx = { loopBuffered c n cnt last with text := text, buf := { loopBuf c n cnt last with next := next, lost := lost } })
    (hbuf : c.buf = {}) :
    commit s = s.setCx (issued { looped c n cnt last with
      text := text, pc := next.getD c.pc, stall := if lost = 0 then c.stall else max c.stall (s.tick + 1 + lost) }) := by
  rw [commit_quiet] <;> rw [hcx]
  · simp [loopBuffered, loopBuf, looped, issued, Ctx.setLoops, Ctx.setCr, Ctx.deliver, Ctx.push, hbuf]
  all_goals rfl

/-- R115: a loop bundle whose count is not zero. -/
theorem finishHold_loop_nonzero {s s0 : State} {n : BitVec 2} {cnt : BitVec 32} {last : BitVec 12} (hbuf : s.cx.buf = {})
    (hcnt : cnt ≠ 0) : finishHold s0 none (loopStart n.toNat cnt last s) = .next (s.setCx (issued (looped s.cx n cnt last))) := by
  rw [loopStart_nonzero hbuf hcnt, finishHold_ok]
  refine congrArg _ ((commit_looped (text := s.cx.text) (next := none) (lost := 0) (by rw [cx_setCx]; rfl) hbuf).trans ?_)
  rw [setCx_setCx]
  rfl

/-- The same seek in a context with the same text. -/
theorem SameText.seekAt {s t s1 : State} {e : W64} {r : Seek} (h : SameText s t) (hseek : s.seekAt e = (r, s1)) :
    ∃ t1, t.seekAt e = (r, t1) ∧ SameText s1 t1 ∧ TextOnly t t1 := by
  obtain ⟨hr, hsame⟩ := h.seek (s.cx.textLen / 4 + 1) e
  rw [State.seekAt] at hseek
  rw [hseek] at hr hsame
  refine ⟨(t.seekAt e).2, Prod.ext ?_ rfl, ?_, textOnly_seek ..⟩
  · rw [State.seekAt, h.textLen]
    exact hr
  · rw [State.seekAt, h.textLen]
    exact hsame

/-- R115, R42: one whose count is zero continues after the bundle at its end. -/
theorem finishHold_loop_zero {s s0 s1 : State} {c : Ctx} {n : BitVec 2} {last : BitVec 12} {pc : W64} {h : W32} (hbuf : c.buf = {})
    (hsame : SameText s (s.setCx (loopBuffered c n 0 last)))
    (hseek : s.seekAt (bodyEnd c last) = (.header pc h, s1)) (hh : headerOk h = true) :
    ∃ t, finishHold s0 none (loopStart n.toNat 0 last (s.setCx c)) = .next t ∧
      t.cx = issued { looped c n 0 last with
        pc := pc + BitVec.ofNat 64 (bundleBytes h), stall := max c.stall (s.tick + 2), text := s1.cx.text } := by
  obtain ⟨u, hu, hsame1, htext⟩ := hsame.seekAt hseek
  have hafter : (s.setCx (loopBuffered c n 0 last)).afterBundle (bodyEnd c last) = (some (pc + BitVec.ofNat 64 (bundleBytes h)), u) := by
    rw [State.afterBundle, hu]
    simp only [hh, if_true]
  have hloop := loopStart_zero (s := s.setCx c) (u := u) (n := n) (last := last) (pc := some (pc + BitVec.ofNat 64 (bundleBytes h)))
    (by rwa [cx_setCx]) (by rwa [cx_setCx, setCx_setCx])
  have hcx := htext.cx
  rw [cx_setCx, hsame1.text] at hcx
  have htick : u.tick = s.tick := htext.tick
  rw [hloop, finishHold_ok]
  refine ⟨_, rfl, ?_⟩
  rw [commit_looped (c := c) (n := n) (cnt := 0) (last := last) (text := s1.cx.text)
    (next := some (pc + BitVec.ofNat 64 (bundleBytes h))) (lost := 1) _ hbuf, cx_setCx]
  · simp [State.modBuf, modCx_eq, htick]
  · rw [State.modBuf, modCx_eq, cx_setCx, hcx]
    rfl

theorem sameText_setCx {s : State} {c : Ctx} (htext : c.text = s.cx.text) (hlen : c.textLen = s.cx.textLen)
    (hasid : c.asid = s.cx.asid) (hgen : c.gen = s.cx.gen) (hcode : c.code = s.cx.code) (hoff : c.textOff = s.cx.textOff) :
    SameText s (s.setCx c) := by
  constructor <;> rw [cx_setCx] <;> assumption

theorem holdLoop_nonzero {cnt : BitVec 32} (hcnt : cnt ≠ 0) (last : BitVec 12) (s : State) : holdLoop cnt last s = none :=
  if_neg fun h => hcnt h.1

theorem holdLoop_header {s s1 : State} {last : BitVec 12} {pc : W64} {h : W32}
    (hseek : s.seekAt (bodyEnd s.cx last) = (.header pc h, s1)) (cnt : BitVec 32) : holdLoop cnt last s = none := by
  rw [holdLoop, bodyEnd_eq, State.afterBundle, hseek]
  simp

/-- R409: a landing keeps the header from a loop bundle that skips its body. -/
theorem holdLoop_wait {s s1 : State} {last : BitVec 12} (hseek : s.seekAt (bodyEnd s.cx last) = (.wait, s1)) :
    holdLoop 0 last s = some s := by
  rw [holdLoop, bodyEnd_eq, State.afterBundle, hseek]
  simp

/-- R115, R42, R409: what a loop bundle with a count leaves where `c` is the context without the count, and what it waits for. -/
def Starts (s : State) (x : Answer) (c : Ctx) (n : BitVec 2) (cnt : BitVec 32) (last : BitVec 12) : Prop :=
  (cnt ≠ 0 → x = .next (s.setCx (issued (looped c n cnt last)))) ∧
  (cnt = 0 → ∀ pc h s1, s.seekAt (bodyEnd c last) = (.header pc h, s1) → headerOk h = true →
    ∃ t, x = .next t ∧ t.cx = issued { looped c n cnt last with
      pc := pc + BitVec.ofNat 64 (bundleBytes h), stall := max c.stall (s.tick + 2), text := s1.cx.text }) ∧
  (cnt = 0 → ∀ s1, s.seekAt (bodyEnd c last) = (.wait, s1) → x = .next s)

theorem starts_finishHold {s : State} {c : Ctx} {n : BitVec 2} {last : BitVec 12} (cnt : BitVec 32) (hbuf : c.buf = {})
    (hpc : c.pc = s.cx.pc) (htext : c.text = s.cx.text) (hlen : c.textLen = s.cx.textLen)
    (hasid : c.asid = s.cx.asid) (hgen : c.gen = s.cx.gen) (hcode : c.code = s.cx.code) (hoff : c.textOff = s.cx.textOff) :
    Starts s (finishHold s (holdLoop cnt last s) (loopStart n.toNat cnt last (s.setCx c))) c n cnt last := by
  have hend : bodyEnd c last = bodyEnd s.cx last := by rw [bodyEnd, hpc, bodyEnd]
  refine ⟨fun hcnt => ?_, fun hcnt pc h s1 hseek hh => ?_, fun hcnt s1 hseek => ?_⟩
  · rw [holdLoop_nonzero hcnt, finishHold_loop_nonzero (by rwa [cx_setCx]) hcnt, cx_setCx, setCx_setCx]
  · subst hcnt
    rw [holdLoop_header (hend ▸ hseek)]
    exact finishHold_loop_zero hbuf (sameText_setCx htext hlen hasid hgen hcode hoff) hseek hh
  · subst hcnt
    rw [holdLoop_wait (hend ▸ hseek)]
    rfl

theorem loopStart_setCx_self (n : Nat) (cnt : BitVec 32) (last : BitVec 12) (s : State) :
    loopStart n cnt last (s.setCx s.cx) = loopStart n cnt last s := by
  simp only [loopStart, setLc, modCx_eq, cx_setCx, setCx_setCx]

/-- A loop bundle whose count comes from its word or from a counter (R115). -/
theorem starts_own (s : State) (n : BitVec 2) (cnt : BitVec 32) (last : BitVec 12) (hbuf : s.cx.buf = {}) :
    Starts s (finishHold s (holdLoop cnt last s) (loopStart n.toNat cnt last s)) s.cx n cnt last := by
  rw [← loopStart_setCx_self]
  exact starts_finishHold cnt hbuf rfl rfl rfl rfl rfl rfl rfl

/-- The ask of a LOOPS (R233). -/
theorem ask_loops (c : Ctx) (k : Nat) :
    c.ask k 0 = c.setHandle k { c.handle k with
      asks := if 0 ∈ c.asking k then c.asking k else c.asking k ++ [0] } := by
  simp [Ctx.ask]

/-- R233: a consumer may take where none asked or it asked first. -/
theorem mayTake_iff (c : Ctx) (k who : Nat) : c.mayTake k who = true ↔ c.asking k = [] ∨ (c.asking k).head? = some who := by
  unfold Ctx.mayTake
  cases c.asking k <;> simp

theorem exec_loops_waits {s : State} {f : BLs} (hhold : holdLoops f s = some (s.modCx (·.ask (loopsHandle f) 0))) :
    exec (.loops f) s = .next (s.setCx (s.cx.setHandle (loopsHandle f) { s.cx.handle (loopsHandle f) with
      asks := if 0 ∈ s.cx.asking (loopsHandle f) then s.cx.asking (loopsHandle f)
        else s.cx.asking (loopsHandle f) ++ [0] })) := by
  rw [exec_loops, execLoops, hhold, finishHold_hold, modCx_eq, ask_loops]

theorem holdLoops_behind {s : State} {f : BLs} (htile : s.cur < 512) (hqueue : (s.cx.handle (loopsHandle f)).queue ≠ [])
    (hfirst : ¬ s.cx.mayTake (loopsHandle f) 0 = true) : holdLoops f s = some (s.modCx (·.ask (loopsHandle f) 0)) := by
  obtain ⟨w, rest, hq⟩ := List.exists_cons_of_ne_nil hqueue
  simp [holdLoops, isGal_of_tile htile, hq, hfirst]

theorem holdLoops_empty {s : State} {f : BLs} (htile : s.cur < 512) (hqueue : (s.cx.handle (loopsHandle f)).queue = [])
    (hruns : (s.cx.handle (loopsHandle f)).cmds.any (·.queueing) = true) :
    holdLoops f s = some (s.modCx (·.ask (loopsHandle f) 0)) := by
  simp only [holdLoops, isGal_of_tile htile, hqueue, hruns]
  rfl

theorem exec_loops_ended {s : State} {f : BLs} (htile : s.cur < 512) (hqueue : (s.cx.handle (loopsHandle f)).queue = [])
    (hended : (s.cx.handle (loopsHandle f)).cmds.any (·.queueing) = false) :
    exec (.loops f) s = .next (takeTrap { cause := .streamHandle, slot := 3 } s) := by
  have hhold : holdLoops f s = none := by
    simp only [holdLoops, isGal_of_tile htile, hqueue, hended]
    rfl
  have hop : opLoops f s = trapB .streamHandle := by
    simp only [opLoops, isGal_of_tile htile, hqueue]
    rfl
  rw [exec_loops, execLoops, hhold, hop]
  rfl

/-- R115, R233: LOOPS takes the oldest count of its queue. -/
theorem exec_loops_takes {s : State} {f : BLs} {w : W64} {rest : List W64} (hbuf : s.cx.buf = {}) (htile : s.cur < 512)
    (hqueue : (s.cx.handle (loopsHandle f)).queue = w :: rest) (hfirst : s.cx.mayTake (loopsHandle f) 0 = true) :
    Starts s (exec (.loops f) s)
      { s.cx with handles := mapPut (loopsHandle f) { s.cx.handle (loopsHandle f) with
          queue := rest, asks := (s.cx.handle (loopsHandle f)).asks.filter (· != 0) } s.cx.handles }
      f.lc (w.setWidth 32) f.last := by
  have hcnt : fld w 0 32 = w.setWidth 32 := (BitVec.setWidth_eq_extractLsb' (by decide)).symm
  have hhold : holdLoops f s = holdLoop (w.setWidth 32) f.last s := by
    simp only [holdLoops, isGal_of_tile htile, hqueue, hfirst, hcnt]
    rfl
  have hop : opLoops f s = loopStart f.lc.toNat (w.setWidth 32) f.last (s.setCx { s.cx with
      handles := mapPut (loopsHandle f) { s.cx.handle (loopsHandle f) with
        queue := rest, asks := (s.cx.handle (loopsHandle f)).asks.filter (· != 0) } s.cx.handles }) := by
    simp only [opLoops, isGal_of_tile htile, hqueue, hcnt]
    rfl
  rw [exec_loops, execLoops, hhold, hop]
  exact starts_finishHold _ hbuf rfl rfl rfl rfl rfl rfl rfl

theorem exec_lci_sets {s : State} (i : BLc) (hbuf : s.cx.buf = {}) :
    exec (.lci i) s = .next (s.setCx (issued (s.cx.deliver (.lc i.lc.toNat) ((cntOf i.cnt i.ext).setWidth 512) 1 3))) := by
  rw [exec_lci, execLci, opLci, finishHold_ok, commit_quiet] <;>
    simp [setLc, modCx_eq, hbuf, Ctx.setLoops, issued, Ctx.deliver, Ctx.push]

/-- R115, R117: the loop operations. -/
theorem loopResults : LoopResults := by
  intro s f r q i hbuf htile starts k H
  refine ⟨starts_own s f.lc _ f.last hbuf, starts_own s r.lc _ r.last hbuf, ?_⟩
  intro first asks waits
  refine ⟨fun w rest hqueue hfirst => exec_loops_takes hbuf htile hqueue ((mayTake_iff ..).2 hfirst),
    fun hqueue hfirst => exec_loops_waits (holdLoops_behind htile hqueue (mt (mayTake_iff ..).1 hfirst)),
    fun hqueue hruns => exec_loops_waits (holdLoops_empty htile hqueue hruns),
    exec_loops_ended htile, exec_lci_sets i hbuf⟩

end Sys2Proof.Laws

namespace Sys2Proof.Laws
open Sys2Proof.Machine

/-! ### Numbers summed bit by bit -/

/-- The number whose bits below n are those that `p` names, as the model sums it. -/
def sumBits (p : Nat → Bool) (n : Nat) : Nat := (List.range n).foldl (fun m i => if p i then m + 2 ^ i else m) 0

theorem sumBits_succ (p : Nat → Bool) (n : Nat) : sumBits p (n + 1) = if p n then sumBits p n + 2 ^ n else sumBits p n := by
  simp [sumBits, List.range_succ]

theorem sumBits_lt (p : Nat → Bool) (n : Nat) : sumBits p n < 2 ^ n := by
  induction n with
  | zero => exact Nat.one_pos
  | succ n ih =>
    rw [sumBits_succ, Nat.pow_succ]
    split <;> omega

theorem testBit_sumBits (p : Nat → Bool) (n k : Nat) : (sumBits p n).testBit k = (decide (k < n) && p k) := by
  induction n with
  | zero => simp [sumBits]
  | succ n ih =>
    have hlt := sumBits_lt p (n + 1)
    rcases Nat.lt_trichotomy k n with hk | rfl | hk
    · rw [sumBits_succ]
      split
      · rw [Nat.add_comm, Nat.testBit_two_pow_add_gt hk, ih]
        simp [hk, Nat.lt_succ_of_lt hk]
      · rw [ih]
        simp [hk, Nat.lt_succ_of_lt hk]
    · have htop : (sumBits p k).testBit k = false := Nat.testBit_lt_two_pow (sumBits_lt p k)
      rw [sumBits_succ]
      split
      next hp => simp [Nat.add_comm _ (2 ^ k), Nat.testBit_two_pow_add_eq, htop, hp]
      next hp => simp [htop, hp]
    · rw [Nat.testBit_lt_two_pow (Nat.lt_of_lt_of_le hlt (Nat.pow_le_pow_right (by decide) hk))]
      simp [Nat.not_lt.2 hk]

/-! ### PLOG, VMLOG and XFERB (R104, R118) -/

theorem exec_plog_on {s : State} {f : BLg} (hbuf : s.cx.buf = {}) (hg : s.cx.guardB f.gp f.gn = true) :
    exec (.plog f) s = .next (s.setCx (issued (s.cx.deliver (.p f.vd.toNat)
      ((ofBool (plogBit f.tt (s.cx.rp f.va.toNat) (s.cx.rp f.vb.toNat))).setWidth 512) 1 3))) := by
  rw [exec_plog, execPlog, opPlog, if_pos hg]
  exact finishHold_setCx hbuf

theorem exec_vmlog_on {s : State} {f : BLg} (hbuf : s.cx.buf = {}) (hg : s.cx.guardB f.gp f.gn = true) :
    exec (.vmlog f) s = .next (s.setCx (issued (s.cx.deliver (.vm f.vd.toNat)
      ((vmlogVal f.tt (s.cx.rvm f.va.toNat) (s.cx.rvm f.vb.toNat)).setWidth 512) 1 3))) := by
  rw [exec_vmlog, execVmlog, opVmlog, if_pos hg]
  exact finishHold_setCx hbuf

/-- The place in the truth table that a pair of bits has (R118). -/
theorem plogBit_eq (tt : BitVec 4) (x y : Bool) :
    plogBit tt x y = tt.getLsbD ((if x then 2 else 0) + (if y then 1 else 0)) := by
  cases x <;> cases y <;> rfl

/-- VMLOG takes each position as PLOG takes its pair of bits. -/
theorem getLsbD_vmlogVal (tt : BitVec 4) (x y : W64) {k : Nat} (hk : k < 64) :
    (vmlogVal tt x y).getLsbD k = plogBit tt (x.getLsbD k) (y.getLsbD k) := by
  have hif : ∀ (b : Bool) (z : W64), (if b = true then z else 0).getLsbD k = (b && z.getLsbD k) := by
    intro b z
    cases b <;> simp
  simp only [vmlogVal, BitVec.getLsbD_or, BitVec.getLsbD_and, BitVec.getLsbD_not, hif, hk, decide_true, Bool.true_and]
  cases x.getLsbD k <;> cases y.getLsbD k <;> simp [plogBit]

theorem exec_xferb_p {s : State} {x : BX} (htile : s.cur < 512) (hdk : x.dk = 0) :
    exec (.xferb x) s = .next (s.setCx (s.cx.deliver (.p x.dst.toNat)
      ((ofBool (s.cx.ra (x.src.setWidth 6) != 0)).setWidth 512) 2 3)) := by
  rw [exec_xferb, execXferb, opXferb, isGal_of_tile htile, hdk]
  rfl

theorem exec_xferb_vm {s : State} {x : BX} (htile : s.cur < 512) (hdk : x.dk = 1) :
    exec (.xferb x) s = .next (s.setCx (s.cx.deliver (.vm x.dst.toNat)
      ((if x.sf = 0 then s.cx.ra (x.src.setWidth 6) else nonzeroMask x.ty.toNat (s.cx.rv x.src.toNat)).setWidth 512) 2 3)) := by
  rw [exec_xferb, execXferb, opXferb, isGal_of_tile htile, hdk]
  rfl

theorem exec_xferb_lc {s : State} {x : BX} (htile : s.cur < 512) (hdk : x.dk = 2) :
    exec (.xferb x) s = .next (s.setCx (s.cx.deliver (.lc (x.dst.toNat % 4))
      ((fld (s.cx.ra (x.src.setWidth 6)) 0 32).setWidth 512) 2 3)) := by
  rw [exec_xferb, execXferb, opXferb, isGal_of_tile htile, hdk]
  rfl

theorem getLsbD_nonzeroMask (t : Nat) (v : W512) {k : Nat} (hk : k < 64) :
    (nonzeroMask t v).getLsbD k = (decide (k < 512 / tyWidth t) && laneNonzero t (lane (tyWidth t) k v)) := by
  have hsum : nonzeroMask t v =
      BitVec.ofNat 64 (sumBits (fun i => laneNonzero t (lane (tyWidth t) i v)) (512 / tyWidth t)) := rfl
  rw [hsum, BitVec.getLsbD_ofNat, testBit_sumBits]
  simp [hk]

/-- The low half of a word, as a count. -/
theorem setWidth_lowHalf (a : W64) : (fld a 0 32).setWidth 512 = (BitVec.ofNat 64 (a.toNat % 2 ^ 32)).setWidth 512 := by
  apply BitVec.eq_of_toNat_eq
  simp only [BitVec.toNat_setWidth, toNat_fld, BitVec.toNat_ofNat]
  omega

/-- R118, R104: PLOG, VMLOG and XFERB. -/
theorem maskLogicResults : MaskLogicResults := by
  intro s f x hbuf htile c gives logic
  refine ⟨fun hg => ⟨?_, _, exec_vmlog_on hbuf hg, fun k hk => ?_⟩, fun hdk => ?_, fun hdk hsf => ?_,
    fun hdk hsf => ⟨_, ?_, fun k hk => getLsbD_nonzeroMask x.ty.toNat (s.cx.rv x.src.toNat) hk⟩, fun hdk => ?_⟩
  · rw [exec_plog_on hbuf hg, plogBit_eq]
    rfl
  · rw [getLsbD_vmlogVal _ _ _ hk, plogBit_eq]
  · rw [exec_xferb_p htile hdk, ofBool]
    simp [gives, c]
  · rw [exec_xferb_vm htile hdk, if_pos hsf]
  · rw [exec_xferb_vm htile hdk, if_neg (by rw [hsf]; decide)]
  · rw [exec_xferb_lc htile hdk, setWidth_lowHalf]

/-! ### The binding table (R310, R311) -/

theorem exec_bind_checked {s : State} {f : BBi} (hbuf : s.cx.buf = {}) (hg : s.cx.guardB f.gp f.gn = true)
    (hobj : s.checkObj (s.cx.rvm f.va.toNat) = none) (hbind : s.checkBind (s.cx.rvm f.vb.toNat) (s.cx.rvm f.vd.toNat) = none) :
    exec (.bind f) s = .next (s.setCx (issued { s.cx with binds := s.cx.binds ++
      [{ obj := s.cx.rvm f.va.toNat, base := s.cx.rvm f.vb.toNat, len := s.cx.rvm f.vd.toNat, scope := f.scope.toNat }] })) := by
  rw [exec_bind, execBind]
  simp only [opBind, hg, hobj, hbind]
  exact finishHold_setCx hbuf

theorem exec_bind_refused {s : State} {f : BBi} {e : Cause} (hg : s.cx.guardB f.gp f.gn = true)
    (hobj : s.checkObj (s.cx.rvm f.va.toNat) = none) (hbind : s.checkBind (s.cx.rvm f.vb.toNat) (s.cx.rvm f.vd.toNat) = some e) :
    exec (.bind f) s =
      .next (takeTrap { cause := e, slot := 3, addr := if e = .bindFull ∨ e = .paramRange then 0 else s.cx.rvm f.vb.toNat } s) := by
  rw [exec_bind, execBind]
  simp only [opBind, hg, hobj, hbind]
  rfl

/-- R310: of a global or pool base the alignment, the length and the room in the table are checked, in this order. -/
theorem checkBind_far {s : State} {base len : W64} (hcode : ptrCode base = 0 ∨ ptrCode base = 14) (hwf : ptrWf base = true) :
    s.checkBind base len =
      if base.toNat % 64 ≠ 0 then some .misaligned
      else if len.toNat = 0 ∨ len.toNat % 64 ≠ 0 ∨ 2 ^ 40 < len.toNat then some .paramRange
      else if 16 ≤ s.cx.binds.length then some .bindFull
      else none := by
  have hmbz : mbzOk base = true := (Bool.and_eq_true_iff.1 hwf).2
  have hne : ptrCode base ≠ 10 := by omega
  have hfar : (ptrCode base == 0 || ptrCode base == 10 || ptrCode base == 14) = true := by
    rcases hcode with h | h <;> rw [h] <;> rfl
  simp only [State.checkBind, hfar, hmbz, hne, Bool.not_true, Bool.false_eq_true, if_false, false_and]

theorem checkBind_foreign {s : State} {base len : W64} (h0 : ptrCode base ≠ 0) (h10 : ptrCode base ≠ 10) (h14 : ptrCode base ≠ 14) :
    s.checkBind base len = some .spaceForeign := by
  simp [State.checkBind, h0, h10, h14]

theorem ptrCode_eq (p : W64) : ptrCode p = p.toNat / 2 ^ 60 := by
  rw [ptrCode, toNat_fld]
  omega

theorem exec_unbind_on {s : State} {u : BPt} (hbuf : s.cx.buf = {}) (hg : s.cx.guardB u.gp u.gn = true)
    (hobj : s.checkObj (s.cx.rvm u.va.toNat) = none) :
    exec (.unbind u) s =
      .next (s.setCx (issued { s.cx with binds := s.cx.binds.filter (fun b => b.obj != s.cx.rvm u.va.toNat) })) := by
  rw [exec_unbind, execUnbind]
  simp only [opUnbind, hg, hobj]
  exact finishHold_setCx hbuf

theorem exec_unbindAll_on {s : State} {g : BG} (hbuf : s.cx.buf = {}) (hg : s.cx.guardB g.gp g.gn = true) :
    exec (.unbindAll g) s = .next (s.setCx (issued { s.cx with binds := [] })) := by
  rw [exec_unbindAll, execUnbindAll, opUnbindAll, if_pos hg]
  exact finishHold_setCx hbuf

/-- R310, R311: the binding-table operations. -/
theorem bindingTableResults : BindingTableResults := by
  intro s f u g hbuf c o base len code table trap
  have hcode : code = ptrCode base := (ptrCode_eq base).symm
  refine ⟨fun hg hobj => ⟨exec_bind_checked hbuf hg hobj, fun hfar hwf => ?_, fun h0 h10 h14 => ?_⟩, fun hg hobj => ?_,
    exec_unbindAll_on hbuf⟩
  · have hcheck := checkBind_far (s := s) (len := len) (hcode ▸ hfar) hwf
    refine ⟨fun hal hn hlen hmax hroom => exec_bind_checked hbuf hg hobj ?_, fun hal => ?_, fun hal hbad => ?_,
      fun hal hn hlen hmax hfull => ?_⟩
    · rw [hcheck, if_neg (not_not.2 hal), if_neg (by omega), if_neg (Nat.not_le.2 hroom)]
    · exact exec_bind_refused hg hobj (hcheck.trans (if_pos hal))
    · exact exec_bind_refused hg hobj (hcheck.trans (by rw [if_neg (not_not.2 hal), if_pos hbad]))
    · exact exec_bind_refused hg hobj (hcheck.trans (by rw [if_neg (not_not.2 hal), if_neg (by omega), if_pos hfull]))
  · exact exec_bind_refused hg hobj (checkBind_foreign (hcode ▸ h0) (hcode ▸ h10) (hcode ▸ h14))
  · rw [exec_unbind_on hbuf hg hobj]
    refine congrArg table (List.filter_congr fun b _ => ?_)
    simp [bne, c, beq_eq_decide]

/-- Settles O7: the branches, the loops, the mask operations and the binding table. -/
theorem branchesLoopsAndMasks : Obligations.BranchesLoopsAndMasks :=
  ⟨branchResults, loopResults, maskLogicResults, bindingTableResults⟩

end Sys2Proof.Laws

namespace Sys2Proof.Laws
open Sys2Proof.Machine

/-! ### ASPQ and ASPC (R263, R264) -/

/-- An A operation whose guard holds delivers its value. -/
theorem finish_alu {s : State} {gp : BitVec 4} {rd : BitVec 6} {L : Nat} {v : W64} (hg : s.cx.guard gp = true) :
    finish s (alu gp rd L v s) = deliversA s rd v L := by
  rw [alu_ok hg]
  rfl

theorem crRead_tileId {s : State} (htile : s.cur < 512) : (s.crRead s.cur 0x20).toNat % 256 = s.cur / 2 := by
  simp only [State.crRead, isGal_of_tile htile, tileOf]
  simp
  omega

theorem aspqVal_eq {s : State} (htile : s.cur < 512) (a b : W64) :
    s.aspqVal a b = BitVec.ofNat 64
      ((if a.toNat / 2 ^ 60 = 9 ∨ a.toNat / 2 ^ 60 = 10 then a.toNat / 2 ^ 48 % 256
          else if a.toNat / 2 ^ 60 = 8 then s.cur / 2 else 0) * 256 +
        (if a.toNat % max (b.toNat % 2 ^ 32) 1 = 0 then 128 else 0) +
        (if (ptrWf a && s.streamOk a) = true then 64 else 0) +
        (if (ptrWf a && (ptrCode a == 8 || ptrCode a == 9 || ptrCode a == 10) &&
            (s.localLoc a (max (b.toNat % 2 ^ 32) 1)).isOk) = true then 32 else 0) +
        (if ptrWf a = true then 16 else 0) + a.toNat / 2 ^ 60) := by
  have hid : (fld a 48 8).toNat = a.toNat / 2 ^ 48 % 256 := toNat_fld a 48 8
  simp only [State.aspqVal, ← ptrCode_eq, crRead_tileId htile, hid, beq_iff_eq, Bool.or_eq_true]
  cases s.localLoc a (max (b.toNat % 2 ^ 32) 1) <;> rfl

/-- The cluster named by a cluster pointer whose zero fields are zero. -/
theorem ptrCluster_of_wf {a : W64} (hwf : ptrWf a = true) (hcode : ptrCode a = 10) : ptrCluster a = a.toNat / 2 ^ 48 % 256 := by
  have hmbz : mbzOk a = true := (Bool.and_eq_true_iff.1 hwf).2
  rw [mbzOk, hcode] at hmbz
  have hzero : fld a 53 7 = 0 := by simpa using (Bool.and_eq_true_iff.1 hmbz).1
  have hbits : a.toNat / 2 ^ 53 % 2 ^ 7 = 0 := by rw [← toNat_fld, hzero]; rfl
  rw [ptrCluster, toNat_fld]
  omega

theorem streamOk_iff {s : State} (htile : s.cur < 512) {a : W64} (hwf : ptrWf a = true) :
    s.streamOk a = true ↔ (ptrCode a = 0 ∨ ptrCode a = 8 ∨ ptrCode a = 14 ∨
      (ptrCode a = 9 ∧ a.toNat / 2 ^ 48 % 256 / 8 = s.cur / 2 / 8 ∧
        ((s.tile (a.toNat / 2 ^ 48 % 256)).floor ≤ a.toNat % 2 ^ 18 ∨ (s.tile (a.toNat / 2 ^ 48 % 256)).owns s.cx.asid = true)) ∨
      (ptrCode a = 10 ∧ a.toNat / 2 ^ 48 % 256 = s.cur / 2 / 8 ∧
        ((s.cluster (s.cur / 2 / 8)).floor ≤ a.toNat % 2 ^ 23 ∨ (s.cluster (s.cur / 2 / 8)).owns s.cx.asid = true))) := by
  have h9 : ptrTile a = a.toNat / 2 ^ 48 % 256 := toNat_fld a 48 8
  have ho9 : off9 a = a.toNat % 2 ^ 18 := (toNat_fld a 0 18).trans (by omega)
  have hoA : offA a = a.toNat % 2 ^ 23 := (toNat_fld a 0 23).trans (by omega)
  rw [State.streamOk, isGal_of_tile htile]
  simp only [Bool.false_eq_true, if_false]
  split
  next hc => simp [hc]
  next hc => simp [hc]
  next hc => simp [hc]
  next hc => simp [hc, h9, ho9, clusterOf, tileOf]
  next hc => simp [hc, ptrCluster_of_wf hwf hc, hoA, clusterOf, tileOf]
  next h0 h14 h8 h9 h10 =>
    refine iff_of_false Bool.false_ne_true ?_
    rintro (h | h | h | ⟨h, -⟩ | ⟨h, -⟩)
    · exact h0 h
    · exact h8 h
    · exact h14 h
    · exact h9 h
    · exact h10 h

/-- R263: what ASPQ delivers. -/
theorem spaceQueryResult : SpaceQueryResult := by
  intro s f hg htile a c n t k wf id
  have hcode : ptrCode a = c := ptrCode_eq a
  refine ⟨ptrWf a && (ptrCode a == 8 || ptrCode a == 9 || ptrCode a == 10) && (s.localLoc a n).isOk, ptrWf a && s.streamOk a,
    ?_, ?_, ?_⟩
  · rw [exec_aspq, execAspq, opAspq, finish_alu hg, aspqVal_eq htile]
  · rw [hcode]
    cases hloc : s.localLoc a n <;> simp [wf, Except.isOk, Except.toBool, or_assoc]
  · rw [Bool.and_eq_true_iff]
    exact and_congr_right fun hwf => hcode ▸ streamOk_iff htile hwf

/-- R264: what ASPC delivers. -/
theorem spaceCastResult : SpaceCastResult := by
  intro s f hg a c t base size o8 o9
  have hcode : ptrCode a = c := ptrCode_eq a
  have hbase : s.cx.pvBase = base := (toNat_fld _ 0 18).trans (by omega)
  have hsize : s.cx.pvSize = size := congrArg (· * 1024) (toNat_fld _ 32 8)
  have ho8 : off8 a = o8 := (toNat_fld a 0 17).trans (by omega)
  have ho9 : off9 a = o9 := (toNat_fld a 0 18).trans (by omega)
  have htile : ptrTile a = a.toNat / 2 ^ 48 % 256 := toNat_fld a 48 8
  have h9 : f.fn = 9 ↔ f.fn.toNat = 9 := BitVec.toNat_inj.symm
  have h8 : f.fn = 8 ↔ f.fn.toNat = 8 := BitVec.toNat_inj.symm
  refine ⟨s.aspcVal a f.fn.toNat, ?_, fun hwf => ?_, fun hwf => ?_⟩
  · rw [exec_aspc, execAspc, opAspc, finish_alu hg]
  · simp [State.aspcVal, hwf]
  · simp only [State.aspcVal, hwf, hcode, hbase, hsize, ho8, ho9, htile, Bool.not_true, Bool.false_eq_true, if_false, h8, h9]
    refine ⟨fun hc => if_pos hc, fun ⟨hT, hc⟩ => ?_, fun ⟨hT, hc⟩ => ?_, fun ⟨hc, hno9, hno8⟩ => ?_⟩
    · rw [if_neg (by omega)]
      by_cases ho : o8 < size
      · rw [if_pos ⟨hT, hc, ho⟩, if_pos ho]
        rfl
      · rw [if_neg (fun h => ho h.2.2), if_neg (by omega), if_neg ho]
    · rw [if_neg (by omega), if_neg (by omega)]
      by_cases ho : a.toNat / 2 ^ 48 % 256 = t ∧ base ≤ o9 ∧ o9 < base + size
      · rw [if_pos ⟨hT, hc, ho⟩, if_pos ho]
      · rw [if_neg (fun h => ho h.2.2), if_neg ho]
    · rw [if_neg hc, if_neg (fun h => hno9 ⟨h.1, h.2.1⟩), if_neg (fun h => hno8 ⟨h.1, h.2.1⟩)]

/-! ### XFERA (R103) -/

theorem exec_xfera_tile {s : State} {f : AT} (hg : s.cx.guard f.gp = true) (htile : s.cur < 512) :
    exec (.xfera f) s = deliversA s f.rd (xferaVal f s.cx) 2 := by
  rw [exec_xfera, execXfera, opXfera, isGal_of_tile htile]
  exact finish_alu hg

theorem isGal_of_core {x : Nat} (hlo : 512 ≤ x) (hhi : x < 2 ^ 32) : isGal x = true :=
  Bool.and_eq_true_iff.2 ⟨decide_eq_true hlo, decide_eq_true hhi⟩

/-- R103: XFERA on a tile, and its trap on a gallery core (R349). -/
theorem transferToAResults : TransferToAResults := by
  intro s f src k
  refine ⟨fun ⟨hlo, hhi, hsf⟩ => ?_, fun ⟨hg, htile⟩ => ?_⟩
  · rw [exec_xfera, execXfera, opXfera, isGal_of_core hlo hhi, decide_eq_true hsf]
    rfl
  · rw [exec_xfera_tile hg htile]
    refine ⟨fun ⟨hsf, hk⟩ => congrArg (deliversA s f.rd · 2) ?_, fun ⟨hsf, hk⟩ => congrArg (deliversA s f.rd · 2) ?_,
      fun hsf => congrArg (deliversA s f.rd · 2) ?_, fun ⟨hsf, hsrc⟩ => congrArg (deliversA s f.rd · 2) ?_,
      fun ⟨hsf, hlo, hhi⟩ => congrArg (deliversA s f.rd · 2) ?_, fun ⟨hsf, hlo, hhi⟩ => congrArg (deliversA s f.rd · 2) ?_⟩
    · have hsel : ¬ f.sel.toNat / 16 = 1 := by omega
      have hlane : 64 * (f.sel.toNat % 8) = 64 * k := by omega
      simp only [xferaVal, hsf, BitVec.ofNat_eq_ofNat, BitVec.toNat_ofNat, hsel, if_false, hlane]
      exact BitVec.eq_of_toNat_eq (by rw [toNat_fld, BitVec.toNat_ofNat])
    · have hsel : f.sel.toNat / 16 = 1 := by omega
      have hlane : 32 * (f.sel.toNat % 16) = 32 * (k - 16) := by omega
      simp only [xferaVal, hsf, BitVec.ofNat_eq_ofNat, BitVec.toNat_ofNat, hsel, if_true, hlane]
      exact BitVec.eq_of_toNat_eq (by rw [BitVec.toNat_setWidth, toNat_fld, BitVec.toNat_ofNat])
    · rw [xferaVal, hsf]
      rfl
    · have hfile : f.src.toNat / 128 = 0 := by omega
      have hreg : f.src.toNat % 16 = src := by omega
      simp only [xferaVal, hsf, hfile, hreg]
      rfl
    · have hfile : f.src.toNat / 128 = 1 := by omega
      have hreg : f.src.toNat % 16 = src - 128 := by omega
      simp only [xferaVal, hsf, hfile, hreg]
      rfl
    · have hfile : f.src.toNat / 128 = 2 := by omega
      have hreg : f.src.toNat % 4 = src - 256 := by omega
      simp only [xferaVal, hsf, hfile, hreg]
      exact (BitVec.ofNat_toNat ..).symm

/-! ### Control registers (R106 to R110) -/

theorem crInfo?_tile {s : State} (htile : s.cur < 512) (n : Nat) : s.crInfo? n = crInfo n := by
  rw [State.crInfo?, isGal_of_tile htile]
  rfl

/-- The registers that every context has. -/
theorem crInfo?_common {s : State} {n : Nat} (hgal : galCr n = true) (h20 : n ≠ 0x20) : s.crInfo? n = crInfo n := by
  rw [State.crInfo?, hgal, if_pos rfl, if_neg h20, ite_self]

/-- LINK, TGT, LOOPB0 to LOOPB3 and LOOPE0 to LOOPE3: read and written whole (R107). -/
def addressCr (n : Nat) : Prop := n = 4 ∨ n = 5 ∨ (8 ≤ n ∧ n ≤ 15)

theorem galCr_address {n : Nat} (h : addressCr n) : galCr n = true := by
  rcases h with rfl | rfl | ⟨hlo, hhi⟩
  · rfl
  · rfl
  · simp [galCr, hlo, hhi]

theorem crInfo?_address {s : State} {n : Nat} (h : addressCr n) : s.crInfo? n = some { rw := all64 } := by
  have h20 : n ≠ 0x20 := by unfold addressCr at h; omega
  rw [crInfo?_common (galCr_address h) h20]
  rcases h with rfl | rfl | ⟨hlo, hhi⟩
  · rfl
  · rfl
  · simp (disch := omega) only [crInfo, if_neg, if_pos]

theorem crRead_address {s : State} {n : Nat} (h : addressCr n) : s.crRead s.cur n = s.cx.cr n := by
  unfold addressCr at h
  simp (disch := omega) only [State.crRead, if_neg]
  rfl

theorem crValueCheck_address {s : State} {n : Nat} (h : addressCr n) (v : W64) : s.crValueCheck n v = none := by
  unfold addressCr at h
  simp (disch := omega) only [State.crValueCheck, if_neg]

theorem exec_rdcr_on {s : State} {f : ACR} {i : CrInfo} (hg : s.cx.guard f.gp = true) (hinfo : s.crInfo? f.num.toNat = some i) :
    exec (.rdcr f) s = deliversA s f.reg (s.crRead s.cur f.num.toNat) 2 := by
  simp only [exec_rdcr, execRdcr, opRdcr, hinfo, hg]
  rfl

theorem exec_rdcr_common {s : State} {f : ACR} {n : Nat} {i : CrInfo} {v : W64} (hg : s.cx.guard f.gp = true) (hn : f.num.toNat = n)
    (hgal : galCr n = true) (h20 : n ≠ 0x20) (hinfo : crInfo n = some i) (hread : s.crRead s.cur n = v) :
    exec (.rdcr f) s = deliversA s f.reg v 2 := by
  rw [exec_rdcr_on hg (by rw [hn, crInfo?_common hgal h20, hinfo]), hn, hread]

theorem crRead_ctime {s : State} : s.crRead s.cur 0 = BitVec.ofNat 64 s.cx.ctime := by
  rw [State.crRead, if_pos rfl]
  rfl

theorem crRead_cycle {s : State} : s.crRead s.cur 0x21 = BitVec.ofNat 64 s.tick := by
  simp (disch := decide) only [State.crRead, if_neg, if_pos]

theorem crRead_ocnt {s : State} : s.crRead s.cur 6 = BitVec.ofNat 64
    (s.cx.sync * 2 ^ 48 + s.cx.arr * 2 ^ 36 + s.cx.str * 2 ^ 24 + min 4095 s.cx.st * 2 ^ 12 + min 4095 s.cx.ld) := by
  simp (disch := decide) only [State.crRead, if_neg, if_pos]
  rfl

/-- A control-register operation whose checks pass keeps its write for the end of the issue. -/
theorem crOp_on {s : State} {fields : CrInfo → W64} {n : Nat} {gp : BitVec 4} {w : CrWrite} {i : CrInfo} (hg : s.cx.guard gp = true)
    (hinfo : s.crInfo? n = some i) (hfields : fields i ≠ 0) :
    crOp fields n gp (.ok w) s = .ok (s.modCx (fun c => { c with buf := { c.buf with crw := c.buf.crw ++ [w] } })) := by
  have hne : (fields i == 0) = false := beq_eq_false_iff_ne.2 hfields
  simp only [crOp, hinfo, hne, hg]
  rfl

/-- A number without a field that may be written traps, whatever the guard (R106, R108, R38). -/
theorem crOp_refused {s : State} {fields : CrInfo → W64} {n : Nat} {gp : BitVec 4} {w : Except Cause CrWrite}
    (h : ∀ i, s.crInfo? n = some i → fields i = 0) : crOp fields n gp w s = .trap { cause := .illegalOp, slot := 0 } := by
  unfold crOp
  cases hinfo : s.crInfo? n with
  | none => rfl
  | some i => exact if_pos (by simp [h i hinfo])

/-- A number whose write is a write of the context's register alone. -/
def plainCr (n : Nat) : Prop := n ≤ 15

theorem plainCr_address {n : Nat} (h : addressCr n) : plainCr n := by
  unfold addressCr at h
  unfold plainCr
  omega

theorem applyCr_plain {w : CrWrite} (h : plainCr w.num) (s : State) :
    applyCr w s = s.setCx { s.cx with crs := putCr w s.cx.crs } := by
  unfold plainCr at h
  simp (disch := omega) only [applyCr, if_neg]
  rfl

/-- The end of an issue that wrote one plain register. -/
theorem finishHold_crOp {s : State} {fields : CrInfo → W64} {n : Nat} {gp : BitVec 4} {w : CrWrite} {i : CrInfo}
    (hg : s.cx.guard gp = true) (hbuf : s.cx.buf = {}) (hinfo : s.crInfo? n = some i) (hfields : fields i ≠ 0)
    (hplain : plainCr w.num) :
    finishHold s none (crOp fields n gp (.ok w) s) = .next (s.setCx (issued { s.cx with crs := putCr w s.cx.crs })) := by
  rw [crOp_on hg hinfo hfields, finishHold_ok]
  have hempty : ({ s.cx with buf := {} } : Ctx) = s.cx := by rw [← hbuf]
  simp [commit, commitStores, modCx_eq, hbuf, applyCr_plain hplain, Ctx.setLoops, applyFinal, issued]

theorem putCr_set (n : Nat) (a : W64) (f : RegFile 64) :
    putCr { num := n, mask := a, val := a } f = f.write n (f.read n ||| a) := by
  refine congrArg (f.write n) ?_
  ext i hi
  simp only [BitVec.getElem_or, BitVec.getElem_and, BitVec.getElem_not]
  cases a[i] <;> simp

theorem putCr_clear (n : Nat) (a : W64) (f : RegFile 64) :
    putCr { num := n, mask := a, val := 0 } f = f.write n (f.read n &&& ~~~a) :=
  congrArg (f.write n) (by simp)

theorem and_all64 (a : W64) : a &&& all64 = a := BitVec.and_allOnes
theorem not_all64 : ~~~all64 = 0 := BitVec.not_allOnes
theorem all64_ne_zero : ¬ all64 = 0#64 := by decide

/-- What a write of ones in a W1C field writes (R5, R106). -/
theorem wrcr_sticky {s : State} {n : Nat} {w1c a : W64} (hinfo : s.crInfo? n = some { w1c := w1c }) (hw1c : ¬ w1c = 0#64)
    (hcheck : ∀ v, s.crValueCheck n v = none) (ha : a &&& w1c = a) :
    s.wrcr n a = .ok { num := n, mask := a, val := 0 } := by
  have hout : a &&& ~~~w1c = 0#64 := by
    rw [← ha, BitVec.and_assoc, BitVec.and_not_self]
    exact BitVec.and_zero
  simp [State.wrcr, hinfo, hw1c, hcheck, ha, hout]

section
variable {s : State} {f : ACR} (hg : s.cx.guard f.gp = true) (hbuf : s.cx.buf = {})
include hg hbuf

theorem exec_wrcr_address (h : addressCr f.num.toNat) :
    exec (.wrcr f) s = .next (s.setCx (issued { s.cx with crs := s.cx.crs.write f.num.toNat (s.cx.ra f.reg) })) := by
  have hw : s.wrcr f.num.toNat (s.cx.ra f.reg) = .ok { num := f.num.toNat, mask := all64, val := s.cx.ra f.reg } := by
    simp [State.wrcr, crInfo?_address h, crValueCheck_address h, and_all64, not_all64, all64_ne_zero]
  rw [exec_wrcr, execWrcr, opWrcr, hw, finishHold_crOp hg hbuf (crInfo?_address h) (by decide) (plainCr_address h), putCr_all]

theorem exec_setcr_address (h : addressCr f.num.toNat) :
    exec (.setcr f) s =
      .next (s.setCx (issued { s.cx with crs := s.cx.crs.write f.num.toNat (s.cx.cr f.num.toNat ||| s.cx.ra f.reg) })) := by
  have hw : s.setclr true f.num.toNat (s.cx.ra f.reg) =
      .ok { num := f.num.toNat, mask := s.cx.ra f.reg, val := s.cx.ra f.reg } := by
    simp [State.setclr, crInfo?_address h, crValueCheck_address h, not_all64, all64_ne_zero]
  rw [exec_setcr, execSetcr, opSetcr, hw, finishHold_crOp hg hbuf (crInfo?_address h) all64_ne_zero (plainCr_address h), putCr_set]
  rfl

theorem exec_clrcr_address (h : addressCr f.num.toNat) :
    exec (.clrcr f) s =
      .next (s.setCx (issued { s.cx with crs := s.cx.crs.write f.num.toNat (s.cx.cr f.num.toNat &&& ~~~s.cx.ra f.reg) })) := by
  have hw : s.setclr false f.num.toNat (s.cx.ra f.reg) = .ok { num := f.num.toNat, mask := s.cx.ra f.reg, val := 0 } := by
    simp [State.setclr, crInfo?_address h, crValueCheck_address h, not_all64, all64_ne_zero]
  rw [exec_clrcr, execClrcr, opClrcr, hw, finishHold_crOp hg hbuf (crInfo?_address h) all64_ne_zero (plainCr_address h),
    putCr_clear]
  rfl

/-- The sticky bits of ASTAT are cleared by the bits written 1 (R109). -/
theorem exec_wrcr_astat (h2 : f.num.toNat = 2) (ha : (s.cx.ra f.reg).toNat < 64) :
    exec (.wrcr f) s =
      .next (s.setCx (issued { s.cx with crs := s.cx.crs.write f.num.toNat (s.cx.cr f.num.toNat &&& ~~~s.cx.ra f.reg) })) := by
  have hmask : s.cx.ra f.reg &&& 0x3F = s.cx.ra f.reg := by
    apply BitVec.eq_of_toNat_eq
    rw [BitVec.toNat_and]
    exact (Nat.and_two_pow_sub_one_eq_mod _ 6).trans (Nat.mod_eq_of_lt ha)
  have hinfo : s.crInfo? f.num.toNat = some { w1c := 0x3F } := by
    rw [h2]
    exact crInfo?_common rfl (by decide)
  have hcheck (v : W64) : s.crValueCheck f.num.toNat v = none := by
    rw [h2]
    rfl
  have hplain : plainCr f.num.toNat := h2.le.trans (by decide)
  rw [exec_wrcr, execWrcr, opWrcr, wrcr_sticky hinfo (by decide) hcheck hmask, finishHold_crOp hg hbuf hinfo (by decide) hplain,
    putCr_clear]
  rfl

end

/-- R106, R107, R109: the address registers, the counters, and ASTAT. -/
theorem controlRegisterResults : ControlRegisterResults := by
  intro s f hg n a old becomes
  refine ⟨fun h => ⟨?_, fun hbuf => ⟨exec_wrcr_address hg hbuf h, exec_setcr_address hg hbuf h, exec_clrcr_address hg hbuf h⟩⟩,
    fun h => ?_, fun h => ?_, fun h => ?_, fun ⟨h, ha, hbuf⟩ => ?_⟩
  · rw [exec_rdcr_on hg (crInfo?_address h), crRead_address h]
  · exact exec_rdcr_common hg h rfl (by decide) rfl crRead_ctime
  · exact exec_rdcr_common hg h rfl (by decide) rfl crRead_cycle
  · exact exec_rdcr_common hg h rfl (by decide) rfl crRead_ocnt
  · exact exec_wrcr_astat hg hbuf h ha

/-- A number that no register has is refused by a read, whatever the guard. -/
theorem exec_rdcr_refused {s : State} {f : ACR} (h : s.crInfo? f.num.toNat = none) :
    exec (.rdcr f) s = .next (takeTrap { cause := .illegalOp, slot := 0 } s) := by
  rw [exec_rdcr, execRdcr, opRdcr, h]
  rfl

theorem exec_wrcr_refused {s : State} {f : ACR} (h : ∀ i, s.crInfo? f.num.toNat = some i → i.rw ||| i.w1c = 0) :
    exec (.wrcr f) s = .next (takeTrap { cause := .illegalOp, slot := 0 } s) := by
  rw [exec_wrcr, execWrcr, opWrcr, crOp_refused h]
  rfl

theorem exec_setcr_refused {s : State} {f : ACR} (h : ∀ i, s.crInfo? f.num.toNat = some i → i.rw = 0) :
    exec (.setcr f) s = .next (takeTrap { cause := .illegalOp, slot := 0 } s) := by
  rw [exec_setcr, execSetcr, opSetcr, crOp_refused h]
  rfl

theorem exec_clrcr_refused {s : State} {f : ACR} (h : ∀ i, s.crInfo? f.num.toNat = some i → i.rw = 0) :
    exec (.clrcr f) s = .next (takeTrap { cause := .illegalOp, slot := 0 } s) := by
  rw [exec_clrcr, execClrcr, opClrcr, crOp_refused h]
  rfl

theorem crInfo_readOnly {n : Nat} (h : n = 0 ∨ n = 1 ∨ n = 3 ∨ n = 6 ∨ n = 0x1A ∨ n = 0x20 ∨ n = 0x21 ∨ n = 0x34 ∨ n = 0x35 ∨
    n = 0x36 ∨ n = 0x37) : ∃ ro, crInfo n = some { ro := ro } := by
  rcases h with rfl | rfl | rfl | rfl | rfl | rfl | rfl | rfl | rfl | rfl | rfl <;> exact ⟨_, rfl⟩

theorem crInfo_sticky {n : Nat} (h : n = 2 ∨ n = 7 ∨ n = 0x90) : ∃ w1c, crInfo n = some { w1c := w1c } := by
  rcases h with rfl | rfl | rfl <;> exact ⟨_, rfl⟩

/-- R106, R108: what the four operations refuse. -/
theorem controlRegisterTraps : ControlRegisterTraps := by
  intro s f htile n traps
  have hinfo : s.crInfo? n = crInfo n := crInfo?_tile htile n
  refine ⟨fun h => ?_, fun h => ?_, fun h => ?_⟩
  · have hnone : s.crInfo? n = none := hinfo.trans h
    have hall (fields : CrInfo → W64) : ∀ i, s.crInfo? n = some i → fields i = 0 := by
      intro i hi
      rw [hnone] at hi
      cases hi
    exact ⟨exec_rdcr_refused hnone, exec_wrcr_refused (hall _), exec_setcr_refused (hall _), exec_clrcr_refused (hall _)⟩
  · obtain ⟨ro, hro⟩ := crInfo_readOnly h
    have hsome : s.crInfo? n = some { ro := ro } := hinfo.trans hro
    have hall : ∀ i, s.crInfo? n = some i → i.rw = 0 ∧ i.rw ||| i.w1c = 0 := by
      intro i hi
      cases hsome.symm.trans hi
      exact ⟨rfl, BitVec.or_self⟩
    exact ⟨exec_wrcr_refused fun i hi => (hall i hi).2, exec_setcr_refused fun i hi => (hall i hi).1,
      exec_clrcr_refused fun i hi => (hall i hi).1⟩
  · obtain ⟨w1c, hw1c⟩ := crInfo_sticky h
    have hall : ∀ i, s.crInfo? n = some i → i.rw = 0 := by
      intro i hi
      cases (hinfo.trans hw1c).symm.trans hi
      rfl
    exact ⟨exec_setcr_refused hall, exec_clrcr_refused hall⟩

/-- Settles O5: ASPQ and ASPC, XFERA, and the control registers' reads, writes and traps. -/
theorem queriesAndControlRegisters : Obligations.QueriesAndControlRegisters :=
  ⟨spaceQueryResult, spaceCastResult, transferToAResults, controlRegisterResults, controlRegisterTraps⟩

end Sys2Proof.Laws

namespace Sys2Proof.Laws
open Sys2Proof.Machine

/-! ### Operations of a gallery core -/

theorem galOnly_tile {s : State} (htile : s.cur < 512) (r : Host.Outcome State Fault Refusal) :
    galOnly s r = .next (takeTrap { cause := .illegalOp, slot := 0 } s) := by
  rw [galOnly, isGal_of_tile htile]
  rfl

section
variable {s : State} {g : Nat} (hcur : s.cur = 512 + g) (hg : g < 64)
include hcur

theorem galNo_of_core : s.galNo = g := (congrArg (· - 512) hcur).trans (Nat.add_sub_cancel_left 512 g)

theorem myGal_of_core : s.myGal = s.gal g := congrArg s.gal (galNo_of_core hcur)

theorem modMyGal_of_core (f : Gal → Gal) : s.modMyGal f = s.setGal g (f (s.gal g)) := by
  rw [State.modMyGal, galNo_of_core hcur, modGal_eq]

include hg in
theorem galOnly_core (r : Host.Outcome State Fault Refusal) : galOnly s r = r :=
  if_pos (isGal_of_core (by omega) (by omega))

end

/-- A delivery that ends its issue. -/
theorem finishHold_deliverA {s0 s : State} {rd : BitVec 6} {v : W64} {L : Nat} (hbuf : s.cx.buf = {}) :
    finishHold s0 none (.ok (s.setCx (s.cx.deliverA rd v L))) = .next (s.setCx (issued (s.cx.deliverA rd v L))) := by
  rw [finishHold_ok, commit_setCx (c := s.cx.deliverA rd v L) hbuf]
  rfl

/-! ### Packets (R353, R356, R363) -/

/-- The lowest FREE tag of a channel. -/
theorem freeTag_eq {G : Gal} {ch j : Nat} (hj : j < 8) (hfree : (G.tag (ch * 8 + j)).state = 0)
    (hlow : ∀ k < j, (G.tag (ch * 8 + k)).state ≠ 0) : G.freeTag ch = some (ch * 8 + j) := by
  have hfind : (List.range 8).find? ((fun i => (G.tag i).state == 0) ∘ (ch * 8 + ·)) = some j := by
    rw [List.find?_range_eq_some]
    simp [hfree, hj]
    exact hlow
  rw [Gal.freeTag, chanTags, List.find?_map, hfind]
  rfl

theorem setTag_tag (G : Gal) (i : Nat) (t : Tag) (k : Nat) : (G.setTag i t).tag k = if i = k then t else G.tag k :=
  mapGet_mapPut ..

theorem done_tag_self {G : Gal} {i status : Nat} : (G.done i status).tag i = { state := 2, status := status, order := G.count } :=
  mapGet_mapPut_self ..

theorem done_tag_other {G : Gal} {i k status : Nat} (hk : i ≠ k) : (G.done i status).tag k = G.tag k :=
  mapGet_mapPut_ne _ _ _ hk

/-- What holds of a packet operation on core g that finds tag i FREE (R353). -/
structure FindsTag (s : State) (f : ARn) (g i : Nat) : Prop where
  cur : s.cur = 512 + g
  core : g < 64
  guard : s.cx.guard f.gp = true
  buf : s.cx.buf = {}
  free : (s.gal g).freeTag f.fn.toNat = some i

section
variable {s : State} {f : ARn} {g i : Nat} (h : FindsTag s f g i)
include h

theorem FindsTag.hold : holdTag f.gp f.fn.toNat s = none := by
  simp [holdTag, h.guard, myGal_of_core h.cur, h.free]

theorem FindsTag.sends (s0 : State) (p : Packet) : finishHold s0 none (takeTag f (some p) s) = tagTaken s g i f.rd p := by
  simp only [takeTag, myGal_of_core h.cur, h.free, modMyGal_of_core h.cur]
  exact finishHold_deliverA h.buf

theorem FindsTag.sendsNothing (s0 : State) : finishHold s0 none (takeTag f none s) =
    .next ((s.setGal g ((s.gal g).done i 0)).setCx (issued (s.cx.deliverA f.rd (BitVec.ofNat 64 i) 1))) := by
  simp only [takeTag, myGal_of_core h.cur, h.free, modMyGal_of_core h.cur]
  exact finishHold_deliverA h.buf

end

/-- A global or pool pointer that lies in its space. -/
theorem checkFar_of_wf {a : W64} (hwf : ptrWf a = true) (hcode : ptrCode a = 0 ∨ ptrCode a = 14) : checkFar a = none := by
  have hmbz : mbzOk a = true := (Bool.and_eq_true_iff.1 hwf).2
  rcases hcode with h | h <;> simp [checkFar, h, hmbz]

theorem fld_eq_zero {n : Nat} {b : BitVec n} {lo w : Nat} (h : b.toNat / 2 ^ lo % 2 ^ w = 0) : fld b lo w = 0 :=
  BitVec.eq_of_toNat_eq (by rw [toNat_fld, h]; simp)

/-- The checks of a request of whole granules, passed (R356). -/
theorem greqCheck_whole {a b : W64} {off ng : Nat} (hoff : off = b.toNat % 2 ^ 17) (hng : ng = b.toNat / 2 ^ 32 % 16 + 1)
    (hwf : ptrWf a = true) (hcode : ptrCode a = 0 ∨ ptrCode a = 14) (ha : a.toNat % 32 = 0) (ho : off % 32 = 0)
    (hb : b.toNat = off + (ng - 1) * 2 ^ 32) (hline : a.toNat % 512 + 32 * ng ≤ 512) (hstore : off + 32 * ng ≤ 131072) :
    greqCheck a b false = none := by
  have h17 : fld b 17 15 = 0 := fld_eq_zero (by omega)
  have h36 : fld b 36 28 = 0 := fld_eq_zero (by omega)
  have hfo : (fld b 0 17).toNat = off := (toNat_fld b 0 17).trans (by omega)
  have hfn : (fld b 32 4).toNat + 1 = ng := (congrArg (· + 1) (toNat_fld b 32 4)).trans hng.symm
  simp only [greqCheck, checkFar_of_wf hwf hcode, h17, h36, hfo, hfn, Bool.false_eq_true, if_false]
  rw [if_neg (by decide), if_neg (by omega), if_neg (by omega), if_neg (by omega), if_neg (by omega)]

/-- The checks of a masked write, passed (R356). -/
theorem greqCheck_masked {a b : W64} {off : Nat} (hoff : off = b.toNat % 2 ^ 17) (hwf : ptrWf a = true)
    (hcode : ptrCode a = 0 ∨ ptrCode a = 14) (ha : a.toNat % 32 = 0) (ho : off % 32 = 0) (hb : b.toNat / 2 ^ 17 % 2 ^ 15 = 0)
    (hstore : off + 32 ≤ 131072) : greqCheck a b true = none := by
  have h17 : fld b 17 15 = 0 := fld_eq_zero hb
  have hfo : (fld b 0 17).toNat = off := (toNat_fld b 0 17).trans (by omega)
  simp only [greqCheck, checkFar_of_wf hwf hcode, h17, hfo, if_true]
  rw [if_neg (by decide), if_neg (by omega), if_neg (Nat.not_lt.2 hstore), if_neg (by omega), if_neg (by omega)]

theorem srcBytes_clean {s : State} {g : Nat} (hcur : s.cur = 512 + g) (hbad : (s.gal g).store.bad = []) (off n : Nat) :
    s.srcBytes off n = some ((s.gal g).store.mem.readBytes off n) := by
  rw [State.srcBytes, myGal_of_core hcur, hitsBad_of_clean hbad]
  rfl

theorem readBytes_eq_map (m : Mem) (a n : Nat) : m.readBytes a n = (List.range n).map (fun k => m.read (a + k)) := by
  induction n generalizing a with
  | zero => rfl
  | succ n ih =>
    rw [Mem.readBytes, ih, List.range_succ_eq_map, List.map_cons, List.map_map]
    simp [Function.comp_def, Nat.add_assoc, Nat.add_comm 1]

/-- The bytes that a mask keeps of a store's granule (R356). -/
theorem maskedBytes (m : Mem) (off : Nat) (b : W64) :
    ((List.range 32).zip (m.readBytes off 32)).map (fun x => if (fld b 32 32).getLsbD x.1 then some x.2 else none) =
      (List.range 32).map (fun k => if b.toNat / 2 ^ (32 + k) % 2 = 1 then some (m.read (off + k)) else none) := by
  have hzip : (List.range 32).zip ((List.range 32).map fun k => m.read (off + k)) =
      (List.range 32).map fun k => (k, m.read (off + k)) := by
    simpa using List.zip_map' (f := id) (g := fun k => m.read (off + k)) (l := List.range 32)
  rw [readBytes_eq_map, hzip, List.map_map]
  refine List.map_congr_left fun k hk => ?_
  have hbit : (fld b 32 32).getLsbD k = decide (b.toNat / 2 ^ (32 + k) % 2 = 1) := by
    rw [BitVec.getLsbD_extractLsb', decide_eq_true (List.mem_range.1 hk), Bool.true_and, BitVec.getLsbD,
      Nat.testBit_eq_decide_div_mod_eq]
  simp only [Function.comp_apply, hbit, decide_eq_true_eq]

section
variable {s : State} {f : ARn} {g i : Nat} (h : FindsTag s f g i)
include h

theorem FindsTag.greq_sends {off ng : Nat} (hoff : (fld (s.cx.ra f.rb) 0 17).toNat = off)
    (hng : (fld (s.cx.ra f.rb) 32 4).toNat + 1 = ng) (hcheck : greqCheck (s.cx.ra f.ra) (s.cx.ra f.rb) false = none) :
    exec (.greq f) s = tagTaken s g i f.rd { kind := 0, addr := s.cx.ra f.ra, off := off, len := 32 * ng } := by
  rw [exec_greq, execGreq, galOnly_core h.cur h.core, h.hold]
  simp only [opGreq, h.guard, hcheck, hoff, hng]
  exact h.sends s _

theorem FindsTag.gwr_sends {off ng : Nat} (hoff : (fld (s.cx.ra f.rb) 0 17).toNat = off)
    (hng : (fld (s.cx.ra f.rb) 32 4).toNat + 1 = ng) (hcheck : greqCheck (s.cx.ra f.ra) (s.cx.ra f.rb) false = none)
    (hbad : (s.gal g).store.bad = []) :
    exec (.gwr f) s = tagTaken s g i f.rd { kind := 1, addr := s.cx.ra f.ra, off := off, len := 32 * ng,
                                            data := ((s.gal g).store.mem.readBytes off (32 * ng)).map some } := by
  rw [exec_gwr, execGwr, galOnly_core h.cur h.core, h.hold]
  simp only [opGwr, h.guard, hcheck, hoff, hng, srcBytes_clean h.cur hbad]
  exact h.sends s _

theorem FindsTag.gwrm_sends {off : Nat} (hoff : (fld (s.cx.ra f.rb) 0 17).toNat = off)
    (hcheck : greqCheck (s.cx.ra f.ra) (s.cx.ra f.rb) true = none) (hmask : (s.cx.ra f.rb).toNat / 2 ^ 32 ≠ 0)
    (hbad : (s.gal g).store.bad = []) :
    exec (.gwrm f) s = tagTaken s g i f.rd
      { kind := 1, addr := s.cx.ra f.ra, off := off, len := 32
        data := (List.range 32).map fun k =>
          if (s.cx.ra f.rb).toNat / 2 ^ (32 + k) % 2 = 1 then some ((s.gal g).store.mem.read (off + k)) else none } := by
  have hne : fld (s.cx.ra f.rb) 32 32 ≠ 0 := by
    intro hzero
    have hnat := toNat_fld (s.cx.ra f.rb) 32 32
    rw [hzero] at hnat
    have hlt := (s.cx.ra f.rb).isLt
    have h0 : (0 : BitVec 32).toNat = 0 := rfl
    omega
  rw [exec_gwrm, execGwrm, galOnly_core h.cur h.core, h.hold]
  simp only [opGwrm, h.guard, hcheck, hoff, if_neg hne, srcBytes_clean h.cur hbad, maskedBytes]
  exact h.sends s _

theorem FindsTag.gwrm_masked_out (hcheck : greqCheck (s.cx.ra f.ra) (s.cx.ra f.rb) true = none)
    (hmask : fld (s.cx.ra f.rb) 32 32 = 0) :
    exec (.gwrm f) s =
      .next ((s.setGal g ((s.gal g).done i 0)).setCx (issued (s.cx.deliverA f.rd (BitVec.ofNat 64 i) 1))) := by
  rw [exec_gwrm, execGwrm, galOnly_core h.cur h.core, h.hold]
  simp only [opGwrm, h.guard, hcheck, if_pos hmask]
  exact h.sendsNothing s

/-- A hand-off of whole 64-byte blocks within the limits (R363). -/
theorem FindsTag.ghand_sends {o n : Nat} (ho : o = (s.cx.ra f.ra).toNat % 2 ^ 17) (hn : n = (s.cx.ra f.ra).toNat / 2 ^ 32)
    (hlow : (s.cx.ra f.ra).toNat % 2 ^ 32 = o) (hpos : 1 ≤ n) (hmax : n ≤ 1024) (hb : (s.cx.ra f.rb).toNat < 1024)
    (hstore : o + 64 * n ≤ 131072) (hal : o % 64 = 0) :
    exec (.ghand f) s = tagTaken s g i f.rd { kind := 2, off := o, len := 64 * n, tile := (s.cx.ra f.rb).toNat % 256,
                                              chan := (s.cx.ra f.rb).toNat / 256 } := by
  have h17 : fld (s.cx.ra f.ra) 17 15 = 0 := fld_eq_zero (by omega)
  have h48 : fld (s.cx.ra f.ra) 48 16 = 0 := fld_eq_zero (by omega)
  have h10 : fld (s.cx.ra f.rb) 10 54 = 0 := fld_eq_zero (by omega)
  have hfo : (fld (s.cx.ra f.ra) 0 17).toNat = o := (toNat_fld _ 0 17).trans (by omega)
  have hfn : (fld (s.cx.ra f.ra) 32 16).toNat = n := (toNat_fld _ 32 16).trans (by omega)
  have htile : (fld (s.cx.ra f.rb) 0 8).toNat = (s.cx.ra f.rb).toNat % 256 := (toNat_fld _ 0 8).trans (by omega)
  have hchan : (fld (s.cx.ra f.rb) 8 2).toNat = (s.cx.ra f.rb).toNat / 256 := (toNat_fld _ 8 2).trans (by omega)
  rw [exec_ghand, execGhand, galOnly_core h.cur h.core, h.hold]
  simp only [opGhand, h.guard, h17, h48, h10, hfo, hfn, htile, hchan]
  rw [if_neg (by decide), if_neg (by simp; omega), if_neg (by omega), if_neg (by omega)]
  exact h.sends s _

end

/-- R353, R356, R363: GREQ, GWR, GWRM and GHAND where a tag is FREE. -/
theorem packetRequests : PacketRequests := by
  intro s f g j hcur hg hguard hbuf hj hfree hlow i a b off ng S far
  have h : FindsTag s f g i := ⟨hcur, hg, hguard, hbuf, freeTag_eq hj hfree hlow⟩
  have hoff : (fld b 0 17).toNat = off := (toNat_fld b 0 17).trans (by omega)
  have hng : (fld b 32 4).toNat + 1 = ng := congrArg (· + 1) (toNat_fld b 32 4)
  refine ⟨fun ⟨⟨hwf, hcode, ha, ho⟩, hb, hline, hstore⟩ => ?_, fun ⟨⟨hwf, hcode, ha, ho⟩, hb, hstore, hmask, hbad⟩ => ?_,
    fun ⟨⟨hwf, hcode, ha, ho⟩, hb, hstore⟩ => ⟨(s.gal g).done i 0, ?_, ?_, ?_, ?_, ?_⟩,
    fun ⟨hlow, hpos, hmax, hb, hstore, hal⟩ => h.ghand_sends rfl rfl hlow hpos hmax hb hstore hal⟩
  · have hcheck : greqCheck a b false = none :=
      greqCheck_whole rfl rfl hwf (ptrCode_eq a ▸ hcode) ha ho hb hline hstore
    exact ⟨h.greq_sends hoff hng hcheck, h.gwr_sends hoff hng hcheck⟩
  · exact h.gwrm_sends hoff (greqCheck_masked rfl hwf (ptrCode_eq a ▸ hcode) ha ho hb hstore) hmask hbad
  · have hmask : b.toNat / 2 ^ 32 % 2 ^ 32 = 0 := by omega
    have hzero : b.toNat / 2 ^ 17 % 2 ^ 15 = 0 := by omega
    exact h.gwrm_masked_out (greqCheck_masked rfl hwf (ptrCode_eq a ▸ hcode) ha ho hzero hstore) (fld_eq_zero hmask)
  · rw [done_tag_self]
  · rw [done_tag_self]
  · rw [done_tag_self]
  · exact fun k hk => done_tag_other (Ne.symm hk)

/-! ### Tags (R357, R358, R445) -/

/-- GTAGW takes a tag whose record is t (R357, R445). -/
theorem gtagw_taken {s : State} {f : AR1} {byCh : Bool} {g i : Nat} {t : Tag} (hcur : s.cur = 512 + g)
    (hguard : s.cx.guard f.gp = true) (hpick : gtagwPick byCh (s.cx.ra f.ra) (s.gal g) = .ok (some i))
    (ht : (s.gal g).tag i = t) :
    holdGtagw byCh f s = none ∧
    gtagw byCh f s =
      let s := s.setGal g ((s.gal g).setTag i {})
      if t.status = 1 then .trapIn { cause := .streamXlate, sub := t.sub, slot := 0, addr := t.va } s
      else if t.status = 2 then .trapIn { cause := .dataLost, slot := 0, addr := t.va } s
      else if t.status = 4 then .trapIn { cause := .spaceRange, slot := 0, addr := t.va } s
      else .ok (s.setCx (s.cx.deliverA f.rd (BitVec.ofNat 64 (t.status * 2 ^ 56 + i)) 1)) := by
  refine ⟨?_, ?_⟩
  · simp only [holdGtagw, hguard, myGal_of_core hcur, hpick, if_true]
  · simp only [gtagw, hguard, myGal_of_core hcur, hpick, ht, modMyGal_of_core hcur]
    rfl

/-- GTAGW.T names a DONE tag. -/
theorem gtagwPick_tag {G : Gal} {a : W64} {i : Nat} (ha : a.toNat = i) (hi : i < 128) (hdone : (G.tag i).state = 2) :
    gtagwPick false a G = .ok (some i) := by
  have hz : fld a 7 57 = 0 := fld_eq_zero (by omega)
  have hf : (fld a 0 7).toNat = i := (toNat_fld a 0 7).trans (by omega)
  simp [gtagwPick, hz, hf, hdone]

/-- The earlier of two DONE tags, as the model chooses. -/
def earlierTag (G : Gal) (a : Option Nat) (i : Nat) : Option Nat :=
  match a with
  | none => some i
  | some j => if (G.tag i).order < (G.tag j).order then some i else some j

theorem foldl_earlierTag_kept {G : Gal} {i : Nat} {l : List Nat} (hmin : ∀ k ∈ l, k ≠ i → (G.tag i).order < (G.tag k).order) :
    l.foldl (earlierTag G) (some i) = some i := by
  induction l with
  | nil => rfl
  | cons k t ih =>
    have hkeep : earlierTag G (some i) k = some i := by
      by_cases hk : k = i
      · rw [hk, earlierTag, ite_self]
      · exact if_neg (Nat.lt_asymm (hmin k List.mem_cons_self hk))
    rw [List.foldl_cons, hkeep]
    exact ih fun m hm => hmin m (List.mem_cons_of_mem k hm)

/-- A tag earlier than every other one of a list is what the choice leaves. -/
theorem foldl_earlierTag {G : Gal} {i : Nat} {l : List Nat} (hi : i ∈ l)
    (hmin : ∀ k ∈ l, k ≠ i → (G.tag i).order < (G.tag k).order) {a : Option Nat}
    (ha : ∀ j ∈ a, (G.tag i).order < (G.tag j).order) : l.foldl (earlierTag G) a = some i := by
  induction l generalizing a with
  | nil => cases hi
  | cons k t ih =>
    have hrest : ∀ m ∈ t, m ≠ i → (G.tag i).order < (G.tag m).order := fun m hm => hmin m (List.mem_cons_of_mem k hm)
    rw [List.foldl_cons]
    by_cases hk : k = i
    · have htake : earlierTag G a k = some i := by
        subst hk
        cases a with
        | none => rfl
        | some j => exact if_pos (ha j rfl)
      rw [htake]
      exact foldl_earlierTag_kept hrest
    · refine ih ((List.mem_cons.1 hi).resolve_left (Ne.symm hk)) hrest ?_
      have hlt := hmin k List.mem_cons_self hk
      cases a with
      | none => simpa [earlierTag] using hlt
      | some j =>
        simp only [earlierTag]
        split
        · simpa using hlt
        · exact ha

theorem mem_chanTags {ch k : Nat} : k ∈ chanTags ch ↔ k / 8 = ch := by
  simp only [chanTags, List.mem_map, List.mem_range]
  constructor
  · rintro ⟨j, hj, rfl⟩
    omega
  · intro h
    exact ⟨k % 8, by omega, by omega⟩

theorem firstDone_eq {G : Gal} {ch i : Nat} (hi : i / 8 = ch) (hdone : (G.tag i).state = 2)
    (hmin : ∀ k, k / 8 = ch → k ≠ i → (G.tag k).state = 2 → (G.tag i).order < (G.tag k).order) : G.firstDone ch = some i := by
  refine foldl_earlierTag (a := none) (List.mem_filter.2 ⟨mem_chanTags.2 hi, by simpa using hdone⟩) (fun k hk hne => ?_) nofun
  obtain ⟨hch, hk2⟩ := List.mem_filter.1 hk
  exact hmin k (mem_chanTags.1 hch) hne (beq_iff_eq.1 hk2)

/-- GTAGW.C names the earliest DONE tag of its channel. -/
theorem gtagwPick_channel {G : Gal} {a : W64} {i : Nat} (ha : a.toNat = i / 8) (hi : i < 128) (hdone : (G.tag i).state = 2)
    (hmin : ∀ k, k / 8 = i / 8 → k ≠ i → (G.tag k).state = 2 → (G.tag i).order < (G.tag k).order) :
    gtagwPick true a G = .ok (some i) := by
  have hz : fld a 4 60 = 0 := fld_eq_zero (by omega)
  have hf : (fld a 0 4).toNat = i / 8 := (toNat_fld a 0 4).trans (by omega)
  have hall : (chanTags (i / 8)).all (fun k => (G.tag k).state == 0) = false := by
    rw [List.all_eq_false]
    exact ⟨i, mem_chanTags.2 rfl, by simp [hdone]⟩
  simp [gtagwPick, hz, hf, hall, firstDone_eq rfl hdone hmin]

theorem exec_gtagwT_core {s : State} {f : AR1} {g : Nat} (hcur : s.cur = 512 + g) (hg : g < 64) :
    exec (.gtagwT f) s = finishHold s (holdGtagw false f s) (gtagw false f s) := by
  rw [exec_gtagwT, execGtagwT, galOnly_core hcur hg]
  rfl

theorem exec_gtagwC_core {s : State} {f : AR1} {g : Nat} (hcur : s.cur = 512 + g) (hg : g < 64) :
    exec (.gtagwC f) s = finishHold s (holdGtagw true f s) (gtagw true f s) := by
  rw [exec_gtagwC, execGtagwC, galOnly_core hcur hg]
  rfl

/-- What each status of a taken tag leaves (R357, R445). -/
theorem gtagw_outcome {s : State} {f : AR1} {byCh : Bool} {g i : Nat} {t : Tag} (hcur : s.cur = 512 + g) (hbuf : s.cx.buf = {})
    (hguard : s.cx.guard f.gp = true) (hpick : gtagwPick byCh (s.cx.ra f.ra) (s.gal g) = .ok (some i))
    (ht : (s.gal g).tag i = t) :
    let freed := s.setGal g ((s.gal g).setTag i {})
    let x := finishHold s (holdGtagw byCh f s) (gtagw byCh f s)
    (t.status = 0 ∨ t.status = 3 → x = .next (freed.setCx (issued (s.cx.deliverA f.rd (BitVec.ofNat 64 (t.status * 2 ^ 56 + i)) 1)))) ∧
    (t.status = 1 → x = .next (takeTrap { cause := .streamXlate, sub := t.sub, slot := 0, addr := t.va } freed)) ∧
    (t.status = 2 → x = .next (takeTrap { cause := .dataLost, slot := 0, addr := t.va } freed)) ∧
    (t.status = 4 → x = .next (takeTrap { cause := .spaceRange, slot := 0, addr := t.va } freed)) := by
  intro freed x
  obtain ⟨hhold, htake⟩ := gtagw_taken hcur hguard hpick ht
  have hx : x = finishHold s none (gtagw byCh f s) := congrArg (finishHold s · _) hhold
  rw [hx, htake]
  refine ⟨fun h => ?_, fun h => ?_, fun h => ?_, fun h => ?_⟩
  · rw [if_neg (by omega), if_neg (by omega), if_neg (by omega)]
    exact finishHold_deliverA (s := freed) hbuf
  · rw [if_pos h]
    rfl
  · rw [if_neg (by omega), if_pos h]
    rfl
  · rw [if_neg (by omega), if_neg (by omega), if_pos h]
    rfl

/-- A sum of two fields of bits, as GTAGQ makes it (R357). -/
theorem foldl_twoMasks (p q : Nat → Bool) (n : Nat) (hpq : ∀ i, ¬ (p i = true ∧ q i = true)) :
    (List.range n).foldl (fun v i => v + (if p i = true then 2 ^ i else if q i = true then 2 ^ (8 + i) else 0)) 0 =
      2 ^ 8 * sumBits q n + sumBits p n := by
  induction n with
  | zero => rfl
  | succ n ih =>
    rw [List.range_succ, List.foldl_append, ih, sumBits_succ, sumBits_succ]
    simp only [List.foldl_cons, List.foldl_nil]
    have hpow : 2 ^ (8 + n) = 2 ^ 8 * 2 ^ n := Nat.pow_add 2 8 n
    split_ifs with hp hq hq
    · exact absurd ⟨hp, hq⟩ (hpq n)
    all_goals omega

theorem exec_gtagq_core {s : State} {f : AR1} {g : Nat} (hcur : s.cur = 512 + g) (hg : g < 64) (hguard : s.cx.guard f.gp = true)
    (ha : (s.cx.ra f.ra).toNat < 16) :
    exec (.gtagq f) s = deliversA s f.rd (BitVec.ofNat 64
      (2 ^ 8 * sumBits (fun k => ((s.gal g).tag ((s.cx.ra f.ra).toNat * 8 + k)).state == 1) 8 +
        sumBits (fun k => ((s.gal g).tag ((s.cx.ra f.ra).toNat * 8 + k)).state == 2) 8)) 1 := by
  have hz : fld (s.cx.ra f.ra) 4 60 = 0 := fld_eq_zero (by omega)
  have hf : (fld (s.cx.ra f.ra) 0 4).toNat = (s.cx.ra f.ra).toNat := (toNat_fld _ 0 4).trans (by omega)
  rw [← foldl_twoMasks _ _ 8 (fun k => by simp; omega), exec_gtagq, execGtagq, galOnly_core hcur hg]
  simp only [opGtagq, hguard, hz, hf, myGal_of_core hcur, beq_iff_eq]
  rfl

theorem getLsbD_twoMasks (p q : Nat → Bool) {k : Nat} (hk : k < 8) :
    (BitVec.ofNat 64 (2 ^ 8 * sumBits q 8 + sumBits p 8)).getLsbD k = p k ∧
    (BitVec.ofNat 64 (2 ^ 8 * sumBits q 8 + sumBits p 8)).getLsbD (8 + k) = q k := by
  have hlt := sumBits_lt p 8
  constructor
  · rw [BitVec.getLsbD_ofNat, Nat.testBit_two_pow_mul_add _ hlt, if_pos hk, testBit_sumBits]
    simp [hk]
    omega
  · rw [BitVec.getLsbD_ofNat, Nat.testBit_two_pow_mul_add _ hlt, if_neg (by omega), testBit_sumBits]
    simp [hk]
    omega

/-- GFENCE over channels without a BUSY tag (R358). -/
theorem exec_gfence_core {s : State} {w : AS1} {g : Nat} (hcur : s.cur = 512 + g) (hg : g < 64) (hbuf : s.cx.buf = {})
    (ha : (s.cx.ra w.ra).toNat < 2 ^ 16)
    (hidle : ∀ ch < 16, (s.cx.ra w.ra).getLsbD ch = true → ∀ k < 8, ((s.gal g).tag (ch * 8 + k)).state ≠ 1) :
    exec (.gfence w) s = passes s := by
  have hz : fld (s.cx.ra w.ra) 16 48 = 0 := fld_eq_zero (by omega)
  have hno : (List.range 16).any
      (fun ch => (s.cx.ra w.ra).getLsbD ch && (chanTags ch).any (fun i => (s.myGal.tag i).state == 1)) = false := by
    rw [List.any_eq_false]
    intro ch hch hbusy
    obtain ⟨hon, hany⟩ := Bool.and_eq_true_iff.1 hbusy
    obtain ⟨i, hi, hst⟩ := List.any_eq_true.1 hany
    have hi8 := mem_chanTags.1 hi
    refine hidle ch (List.mem_range.1 hch) hon (i % 8) (by omega) ?_
    rw [← myGal_of_core hcur, show ch * 8 + i % 8 = i by omega]
    exact beq_iff_eq.1 hst
  have hhold : holdGfence w s = none := by
    rw [holdGfence, hno, Bool.and_false]
    rfl
  have hop : opGfence w s = .ok s := by
    rw [opGfence, hz]
    simp
  rw [exec_gfence, execGfence, galOnly_core hcur hg, hhold, hop]
  exact finishHold_passes hbuf

/-- R357, R358, R445: GTAGW, GTAGQ and GFENCE. -/
theorem tagResults : TagResults := by
  intro s f w g i hcur hg hbuf G a freed outcome
  refine ⟨fun hguard => ⟨fun ⟨ha, hi, hdone⟩ => ?_, fun ⟨ha, hi, hdone, hmin⟩ => ?_, fun ha => ?_⟩,
    exec_gfence_core hcur hg hbuf⟩
  · rw [exec_gtagwT_core hcur hg]
    exact gtagw_outcome hcur hbuf hguard (gtagwPick_tag ha hi hdone) rfl
  · rw [exec_gtagwC_core hcur hg]
    exact gtagw_outcome hcur hbuf hguard (gtagwPick_channel ha hi hdone hmin) rfl
  · exact ⟨_, exec_gtagq_core hcur hg hguard ha, fun k hk => getLsbD_twoMasks _ _ hk⟩

end Sys2Proof.Laws

namespace Sys2Proof.Laws
open Sys2Proof.Machine

/-! ### A translation outside a landing does not wait (R409) -/

theorem walkTop_ne_wait (s : State) (asid gen : Nat) : s.walkTop asid gen ≠ .error .wait := by
  unfold State.walkTop
  dsimp only
  split_ifs <;> nofun

theorem walk_ne_wait (s : State) (va table : Nat) (levels : List (Nat × Nat)) : walk s va table levels ≠ .error .wait := by
  induction levels generalizing table with
  | nil => nofun
  | cons l rest ih =>
    unfold walk
    dsimp only
    split_ifs
    rotate_right
    · exact ih _
    all_goals nofun

theorem walkFrom_ne_wait (s : State) (w : WalkEntry) (pool : Bool) (off : Nat) : s.walkFrom w pool off ≠ .error .wait := by
  unfold State.walkFrom
  have hwalk := walk_ne_wait s (w.va pool off) w.table (walkLevels.drop w.up)
  split
  · nofun
  · split
    next x hx =>
      rw [hx] at hwalk
      exact fun h => hwalk (by simpa using h)
    next => nofun

theorem walkStart_ne_wait (s : State) (n asid gen : Nat) (pool : Bool) (off : Nat) :
    (s.walkStart n asid gen pool off).1 ≠ .error .wait := by
  unfold State.walkStart
  split
  · exact walkTop_ne_wait s asid gen
  · dsimp only
    split
    · nofun
    · exact walkTop_ne_wait _ asid gen

theorem useEntry_ne_wait (s : State) (e : TlbEntry) (off : Nat) (write : Bool) : s.useEntry e off write ≠ .wait := by
  unfold State.useEntry
  dsimp only
  split_ifs <;> nofun

theorem xlate_ne_wait {s : State} (hland : s.landing = none) (n asid gen : Nat) (pool : Bool) (off : Nat) (write : Bool) :
    (s.xlate n asid gen pool off write).1 ≠ .wait := by
  have hstart := walkStart_ne_wait s n asid gen pool off
  unfold State.xlate
  rw [hland]
  split
  · exact useEntry_ne_wait _ _ _ _
  · rw [if_neg (by simp)]
    revert hstart
    rcases s.walkStart n asid gen pool off with ⟨x | w, u⟩
    · exact fun hstart h => hstart (congrArg _ h)
    · intro _
      have hfrom := walkFrom_ne_wait u w pool off
      dsimp only
      split
      next x hx =>
        rw [hx] at hfrom
        exact fun h => hfrom (congrArg _ h)
      next => exact useEntry_ne_wait _ _ _ _

/-- Of the core, `u` has other entries of the TLB and the walk cache than `s` at most. -/
structure CoreTranslated (s u : State) (g : Nat) : Prop where
  cur : u.cur = s.cur
  mem : u.mem = s.mem
  cx : u.cx = s.cx
  gal : ∃ tlb walks, u.gal g = { s.gal g with tlb := tlb, walks := walks }

/-- What a translation for core g leaves. -/
theorem coreTranslated_xlate {s : State} {g : Nat} (hcur : s.cur = 512 + g) (hg : g < 64) (asid gen : Nat) (pool : Bool) (off : Nat)
    (write : Bool) : CoreTranslated s (s.xlate s.cur asid gen pool off write).2 g := by
  have hgal : isGal s.cur = true := isGal_of_core (by omega) (by omega)
  have hno : s.cur - 512 = g := galNo_of_core hcur
  have hcx := xlate_cx s s.cur asid gen pool off write
  obtain ⟨f, h | ⟨e, ws, h⟩⟩ := xlate_frame s s.cur asid gen pool off write
  · exact ⟨by rw [h], by rw [h], hcx, _, _, by rw [h]; rfl⟩
  · rw [State.addTlb, if_pos hgal, hno, modGal_eq] at h
    exact ⟨by rw [h, setGal_cur], by rw [h, setGal_mem], hcx, _, _, by rw [h, gal_setGal_self]; rfl⟩

/-! ### The bin buffer (R359) -/

theorem exec_gbin_full {s : State} {f : AR} {g : Nat} (hcur : s.cur = 512 + g) (hg : g < 64) (hbuf : s.cx.buf = {})
    (hguard : s.cx.guard f.gp = true) (hfar : checkFar (s.cx.ra f.ra) = none) (hb : (s.cx.ra f.rb).toNat < 2 ^ 32)
    (hfull : 64 ≤ (s.gal g).bins.length) : exec (.gbin f) s = .next (s.setCx (issued (s.cx.deliverA f.rd 1 1))) := by
  have hz : fld (s.cx.ra f.rb) 32 32 = 0 := fld_eq_zero (by omega)
  have hhold : holdGbin f s = none := by
    simp [holdGbin, myGal_of_core hcur, Nat.not_lt.2 hfull]
  rw [exec_gbin, execGbin, galOnly_core hcur hg, hhold]
  simp only [opGbin, hguard, hfar, hz, myGal_of_core hcur, if_pos hfull]
  exact finishHold_deliverA hbuf

/-- A bin with room takes the key and the count (R359). -/
theorem exec_gbin_room {s : State} {f : AR} {g : Nat} (hcur : s.cur = 512 + g) (hg : g < 64) (hbuf : s.cx.buf = {})
    (hland : s.landing = none) (hguard : s.cx.guard f.gp = true) (hfar : checkFar (s.cx.ra f.ra) = none)
    (hb : (s.cx.ra f.rb).toNat < 2 ^ 32) (hroom : (s.gal g).bins.length < 64) :
    ∃ t k, exec (.gbin f) s = .next t ∧ t.cx = issued (s.cx.deliverA f.rd 0 1) ∧ t.mem = s.mem ∧
      ∃ tlb walks, t.gal g =
        { s.gal g with tlb := tlb, walks := walks, bins := (s.gal g).bins ++ [(k, (s.cx.ra f.rb).toNat)] } := by
  have hz : fld (s.cx.ra f.rb) 32 32 = 0 := fld_eq_zero (by omega)
  have hcount : (fld (s.cx.ra f.rb) 0 32).toNat = (s.cx.ra f.rb).toNat := (toNat_fld _ 0 32).trans (by omega)
  have hwait := xlate_ne_wait hland s.cur s.cx.asid s.cx.gen (ptrCode (s.cx.ra f.ra) == 14) (farOff (s.cx.ra f.ra)) false
  have hu := coreTranslated_xlate hcur hg s.cx.asid s.cx.gen (ptrCode (s.cx.ra f.ra) == 14) (farOff (s.cx.ra f.ra)) false
  have hhold : holdGbin f s = none := by
    unfold holdGbin
    dsimp only
    split
    · split
      next h => exact absurd h hwait
      next => rfl
    · rfl
  rw [exec_gbin, execGbin, galOnly_core hcur hg, hhold]
  simp only [opGbin, hguard, hfar, hz, myGal_of_core hcur, if_neg (Nat.not_le.2 hroom), hcount]
  revert hu
  rcases s.xlate s.cur s.cx.asid s.cx.gen (ptrCode (s.cx.ra f.ra) == 14) (farOff (s.cx.ra f.ra)) false with ⟨x, u⟩
  rintro ⟨hucur, humem, hucx, tlb, walks, hugal⟩
  rw [← hucx] at hbuf ⊢
  rw [modMyGal_of_core (hucur.trans hcur)]
  refine ⟨_, binKey x, finishHold_deliverA (s := u.setGal g _) hbuf, cx_setCx .., humem, tlb, walks, ?_⟩
  rw [gal_setCx, gal_setGal_self, hugal]

theorem leastBin_mem {l : List (Nat × Nat)} {x : Nat × Nat} (h : leastBin l = some x) : x ∈ l := by
  induction l generalizing x with
  | nil => cases h
  | cons e t ih =>
    rw [leastBin] at h
    split at h
    next y hy =>
      split at h <;> cases h
      · exact List.mem_cons_of_mem e (ih hy)
      · exact List.mem_cons_self
    next =>
      cases h
      exact List.mem_cons_self

/-- The earliest entry of least key (R359). -/
theorem leastBin_eq {l r : List (Nat × Nat)} {k c : Nat} (hl : ∀ e ∈ l, k < e.1) (hr : ∀ e ∈ r, k ≤ e.1) :
    leastBin (l ++ (k, c) :: r) = some (k, c) := by
  induction l with
  | nil =>
    rw [List.nil_append, leastBin]
    split
    next y hy => exact if_neg (Nat.not_lt.2 (hr y (leastBin_mem hy)))
    next => rfl
  | cons e t ih =>
    rw [List.cons_append, leastBin, ih fun e he => hl e (List.mem_cons_of_mem _ he)]
    exact if_pos (hl e List.mem_cons_self)

theorem erase_least {l r : List (Nat × Nat)} {k c : Nat} (hl : ∀ e ∈ l, k < e.1) : (l ++ (k, c) :: r).erase (k, c) = l ++ r := by
  have hmem : (k, c) ∉ l := fun h => Nat.lt_irrefl k (hl _ h)
  rw [List.erase_append_right _ hmem, List.erase_cons_head]

section
variable {s : State} {g : Nat} (hcur : s.cur = 512 + g) (hg : g < 64)
include hcur hg

theorem exec_gbdrain_core (d : AD) : exec (.gbdrain d) s = finish s (opGbdrain d s) := by
  rw [exec_gbdrain, execGbdrain, galOnly_core hcur hg]

theorem exec_gbdrain_empty {d : AD} (hguard : s.cx.guard d.gp = true) (hnone : (s.gal g).bins = []) :
    exec (.gbdrain d) s = deliversA s d.rd (BitVec.ofNat 64 (2 ^ 63)) 2 := by
  rw [exec_gbdrain_core hcur hg]
  simp only [opGbdrain, hguard, myGal_of_core hcur, hnone]
  rfl

theorem exec_gbdrain_least {d : AD} (hguard : s.cx.guard d.gp = true) {l r : List (Nat × Nat)} {k c : Nat}
    (hbins : (s.gal g).bins = l ++ (k, c) :: r) (hl : ∀ e ∈ l, k < e.1) (hr : ∀ e ∈ r, k ≤ e.1) :
    exec (.gbdrain d) s =
      .next ((s.setGal g { s.gal g with bins := l ++ r }).setCx (s.cx.deliverA d.rd (BitVec.ofNat 64 c) 2)) := by
  rw [exec_gbdrain_core hcur hg]
  simp only [opGbdrain, hguard, myGal_of_core hcur, modMyGal_of_core hcur, hbins, leastBin_eq hl hr, erase_least hl]
  rfl

theorem exec_gbdrainClr_core {d : AD} (hguard : s.cx.guard d.gp = true) :
    exec (.gbdrainClr d) s =
      .next ((s.setGal g { s.gal g with bins := [] }).setCx (s.cx.deliverA d.rd (BitVec.ofNat 64 (s.gal g).bins.length) 2)) := by
  rw [exec_gbdrainClr, execGbdrainClr, galOnly_core hcur hg]
  simp only [opGbdrainClr, hguard, myGal_of_core hcur, modMyGal_of_core hcur]
  rfl

theorem exec_gdedupClr_core {d : AD} (hguard : s.cx.guard d.gp = true) :
    exec (.gdedupClr d) s =
      .next ((s.setGal g { s.gal g with dedup := [] }).setCx
        (s.cx.deliverA d.rd (BitVec.ofNat 64 (s.gal g).dedup.length) 2)) := by
  rw [exec_gdedupClr, execGdedupClr, galOnly_core hcur hg]
  simp only [opGdedupClr, hguard, myGal_of_core hcur, modMyGal_of_core hcur]
  rfl

/-! ### The dedup table (R360) -/

theorem exec_gdedup_present {x : AR1} {i : Nat} (hguard : s.cx.guard x.gp = true)
    (hslot : Machine.slotOf (s.cx.ra x.ra) (s.gal g).dedup = some i) :
    exec (.gdedup x) s = .next ((s.setGal g (s.gal g)).setCx (s.cx.deliverA x.rd (BitVec.ofNat 64 (2 ^ 63 + i)) 2)) := by
  rw [exec_gdedup, execGdedup, galOnly_core hcur hg]
  simp only [opGdedup, hguard, myGal_of_core hcur, modMyGal_of_core hcur, hslot]
  rfl

theorem exec_gdedup_full {x : AR1} (hguard : s.cx.guard x.gp = true) (hslot : Machine.slotOf (s.cx.ra x.ra) (s.gal g).dedup = none)
    (hfull : 256 ≤ (s.gal g).dedup.length) :
    exec (.gdedup x) s = .next ((s.setGal g (s.gal g)).setCx (s.cx.deliverA x.rd (BitVec.ofNat 64 (2 ^ 62)) 2)) := by
  rw [exec_gdedup, execGdedup, galOnly_core hcur hg]
  simp only [opGdedup, hguard, myGal_of_core hcur, modMyGal_of_core hcur, hslot, if_pos hfull]
  rfl

theorem exec_gdedup_new {x : AR1} (hguard : s.cx.guard x.gp = true) (hslot : Machine.slotOf (s.cx.ra x.ra) (s.gal g).dedup = none)
    (hroom : (s.gal g).dedup.length < 256) :
    exec (.gdedup x) s = .next ((s.setGal g { s.gal g with dedup := (s.gal g).dedup ++ [s.cx.ra x.ra] }).setCx
      (s.cx.deliverA x.rd (BitVec.ofNat 64 (s.gal g).dedup.length) 2)) := by
  rw [exec_gdedup, execGdedup, galOnly_core hcur hg]
  simp only [opGdedup, hguard, myGal_of_core hcur, modMyGal_of_core hcur, hslot, if_neg (Nat.not_le.2 hroom)]
  rfl

end

theorem dedupSlot_first {k : W64} {l : List W64} {i : Nat} (hi : i < l.length) (hk : l[i]? = some k) (hfirst : ∀ j < i, l[j]? ≠ some k) :
    Machine.slotOf k l = some i := by
  rw [Machine.slotOf, List.findIdx?_eq_some_iff_getElem]
  refine ⟨hi, beq_iff_eq.2 (List.getElem_eq_iff hi |>.2 hk), fun j hj h => hfirst j hj ?_⟩
  exact (List.getElem_eq_iff (hj.trans hi)).1 (beq_iff_eq.1 h)

theorem dedupSlot_none {k : W64} {l : List W64} (hk : k ∉ l) : Machine.slotOf k l = none := by
  rw [Machine.slotOf, List.findIdx?_eq_none_iff]
  exact fun x hx => beq_eq_false_iff_ne.2 fun h => hk (h ▸ hx)

/-- R359, R360: the bin buffer and the dedup table. -/
theorem binAndDedupResults : BinAndDedupResults := by
  intro s f x d g hcur hg hbuf hland G a b key gets
  refine ⟨fun ⟨hguard, hwf, hcode, hb⟩ => ⟨fun hfull => ?_, fun hroom => ?_⟩, fun hguard => ⟨?_, ?_, ?_, ?_⟩,
    fun hguard => ⟨fun i hi hkey hfirst => ?_, fun hkey hfull => ?_, fun hkey hroom => ?_⟩⟩
  · exact exec_gbin_full hcur hg hbuf hguard (checkFar_of_wf hwf (ptrCode_eq a ▸ hcode)) hb hfull
  · obtain ⟨t, k, hexec, hcx, hmem, tlb, walks, hgal⟩ :=
      exec_gbin_room hcur hg hbuf hland hguard (checkFar_of_wf hwf (ptrCode_eq a ▸ hcode)) hb hroom
    exact ⟨t, k, hexec, hcx, by rw [hgal], by rw [hgal], by rw [hgal], by rw [hgal], by rw [hgal], hmem⟩
  · exact exec_gbdrain_empty hcur hg hguard
  · exact fun l r k c hbins hl hr => exec_gbdrain_least hcur hg hguard hbins hl hr
  · exact exec_gbdrainClr_core hcur hg hguard
  · exact exec_gdedupClr_core hcur hg hguard
  · exact exec_gdedup_present hcur hg hguard (dedupSlot_first hi hkey hfirst)
  · exact exec_gdedup_full hcur hg hguard (dedupSlot_none hkey) hfull
  · exact exec_gdedup_new hcur hg hguard (dedupSlot_none hkey) hroom

end Sys2Proof.Laws

namespace Sys2Proof.Laws
open Sys2Proof.Machine

/-! ### Accumulators of the pool file (R361) -/

theorem pool_setAcc (G : Gal) (k i : Nat) (x : LA) :
    mapGet laEmpty (G.setAcc k x).pool i = if k = i then x.encode else mapGet laEmpty G.pool i := mapGet_mapSet ..

theorem acc_setAcc_ne {G : Gal} {k i : Nat} (hki : k ≠ i) (x : LA) : (G.setAcc k x).acc i = G.acc i := by
  rw [Gal.acc, pool_setAcc, if_neg hki]
  rfl

/-- One accumulator goes on by `F`, and its flags are kept. -/
def accStep (first : Nat) (F : Nat → LA → LA × Nat) (x : Gal × Nat) (j : Nat) : Gal × Nat :=
  let r := F j (x.1.acc (first + j))
  (x.1.setAcc (first + j) r.1, x.2 ||| r.2)

/-- Accumulators from `first` on, each gone on by `F` once. -/
theorem foldl_accStep (G : Gal) (first : Nat) (F : Nat → LA → LA × Nat) (n : Nat) :
    let r := (List.range n).foldl (accStep first F) (G, 0)
    r.1.store = G.store ∧ (∀ i, mapGet laEmpty r.1.pool i =
      if first ≤ i ∧ i < first + n then (F (i - first) (G.acc i)).1.encode else mapGet laEmpty G.pool i) := by
  induction n with
  | zero => exact ⟨rfl, fun i => (if_neg (by omega)).symm⟩
  | succ n ih =>
    obtain ⟨hstore, hpool⟩ := ih
    rw [List.range_succ, List.foldl_append]
    generalize (List.range n).foldl (accStep first F) (G, 0) = x at hstore hpool
    have hacc : x.1.acc (first + n) = G.acc (first + n) := by
      rw [Gal.acc, hpool, if_neg (by omega)]
      rfl
    refine ⟨hstore, fun i => ?_⟩
    rw [List.foldl_cons, List.foldl_nil, accStep, pool_setAcc, hacc, hpool]
    rcases Nat.lt_trichotomy i (first + n) with hi | rfl | hi
    · rw [if_neg (by omega)]
      by_cases hfirst : first ≤ i
      · rw [if_pos (by omega), if_pos (by omega)]
      · rw [if_neg (by omega), if_neg (by omega)]
    · rw [if_pos rfl, if_pos (by omega), Nat.add_sub_cancel_left]
    · rw [if_neg (by omega), if_neg (by omega), if_neg (by omega)]

/-- Core g with the accumulators and flags of a GPOOL (R361). -/
def pooled (s : State) (g : Nat) (r : Gal × Nat) : State :=
  if r.2 = 0 then s.setGal g r.1
  else (s.setGal g r.1).modCx fun c => c.push { dst := .none, val := 0, mask := 0, pos := c.now + 1, slot := 0, flags := r.2 }

theorem pooled_leaves (s : State) (g : Nat) (r : Gal × Nat) :
    (pooled s g r).gal g = r.1 ∧ (pooled s g r).cx.a = s.cx.a ∧ (pooled s g r).cx.crs = s.cx.crs ∧ (pooled s g r).mem = s.mem := by
  unfold pooled
  split
  · exact ⟨gal_setGal_self .., rfl, rfl, rfl⟩
  · rw [modCx_eq, gal_setCx, gal_setGal_self, cx_setCx, setCx_mem]
    exact ⟨rfl, rfl, rfl, rfl⟩

/-- What the elements of a GPOOL do to the accumulators (R361). -/
def poolStep (ty n off : Nat) (w : FV) (m : Mem) (j : Nat) (la : LA) : LA × Nat :=
  poolAdd la (decodeFloat ty (m.readLE (off + j * n) n)) w

theorem span_succ (a n : Nat) : span a (n + 1) = span a n ++ [a + n] := by
  rw [span, List.range_succ, List.map_append]
  rfl

/-- Accumulators from `first` on, emptied. -/
def emptied (G : Gal) (first count : Nat) : Gal := (span first count).foldl (fun G i => G.setAcc i .empty) G

theorem emptied_leaves (G : Gal) (first n : Nat) :
    (emptied G first n).store = G.store ∧ (∀ i, mapGet laEmpty (emptied G first n).pool i =
      if first ≤ i ∧ i < first + n then laEmpty else mapGet laEmpty G.pool i) := by
  induction n with
  | zero => exact ⟨rfl, fun i => (if_neg (by omega)).symm⟩
  | succ n ih =>
    obtain ⟨hstore, hpool⟩ := ih
    have hnext : emptied G first (n + 1) = (emptied G first n).setAcc (first + n) .empty := by
      rw [emptied, span_succ, List.foldl_append]
      rfl
    rw [hnext]
    refine ⟨hstore, fun i => ?_⟩
    rw [pool_setAcc, hpool]
    by_cases hi : first + n = i
    · rw [if_pos hi, if_pos (by omega)]
      rfl
    · rw [if_neg hi]
      exact if_congr (by omega) rfl rfl

/-- Core g with its accumulators emptied where CLR is set (R362). -/
def prndCleared (s : State) (g : Nat) (clr : Bool) (first count : Nat) : State :=
  if clr = true then s.setGal g (emptied (s.gal g) first count) else s

theorem prndCleared_leaves (s : State) (g : Nat) (clr : Bool) (first n : Nat) :
    (prndCleared s g clr first n).mem = s.mem ∧ ((prndCleared s g clr first n).gal g).store = (s.gal g).store ∧
    (∀ i, mapGet laEmpty ((prndCleared s g clr first n).gal g).pool i =
      if clr = true ∧ first ≤ i ∧ i < first + n then laEmpty else mapGet laEmpty (s.gal g).pool i) := by
  obtain ⟨hstore, hpool⟩ := emptied_leaves (s.gal g) first n
  cases clr with
  | false => exact ⟨rfl, rfl, fun i => (if_neg (fun h => Bool.false_ne_true h.1)).symm⟩
  | true =>
    rw [prndCleared, if_pos rfl, gal_setGal_self]
    refine ⟨rfl, hstore, fun i => ?_⟩
    rw [hpool]
    simp only [true_and]

/-- The store of some read-outs. -/
def readOutStore (g off n : Nat) (v : Nat → Nat) (count : Nat) : StoreOp :=
  { pad := .gal g, off := off, bytes := ((List.range count).flatMap fun j => natToBytes (v j) n).map some, setFull := false
    addr := storePtr off }

section
variable {s : State} {f : ASn} {g : Nat} (hcur : s.cur = 512 + g) (hg : g < 64) (hguard : s.cx.guard f.gp = true)
  {n off first count : Nat} (hn : tyBytes f.fn.toNat = n) (hoff : (s.cx.ra f.ra).toNat = off)
  (hfirst : (fld (s.cx.ra f.rb) 0 9).toNat = first) (hcount : (fld (s.cx.ra f.rb) 9 9).toNat + 1 = count)
  (hacc : first + count ≤ 512) (hstore : off + count * n ≤ 131072) (hal : off % n = 0) (hbad : (s.gal g).store.bad = [])
  (hpoolBad : (s.gal g).poolBad = [])
include hcur hg hguard hn hoff hfirst hcount hacc hstore hal hbad hpoolBad

/-- GPOOL with its checks passed. -/
theorem exec_gpool_core (h18 : fld (s.cx.ra f.rb) 18 14 = 0) (h48 : fld (s.cx.ra f.rb) 48 16 = 0) :
    exec (.gpool f) s = .next (pooled s g ((List.range count).foldl (accStep first
      (poolStep f.fn.toNat n off (decodeFloat tyB16 (fld (s.cx.ra f.rb) 32 16).toNat) (s.gal g).store.mem)) (s.gal g, 0))) := by
  have hparam : (fld (s.cx.ra f.rb) 18 14 != 0 || fld (s.cx.ra f.rb) 48 16 != 0 || decide (512 < first + count)) = false := by
    simp [h18, h48, hacc]
  have hlost : ((s.gal g).store.hitsBad (span off (count * n)) || (span first count).any (fun i => (s.gal g).poolBad.has i)) = false := by
    simp [hitsBad_of_clean hbad, hpoolBad, NatSet.has]
  rw [exec_gpool, execGpool, galOnly_core hcur hg]
  simp only [opGpool, hguard, myGal_of_core hcur, modMyGal_of_core hcur, hn, hoff, hfirst, hcount, hparam, hlost,
    if_neg (Nat.not_lt.2 hstore), hal]
  rfl

omit hg hbad in
/-- GPRND with its checks passed leaves its read-outs in the issue's buffer, and with CLR its accumulators empty (R362). -/
theorem opGprnd_ok {rm sm : Nat} (hrm : (fld (s.cx.ra f.rb) 18 3).toNat = rm) (hsm : (fld (s.cx.ra f.rb) 21 1).toNat = sm)
    (h23 : fld (s.cx.ra f.rb) 23 41 = 0) (hrm3 : rm ≤ 3) (hsmE4 : sm = 1 → f.fn.toNat = tyE4) (hbuf : s.cx.buf = {}) :
    opGprnd f s = .ok ((prndCleared s g ((s.cx.ra f.rb).getLsbD 22) first count).setCx (withStores s.cx
      [readOutStore g off n (fun j => (((s.gal g).acc (first + j)).read f.fn.toNat { rm := rm, sm := sm, u := 0 }).1) count])) := by
  have hparam : (fld (s.cx.ra f.rb) 23 41 != 0 || decide (512 < first + count) || decide (3 < rm) ||
      (sm == 1 && f.fn.toNat != tyE4)) = false := by
    simpa [h23, hacc, hrm3] using hsmE4
  have hlost : (span first count).any (fun i => (s.gal g).poolBad.has i) = false := by
    simp [hpoolBad, NatSet.has]
  simp only [opGprnd, hguard, myGal_of_core hcur, modMyGal_of_core hcur, hn, hoff, hfirst, hcount, hrm, hsm, hparam, hlost,
    if_neg (Nat.not_lt.2 hstore), hal]
  cases (s.cx.ra f.rb).getLsbD 22 with
  | false =>
    have hno : s.galNo = g := galNo_of_core hcur
    simp [prndCleared, modCx_eq, hbuf, withStores, readOutStore, hno]
  | true =>
    have hno (G : Gal) : (s.setGal g G).galNo = g := galNo_of_core hcur
    simp [prndCleared, emptied, modCx_eq, hbuf, withStores, readOutStore, hno]

end

/-- Element j of a concatenation of pieces of n. -/
theorem getElem?_flatMap_pieces {α β : Type} {F : α → List β} {n : Nat} (hlen : ∀ a, (F a).length = n) {k : Nat} (hk : k < n)
    (l : List α) (j : Nat) : (l.flatMap F)[j * n + k]? = l[j]?.bind fun a => (F a)[k]? := by
  induction l generalizing j with
  | nil => simp
  | cons a t ih =>
    rw [List.flatMap_cons]
    cases j with
    | zero => rw [Nat.zero_mul, Nat.zero_add, List.getElem?_append_left (by rw [hlen]; exact hk)]; rfl
    | succ j =>
      have hsub : (j + 1) * n + k - n = j * n + k := by rw [Nat.succ_mul]; omega
      rw [List.getElem?_append_right (by rw [hlen, Nat.succ_mul]; omega), hlen, hsub, ih, List.getElem?_cons_succ]

theorem length_readOuts (n : Nat) (v : Nat → Nat) (count : Nat) :
    ((List.range count).flatMap fun j => natToBytes (v j) n).length = count * n := by
  simp [List.length_flatMap, length_natToBytes]

/-- The bytes of a number, read back. -/
theorem little_of_bytes {m : Mem} {a v : Nat} (n : Nat) (h : ∀ k < n, m.read (a + k) = BitVec.ofNat 8 (v / 2 ^ (8 * k))) :
    little m a n = v % 2 ^ (8 * n) := by
  induction n generalizing a v with
  | zero => simp [little, Nat.mod_one]
  | succ n ih =>
    have hrest : little m (a + 1) n = v / 256 % 2 ^ (8 * n) := by
      refine ih fun k hk => ?_
      rw [Nat.add_assoc, Nat.add_comm 1 k, h (k + 1) (by omega), Nat.div_div_eq_div_mul, show 8 * (k + 1) = 8 + 8 * k by omega, pow_add]
      rfl
    have hfirst : (m.read a).toNat = v % 256 := by
      have h0 := h 0 (by omega)
      rw [Nat.add_zero] at h0
      simp [h0]
    rw [little_succ, hrest, hfirst, show 8 * (n + 1) = 8 + 8 * n by omega, pow_add]
    exact (Nat.mod_mul (x := v) (a := 256) (b := 2 ^ (8 * n))).symm

/-- The pad that holds the read-outs (R362). -/
theorem readOutStore_pad {p : Pad} (hclean : p.bad = []) (t g off n : Nat) (v : Nat → Nat) (count : Nat) :
    let q := storedPad t (readOutStore g off n v count) p
    (∀ j < count, little q.mem (off + j * n) n = v j % 2 ^ (8 * n)) ∧
    (∀ a, a < off ∨ off + count * n ≤ a → q.mem.read a = p.mem.read a) := by
  intro q
  have hmem (a : Nat) : q.mem.read a =
      if off ≤ a ∧ a < off + count * n then
        ((((List.range count).flatMap fun j => natToBytes (v j) n).map some)[a - off]?.getD none).getD (p.mem.read a)
      else p.mem.read a := by
    have hq : q.mem = p.mem.writeMasked off (((List.range count).flatMap fun j => natToBytes (v j) n).map some) := by
      simp [q, storedPad, readOutStore, Pad.write, hclean]
    rw [hq, read_writeMasked, List.length_map, length_readOuts]
  refine ⟨fun j hj => little_of_bytes n fun k hk => ?_, fun a ha => by rw [hmem, if_neg (by omega)]⟩
  have hend : j * n + k < count * n := by
    calc j * n + k < j * n + n := by omega
      _ = (j + 1) * n := (Nat.succ_mul j n).symm
      _ ≤ count * n := Nat.mul_le_mul_right n hj
  rw [hmem, if_pos (by omega), show off + j * n + k - off = j * n + k by omega, List.getElem?_map,
    getElem?_flatMap_pieces (fun j => length_natToBytes (v j) n) hk, List.getElem?_range hj]
  simp [natToBytes_eq_map, hk]

/-- What GPRND leaves of its core (R362). -/
theorem commit_readOuts {s : State} {g off n first count : Nat} {v : Nat → Nat} {clr : Bool} (hbuf : s.cx.buf = {}) (hstq : s.cx.stq = [])
    (hload : s.cx.loadUpTo s.cx.iss = false) (hbad : (s.gal g).store.bad = []) :
    let t := commit ((prndCleared s g clr first count).setCx (withStores s.cx [readOutStore g off n v count]))
    t.cx = issued s.cx ∧ t.mem = s.mem ∧
    (∀ j < count, little (t.gal g).store.mem (off + j * n) n = v j % 2 ^ (8 * n)) ∧
    (∀ a, a < off ∨ off + count * n ≤ a → (t.gal g).store.mem.read a = (s.gal g).store.mem.read a) ∧
    (∀ i, mapGet laEmpty (t.gal g).pool i =
      if clr = true ∧ first ≤ i ∧ i < first + count then laEmpty else mapGet laEmpty (s.gal g).pool i) := by
  obtain ⟨hmem, hstore, hpool⟩ := prndCleared_leaves s g clr first count
  generalize prndCleared s g clr first count = u at hmem hstore hpool ⊢
  intro t
  have hclean : StoresClean u [readOutStore g off n v count] := by
    intro o ho
    rw [List.mem_singleton.1 ho]
    exact (congrArg Pad.bad hstore).trans hbad
  have ht : t = (u.setPad (.gal g) (storedPad (tileOf u.cur) (readOutStore g off n v count) (u.gal g).store)).setCx (issued s.cx) := by
    simp only [t]
    rw [commit_withStores_performed hbuf hstq hload hclean, applyStores_cons (hclean _ (.head _))]
    rfl
  have hgal : t.gal g = { u.gal g with store := storedPad (tileOf u.cur) (readOutStore g off n v count) (s.gal g).store } := by
    rw [ht, gal_setCx, State.setPad, modGal_eq, gal_setGal_self, hstore]
  obtain ⟨hread, hkept⟩ := readOutStore_pad hbad (tileOf u.cur) g off n v count
  rw [hgal]
  exact ⟨by rw [ht, cx_setCx], by rw [ht]; exact hmem, hread, hkept, hpool⟩

section
variable {s : State} {f : ASn} {g : Nat} (hcur : s.cur = 512 + g) (hg : g < 64) (hguard : s.cx.guard f.gp = true)
  {n off first count : Nat} (hn : tyBytes f.fn.toNat = n) (hoff : (s.cx.ra f.ra).toNat = off)
  (hfirst : (fld (s.cx.ra f.rb) 0 9).toNat = first) (hcount : (fld (s.cx.ra f.rb) 9 9).toNat + 1 = count)
  (hacc : first + count ≤ 512) (hstore : off + count * n ≤ 131072) (hal : off % n = 0) (hbad : (s.gal g).store.bad = [])
  (hpoolBad : (s.gal g).poolBad = [])
include hcur hg hguard hn hoff hfirst hcount hacc hstore hal hbad hpoolBad

/-- What GPOOL leaves of its core (R361). -/
theorem gpool_leaves (h18 : fld (s.cx.ra f.rb) 18 14 = 0) (h48 : fld (s.cx.ra f.rb) 48 16 = 0) :
    ∃ t, exec (.gpool f) s = .next t ∧
      (∀ i, mapGet laEmpty (t.gal g).pool i =
        if first ≤ i ∧ i < first + count then
          (poolAdd ((s.gal g).acc i) (decodeFloat f.fn.toNat (little (s.gal g).store.mem (off + (i - first) * n) n))
            (decodeFloat tyB16 ((s.cx.ra f.rb).toNat / 2 ^ 32 % 2 ^ 16))).1.encode
        else mapGet laEmpty (s.gal g).pool i) ∧
      (t.gal g).store = (s.gal g).store ∧ t.cx.a = s.cx.a ∧ t.cx.crs = s.cx.crs ∧ t.mem = s.mem := by
  have hexec := exec_gpool_core hcur hg hguard hn hoff hfirst hcount hacc hstore hal hbad hpoolBad h18 h48
  obtain ⟨hkept, hpool⟩ := foldl_accStep (s.gal g) first
    (poolStep f.fn.toNat n off (decodeFloat tyB16 (fld (s.cx.ra f.rb) 32 16).toNat) (s.gal g).store.mem) count
  obtain ⟨hgal, ha, hcrs, hmem⟩ := pooled_leaves s g ((List.range count).foldl (accStep first
    (poolStep f.fn.toNat n off (decodeFloat tyB16 (fld (s.cx.ra f.rb) 32 16).toNat) (s.gal g).store.mem)) (s.gal g, 0))
  refine ⟨_, hexec, fun i => ?_, by rw [hgal, hkept], ha, hcrs, hmem⟩
  rw [hgal, hpool, poolStep, readLE_eq_little, toNat_fld]

/-- What GPRND leaves of its core (R362). -/
theorem gprnd_leaves {rm sm : Nat} (hrm : (fld (s.cx.ra f.rb) 18 3).toNat = rm) (hsm : (fld (s.cx.ra f.rb) 21 1).toNat = sm)
    (h23 : fld (s.cx.ra f.rb) 23 41 = 0) (hrm3 : rm ≤ 3) (hsmE4 : sm = 1 → f.fn.toNat = tyE4) (hbuf : s.cx.buf = {})
    (hstq : s.cx.stq = []) (hload : s.cx.loadUpTo s.cx.iss = false) :
    ∃ t, exec (.gprnd f) s = .next t ∧ t.cx = issued s.cx ∧ t.mem = s.mem ∧
      (∀ j < count, little (t.gal g).store.mem (off + j * n) n =
        (((s.gal g).acc (first + j)).read f.fn.toNat { rm := rm, sm := sm, u := 0 }).1 % 2 ^ (8 * n)) ∧
      (∀ a, a < off ∨ off + count * n ≤ a → (t.gal g).store.mem.read a = (s.gal g).store.mem.read a) ∧
      (∀ i, mapGet laEmpty (t.gal g).pool i =
        if (s.cx.ra f.rb).getLsbD 22 = true ∧ first ≤ i ∧ i < first + count then laEmpty
        else mapGet laEmpty (s.gal g).pool i) := by
  have hop := opGprnd_ok hcur hguard hn hoff hfirst hcount hacc hstore hal hpoolBad hrm hsm h23 hrm3 hsmE4 hbuf
  refine ⟨_, ?_, commit_readOuts hbuf hstq hload hbad⟩
  rw [exec_gprnd, execGprnd, galOnly_core hcur hg, hop, finishHold_ok]

end

/-- R361, R362: GPOOL and GPRND. -/
theorem poolResults : PoolResults := by
  intro s f g hcur hg hguard hbuf hstq hload G ty n off b first count hty hacc hstore hal hbad hpoolBad
  have hfirst : (fld (s.cx.ra f.rb) 0 9).toNat = first := (toNat_fld _ 0 9).trans (by rw [Nat.pow_zero, Nat.div_one]; rfl)
  have hcount : (fld (s.cx.ra f.rb) 9 9).toNat + 1 = count := congrArg (· + 1) (toNat_fld _ 9 9)
  refine ⟨fun _ h18 h48 => ?_, fun hrm h23 hsm => ?_⟩
  · have h48' : b / 2 ^ 48 % 2 ^ 16 = 0 := by omega
    exact gpool_leaves (n := n) (off := off) hcur hg hguard rfl rfl hfirst hcount hacc hstore hal hbad hpoolBad (fld_eq_zero h18)
      (fld_eq_zero h48')
  · have h23' : b / 2 ^ 23 % 2 ^ 41 = 0 := by omega
    have hclr : (s.cx.ra f.rb).getLsbD 22 = true ↔ b / 2 ^ 22 % 2 = 1 := by
      rw [BitVec.getLsbD, Nat.testBit_eq_decide_div_mod_eq, decide_eq_true_iff]
    have hleaves := gprnd_leaves (n := n) (off := off) hcur hg hguard rfl rfl hfirst hcount hacc hstore hal hbad hpoolBad
      (toNat_fld _ 18 3) (toNat_fld _ 21 1) (fld_eq_zero h23') hrm hsm hbuf hstq hload
    simp only [hclr] at hleaves
    exact hleaves

/-! ### Gallery operations on a tile (R54, R355) -/

/-- R54, R355. -/
theorem galleryOnlyOnCores : GalleryOnlyOnCores := by
  intro s htile t
  refine ⟨fun f => ⟨?_, ?_, ?_, ?_⟩, fun f => ⟨?_, ?_, ?_, ?_⟩, fun f => ⟨?_, ?_, ?_⟩, fun f => ?_, fun f => ?_, fun f => ⟨?_, ?_⟩⟩
  all_goals exact galOnly_tile htile _

/-- Settles O6: the operations of the gallery cores, and their trap on a tile. -/
theorem galleryOperations : Obligations.GalleryOperations :=
  ⟨packetRequests, tagResults, binAndDedupResults, poolResults, galleryOnlyOnCores⟩

end Sys2Proof.Laws

/-! ## Lane-wise operations of the V slot (R127, R130 to R132) -/

namespace Sys2Proof.Laws
open Sys2Proof.Machine

/-! ### Delivery of lanes (R91, R127) -/

/-- The flags of some lane codes put together are those of all of them. -/
theorem packLanes_flags_testBit (w : Nat) (l : List (Nat × Coded)) (j : Nat) :
    (packLanes w l).2.testBit j = decide (∃ e ∈ l, e.2.2.testBit j = true) := by
  induction l with
  | nil => simp [packLanes]
  | cons e t ih =>
    rw [packLanes, Nat.testBit_or, ih, Bool.eq_iff_iff]
    simp [or_comm]

/-- The result of lanes `l` of width `w` for register `vd`, `L` positions on. -/
def lanesPend (c : Ctx) (vd L w : Nat) (l : List (Nat × Coded)) : Pend :=
  { dst := .v vd, val := BitVec.ofNat 512 (packLanes w l).1, mask := BitVec.ofNat 512 (laneMask w (l.map (·.1)))
    pos := c.now + L, slot := 1, flags := (packLanes w l).2 }

theorem vDeliver_of_ne_nil {l : List (Nat × Coded)} (h : l ≠ []) (vd L w : Nat) (s : State) :
    vDeliver vd L w l s = s.setCx (s.cx.push (lanesPend s.cx vd L w l)) := by
  rw [vDeliver, if_neg (by simpa using h)]
  rfl

/-- The code `c` stands for `v` in a lane of width `w`, and its making sets the flags `fl`. -/
def LaneCode (w : Nat) (c : Coded) (v fl : Nat) : Prop := c.1 % 2 ^ w = v % 2 ^ w ∧ c.2 = fl

theorem laneCode_of_eq {w v fl : Nat} {c : Coded} (h : c = (v, fl)) : LaneCode w c v fl := by
  subst h
  exact ⟨rfl, rfl⟩

/-- An operation whose active lanes get the codes `g` delivers the values and flags that the codes stand for. -/
theorem deliversLanes_of_vDeliver {s : State} {i : Instr} {vd : BitVec 9} {vm : BitVec 4} {t L : Nat} {g : Nat → Coded}
    {v fl : Nat → Nat} (hw : 0 < tyWidth t)
    (hexec : exec i s = .next (vDeliver vd.toNat L (tyWidth t) ((s.cx.lanes vm (512 / tyWidth t)).map fun k => (k, g k)) s))
    (hcode : ∀ k, LaneCode (tyWidth t) (g k) (v k) (fl k)) :
    DeliversLanes s i vd (tyWidth t) L (fun k => (s.cx.rvm vm.toNat).getLsbD k) v fl := by
  let codes := (s.cx.lanes vm (512 / tyWidth t)).map fun k => (k, g k)
  have hlanes : codes.map (·.1) = s.cx.lanes vm (512 / tyWidth t) := by simp [codes, Function.comp_def]
  constructor
  · intro hoff
    rw [hexec, lanes_eq_nil hoff]
    rfl
  · intro hon
    have hne : codes ≠ [] := by simpa [codes] using lanes_ne_nil hon
    refine ⟨lanesPend s.cx vd.toNat L (tyWidth t) codes, ?_, rfl, rfl, rfl, rfl, rfl, rfl, rfl, fun k hk hact => ?_, fun b hb => ?_,
      fun j => ?_⟩
    · rw [hexec, vDeliver_of_ne_nil hne]
    · have hmem : (k, g k) ∈ codes := List.mem_map_of_mem (mem_lanes.mpr ⟨hk, hact⟩)
      rw [lanesPend, laneOf_packLanes (fits_of_lane_lt hw hk) (hlanes ▸ lanes_nodup ..) hmem, (hcode k).1]
    · rw [lanesPend, hlanes]
      exact loadMask_getLsbD hw hb
    · rw [lanesPend, packLanes_flags_testBit, decide_eq_decide]
      simp [codes, mem_lanes, and_assoc, (hcode _).2]

/-! ### Operands (R37, R127) -/

theorem tyWidth_pos {t : Nat} (h : t ≤ 13) : 0 < tyWidth t := by
  interval_cases t <;> decide

theorem laneOf_lt (x : W512) (w k : Nat) : laneOf x w k < 2 ^ w := Nat.mod_lt _ (Nat.two_pow_pos w)

theorem vbOf_lt (f : VR) (c : Ctx) (w k : Nat) : vbOf f c w k < 2 ^ w := by
  unfold vbOf
  split
  · exact Nat.mod_lt _ (Nat.two_pow_pos w)
  · exact laneOf_lt ..

/-- Below 64 bits the sign extension of the extension does not show (R37). -/
theorem extLane_eq {w : Nat} (h : w ≤ 32 ∨ w = 64) (e : W32) : extLane w e = (e.signExtend 64).toNat % 2 ^ w := by
  unfold extLane
  split
  · next h64 => rw [h64, Nat.mod_eq_of_lt (BitVec.isLt _)]
  · have hdvd : 2 ^ w ∣ 2 ^ 32 := Nat.pow_dvd_pow 2 (by omega)
    have hlow : (e.signExtend 64).toNat % 2 ^ 32 = e.toNat := by
      have he := e.isLt
      rw [BitVec.toNat_signExtend, BitVec.toNat_setWidth]
      split <;> omega
    rw [← hlow, Nat.mod_mod_of_dvd _ hdvd]

theorem vbLane_eq_vbOf {t : Nat} (h : t ≤ 13) (f : VR) (c : Ctx) (k : Nat) : vbLane f c (tyWidth t) k = vbOf f c (tyWidth t) k := by
  have hw : tyWidth t ≤ 32 ∨ tyWidth t = 64 := by interval_cases t <;> decide
  cases hext : f.ext with
  | some e =>
    simp only [vbLane, vbOf, hext]
    exact extLane_eq hw e
  | none =>
    simp only [vbLane, vbOf, hext]
    exact lane_eq_laneOf ..

/-- An element-wise operation delivers what the codes of its lanes stand for (R130). -/
theorem elementwise_delivers {s : State} {i : Instr} {f : VR} {L : Nat} {g : Rnd → Nat → Nat → Nat → Coded} {v fl : Nat → Nat}
    (hty : f.ty.toNat ≤ 13) (hexec : exec i s = finish s (elementwise f L g s))
    (hcode : ∀ k, LaneCode (tyWidth f.ty.toNat)
      (g (s.cx.rnd f.rm.toNat f.sm.toNat k) (laneOf (s.cx.rv f.va.toNat) (tyWidth f.ty.toNat) k) (vbOf f s.cx (tyWidth f.ty.toNat) k)
        (laneOf (s.cx.rv f.vc.toNat) (tyWidth f.ty.toNat) k)) (v k) (fl k)) :
    DeliversLanes s i f.vd (tyWidth f.ty.toNat) L (fun k => (s.cx.rvm f.vm.toNat).getLsbD k) v fl := by
  refine deliversLanes_of_vDeliver (tyWidth_pos hty) (hexec.trans ?_) hcode
  simp only [elementwise, finish_ok, lane_eq_laneOf, vbLane_eq_vbOf hty]

/-! ### Exact integers of a lane (R64, R130) -/

/-- The exact integer of a lane, as its type reads it. -/
def laneInt (t x : Nat) : Int := if t ≤ 9 then sext x (tyWidth t) else (x : Int)

theorem isFP_of_le {t : Nat} (h : t ≤ 2) : isFP t = true := decide_eq_true h

theorem isFP_of_int {t : Nat} (h : 6 ≤ t) : isFP t = false := decide_eq_false (by omega)

theorem isSigned_of_int {t : Nat} (h : 6 ≤ t) : isSigned t = decide (t ≤ 9) := by
  rw [isSigned, decide_eq_true h, Bool.true_and]

theorem wrapInt_sub_two_pow (x : Int) (w : Nat) : wrapInt (x - 2 ^ w) w = wrapInt x w := by
  rw [wrapInt, wrapInt, Int.sub_emod_right]

theorem wrapInt_natCast (x w : Nat) : wrapInt x w = x % 2 ^ w := by
  have hcast : (x : Int) % 2 ^ w = (x % 2 ^ w : Nat) := by push_cast; rfl
  rw [wrapInt, hcast, Int.toNat_natCast]

theorem wrapInt_neg_one (w : Nat) : wrapInt (-1) w = 2 ^ w - 1 := by
  have hpos := Nat.two_pow_pos w
  have hcast : ((2 ^ w - 1 : Nat) : Int) - 2 ^ w = -1 := by push_cast [Nat.one_le_two_pow]; ring
  rw [← hcast, wrapInt_sub_two_pow, wrapInt_natCast, Nat.mod_eq_of_lt (by omega)]

/-- Sign extension keeps the pattern. -/
theorem wrapInt_sext (x w : Nat) : wrapInt (sext x w) w = x % 2 ^ w := by
  have hwrap : wrapInt (x % 2 ^ w : Nat) w = x % 2 ^ w := by rw [wrapInt_natCast, Nat.mod_mod]
  unfold sext
  dsimp only
  split
  · rw [wrapInt_sub_two_pow, hwrap]
  · exact hwrap

theorem sext_of_lt {w x : Nat} (hw : 0 < w) (hx : x < 2 ^ w) : sext x w = if 2 ^ (w - 1) ≤ x then (x : Int) - 2 ^ w else x := by
  have hne : w ≠ 0 := by omega
  simp only [sext, Nat.mod_eq_of_lt hx, hne, ne_eq, not_false_eq_true, true_and]

/-- The least integer of a type (R64). -/
def laneMin (t : Nat) : Int := if t ≤ 9 then -2 ^ (tyWidth t - 1) else 0

/-- The greatest integer of a type (R64). -/
def laneMax (t : Nat) : Int := if t ≤ 9 then 2 ^ (tyWidth t - 1) - 1 else 2 ^ tyWidth t - 1

theorem satCode_eq {t : Nat} (ht : 6 ≤ t) (v : Int) :
    satCode t v = wrapInt (max (laneMin t) (min (laneMax t) v)) (tyWidth t) := by
  simp only [satCode, intMin, intMax, laneMin, laneMax, isSigned_of_int ht, decide_eq_true_eq]

theorem intOut_eq {t : Nat} (ht : 6 ≤ t) (fn : BitVec 6) (v : Int) :
    intOut t fn.toNat v = (wrapInt (if fn = 1 then max (laneMin t) (min (laneMax t) v) else v) (tyWidth t), 0) := by
  have hfn : fn.toNat = 1 ↔ fn = 1 := by rw [BitVec.toNat_eq]; rfl
  simp only [intOut, hfn]
  split
  · rw [satCode_eq ht]
  · rfl

section
variable {t a b : Nat}

theorem intVal_eq_laneInt (ht : 6 ≤ t) (ha : a < 2 ^ tyWidth t) : intVal t a = laneInt t a := by
  simp only [intVal, laneInt, isSigned_of_int ht, decide_eq_true_eq, Nat.mod_eq_of_lt ha]

theorem wrapInt_laneInt (ha : a < 2 ^ tyWidth t) : wrapInt (laneInt t a) (tyWidth t) = a := by
  unfold laneInt
  split
  · rw [wrapInt_sext, Nat.mod_eq_of_lt ha]
  · rw [wrapInt_natCast, Nat.mod_eq_of_lt ha]

/-! ### Lane results on integers (R131, R132) -/

variable (ht : 6 ≤ t) (ha : a < 2 ^ tyWidth t) (hb : b < 2 ^ tyWidth t)
include ht ha

theorem lAbs_int : lAbs t a = (wrapInt (laneInt t a).natAbs (tyWidth t), 0) := by
  simp [lAbs, isFP_of_int ht, wrapCode, intVal_eq_laneInt ht ha]

theorem lNeg_int : lNeg t a = (wrapInt (-laneInt t a) (tyWidth t), 0) := by
  simp [lNeg, isFP_of_int ht, wrapCode, intVal_eq_laneInt ht ha]

include hb

theorem lAdd_int (fn : BitVec 6) (r : Rnd) :
    lAdd t fn.toNat r a b = (wrapInt (if fn = 1 then max (laneMin t) (min (laneMax t) (laneInt t a + laneInt t b))
      else laneInt t a + laneInt t b) (tyWidth t), 0) := by
  simp [lAdd, isFP_of_int ht, intVal_eq_laneInt ht ha, intVal_eq_laneInt ht hb, intOut_eq ht]

theorem lSub_int (fn : BitVec 6) (r : Rnd) :
    lSub t fn.toNat r a b = (wrapInt (if fn = 1 then max (laneMin t) (min (laneMax t) (laneInt t a - laneInt t b))
      else laneInt t a - laneInt t b) (tyWidth t), 0) := by
  simp [lSub, isFP_of_int ht, intVal_eq_laneInt ht ha, intVal_eq_laneInt ht hb, intOut_eq ht]

theorem lMul_int (r : Rnd) : lMul t r a b = (wrapInt (laneInt t a * laneInt t b) (tyWidth t), 0) := by
  simp [lMul, isFP_of_int ht, wrapCode, intVal_eq_laneInt ht ha, intVal_eq_laneInt ht hb]

theorem lAbsd_int (r : Rnd) : lAbsd t r a b = (wrapInt (laneInt t a - laneInt t b).natAbs (tyWidth t), 0) := by
  rw [wrapInt_natCast, lAbsd, isFP_of_int ht, intVal_eq_laneInt ht ha, intVal_eq_laneInt ht hb]
  rfl

theorem lMinMax_min_int : lMinMax false t a b = (wrapInt (min (laneInt t a) (laneInt t b)) (tyWidth t), 0) := by
  simp only [lMinMax, isFP_of_int ht, intVal_eq_laneInt ht ha, intVal_eq_laneInt ht hb, Bool.false_eq_true, if_false, decide_eq_true_eq]
  split
  · next hlt => rw [min_eq_right hlt.le, wrapInt_laneInt hb]
  · next hle => rw [min_eq_left (not_lt.mp hle), wrapInt_laneInt ha]

theorem lMinMax_max_int : lMinMax true t a b = (wrapInt (max (laneInt t a) (laneInt t b)) (tyWidth t), 0) := by
  simp only [lMinMax, isFP_of_int ht, intVal_eq_laneInt ht ha, intVal_eq_laneInt ht hb, Bool.false_eq_true, if_false, if_true,
    decide_eq_true_eq]
  split
  · next hlt => rw [max_eq_right hlt.le, wrapInt_laneInt hb]
  · next hle => rw [max_eq_left (not_lt.mp hle), wrapInt_laneInt ha]

end

/-- The relations of VCMP on exact integers (R132). -/
def intRel (fn : Nat) (x y : Int) : Bool :=
  match fn with
  | 0 => decide (x = y)
  | 1 => decide (x ≠ y)
  | 2 => decide (x < y)
  | 3 => decide (x ≤ y)
  | 4 => decide (x > y)
  | 5 => decide (x ≥ y)
  | _ => false

theorem relHolds_compare : ∀ (fn : Nat) (x y : Int), relHolds fn (compare x y) = intRel fn x y
  | 0, x, y => by rw [relHolds, intRel, Bool.eq_iff_iff, beq_iff_eq, decide_eq_true_iff, compare_eq_iff_eq]
  | 1, x, y => by rw [relHolds, intRel, Bool.eq_iff_iff, bne_iff_ne, decide_eq_true_iff, ne_eq, compare_eq_iff_eq]
  | 2, x, y => by rw [relHolds, intRel, Bool.eq_iff_iff, beq_iff_eq, decide_eq_true_iff, compare_lt_iff_lt]
  | 3, x, y => by rw [relHolds, intRel, Bool.eq_iff_iff, bne_iff_ne, decide_eq_true_iff, compare_le_iff_le]
  | 4, x, y => by rw [relHolds, intRel, Bool.eq_iff_iff, beq_iff_eq, decide_eq_true_iff, compare_gt_iff_gt]
  | 5, x, y => by rw [relHolds, intRel, Bool.eq_iff_iff, bne_iff_ne, decide_eq_true_iff, compare_ge_iff_ge]
  | _ + 6, _, _ => rfl

theorem lCmp_int {t a b : Nat} (ht : 6 ≤ t) (ha : a < 2 ^ tyWidth t) (hb : b < 2 ^ tyWidth t) (fn : Nat) :
    lCmp t fn a b = (if intRel fn (laneInt t a) (laneInt t b) = true then 2 ^ tyWidth t - 1 else 0, 0) := by
  simp [lCmp, isFP_of_int ht, intVal_eq_laneInt ht ha, intVal_eq_laneInt ht hb, relHolds_compare]

/-! ### Bit patterns of a lane (R131) -/

/-- The bits of `x` are those it shares with `y` and those it does not. -/
theorem and_add_and_compl {w : Nat} (x y : BitVec w) : (x &&& y) + (x &&& ~~~y) = x := by
  have hdisjoint : (x &&& y) &&& (x &&& ~~~y) = 0#w := by
    ext i hi
    simp only [BitVec.getElem_and, BitVec.getElem_not, BitVec.getElem_zero]
    cases y[i] <;> simp
  rw [BitVec.add_eq_or_of_and_eq_zero _ _ hdisjoint, ← BitVec.and_or_distrib_left, BitVec.or_not_self, BitVec.and_allOnes]

/-- Taking the common bits away is masking by the complement. -/
theorem sub_and_eq_and_compl {w a b : Nat} (ha : a < 2 ^ w) (hb : b < 2 ^ w) : a - (a &&& b) = a &&& (2 ^ w - 1 - b) := by
  let x := BitVec.ofNat w a
  let y := BitVec.ofNat w b
  have hle : x &&& y ≤ x := Nat.and_le_left
  have hdiff : x - (x &&& y) = x &&& ~~~y := (eq_sub_of_add_eq' (and_add_and_compl x y)).symm
  have hnat := congrArg BitVec.toNat hdiff
  rw [BitVec.toNat_sub_of_le hle, BitVec.toNat_and, BitVec.toNat_and, BitVec.toNat_not, BitVec.toNat_ofNat, BitVec.toNat_ofNat,
    Nat.mod_eq_of_lt ha, Nat.mod_eq_of_lt hb] at hnat
  exact hnat

/-- Shifted right until its sign alone is left, a pattern is −1 or 0. -/
theorem sext_div_sign {w a : Nat} (hw : 0 < w) (ha : a < 2 ^ w) : sext a w / 2 ^ (w - 1) = if 2 ^ (w - 1) ≤ a then -1 else 0 := by
  have hpow : (2 : Int) ^ w = 2 * 2 ^ (w - 1) := by rw [← pow_succ', Nat.sub_add_cancel hw]
  have hpos : (0 : Int) < 2 ^ (w - 1) := by positivity
  have ha' : (a : Int) < 2 ^ w := by exact_mod_cast ha
  rw [sext_of_lt hw ha, hpow]
  split
  · next hneg =>
    have hneg' : (2 : Int) ^ (w - 1) ≤ a := by exact_mod_cast hneg
    rw [Int.ediv_eq_iff_of_pos hpos]
    constructor <;> omega
  · next hsmall =>
    have hsmall' : (a : Int) < 2 ^ (w - 1) := by exact_mod_cast not_le.mp hsmall
    exact Int.ediv_eq_zero_of_lt (Int.natCast_nonneg a) hsmall'

theorem popcN_eq_countP (a w : Nat) : popcN a w = (List.range w).countP (fun j => a.testBit j) := by
  induction w with
  | zero => rfl
  | succ n ih =>
    rw [popcN, ih, List.range_succ, List.countP_append, List.countP_singleton, Nat.testBit_eq_decide_div_mod_eq, Nat.add_comm]
    simp only [decide_eq_true_eq]
    split <;> omega

/-- The top bit of a number of n + 1 bits. -/
theorem top_bit_iff {n a : Nat} (ha : a < 2 ^ (n + 1)) : a / 2 ^ n % 2 = 1 ↔ 2 ^ n ≤ a := by
  have hlt : a / 2 ^ n < 2 := by rwa [Nat.div_lt_iff_lt_mul (Nat.two_pow_pos n), ← Nat.pow_succ']
  rw [Nat.mod_eq_of_lt hlt, ← Nat.one_le_div_iff (Nat.two_pow_pos n)]
  omega

theorem bitOf_top {n a : Nat} (ha : a < 2 ^ (n + 1)) : bitOf a n = decide (2 ^ n ≤ a) := by
  rw [bitOf, Bool.eq_iff_iff, beq_iff_eq, decide_eq_true_iff, top_bit_iff ha]

theorem clzN_eq_log2 {a w : Nat} (ha : a < 2 ^ w) : clzN a w = if a = 0 then w else w - 1 - Nat.log2 a := by
  induction w with
  | zero =>
    have hzero : a = 0 := by simpa using ha
    simp [clzN, hzero]
  | succ n ih =>
    rw [clzN]
    simp only [top_bit_iff ha]
    split
    · next hbit =>
      have hne : a ≠ 0 := by have := Nat.two_pow_pos n; omega
      rw [if_neg hne, (Nat.log2_eq_iff hne).mpr ⟨hbit, ha⟩]
      omega
    · next hbit =>
      rw [ih (not_le.mp hbit)]
      split
      · omega
      · next hne =>
        have hlog := (Nat.log2_lt hne).mpr (not_le.mp hbit)
        omega

theorem lShift_left (t a b : Nat) :
    LaneCode (tyWidth t) (lShift 0 t a b) (if tyWidth t ≤ b then 0 else a * 2 ^ b) 0 := by
  unfold lShift
  dsimp only
  split
  · exact laneCode_of_eq (by simp)
  · exact ⟨Nat.mod_mod _ _, rfl⟩

theorem lShift_right (t a b : Nat) : lShift 1 t a b = (if tyWidth t ≤ b then 0 else a / 2 ^ b, 0) := by
  unfold lShift
  dsimp only
  split
  · simp
  · rfl

theorem lShift_arith {t a : Nat} (hw : 0 < tyWidth t) (ha : a < 2 ^ tyWidth t) (b : Nat) :
    lShift 2 t a b = (wrapInt (sext a (tyWidth t) / 2 ^ min b (tyWidth t - 1)) (tyWidth t), 0) := by
  have hsign : bitOf a (tyWidth t - 1) = decide (2 ^ (tyWidth t - 1) ≤ a) := bitOf_top (by rwa [Nat.sub_add_cancel hw])
  simp only [lShift, hsign, decide_eq_true_eq, true_and]
  split
  · next hlong =>
    rw [min_eq_right (by omega), sext_div_sign hw ha]
    split
    · rw [wrapInt_neg_one]
    · simp [wrapInt]
  · next hshort => rw [min_eq_left (by omega)]

/-! ### Lane results on F32, F16 and B16 (R131) -/

section
variable {t : Nat} (ht : t ≤ 2)
include ht

theorem lAdd_fp (fn : Nat) (r : Rnd) (a b : Nat) : lAdd t fn r a b = fAdd t r (decodeFloat t a) (decodeFloat t b) := by
  rw [lAdd, if_pos (isFP_of_le ht)]

theorem lSub_fp (fn : Nat) (r : Rnd) (a b : Nat) : lSub t fn r a b = fAdd t r (decodeFloat t a) (decodeFloat t b).flip := by
  rw [lSub, if_pos (isFP_of_le ht)]

theorem lMul_fp (r : Rnd) (a b : Nat) : lMul t r a b = fMul t r (decodeFloat t a) (decodeFloat t b) := by
  rw [lMul, if_pos (isFP_of_le ht)]

theorem lAbs_fp (a : Nat) : lAbs t a = (a % 2 ^ (tyWidth t - 1), 0) := by
  rw [lAbs, if_pos (isFP_of_le ht)]

theorem manW_add_expW : manW t + expW t = tyWidth t - 1 := by
  interval_cases t <;> rfl

end

theorem two_pow_xor_of_lt {m a : Nat} (ha : a < 2 ^ m) : 2 ^ m ^^^ a = 2 ^ m + a := by
  have hor := Nat.two_pow_add_eq_or_of_lt ha 1
  rw [Nat.mul_one] at hor
  rw [hor]
  refine Nat.eq_of_testBit_eq fun i => ?_
  rw [Nat.testBit_xor, Nat.testBit_or, Nat.testBit_two_pow]
  by_cases hi : m = i
  · subst hi
    rw [Nat.testBit_lt_two_pow ha]
    simp
  · simp [hi]

/-- The sign changes alone (R131). -/
theorem xor_two_pow {m a : Nat} (ha : a < 2 ^ (m + 1)) : a ^^^ 2 ^ m = if a < 2 ^ m then a + 2 ^ m else a - 2 ^ m := by
  split
  · next hlt => rw [Nat.xor_comm, two_pow_xor_of_lt hlt, Nat.add_comm]
  · next hle =>
    have hrest : a - 2 ^ m < 2 ^ m := by omega
    have hsum : a = 2 ^ m ^^^ (a - 2 ^ m) := by rw [two_pow_xor_of_lt hrest]; omega
    conv_lhs => rw [hsum, Nat.xor_comm, ← Nat.xor_assoc, Nat.xor_self, Nat.zero_xor]

theorem lNeg_fp {t a : Nat} (ht : t ≤ 2) (ha : a < 2 ^ tyWidth t) :
    lNeg t a = (if a < 2 ^ (tyWidth t - 1) then a + 2 ^ (tyWidth t - 1) else a - 2 ^ (tyWidth t - 1), 0) := by
  have hw := tyWidth_pos (t := t) (by omega)
  rw [lNeg, if_pos (isFP_of_le ht), xor_two_pow (by rwa [Nat.sub_add_cancel hw])]

theorem ne_tyE4 {t : Nat} (ht : t ≤ 2) : t ≠ tyE4 := by
  rintro rfl
  exact absurd ht (by decide)

/-- A NaN is signalling where the top bit of its mantissa is 0 (R62). -/
theorem isSig_eq {t M : Nat} (ht : t ≤ 2) (hM : M < 2 ^ manW t) : isSig t M = decide (M < 2 ^ (manW t - 1)) := by
  have hman : manW t - 1 + 1 = manW t := by interval_cases t <;> rfl
  rw [isSig, bitOf_top (by rwa [hman]), bne_iff_ne.mpr (ne_tyE4 ht), Bool.true_and, ← decide_not, decide_eq_decide, not_le]

/-- The classes of VCLASS by the fields of a code (R131). -/
theorem lClass_fields {t a : Nat} (ht : t ≤ 2) (ha : a < 2 ^ tyWidth t) :
    lClass t a =
      (let E := a / 2 ^ manW t % 2 ^ expW t
       let M := a % 2 ^ manW t
       let neg := decide (2 ^ (tyWidth t - 1) ≤ a)
       if E = eMax t then (if M = 0 then (if neg then 1 else 2 ^ 7) else if M < 2 ^ (manW t - 1) then 2 ^ 8 else 2 ^ 9)
       else if E = 0 then (if M = 0 then (if neg then 2 ^ 3 else 2 ^ 4) else if neg then 2 ^ 2 else 2 ^ 5)
       else if neg then 2 else 2 ^ 6, 0) := by
  have hw := tyWidth_pos (t := t) (by omega)
  have hsign : bitOf a (manW t + expW t) = decide (2 ^ (tyWidth t - 1) ≤ a) := by
    rw [manW_add_expW ht, bitOf_top (by rwa [Nat.sub_add_cancel hw])]
  have hsig := isSig_eq ht (Nat.mod_lt a (Nat.two_pow_pos (manW t)))
  have hmax : eMax t ≠ 0 := by interval_cases t <;> decide
  by_cases hzero : a / 2 ^ manW t % 2 ^ expW t = 0
  · simp [lClass, decodeFloat, hsign, hzero, hmax.symm]
  by_cases hE : a / 2 ^ manW t % 2 ^ expW t = eMax t
  · by_cases hM : a % 2 ^ manW t = 0
    · simp [lClass, decodeFloat, hsign, hE, hmax, ne_tyE4 ht, hM]
    · simp [lClass, decodeFloat, hE, hmax, ne_tyE4 ht, hM, hsig]
  · simp [lClass, decodeFloat, hsign, hzero, hE]

/-! ### What the lane-wise operations deliver -/

/-- R130 to R132, on integers. -/
theorem vectorIntegerResults : VectorIntegerResults := by
  intro s f h6 h13 c w iv lo hi sat a b x on lanes out
  have ha : ∀ k, a k < 2 ^ w := fun k => laneOf_lt ..
  have hb : ∀ k, b k < 2 ^ w := fun k => vbOf_lt ..
  have hx : ∀ k, x k < 2 ^ w := fun k => laneOf_lt ..
  have hw : 0 < w := tyWidth_pos h13
  exact ⟨elementwise_delivers h13 (exec_vadd f s) fun k => laneCode_of_eq (lAdd_int h6 (ha k) (hb k) _ _),
    elementwise_delivers h13 (exec_vsub f s) fun k => laneCode_of_eq (lSub_int h6 (ha k) (hb k) _ _),
    elementwise_delivers h13 (exec_vmul f s) fun k => laneCode_of_eq (lMul_int h6 (ha k) (hb k) _),
    elementwise_delivers h13 (exec_vmaddi f s) fun k => laneCode_of_eq (by
      rw [wrapCode, intVal_eq_laneInt h6 (hx k), intVal_eq_laneInt h6 (ha k), intVal_eq_laneInt h6 (hb k)]; rfl),
    elementwise_delivers h13 (exec_vmin f s) fun k => laneCode_of_eq (lMinMax_min_int h6 (ha k) (hb k)),
    elementwise_delivers h13 (exec_vmax f s) fun k => laneCode_of_eq (lMinMax_max_int h6 (ha k) (hb k)),
    elementwise_delivers h13 (exec_vabs f s) fun k => laneCode_of_eq (lAbs_int h6 (ha k)),
    elementwise_delivers h13 (exec_vneg f s) fun k => laneCode_of_eq (lNeg_int h6 (ha k)),
    elementwise_delivers h13 (exec_vabsd f s) fun k => laneCode_of_eq (lAbsd_int h6 (ha k) (hb k) _),
    elementwise_delivers h13 (exec_vand f s) fun k => laneCode_of_eq rfl,
    elementwise_delivers h13 (exec_vor f s) fun k => laneCode_of_eq rfl,
    elementwise_delivers h13 (exec_vxor f s) fun k => laneCode_of_eq rfl,
    elementwise_delivers h13 (exec_vandn f s) fun k => laneCode_of_eq (by rw [sub_and_eq_and_compl (ha k) (hb k)]),
    elementwise_delivers h13 (exec_vshl f s) fun k => lShift_left ..,
    elementwise_delivers h13 (exec_vshr f s) fun k => laneCode_of_eq (lShift_right ..),
    elementwise_delivers h13 (exec_vsra f s) fun k => laneCode_of_eq (lShift_arith hw (ha k) _),
    elementwise_delivers h13 (exec_vpopc f s) fun k => laneCode_of_eq (by rw [popcN_eq_countP]),
    elementwise_delivers h13 (exec_vclz f s) fun k => laneCode_of_eq (by rw [clzN_eq_log2 (ha k)]),
    elementwise_delivers h13 (exec_vcmp f s) fun k => laneCode_of_eq (lCmp_int h6 (ha k) (hb k) _),
    elementwise_delivers h13 (exec_vsel f s) fun k => laneCode_of_eq rfl,
    elementwise_delivers h13 (exec_vmov f s) fun k => laneCode_of_eq rfl,
    deliversLanes_of_vDeliver hw (exec_viota f s) fun k => ⟨Nat.mod_mod _ _, rfl⟩⟩

/-- R130 to R132, R69, R79, on F32, F16 and B16. -/
theorem vectorFloatResults : VectorFloatResults := by
  intro s f ht c t w a b A B X r on sgn lanes
  have hty : f.ty.toNat ≤ 13 := by omega
  have ha : ∀ k, a k < 2 ^ w := fun k => laneOf_lt ..
  exact ⟨elementwise_delivers hty (exec_vadd f s) fun k => laneCode_of_eq (lAdd_fp ht ..),
    elementwise_delivers hty (exec_vsub f s) fun k => laneCode_of_eq (lSub_fp ht ..),
    elementwise_delivers hty (exec_vmul f s) fun k => laneCode_of_eq (lMul_fp ht ..),
    elementwise_delivers hty (exec_vfma f s) fun k => laneCode_of_eq rfl,
    elementwise_delivers hty (exec_vfms f s) fun k => laneCode_of_eq rfl,
    elementwise_delivers hty (exec_vfnma f s) fun k => laneCode_of_eq rfl,
    elementwise_delivers hty (exec_vrcp f s) fun k => laneCode_of_eq rfl,
    elementwise_delivers hty (exec_vrsq f s) fun k => laneCode_of_eq rfl,
    elementwise_delivers hty (exec_vscale f s) fun k => laneCode_of_eq rfl,
    elementwise_delivers hty (exec_vabsd f s) fun k => laneCode_of_eq rfl,
    elementwise_delivers hty (exec_vrint f s) fun k => laneCode_of_eq rfl,
    elementwise_delivers hty (exec_vmin f s) fun k => laneCode_of_eq rfl,
    elementwise_delivers hty (exec_vmax f s) fun k => laneCode_of_eq rfl,
    elementwise_delivers hty (exec_vcmp f s) fun k => laneCode_of_eq rfl,
    elementwise_delivers hty (exec_vabs f s) fun k => laneCode_of_eq (lAbs_fp ht _),
    elementwise_delivers hty (exec_vneg f s) fun k => laneCode_of_eq (lNeg_fp ht (ha k)),
    elementwise_delivers hty (exec_vcpsgn f s) fun k => laneCode_of_eq rfl,
    elementwise_delivers hty (exec_vclass f s) fun k => laneCode_of_eq (lClass_fields ht (ha k))⟩

/-- Settles O10: each operation is an element-wise one, whose lane code stands for the stated result. -/
theorem vectorLaneResults : Obligations.VectorLaneResults := ⟨vectorIntegerResults, vectorFloatResults⟩

end Sys2Proof.Laws

/-! ## The A slot's arithmetic (R93 to R97) -/

namespace Sys2Proof.Laws
open Sys2Proof.Machine

/-! ### Results on 64-bit patterns, as numbers (R93) -/

/-- An A operation whose guard holds delivers what its value equals. -/
theorem finish_alu_eq {s : State} {gp : BitVec 4} {rd : BitVec 6} {L : Nat} {v w : W64} (hg : s.cx.guard gp = true) (h : v = w) :
    finish s (alu gp rd L v s) = deliversA s rd w L :=
  h ▸ finish_alu hg

theorem mul_eq_ofNat (a b : W64) : a * b = BitVec.ofNat 64 (a.toNat * b.toNat) := by simp [BitVec.ofNat_mul]

theorem sub_eq_ofInt (a b : W64) : a - b = BitVec.ofInt 64 (a.toInt - b.toInt) := by
  apply BitVec.eq_of_toInt_eq
  rw [BitVec.toInt_sub, BitVec.toInt_ofInt]

theorem shiftLeft_eq_ofNat (a : W64) (n : Nat) : a <<< n = BitVec.ofNat 64 (a.toNat * 2 ^ n) := by
  apply BitVec.eq_of_toNat_eq
  simp [Nat.shiftLeft_eq]

theorem shiftRight_eq_ofNat (a : W64) (n : Nat) : a >>> n = BitVec.ofNat 64 (a.toNat / 2 ^ n) := by
  rw [← Nat.shiftRight_eq_div_pow, ← BitVec.toNat_ushiftRight, BitVec.ofNat_toNat, BitVec.setWidth_eq]

theorem sraVal_eq_ofInt (a : W64) (n : Nat) : sraVal a n = BitVec.ofInt 64 (a.toInt / 2 ^ n) := by
  rw [sraVal, BitVec.sshiftRight, Int.shiftRight_eq_div_pow]
  norm_cast

/-- The lesser of two patterns, read as signed numbers. -/
theorem minInt_eq (a b : W64) : (if a.toInt ≤ b.toInt then a else b) = BitVec.ofInt 64 (min a.toInt b.toInt) := by
  rw [min_def, apply_ite (BitVec.ofInt 64), BitVec.ofInt_toInt, BitVec.ofInt_toInt]

theorem maxInt_eq (a b : W64) : (if a.toInt ≤ b.toInt then b else a) = BitVec.ofInt 64 (max a.toInt b.toInt) := by
  rw [max_def, apply_ite (BitVec.ofInt 64), BitVec.ofInt_toInt, BitVec.ofInt_toInt]

theorem minNat_eq (a b : W64) : (if a.toNat ≤ b.toNat then a else b) = BitVec.ofNat 64 (min a.toNat b.toNat) := by
  rw [min_def, apply_ite (BitVec.ofNat 64), BitVec.ofNat_toNat, BitVec.ofNat_toNat, BitVec.setWidth_eq, BitVec.setWidth_eq]

theorem maxNat_eq (a b : W64) : (if a.toNat ≤ b.toNat then b else a) = BitVec.ofNat 64 (max a.toNat b.toNat) := by
  rw [max_def, apply_ite (BitVec.ofNat 64), BitVec.ofNat_toNat, BitVec.ofNat_toNat, BitVec.setWidth_eq, BitVec.setWidth_eq]

theorem abs_eq_natAbs (a : W64) : (if a.msb then 0 - a else a) = BitVec.ofNat 64 a.toInt.natAbs := by
  apply BitVec.eq_of_toNat_eq
  have ha := a.isLt
  rw [BitVec.toInt_eq_msb_cond, BitVec.toNat_ofNat]
  split
  · rw [show 0 - a = -a from BitVec.zero_sub a, BitVec.toNat_neg]
    omega
  · rw [Int.natAbs_natCast, Nat.mod_eq_of_lt ha]

theorem clz_eq (a : W64) : BitVec.ofNat 64 (clzN a.toNat 64) = BitVec.ofNat 64 (if a = 0 then 64 else 63 - Nat.log2 a.toNat) := by
  rw [clzN_eq_log2 a.isLt]
  simp only [← BitVec.toNat_inj]
  rfl

theorem popc_eq (a : W64) : BitVec.ofNat 64 (popcN a.toNat 64) = BitVec.ofNat 64 ((List.range 64).countP (fun i => a.getLsbD i)) := by
  rw [popcN_eq_countP]
  rfl

theorem madd_eq_ofNat (d a b : W64) : d + a * b = BitVec.ofNat 64 (d.toNat + a.toNat * b.toNat) := by
  rw [mul_eq_ofNat, BitVec.ofNat_add, BitVec.ofNat_toNat, BitVec.setWidth_eq]

/-- R95: the register operations of the A slot. -/
theorem registerArithmeticResults : RegisterArithmeticResults := by
  intro s rd ra rb gp hg f f1 a b d sh
  exact ⟨finish_alu_eq hg (BitVec.add_def a b), finish_alu_eq hg (sub_eq_ofInt a b), finish_alu hg, finish_alu hg, finish_alu hg,
    finish_alu hg, finish_alu_eq hg (shiftLeft_eq_ofNat a sh), finish_alu_eq hg (shiftRight_eq_ofNat a sh),
    finish_alu_eq hg (sraVal_eq_ofInt a sh), finish_alu_eq hg (minInt_eq a b), finish_alu_eq hg (minNat_eq a b),
    finish_alu_eq hg (maxInt_eq a b), finish_alu_eq hg (maxNat_eq a b), finish_alu_eq hg (abs_eq_natAbs a),
    finish_alu_eq hg (clz_eq a), finish_alu_eq hg (popc_eq a), finish_alu_eq hg (mul_eq_ofNat a b), finish_alu hg, finish_alu hg,
    finish_alu hg, finish_alu_eq hg (madd_eq_ofNat d a b)⟩

/-! ### LEA, EXT and the bit fields (R95, R96) -/

theorem lea_eq_ofNat (a b : W64) (k : Nat) : a + b <<< k = BitVec.ofNat 64 (a.toNat + b.toNat * 2 ^ k) := by
  rw [shiftLeft_eq_ofNat]
  simp [BitVec.ofNat_add]

/-- The low n bits of a pattern as a signed number (R7). -/
theorem sext_eq_toInt {w n : Nat} (a : BitVec w) (hn : 0 < n) : sext a.toNat n = (a.setWidth n).toInt := by
  have hpow : 2 ^ n = 2 * 2 ^ (n - 1) := by rw [← pow_succ', Nat.sub_add_cancel hn]
  have hne : n ≠ 0 := by omega
  have hsign : (n ≠ 0 ∧ 2 ^ (n - 1) ≤ a.toNat % 2 ^ n) ↔ ¬ 2 * (a.toNat % 2 ^ n) < 2 ^ n := by omega
  rw [BitVec.toInt_eq_toNat_cond, BitVec.toNat_setWidth]
  simp only [sext, hsign, ite_not]
  norm_cast

theorem extVal_signed {fn : Nat} (h : fn < 4) (a : W64) : extVal fn a = (a.setWidth (8 * 2 ^ (fn % 4))).signExtend 64 := by
  rw [extVal, if_pos h, sext_eq_toInt a (by positivity)]
  rfl

theorem extVal_unsigned {fn : Nat} (h : ¬ fn < 4) (a : W64) : extVal fn a = (a.setWidth (8 * 2 ^ (fn % 4))).setWidth 64 := by
  rw [extVal, if_neg h, ← BitVec.toNat_setWidth, BitVec.ofNat_toNat]

/-- R95: CMP, LEA, EXT and SEL. -/
theorem compareSelectExtendResults : CompareSelectExtendResults := by
  intro s rd ra rb gp cmp lea ext a b truth
  refine ⟨fun hg => ⟨finish_alu_eq hg ?_, finish_alu_eq hg ?_, finish_alu hg, finish_alu hg, finish_alu hg, finish_alu hg,
    fun k _ => finish_alu_eq hg (lea_eq_ofNat a b k.toNat), finish_alu_eq hg (extVal_signed (fn := 0) (by decide) a),
    finish_alu_eq hg (extVal_signed (fn := 1) (by decide) a), finish_alu_eq hg (extVal_signed (fn := 2) (by decide) a),
    finish_alu_eq hg (extVal_unsigned (fn := 4) (by decide) a), finish_alu_eq hg (extVal_unsigned (fn := 5) (by decide) a),
    finish_alu_eq hg (extVal_unsigned (fn := 6) (by decide) a)⟩, rfl⟩
  · exact congrArg ofBool (beq_eq_decide a b)
  · exact congrArg ofBool (Bool.eq_iff_iff.2 (bne_iff_ne.trans decide_eq_true_iff.symm))

/-- R96: the bit-field operations. -/
theorem bitFieldResults : BitFieldResults := by
  intro s f hg a b d pos len bits m
  have hlen : bfLen b = len := rfl
  refine ⟨finish_alu_eq hg ?_, finish_alu_eq hg ?_, finish_alu hg⟩
  · show bfxVal false a b = _
    rw [bfxVal, hlen]
    split
    · next hzero => simp [bits, hzero, Nat.mod_one]
    · rfl
  · show bfxVal true a b = _
    rw [bfxVal, hlen]
    split
    · rfl
    · next hpos =>
      have hbits : bits < 2 ^ len := Nat.mod_lt _ (Nat.two_pow_pos len)
      show BitVec.ofInt 64 (sext bits len) = _
      rw [sext_of_lt (Nat.pos_of_ne_zero hpos) hbits, ← ite_not, apply_ite (BitVec.ofInt 64), BitVec.ofInt_natCast]
      simp only [not_le]

/-! ### Immediates (R97) -/

theorem immA_eq (imm : BitVec 10) (e : Option W32) :
    immA imm e = match e with | none => imm.signExtend 64 | some x => x.signExtend 64 := by
  cases e <;> rfl

/-- A low half with a high half above it. -/
theorem or_highHalf_eq_ofNat {x : W64} (hx : x.toNat < 2 ^ 32) (y : W64) :
    x ||| y <<< 32 = BitVec.ofNat 64 (x.toNat + y.toNat % 2 ^ 32 * 2 ^ 32) := by
  have hhigh : y.toNat <<< 32 % 2 ^ 64 = (y.toNat % 2 ^ 32) <<< 32 := by
    rw [Nat.shiftLeft_eq, Nat.shiftLeft_eq]
    omega
  apply BitVec.eq_of_toNat_eq
  rw [BitVec.toNat_or, BitVec.toNat_shiftLeft, hhigh, Nat.or_comm, ← Nat.shiftLeft_add_eq_or_of_lt hx, Nat.shiftLeft_eq,
    BitVec.toNat_ofNat]
  omega

theorem toNat_lowHalf (a : W64) : ((a.setWidth 32).setWidth 64).toNat = a.toNat % 2 ^ 32 := by
  rw [BitVec.toNat_setWidth, BitVec.toNat_setWidth]
  omega

theorem movhi_eq_ofNat (a i : W64) : (fld a 0 32).setWidth 64 ||| ((fld i 0 32).setWidth 64 <<< 32) =
    BitVec.ofNat 64 (a.toNat % 2 ^ 32 + i.toNat % 2 ^ 32 * 2 ^ 32) := by
  have hfld : ∀ x : W64, fld x 0 32 = x.setWidth 32 := fun x =>
    BitVec.eq_of_toNat_eq (by rw [toNat_fld, BitVec.toNat_setWidth, pow_zero, Nat.div_one])
  have hlow : ((a.setWidth 32).setWidth 64).toNat < 2 ^ 32 := (toNat_lowHalf a).trans_lt (Nat.mod_lt _ (by decide))
  rw [hfld, hfld, or_highHalf_eq_ofNat hlow, toNat_lowHalf, toNat_lowHalf, Nat.mod_mod]

theorem addpc_eq_ofInt (pc i : W64) : pc + i * 4 = BitVec.ofInt 64 (pc.toNat + i.toInt * 4) := by
  rw [Int.mul_comm, ofInt_add_words, BitVec.signExtend_eq]

theorem mul_eq_ofInt (a b : W64) : a * b = BitVec.ofInt 64 (a.toInt * b.toInt) := by simp [BitVec.ofInt_mul]

/-- R97: the immediate operations. -/
theorem immediateResults : ImmediateResults := by
  intro s f hg f0 a imm
  have himm : immA f.imm f.ext = imm := immA_eq ..
  have hsh : imm.toNat < 64 → sh6 (immA f.imm f.ext) = imm.toNat := fun h => by rw [himm, sh6, Nat.mod_eq_of_lt h]
  refine ⟨finish_alu_eq hg ?_, finish_alu_eq hg ?_, finish_alu_eq hg ?_, finish_alu_eq hg ?_, fun h => ⟨finish_alu_eq hg ?_,
    finish_alu_eq hg ?_, finish_alu_eq hg ?_⟩, finish_alu_eq hg himm, finish_alu_eq hg ?_, finish_alu_eq hg ?_, finish_alu_eq hg ?_⟩
  · rw [himm, BitVec.add_def]
  · rw [himm]
  · rw [himm]
  · rw [himm]
  · rw [hsh h, shiftLeft_eq_ofNat]
  · rw [hsh h, shiftRight_eq_ofNat]
  · rw [hsh h, sraVal_eq_ofInt]
  · rw [himm, movhi_eq_ofNat]
  · rw [himm, addpc_eq_ofInt]
  · rw [himm, mul_eq_ofInt]

/-- Settles O1: each operation delivers its value, which the number it stands for gives. -/
theorem aluResults : Obligations.AluResults :=
  ⟨registerArithmeticResults, compareSelectExtendResults, bitFieldResults, immediateResults⟩

end Sys2Proof.Laws

/-! ## XFERM and LCI (R105, R117) -/

namespace Sys2Proof.Laws
open Sys2Proof.Machine

/-! ### M registers (R38, R220) -/

/-- An M operation whose guard holds delivers what its value equals. -/
theorem finish_mreg {s : State} {gp : BitVec 4} {md : BitVec 5} {L : Nat} {v w : W64} (hg : s.cx.guard gp = true) (h : v = w) :
    finish s (mreg gp md L v s) = deliversM s md w L := by
  rw [mreg_ok hg, finish_ok, h]
  rfl

theorem exec_xferm_on {s : State} {f : MX} (hg : s.cx.guard f.gp = true) : exec (.xferm f) s = deliversM s f.md (s.cx.ra f.src) 2 :=
  finish_mreg hg rfl

theorem exec_xferm_off {s : State} {f : MX} (hg : s.cx.guard f.gp = false) : exec (.xferm f) s = .next s := by
  rw [exec_xferm, execXferm, opXferm, mreg_off hg, finish_ok]

/-! ### The words of XFERM and LCI (R35, R52) -/

theorem fld_beq_zero {n : Nat} (w : BitVec n) (lo m : Nat) : (fld w lo m == 0) = decide (w.toNat / 2 ^ lo % 2 ^ m = 0) := by
  rw [Bool.eq_iff_iff, beq_iff_eq, decide_eq_true_iff, ← BitVec.toNat_inj, toNat_fld]
  rfl

/-- The decoder accepts a word of XFERM by its zero bits and its extension (R105). -/
theorem decodeM_xferm {w : W64} {e : Option W32} (hop : w.toNat / 2 ^ 56 = 4) :
    decodeM w e = accept (zeroMX w) (.xferm (ofMX w e)) := by
  have hfld : (fld w 56 8).toNat = 4 := by rw [toNat_fld, hop]; rfl
  rw [decodeM, hfld]
  rfl

theorem xferm_zeroes_iff (w : W64) (e : Option W32) : (zeroMX w && (Instr.xferm (ofMX w e)).wf) = true ↔
    (w.toNat / 2 ^ 41 % 2 ^ 4 = 0 ∧ w.toNat / 2 ^ 35 % 2 ^ 6 = 0 ∧ w.toNat / 2 ^ 16 % 2 ^ 15 = 0 ∧ w.toNat % 2 ^ 16 = 0) ∧
      (e = none ∨ e = some 0) := by
  simp only [zeroMX, Instr.wf, extZero, ofMX, fld_beq_zero, Bool.and_eq_true, Bool.or_eq_true, decide_eq_true_iff, beq_iff_eq,
    pow_zero, Nat.div_one, and_assoc]

/-- Settles O52: the delivery is that of an M register, and the decoder asks the zero bits and the extension of its word. -/
theorem xfermRule : Obligations.XfermRule := by
  refine ⟨fun s f => ⟨exec_xferm_on, exec_xferm_off⟩, ?_⟩
  intro w e hop zero
  refine ⟨fun hz => ⟨ofMX w e, ?_, ?_, ?_, ?_⟩, fun hz => ?_⟩
  · rw [decodeSlot, decodeM_xferm hop, accept, if_pos ((xferm_zeroes_iff w e).2 hz)]
  · exact toNat_fld w 51 5
  · exact toNat_fld w 45 6
  · exact toNat_fld w 31 4
  · rw [decodeSlot, decodeM_xferm hop, accept, if_neg (mt (xferm_zeroes_iff w e).1 hz)]

/-- A word of LCI with END12 not zero (R117). -/
theorem decodeB_lci_reserved {w : BitVec 32} (hop : (fld w 26 6).toNat = 0x1D) (hlast : w.toNat % 2 ^ 12 ≠ 0) (e : Option W32) :
    decodeB w e = .error .reservedField := by
  have hzero : zeroBLc w = false := by
    rw [zeroBLc, fld_beq_zero, pow_zero, Nat.div_one, decide_eq_false hlast]
  rw [decodeB, hop]
  simp [accept, hzero]

/-! ### LCI in its bundle (R117) -/

/-- What LCI leaves in its bundle: the delivery, and the count that the loop-end check reads. -/
theorem setLc_cx (n : Nat) (v : BitVec 32) (s : State) : (setLc n v s).cx =
    { s.cx.deliver (.lc n) (v.setWidth 512) 1 3 with buf := { s.cx.buf with lcNow := (n, v) :: s.cx.buf.lcNow } } :=
  cx_setCx ..

theorem loopVal_cons_self {α : Type} (n : Nat) (v d : α) (l : List (Nat × α)) : loopVal n ((n, v) :: l) d = v := by
  simp [loopVal]

/-- R117: LCI in its bundle, and alone. -/
theorem lci_leaves {s : State} (f : BLc) (hbuf : s.cx.buf = {}) :
    let v := cntOf f.cnt f.ext
    let c := s.cx.deliver (.lc f.lc.toNat) (v.setWidth 512) 1 3
    ∃ t, runOp (.lci f) 0 s = .ok t ∧ exec (.lci f) s = .next (s.setCx (issued c)) ∧ t.cx.pend = c.pend ∧ t.cx.crs = s.cx.crs ∧
      t.cx.lc = s.cx.lc ∧ loopVal f.lc.toNat t.cx.buf.lcNow (t.cx.rlc f.lc.toNat) = v ∧
      ∀ n, loopVal n t.cx.buf.loopb (t.cx.cr (8 + n)) = s.cx.cr (8 + n) ∧
        loopVal n t.cx.buf.loope (t.cx.cr (12 + n)) = s.cx.cr (12 + n) := by
  intro v c
  refine ⟨setLc f.lc.toNat v s, rfl, exec_lci_sets f hbuf, ?_⟩
  rw [setLc_cx, hbuf]
  exact ⟨rfl, rfl, rfl, loopVal_cons_self .., fun n => ⟨rfl, rfl⟩⟩

/-- Settles O53: LCI sets its counter, which the loop-end check reads from the buffer of its issue. -/
theorem lciRule : Obligations.LciRule := by
  refine ⟨fun s f hbuf => lci_leaves f hbuf, fun w e hop hlast => ?_⟩
  refine decodeB_lci_reserved (by rw [toNat_fld_setWidth, hop]) ?_ e
  rw [BitVec.toNat_setWidth]
  omega

end Sys2Proof.Laws

/-! ## Where local pointers reach, and the traps of scalar accesses (R100, R257, R259, R262) -/

namespace Sys2Proof.Laws
open Sys2Proof.Machine

/-! ### The traps of R100 -/

/-- The checks of R100 fail with one cause. -/
def ScalarFault (s : State) (p : W64) (n : Nat) (e : Cause) : Prop :=
  s.localLoc p n = .error e ∨ e = .misaligned ∧ ∃ l, s.localLoc p n = .ok l ∧ p.toNat % n ≠ 0

theorem checkScalar_fault {s : State} {p : W64} {n : Nat} {e : Cause} (h : ScalarFault s p n e) (slot : Nat) :
    s.checkScalar p n slot = .error { cause := e, slot := slot, addr := p } := by
  obtain hloc | ⟨rfl, l, hloc, hal⟩ := h
  · rw [State.checkScalar, hloc]
  · simp only [State.checkScalar, hloc, if_pos hal]

section
variable {s : State} {gp : BitVec 4} {sz q : BitVec 2} {p : W64} {e : Cause}

theorem loadA_fault (hcur : s.cur < 512) (hguard : s.cx.guard gp = true) (h : ScalarFault s p (2 ^ sz.toNat) e) (rd : BitVec 6)
    (signed : Bool) : loadA gp rd sz q signed p s = .trap { cause := e, slot := 0, addr := p } := by
  have hcheck : s.checkScalar p (szBytes sz) 0 = _ := checkScalar_fault h 0
  simp only [loadA, galQ_of_tile hcur, hguard, hcheck]
  rfl

theorem storeA_fault (hcur : s.cur < 512) (hguard : s.cx.guard gp = true) (h : ScalarFault s p (2 ^ sz.toNat) e) (rd : BitVec 6) :
    storeA gp rd sz q p s = .trap { cause := e, slot := 0, addr := p } := by
  have hcheck : s.checkScalar p (szBytes sz) 0 = _ := checkScalar_fault h 0
  simp only [storeA, galQ_of_tile hcur, hguard, hcheck]
  rfl

/-- A store that traps does not hold its bundle first. -/
theorem holdStore_fault (hst : s.cx.st < 4095) (h : ScalarFault s p (2 ^ sz.toNat) e) : holdStore gp sz q p s = none := by
  have hcheck : s.checkScalar p (szBytes sz) 0 = _ := checkScalar_fault h 0
  simp only [holdStore, if_neg (Nat.not_le.mpr hst), hcheck, ite_self]

/-- What a scalar access does where its checks fail. -/
def TrapsOnFault (s : State) (i : Instr) (p : W64) (n : Nat) : Prop :=
  ∀ e, ScalarFault s p n e → exec i s = .next (takeTrap { cause := e, slot := 0, addr := p } s)

theorem TrapsOnFault.causes {i : Instr} {n : Nat} (h : TrapsOnFault s i p n) :
    (∀ e, s.localLoc p n = .error e → exec i s = .next (takeTrap { cause := e, slot := 0, addr := p } s)) ∧
    (∀ l, s.localLoc p n = .ok l → p.toNat % n ≠ 0 →
      exec i s = .next (takeTrap { cause := .misaligned, slot := 0, addr := p } s)) :=
  ⟨fun e hloc => h e (.inl hloc), fun l hloc hal => h _ (.inr ⟨rfl, l, hloc, hal⟩)⟩

/-- R100: a scalar load in each of its forms. -/
theorem load_trapsOnFault {i : Instr} {rd : BitVec 6} {signed : Bool}
    (hexec : exec i s = finishHold s (holdLoad gp s) (loadA gp rd sz q signed p s)) (hld : s.cx.ld < 4095) (hcur : s.cur < 512)
    (hguard : s.cx.guard gp = true) : TrapsOnFault s i p (2 ^ sz.toNat) := by
  intro e h
  have hhold : holdLoad gp s = none := by simp [holdLoad, hld]
  rw [hexec, hhold, loadA_fault hcur hguard h, finishHold_trap]

/-- R100: a scalar store in each of its forms. -/
theorem store_trapsOnFault {i : Instr} {rd : BitVec 6}
    (hexec : exec i s = finishHold s (holdStore gp sz q p s) (storeA gp rd sz q p s)) (hst : s.cx.st < 4095) (hcur : s.cur < 512)
    (hguard : s.cx.guard gp = true) : TrapsOnFault s i p (2 ^ sz.toNat) := by
  intro e h
  rw [hexec, holdStore_fault hst h, storeA_fault hcur hguard h, finishHold_trap]

end

/-- R100: the traps of the scalar accesses. -/
theorem scalarAccessTraps : ScalarAccessTraps := by
  intro s f x hld hst hcur p px traps
  exact ⟨fun hg => ⟨(load_trapsOnFault rfl hld hcur hg).causes, (load_trapsOnFault rfl hld hcur hg).causes,
      (store_trapsOnFault rfl hst hcur hg).causes⟩,
    fun hg => ⟨(load_trapsOnFault rfl hld hcur hg).causes, (load_trapsOnFault rfl hld hcur hg).causes,
      (store_trapsOnFault rfl hst hcur hg).causes⟩⟩

/-! ### Pointers whose zero bits are zero (R256) -/

/-- A pointer of a named space is well formed by its zero bits alone. -/
theorem mbzOk_eq_ptrWf {p : W64} (h : ptrCode p = 8 ∨ ptrCode p = 9 ∨ ptrCode p = 10) : mbzOk p = ptrWf p := by
  rw [ptrWf]
  obtain h | h | h := h <;> rw [h] <;> rfl

section
variable {p : W64} (hwf : ptrWf p = true)
include hwf

theorem off8_of_wf (hcode : ptrCode p = 8) : off8 p = p.toNat % 2 ^ 48 := by
  rw [← mbzOk_eq_ptrWf (.inl hcode), mbzOk, hcode] at hwf
  have hzero : p.toNat / 2 ^ 17 % 2 ^ 43 = 0 := by simpa only [fld_beq_zero, decide_eq_true_iff] using hwf
  rw [off8, toNat_fld]
  omega

theorem off9_of_wf (hcode : ptrCode p = 9) : off9 p = p.toNat % 2 ^ 48 := by
  rw [← mbzOk_eq_ptrWf (.inr (.inl hcode)), mbzOk, hcode] at hwf
  obtain ⟨-, hzero⟩ : _ ∧ p.toNat / 2 ^ 18 % 2 ^ 30 = 0 := by
    simpa only [fld_beq_zero, Bool.and_eq_true, decide_eq_true_iff] using hwf
  rw [off9, toNat_fld]
  omega

theorem offA_of_wf (hcode : ptrCode p = 10) : offA p = p.toNat % 2 ^ 48 := by
  rw [← mbzOk_eq_ptrWf (.inr (.inr hcode)), mbzOk, hcode] at hwf
  obtain ⟨-, hzero⟩ : _ ∧ p.toNat / 2 ^ 23 % 2 ^ 25 = 0 := by
    simpa only [fld_beq_zero, Bool.and_eq_true, decide_eq_true_iff] using hwf
  rw [offA, toNat_fld]
  omega

end

/-! ### The bytes in reach (R262) -/

/-- What the reach rule answers of bytes that lie at `l`. -/
def reached (l : PadLoc) : Option Cause → Except Cause PadLoc
  | some e => .error e
  | none => .ok l

/-- R262: the shared area for its owner, the pool for the party's own allocation, and the causes in their order. -/
theorem reached_reach (l : PadLoc) (owned : Bool) (floor size base len o n : Nat) :
    reached l (reach owned floor size base len o n) =
      if o < floor ∧ owned = false then .error .spaceForeign
      else if o + n ≤ size ∧ (o + n ≤ floor ∨ (base ≤ max o floor ∧ o + n ≤ base + len)) then .ok l else .error .spaceRange := by
  rw [reach]
  by_cases hforeign : o < floor ∧ owned = false
  · simp [reached, hforeign]
  · rw [if_neg hforeign, if_neg (by simpa using hforeign)]
    by_cases hsize : size < o + n
    · rw [if_pos hsize, if_neg fun h => absurd h.1 (by omega)]
      rfl
    · rw [if_neg hsize]
      by_cases hshared : o + n ≤ floor
      · rw [if_pos hshared, if_pos ⟨by omega, .inl hshared⟩]
        rfl
      · rw [if_neg hshared]
        simp only [Bool.and_eq_true, decide_eq_true_eq]
        by_cases hpool : base ≤ max o floor ∧ o + n ≤ base + len
        · rw [if_pos hpool, if_pos ⟨by omega, .inr hpool⟩]
          rfl
        · rw [if_neg hpool, if_neg fun h => h.2.elim hshared hpool]
          rfl

/-! ### A context's own pointers, space by space (R257, R259) -/

theorem localLoc_elsewhere {s : State} {p : W64} (hcur : s.cur < 512) (n : Nat) (h8 : ptrCode p ≠ 8) (h9 : ptrCode p ≠ 9)
    (h10 : ptrCode p ≠ 10) : s.localLoc p n = .error .spaceForeign := by
  simp only [State.localLoc, isGal_of_tile hcur]
  rfl

theorem localLoc_malformed {s : State} {p : W64} (hcur : s.cur < 512) (n : Nat)
    (hcode : ptrCode p = 8 ∨ ptrCode p = 9 ∨ ptrCode p = 10) (hwf : ptrWf p = false) : s.localLoc p n = .error .spaceRange := by
  rw [← mbzOk_eq_ptrWf hcode] at hwf
  obtain hcode | hcode | hcode := hcode <;> simp [State.localLoc, isGal_of_tile hcur, hcode, hwf]

section
variable {s : State} {p : W64} (hcur : s.cur < 512) (hwf : ptrWf p = true) (n : Nat)
include hcur hwf

theorem localLoc_window (hcode : ptrCode p = 8) : s.localLoc p n =
    if p.toNat % 2 ^ 48 + n ≤ s.cx.pvSize then .ok ⟨.tile (s.cur / 2), s.cx.pvBase + p.toNat % 2 ^ 48⟩ else .error .spaceRange := by
  rw [← off8_of_wf hwf hcode]
  rw [← mbzOk_eq_ptrWf (.inl hcode)] at hwf
  simp only [State.localLoc, isGal_of_tile hcur, hcode, hwf, Bool.not_true, Bool.false_or, decide_eq_true_eq, ← not_lt, ite_not]
  rfl

theorem localLoc_tile (hcode : ptrCode p = 9) : s.localLoc p n =
    let T := s.tile (s.cur / 2)
    if p.toNat / 2 ^ 48 % 2 ^ 8 = s.cur / 2 then
      reached ⟨.tile (s.cur / 2), p.toNat % 2 ^ 48⟩
        (reach (T.owns s.cx.asid) T.floor (2 ^ 18) s.cx.pvBase s.cx.pvSize (p.toNat % 2 ^ 48) n)
    else .error .spaceForeign := by
  rw [← off9_of_wf hwf hcode, ← toNat_fld]
  rw [← mbzOk_eq_ptrWf (.inr (.inl hcode))] at hwf
  simp only [State.localLoc, isGal_of_tile hcur, hcode, hwf, ne_eq, ite_not]
  rfl

theorem localLoc_cluster (hcode : ptrCode p = 10) : s.localLoc p n =
    let K := s.cluster (s.cur / 2 / 8)
    if p.toNat / 2 ^ 48 % 2 ^ 5 = s.cur / 2 / 8 then
      reached ⟨.cluster (s.cur / 2 / 8), p.toNat % 2 ^ 48⟩
        (reach (K.owns s.cx.asid) K.floor 0x600000 s.cx.csBase s.cx.csSize (p.toNat % 2 ^ 48) n)
    else .error .spaceForeign := by
  rw [← offA_of_wf hwf hcode, ← toNat_fld]
  rw [← mbzOk_eq_ptrWf (.inr (.inr hcode))] at hwf
  simp only [State.localLoc, isGal_of_tile hcur, hcode, hwf, ne_eq, ite_not]
  rfl

end

/-- A gallery core reaches its store alone (R100). -/
theorem localLoc_core {s : State} {p : W64} (hlo : 512 ≤ s.cur) (hhi : s.cur < 2 ^ 32) (n : Nat) : s.localLoc p n =
    if ptrCode p ≠ 8 then .error .spaceForeign
    else if ptrWf p = true ∧ p.toNat % 2 ^ 48 + n ≤ 131072 then .ok ⟨.gal (s.cur - 512), p.toNat % 2 ^ 48⟩
    else .error .spaceRange := by
  rw [State.localLoc]
  simp only [isGal_of_core hlo hhi, if_true]
  by_cases hcode : ptrCode p = 8
  · rw [if_neg (not_not.2 hcode), if_neg (not_not.2 hcode), mbzOk_eq_ptrWf (.inl hcode)]
    cases hwf : ptrWf p with
    | false => rfl
    | true => simp only [off8_of_wf hwf hcode, Bool.not_true, Bool.false_or, decide_eq_true_eq, true_and, ← not_lt, ite_not]
  · rw [if_pos hcode, if_pos hcode]

/-- R100, R257, R259, R262: where local pointers reach. -/
theorem localPointersReach : LocalPointersReach := by
  intro s p n t c T K base size code o cbase csize id gives within
  have hcode : ptrCode p = code := ptrCode_eq p
  have hbase : c.pvBase = base := (toNat_fld _ 0 18).trans (by omega)
  have hsize : c.pvSize = size := congrArg (· * 1024) (toNat_fld _ 32 8)
  have hcbase : c.csBase = cbase := (toNat_fld _ 0 23).trans (by omega)
  have hcsize : c.csSize = csize := congrArg (· * 1024) (toNat_fld _ 32 13)
  refine ⟨fun hcur => ⟨fun h8 h9 h10 => localLoc_elsewhere hcur n (hcode.trans_ne h8) (hcode.trans_ne h9) (hcode.trans_ne h10),
      fun hspace hwf => localLoc_malformed hcur n (by rwa [hcode]) hwf, fun hwf => ⟨fun h8 => ?_, fun h9 hid => ?_, fun h9 hid => ?_,
        fun h10 hid => ?_, fun h10 hid => ?_⟩⟩,
    fun hlo hhi => ⟨fun h8 => ?_, fun h8 hwf => ?_, fun h8 hwf => ?_⟩⟩
  · rw [← hbase, ← hsize]
    exact localLoc_window hcur hwf n (hcode.trans h8)
  · exact (localLoc_tile hcur hwf n (hcode.trans h9)).trans (if_neg hid)
  · refine (localLoc_tile hcur hwf n (hcode.trans h9)).trans ((if_pos hid).trans ?_)
    rw [reached_reach, hbase, hsize]
  · exact (localLoc_cluster hcur hwf n (hcode.trans h10)).trans (if_neg hid)
  · refine (localLoc_cluster hcur hwf n (hcode.trans h10)).trans ((if_pos hid).trans ?_)
    rw [reached_reach, hcbase, hcsize]
  · exact (localLoc_core hlo hhi n).trans (if_pos (hcode.trans_ne h8))
  · exact (localLoc_core hlo hhi n).trans ((if_neg (not_not.2 (hcode.trans h8))).trans (if_neg (by simp [hwf])))
  · refine (localLoc_core hlo hhi n).trans ((if_neg (not_not.2 (hcode.trans h8))).trans ?_)
    simp only [hwf, true_and]
    rfl

/-- Settles O4: the checks of a scalar access, and the places that its local pointer reaches, space by space. -/
theorem scalarAccessChecks : Obligations.ScalarAccessChecks := ⟨scalarAccessTraps, localPointersReach⟩

end Sys2Proof.Laws

/-! ## Registers, tokens, pins and statuses of the M slot (R105, R196, R220, R235, R244, R253, R429) -/

namespace Sys2Proof.Laws
open Sys2Proof.Machine

/-! ### MSET, MADD and MMOV (R220) -/

theorem mrImm_eq_immM (f : MR) : mrImm f = immM f := by
  unfold mrImm immM
  cases f.ext <;> rfl

theorem immU_eq_immUM (imm : BitVec 16) (e : Option W32) : immU imm e = immUM imm e := by
  cases e <;> rfl

/-- MSET.HI keeps the low half of its register. -/
theorem msetHi_eq_ofNat (r i : W64) : (r.setWidth 32).setWidth 64 ||| i <<< 32 =
    BitVec.ofNat 64 (r.toNat % 2 ^ 32 + i.toNat % 2 ^ 32 * 2 ^ 32) := by
  rw [or_highHalf_eq_ofNat ((toNat_lowHalf r).trans_lt (Nat.mod_lt _ (by decide))), toNat_lowHalf]

/-! ### JINIT (R253) -/

theorem fld_high_ne_zero_iff (m : W64) : fld m 32 32 ≠ 0 ↔ 2 ^ 32 ≤ m.toNat := by
  have hm := m.isLt
  rw [Ne, ← BitVec.toNat_inj, toNat_fld, show (0 : BitVec 32).toNat = 0 from rfl]
  omega

section
variable {s : State} {f : MR} (hg : s.cx.guard f.gp = true)
include hg

theorem exec_jinit_counts (h : s.cx.jcnt + immUM f.imm f.ext ≤ 65535) :
    exec (.jinit f) s = .next (s.setCx { s.cx with jcnt := s.cx.jcnt + immUM f.imm f.ext }) := by
  rw [exec_jinit, execJinit, opJinit, hg, immU_eq_immUM]
  simp only [Bool.not_true, Bool.false_eq_true, if_false, if_neg (Nat.not_lt.2 h), modCx_eq, finish_ok]

theorem exec_jinit_range (h : 65535 < s.cx.jcnt + immUM f.imm f.ext) :
    exec (.jinit f) s = .next (takeTrap { cause := .paramRange, slot := 2 } s) := by
  rw [exec_jinit, execJinit, opJinit, hg, immU_eq_immUM]
  simp only [Bool.not_true, Bool.false_eq_true, if_false, if_pos h, trapM, finish_trap]

/-! ### LAPIN (R429) -/

/-- The pin register of the tile of a context. -/
def pinOf (s : State) : W64 := (s.tile (tileOf s.cur)).crs.read 0xC2

/-- The pin register with a value. -/
def withPin (s : State) (v : W64) : State :=
  s.setTile (s.cur / 2) { s.tile (s.cur / 2) with crs := (s.tile (s.cur / 2)).crs.write 0xC2 v }

theorem opLapin_on : opLapin f s =
    if 2 ^ 32 ≤ (s.cx.rm f.ma.toNat).toNat then trapM .paramRange
    else if (pinOf s).getLsbD 48 = true ∧ (pinOf s).toNat / 2 ^ 32 % 2 ^ 16 ≠ s.cx.asid then trapM .spaceForeign
    else .ok (withPin s (BitVec.ofNat 64 (2 ^ 48 + s.cx.asid % 2 ^ 16 * 2 ^ 32 + (s.cx.rm f.ma.toNat).toNat % 2 ^ 32))) := by
  rw [opLapin, hg]
  simp only [bne_iff_ne, fld_high_ne_zero_iff, Bool.and_eq_true, ← toNat_fld]
  rfl

theorem exec_lapin_range (h : 2 ^ 32 ≤ (s.cx.rm f.ma.toNat).toNat) :
    exec (.lapin f) s = .next (takeTrap { cause := .paramRange, slot := 2 } s) := by
  rw [exec_lapin, execLapin, opLapin_on hg, if_pos h, trapM, finish_trap]

theorem exec_lapin_foreign (h : (s.cx.rm f.ma.toNat).toNat < 2 ^ 32) (hpin : (pinOf s).getLsbD 48 = true)
    (hasid : (pinOf s).toNat / 2 ^ 32 % 2 ^ 16 ≠ s.cx.asid) :
    exec (.lapin f) s = .next (takeTrap { cause := .spaceForeign, slot := 2 } s) := by
  rw [exec_lapin, execLapin, opLapin_on hg, if_neg (Nat.not_le.2 h), if_pos ⟨hpin, hasid⟩, trapM, finish_trap]

theorem exec_lapin_pins (h : (s.cx.rm f.ma.toNat).toNat < 2 ^ 32) (hasid : s.cx.asid < 2 ^ 16)
    (hfree : (pinOf s).getLsbD 48 = false ∨ (pinOf s).toNat / 2 ^ 32 % 2 ^ 16 = s.cx.asid) :
    exec (.lapin f) s = .next (withPin s (BitVec.ofNat 64 (2 ^ 48 + s.cx.asid * 2 ^ 32 + (s.cx.rm f.ma.toNat).toNat))) := by
  have hmine : ¬ ((pinOf s).getLsbD 48 = true ∧ (pinOf s).toNat / 2 ^ 32 % 2 ^ 16 ≠ s.cx.asid) := by
    rintro ⟨hset, hother⟩
    exact hfree.elim (fun hclear => Bool.false_ne_true (hclear.symm.trans hset)) hother
  rw [exec_lapin, execLapin, opLapin_on hg, if_neg (Nat.not_le.2 h), if_neg hmine, finish_ok, Nat.mod_eq_of_lt hasid,
    Nat.mod_eq_of_lt h]

theorem exec_lapinRel_on : exec (.lapinRel f) s = .next (withPin s 0) := by
  rw [exec_lapinRel, execLapinRel, opLapinRel, if_pos hg, finish_ok]
  rfl

end

/-! ### TCONS (R235, R293) -/

section
variable {s : State} {t : MS} (hg : s.cx.guard t.gp = true)
include hg

theorem holdTcons_on : holdTcons t s =
    if s.behind s.cur s.cx.iss = true ∨ (s.tile (s.cur / 2)).chan (immUM t.imm t.ext % 16) = [] then some s else none := by
  rw [holdTcons, hg, tconsCh, immU_eq_immUM]
  simp only [Bool.true_and, Bool.or_eq_true, List.isEmpty_iff, tileOf]

theorem exec_tcons_waits (h : (s.tile (s.cur / 2)).chan (immUM t.imm t.ext % 16) = [] ∨ s.behind s.cur s.cx.iss = true) :
    exec (.tcons t) s = .next s := by
  rw [exec_tcons, execTcons, holdTcons_on hg, if_pos h.symm, finishHold_hold]

theorem exec_tcons_takes (hbuf : s.cx.buf = {}) {v : W64} {rest : List W64}
    (htok : (s.tile (s.cur / 2)).chan (immUM t.imm t.ext % 16) = v :: rest) (hfree : s.behind s.cur s.cx.iss = false) :
    exec (.tcons t) s = .next ((s.setTile (s.cur / 2) { s.tile (s.cur / 2) with
      chans := mapPut (immUM t.imm t.ext % 16) rest (s.tile (s.cur / 2)).chans }).setCx (issued (s.cx.deliverM t.mp v 1).dropLines)) := by
  have hgo : ¬ (s.behind s.cur s.cx.iss = true ∨ (s.tile (s.cur / 2)).chan (immUM t.imm t.ext % 16) = []) := by
    simp [hfree, htok]
  rw [exec_tcons, execTcons, holdTcons_on hg, if_neg hgo, opTcons, hg, tconsCh, immU_eq_immUM, tileOf]
  simp only [htok]
  exact finishHold_setCx hbuf

end

/-- R105, R220, R235, R253, R429: the M operations on registers, channels, JCNT and the pin register. -/
theorem mRegisterResults : MRegisterResults := by
  intro s f x t hbuf c T a pin setPin trap ch
  refine ⟨fun hg => ⟨finish_mreg hg (mrImm_eq_immM f), finish_mreg hg ?_, fun hfn => finish_mreg hg ?_, fun hfn => finish_mreg hg ?_,
      finish_mreg hg rfl, exec_jinit_counts hg, exec_jinit_range hg, exec_lapin_range hg, exec_lapin_foreign hg,
      exec_lapin_pins hg, exec_lapinRel_on hg⟩,
    exec_xferm_on, fun hg => ⟨exec_tcons_waits hg, fun v rest => exec_tcons_takes hg hbuf⟩⟩
  · rw [mrImm_eq_immM, msetHi_eq_ofNat]
  · rw [if_pos hfn, mrImm_eq_immM, BitVec.add_def]
  · rw [if_neg hfn, BitVec.add_def]

/-! ### SSTAT (R196, R244) -/

/-- A command that has not started is not blocked (R244; log entry 83). -/
theorem blocked_unstarted {s : State} {x h : Nat} {k : Cmd} (hstart : k.started = false) : s.blocked x h k = false := by
  rw [State.blocked, if_pos (by simp [Cmd.running, hstart])]

/-- STATE of a handle (R244). -/
def handleState (s : State) (x h : Nat) : Nat :=
  match ((s.ctx x).handle h).cmds with
  | [] => if ((s.ctx x).handle h).cancelled then 4 else 0
  | k :: _ => if k.faulted then 3 else if s.blocked x h k then 2 else 1

theorem handleStatus_eq (s : State) (x h : Nat) : s.handleStatus x h =
    let H := (s.ctx x).handle h
    handleState s x h * 2 ^ 61 + H.op % 256 * 2 ^ 53 + H.queue.length % 128 * 2 ^ 46 + H.flags % 64 * 2 ^ 40 + H.done % 2 ^ 40 := rfl

theorem handleState_empty {s : State} {x h : Nat} (hcmds : ((s.ctx x).handle h).cmds = []) :
    handleState s x h = if ((s.ctx x).handle h).cancelled then 4 else 0 := by
  rw [handleState, hcmds]

theorem handleState_head {s : State} {x h : Nat} {k : Cmd} {rest : List Cmd} (hcmds : ((s.ctx x).handle h).cmds = k :: rest) :
    handleState s x h = if k.faulted then 3 else if s.blocked x h k then 2 else 1 := by
  rw [handleState, hcmds]

section
variable {s : State} {f : MR} (hg : s.cx.guard f.gp = true)
include hg

theorem exec_sstat_handle (hh : f.fn.toNat ≠ 16) : exec (.sstat f) s =
    .next (s.setCx ((s.cx.deliverM f.md (BitVec.ofNat 64 (s.handleStatus s.cur f.fn.toNat)) 2).setHandle f.fn.toNat
      { s.cx.handle f.fn.toNat with flags := 0 })) := by
  rw [exec_sstat, execSstat, opSstat, hg]
  simp only [Bool.not_true, Bool.false_eq_true, if_false, if_neg hh, finish_ok, modCx_eq, cx_setCx, setCx_setCx]
  rfl

theorem exec_sstat_array (hh : f.fn.toNat = 16) : exec (.sstat f) s =
    .next ((s.setCx (s.cx.deliverM f.md (BitVec.ofNat 64 (s.tile (s.cur / 2)).arr.stat) 2)).setTile (s.cur / 2)
      { s.tile (s.cur / 2) with arr := { (s.tile (s.cur / 2)).arr with flags := 0 } }) := by
  rw [exec_sstat, execSstat, opSstat, hg]
  simp only [Bool.not_true, Bool.false_eq_true, if_false, if_pos hh, finish_ok]
  rfl

end

theorem ite_two_pow (b : Bool) (k : Nat) : (if b = true then 2 ^ k else 0) = b.toNat * 2 ^ k := by
  cases b <;> simp

/-- ARSTAT fits its register, and three of its fields (R196). -/
theorem arrStat_fields {A : Arr} (hact : A.act.getD 0 ≤ 1) :
    A.stat < 2 ^ 64 ∧ A.stat % 64 = A.flags % 64 ∧ (A.stat / 2 ^ 17 % 2 = 1 ↔ A.target.isSome = true) ∧
      A.stat / 2 ^ 16 % 2 = A.act.getD 0 := by
  have h1 := Bool.toNat_le (A.img 1).heavy
  have h0 := Bool.toNat_le (A.img 0).heavy
  have ht := Bool.toNat_le A.target.isSome
  rw [Arr.stat, ite_two_pow, ite_two_pow, ite_two_pow, ← Bool.toNat_eq_one]
  refine ⟨?_, ?_, ?_, ?_⟩ <;> omega

theorem getLsbD_ofNat_eq_decide {x k : Nat} (hk : k < 64) : (BitVec.ofNat 64 x).getLsbD k = decide (x / 2 ^ k % 2 = 1) := by
  rw [BitVec.getLsbD_ofNat, decide_eq_true hk, Bool.true_and, Nat.testBit_eq_decide_div_mod_eq]

/-- R196, R244: SSTAT. -/
theorem statusReads : StatusReads := by
  intro s f hg c h H T
  refine ⟨fun hh => ⟨handleState s s.cur h, ?_, handleState_empty, fun k rest hcmds => ⟨fun hf => ?_,
    fun hf hstart => ?_, fun hf _ => ?_⟩⟩, fun hh hact => ⟨BitVec.ofNat 64 T.arr.stat, exec_sstat_array hg hh, ?_⟩⟩
  · rw [exec_sstat_handle hg hh, handleStatus_eq]
    rfl
  · rw [handleState_head hcmds, if_pos hf]
  · rw [handleState_head hcmds, hf, blocked_unstarted hstart]
    rfl
  · rw [handleState_head hcmds, hf]
    cases s.blocked s.cur h k
    · exact .inl rfl
    · exact .inr rfl
  · have hle : T.arr.act.getD 0 ≤ 1 := by
      simp only [List.mem_cons, List.not_mem_nil, or_false] at hact
      obtain hact | hact | hact := hact <;> simp [hact]
    obtain ⟨hlt, hflags, htarget, himage⟩ := arrStat_fields hle
    rw [getLsbD_ofNat_eq_decide (by decide), getLsbD_ofNat_eq_decide (by decide), BitVec.toNat_ofNat, Nat.mod_eq_of_lt hlt, himage,
      decide_eq_true_iff]
    exact ⟨hflags, htarget, fun h1 => by simp [h1], fun h0 => by simp [h0]⟩

/-- Settles O17: the register operations and SSTAT of the M slot. -/
theorem mSlotRegisterResults : Obligations.MSlotRegisterResults := ⟨mRegisterResults, statusReads⟩

end Sys2Proof.Laws

/-! ## Requests to the sync engines and the forms that wait (R309 to R316, R324) -/

namespace Sys2Proof.Laws
open Sys2Proof.Machine

/-! ### A request on its way (R293, R309, R444) -/

section
variable (s : State) (p : W64) (op : SyncOp) (v : W64) (tag : Nat) (ret : Bool)

/-- A request of the current context as it is issued now. -/
def requestOf : SyncReq :=
  { who := .ctx s.cur, asid := s.cx.asid, ptr := p, op := op, v := v, tag := tag, ret := ret, at_ := s.tick }

/-- The state once a request has been made and its context has become `c`: the request waits with the context behind an earlier
access or request, and has else gone to its engine. -/
def requested (c : Ctx) : State :=
  if s.behind s.cur s.cx.iss = true ∨ s.cx.syq ≠ [] then
    s.setCx { c with syq := s.cx.syq ++ [(s.cx.iss, requestOf s p op v tag ret)] }
  else (s.resend (requestOf s p op v tag ret)).setCx c

theorem asks_eq_requested (c : Ctx) : asks s p op v tag ret c = .next (requested s p op v tag ret c) := by
  have hkept : (s.cx.feBefore s.cx.iss = true ∨ s.cx.storeBefore s.cx.iss = true ∨ s.cx.syq ≠ []) ↔
      (s.behind s.cur s.cx.iss = true ∨ s.cx.syq ≠ []) := by
    rw [State.behind, Bool.or_eq_true, or_assoc]
    rfl
  have hpackage : (fld p 32 8).toNat = p.toNat / 2 ^ 32 % 256 := toNat_fld p 32 8
  have hobject : (fld p 3 29).toNat = p.toNat / 8 % 2 ^ 29 := toNat_fld p 3 29
  unfold asks requested
  simp only [hkept]
  split
  · rfl
  · rw [← hpackage, ← hobject]
    rfl

theorem commit_requested {c : Ctx} (hbuf : c.buf = {}) :
    commit (requested s p op v tag ret c) = requested s p op v tag ret (issued c) := by
  unfold requested
  split
  · exact commit_setCx hbuf
  · exact commit_setCx hbuf

/-- An operation that makes a request and then changes its context, which leaves the waiting requests alone. -/
theorem askSync_modCx {f : Ctx → Ctx} (hf : ∀ l, f { s.cx with syq := l } = { f s.cx with syq := l }) :
    (s.askSync { who := .ctx s.cur, asid := s.cx.asid, ptr := p, op := op, v := v, tag := tag, ret := ret }).modCx f =
      requested s p op v tag ret (f s.cx) := by
  have hkept : (s.behind s.cur s.cx.iss || !s.cx.syq.isEmpty) = true ↔ (s.behind s.cur s.cx.iss = true ∨ s.cx.syq ≠ []) := by
    simp
  unfold State.askSync requested
  simp only [hkept]
  split
  · rw [modCx_eq, modCx_eq, cx_setCx, setCx_setCx, hf]
    rfl
  · rfl

/-- The same at the end of its issue. -/
theorem finishHold_askSync {s0 : State} {f : Ctx → Ctx} (hf : ∀ l, f { s.cx with syq := l } = { f s.cx with syq := l })
    (hbuf : (f s.cx).buf = {}) :
    finishHold s0 none (.ok ((s.askSync
      { who := .ctx s.cur, asid := s.cx.asid, ptr := p, op := op, v := v, tag := tag, ret := ret }).modCx f)) =
      asks s p op v tag ret (issued (f s.cx)) := by
  rw [finishHold_ok, askSync_modCx s p op v tag ret hf, commit_requested s p op v tag ret hbuf, asks_eq_requested]

end

/-! ### RELEASE and the atomics (R313, R316) -/

theorem holdSync_room {s : State} (hroom : s.cx.sync ≠ 4095) (guard : Bool) : holdSync guard s = none := by
  simp [holdSync, hroom]

section
variable {s : State} {p : W64} (hobj : s.checkObj p = none) (hbuf : s.cx.buf = {})
include hobj hbuf

/-- A request that returns nothing. -/
theorem finishHold_sendNr (v : W64) (op : SyncOp) : finishHold s none (sendNr true p v op s) =
    asks s p op v 0 false (issued { s.cx with sync := s.cx.sync + 1 }) := by
  simp only [sendNr, hobj]
  exact finishHold_askSync s p op v 0 false (fun _ => rfl) hbuf

/-- The context that waits for the old value of an atomic, for vmD at the next position (R316). -/
def awaiting (s : State) (p : W64) (vd : BitVec 4) : Ctx :=
  { s.cx.push { dst := .vm vd.toNat, val := 0, mask := BitVec.allOnes 512, pos := s.cx.now + 1, slot := 3, arrived := false
                tag := s.cx.reqs + 2, ready := s.tick + (if s.engineOf p = s.cur / 256 then 48 else 88) } with
    sync := s.cx.sync + 1, reqs := s.cx.reqs + 1 }

/-- A request that returns the old value. -/
theorem finishHold_sendRet (htile : s.cur < 512) (v : W64) (op : SyncOp) (vd : BitVec 4) :
    finishHold s none (sendRet true p v op vd s) = asks s p op v (s.cx.reqs + 1) true (issued (awaiting s p vd)) := by
  have hdie : dieOf s.cur = s.cur / 256 := by simp [dieOf, isGal_of_tile htile]
  simp only [sendRet, hobj, hdie]
  exact finishHold_askSync s p op v (s.cx.reqs + 1) true (fun _ => rfl) hbuf

end

/-- R293, R313, R316: the requests that do not wait for their answer. -/
theorem syncRequestResults : SyncRequestResults := by
  intro s f n x k hbuf hroom htile c counted waits pn px pf pk
  refine ⟨fun hg hobj => ⟨?_, ?_⟩, fun hg hobj => ?_, fun hg hobj => ?_, fun hg hobj => ?_⟩
  · rw [exec_release, execRelease, holdSync_room hroom, opRelease, hg, finishHold_sendNr hobj hbuf]
    rfl
  · rw [exec_atomnr, execAtomnr, holdSync_room hroom, opAtomnr, hg, finishHold_sendNr hobj hbuf]
    rfl
  · rw [exec_releaseX, execReleaseX, holdReleaseX, holdSync_room hroom, opReleaseX, isGal_of_tile htile, hg]
    exact finishHold_sendNr hobj hbuf _ _
  · rw [exec_atom, execAtom, holdSync_room hroom, opAtom, hg, finishHold_sendRet hobj hbuf htile]
    rfl
  · rw [exec_atomcas, execAtomcas, holdSync_room hroom, opAtomcas, hg, finishHold_sendRet hobj hbuf htile]
    rfl

/-! ### WAIT and ACQUIRE (R110, R312, R314, R324) -/

/-- A waiting form whose guard holds, alone: held, or run to its end. -/
def waitingForm (s : State) (p v : W64) (cond : Nat) (vd : Option (BitVec 4)) (drop : Bool) : Answer :=
  finishHold s (holdCond true p v cond s) (opCond true p vd drop s)

/-- The context of a waiting form that its engine has granted: it holds no more, and the satisfying value is on its way to vmD. -/
def answered (c : Ctx) (vd : Option (BitVec 4)) (o : W64) : Ctx :=
  match vd with
  | some d => ({ c with hold := .none } : Ctx).deliver (.vm d.toNat) (o.setWidth 512) 1 3
  | none => { c with hold := .none }

theorem answered_buf (c : Ctx) (vd : Option (BitVec 4)) (o : W64) : (answered c vd o).buf = c.buf := by
  cases vd <;> rfl

/-- A context without the lines that hold bytes of the regions bound to an object, in a state. -/
def withoutBound (t : State) (q : W64) (c : Ctx) : Ctx :=
  { c with handles := c.handles.map (fun h => (h.1, { h.2 with
      lines := h.2.lines.filter (fun l => !c.binds.any (fun b => b.obj == q && t.boundLine b l)) })) }

/-- R288, R295: what an ACQUIRE drops. -/
theorem dropBound_setCx (s : State) (q : W64) (c : Ctx) : dropBound q (s.setCx c) = s.setCx (withoutBound (s.setCx c) q c) := by
  simp only [dropBound, withoutBound, modCx_eq, cx_setCx, setCx_setCx, List.any_filter]

section
variable {s : State} {p v : W64} {cond : Nat} {vd : Option (BitVec 4)} {drop : Bool}

/-- The request is sent once, when its class has room. -/
theorem waitingForm_sends (hobj : s.checkObj p = none) (hhold : s.cx.hold = .none) (hroom : s.cx.sync ≠ 4095) :
    waitingForm s p v cond vd drop =
      asks s p (.wait cond) v 0 false { s.cx with hold := .wait p cond v, sync := s.cx.sync + 1 } := by
  have hsends : holdCond true p v cond s =
      some (requested s p (.wait cond) v 0 false { s.cx with hold := .wait p cond v, sync := s.cx.sync + 1 }) := by
    simp only [holdCond, hhold, hobj, if_neg hroom]
    exact congrArg some (askSync_modCx s p (.wait cond) v 0 false fun _ => rfl)
  rw [waitingForm, hsends, finishHold_hold, asks_eq_requested]

theorem waitingForm_full (hobj : s.checkObj p = none) (hhold : s.cx.hold = .none) (hfull : s.cx.sync = 4095) :
    waitingForm s p v cond vd drop = .next s := by
  have hholds : holdCond true p v cond s = some s := by
    simp only [holdCond, hhold, hobj, if_pos hfull]
    rfl
  rw [waitingForm, hholds, finishHold_hold]

theorem waitingForm_waits {q w : W64} {k : Nat} (hhold : s.cx.hold = .wait q k w) : waitingForm s p v cond vd drop = .next s := by
  have hholds : holdCond true p v cond s = some s := by
    simp only [holdCond, hhold]
    rfl
  rw [waitingForm, hholds, finishHold_hold]

/-- An answer of a lost link traps (R446). -/
theorem waitingForm_failed (hobj : s.checkObj p = none) {e : Cause} (hhold : s.cx.hold = .failed e) :
    waitingForm s p v cond vd drop = .next (takeTrap { cause := e, slot := 3, addr := p } s) := by
  have hnone : holdCond true p v cond s = none := by
    simp only [holdCond, hhold, ite_self]
  rw [waitingForm, hnone]
  simp only [opCond, hobj, hhold]
  rfl

section
variable (hobj : s.checkObj p = none) {o : W64} {by_ : Option W64} (hhold : s.cx.hold = .granted o by_) (hbuf : s.cx.buf = {})
include hobj hhold

theorem waitingForm_granted : waitingForm s p v cond vd drop = finishHold s none
    (.ok (if drop then dropBound p (s.setCx (answered s.cx vd o)) else s.setCx (answered s.cx vd o))) := by
  have hnone : holdCond true p v cond s = none := by
    simp only [holdCond, hhold, ite_self]
  rw [waitingForm, hnone]
  simp only [opCond, hobj, hhold]
  rfl

include hbuf

theorem waitingForm_granted_keeps :
    waitingForm s p v cond vd false = .next (s.setCx (issued (answered s.cx vd o))) :=
  (waitingForm_granted hobj hhold).trans (finishHold_setCx ((answered_buf ..).trans hbuf))

theorem waitingForm_granted_drops : waitingForm s p v cond vd true =
    let t := s.setCx (answered s.cx vd o)
    .next (t.setCx (issued (withoutBound t p (answered s.cx vd o)))) := by
  rw [waitingForm_granted hobj hhold, if_pos rfl, dropBound_setCx]
  dsimp only
  rw [setCx_setCx]
  exact finishHold_setCx ((answered_buf ..).trans hbuf)

end

end

theorem exec_wait_on {s : State} {f : BSy} (hg : s.cx.guardB f.gp f.gn = true) :
    exec (.wait f) s = waitingForm s (s.cx.rvm f.va.toNat) (operand s f.imm f.vb f.ext) f.fn.toNat (some f.vd) false := by
  rw [exec_wait, execWait, holdWait, opWait, hg]
  rfl

theorem exec_acquire_on {s : State} {f : BSy} (hg : s.cx.guardB f.gp f.gn = true) :
    exec (.acquire f) s =
      waitingForm s (s.cx.rvm f.va.toNat) (operand s f.imm f.vb f.ext) (if f.fn = 0 then 6 else 7) (some f.vd) true := by
  rw [exec_acquire, execAcquire, holdAcquire, opAcquire, hg]
  rfl

theorem exec_acquireX_on {s : State} {x : BPt} (htile : s.cur < 512) (hg : s.cx.guardB x.gp x.gn = true) :
    exec (.acquireX x) s = waitingForm s (s.cx.rvm x.va.toNat) (s.cx.cr 0x53) 5 none true := by
  rw [exec_acquireX, execAcquireX, holdAcquireX, opAcquireX, isGal_of_tile htile, hg]
  rfl

/-- R110, R288, R295, R309, R312, R314, R324, R446: the forms that wait. -/
theorem waitingSyncResults : WaitingSyncResults := by
  intro s f x o by_ hbuf htile c p v px sends got lost dropping acq
  refine ⟨fun hg hobj => ?_, fun hg hobj => ?_⟩
  · rw [exec_wait_on hg, exec_acquire_on hg]
    exact ⟨fun hhold hroom => ⟨waitingForm_sends hobj hhold hroom, waitingForm_sends hobj hhold hroom⟩,
      fun hhold hfull => ⟨waitingForm_full hobj hhold hfull, waitingForm_full hobj hhold hfull⟩,
      fun e hhold => ⟨waitingForm_failed hobj hhold, waitingForm_failed hobj hhold⟩,
      waitingForm_waits, waitingForm_waits,
      fun hhold => ⟨waitingForm_granted_keeps hobj hhold hbuf, waitingForm_granted_drops hobj hhold hbuf⟩⟩
  · rw [exec_acquireX_on htile hg]
    exact ⟨waitingForm_sends hobj, fun e => waitingForm_failed hobj, waitingForm_waits,
      fun hhold => waitingForm_granted_drops hobj hhold hbuf⟩

/-- Settles O9: the requests that the synchronisation operations make, and the forms that wait for their answer. -/
theorem synchronisationOperations : Obligations.SynchronisationOperations := ⟨syncRequestResults, waitingSyncResults⟩

end Sys2Proof.Laws

/-! ## Vector operations that rearrange, convert and quantise (R132 to R136) -/

namespace Sys2Proof.Laws
open Sys2Proof.Machine

/-! ### Delivery of the lanes that an operation names (R91, R127) -/

/-- An operation that gives each of the lanes `ks` its code `g` delivers the values and flags that the codes stand for. -/
theorem deliversLanes_of_codes {s : State} {i : Instr} {vd : BitVec 9} {w L : Nat} {ks : List Nat} {act : Nat → Bool}
    {g : Nat → Coded} {v fl : Nat → Nat} (hw : 0 < w) (hfull : w * (512 / w) = 512)
    (hexec : exec i s = .next (vDeliver vd.toNat L w (ks.map fun k => (k, g k)) s)) (hnd : ks.Nodup)
    (hmem : ∀ k, k ∈ ks ↔ k < 512 / w ∧ act k = true) (hcode : ∀ k, LaneCode w (g k) (v k) (fl k)) :
    DeliversLanes s i vd w L act v fl := by
  let codes := ks.map fun k => (k, g k)
  have hlanes : codes.map (·.1) = ks := by simp [codes, Function.comp_def]
  constructor
  · intro hoff
    have hnone : ks = [] := List.eq_nil_iff_forall_not_mem.mpr fun k hk => by
      obtain ⟨hlt, hact⟩ := (hmem k).mp hk
      simp [hoff k hlt] at hact
    rw [hexec, hnone]
    rfl
  · rintro ⟨j, hj, hact⟩
    have hne : codes ≠ [] := by simpa [codes] using List.ne_nil_of_mem ((hmem j).mpr ⟨hj, hact⟩)
    refine ⟨lanesPend s.cx vd.toNat L w codes, ?_, rfl, rfl, rfl, rfl, rfl, rfl, rfl, fun k hk hact => ?_, fun b hb => ?_,
      fun j => ?_⟩
    · rw [hexec, vDeliver_of_ne_nil hne]
    · have hcodes : (k, g k) ∈ codes := List.mem_map_of_mem ((hmem k).mpr ⟨hk, hact⟩)
      have hfit : w * (k + 1) ≤ 512 := (Nat.mul_le_mul_left w hk).trans hfull.le
      rw [lanesPend, laneOf_packLanes hfit (hlanes ▸ hnd) hcodes, (hcode k).1]
    · have hlane : b / w < 512 / w := by rwa [Nat.div_lt_iff_lt_mul hw, Nat.mul_comm, hfull]
      rw [lanesPend, hlanes, BitVec.getLsbD_ofNat, laneMask_testBit hw, Bool.eq_iff_iff]
      simp [hb, hmem, hlane]
    · rw [lanesPend, packLanes_flags_testBit, decide_eq_decide]
      simp [codes, hmem, and_assoc, (hcode _).2]

/-- The lanes below `n` that a mask names, with every lane from `n` on. -/
theorem mem_low_or_high {on : Nat → Bool} {n N : Nat} (hn : n ≤ N) (k : Nat) :
    k ∈ (List.range n).filter on ++ (List.range N).filter (fun i => decide (n ≤ i)) ↔
      k < N ∧ (if k < n then on k else true) = true := by
  simp only [List.mem_append, List.mem_filter, List.mem_range, decide_eq_true_eq]
  split
  · next hk =>
    have hkN : k < N := by omega
    simp [hk, hkN]
  · next hk => simp [hk, not_lt.mp hk]

/-- An operation that writes zero from lane `n` on, and below it the lanes that its mask names (R133, R139). -/
theorem deliversLanes_zeros_above {s : State} {i : Instr} {vd : BitVec 9} {w L n : Nat} {on : Nat → Bool} {g : Nat → Coded}
    {v fl : Nat → Nat} (hw : 0 < w) (hfull : w * (512 / w) = 512) (hn : n ≤ 512 / w)
    (hexec : exec i s = .next (vDeliver vd.toNat L w (((List.range n).filter on).map (fun k => (k, g k)) ++
      ((List.range (512 / w)).filter (fun k => decide (n ≤ k))).map (fun k => (k, (0, 0)))) s))
    (hcode : ∀ k, LaneCode w (if k < n then g k else (0, 0)) (v k) (fl k)) :
    DeliversLanes s i vd w L (fun k => if k < n then on k else true) v fl := by
  have hlow : ((List.range n).filter on).map (fun k => (k, g k)) =
      ((List.range n).filter on).map (fun k => (k, if k < n then g k else (0, 0))) :=
    List.map_congr_left fun k hk => by rw [if_pos (List.mem_range.mp (List.mem_of_mem_filter hk))]
  have hhigh : ((List.range (512 / w)).filter (fun k => decide (n ≤ k))).map (fun k => (k, ((0, 0) : Coded))) =
      ((List.range (512 / w)).filter (fun k => decide (n ≤ k))).map (fun k => (k, if k < n then g k else (0, 0))) :=
    List.map_congr_left fun k hk => by rw [if_neg (not_lt.mpr (of_decide_eq_true (List.mem_filter.mp hk).2))]
  rw [hlow, hhigh, ← List.map_append] at hexec
  refine deliversLanes_of_codes hw hfull hexec ?_ (mem_low_or_high hn) hcode
  refine (List.nodup_range.filter _).append (List.nodup_range.filter _) fun k hk hk' => ?_
  have hle := of_decide_eq_true (List.mem_filter.mp hk').2
  have hlt := List.mem_range.mp (List.mem_of_mem_filter hk)
  omega

/-- A whole operation delivers its register (R127). -/
theorem finish_vWhole (s : State) (vd : BitVec 9) (L v fl : Nat) :
    finish s (.ok (vWhole vd.toNat L v fl s)) = deliversWhole s vd L v fl := rfl

/-! ### Rearrangement (R132) -/

theorem qLane_eq {f : VR} (h : f.ty.toNat ≤ 13) (c : Ctx) (j : Nat) :
    qLane f c (tyWidth f.ty.toNat) j =
      if j < 512 / tyWidth f.ty.toNat then laneOf (c.rv f.va.toNat) (tyWidth f.ty.toNat) j
      else vbOf f c (tyWidth f.ty.toNat) (j - 512 / tyWidth f.ty.toNat) := by
  rw [qLane, lane_eq_laneOf, vbLane_eq_vbOf h]

/-- A rearrangement delivers in each active lane the element that it names. -/
theorem rearrange_delivers {s : State} {i : Instr} {f : VR} {g : Ctx → Nat → Nat → Nat} {v : Nat → Nat}
    (hty : f.ty.toNat ≤ 13) (hexec : exec i s = finish s (rearrange f g s)) (hv : ∀ k, g s.cx (tyWidth f.ty.toNat) k = v k) :
    DeliversLanes s i f.vd (tyWidth f.ty.toNat) 4 (fun k => (s.cx.rvm f.vm.toNat).getLsbD k) v (fun _ => 0) :=
  deliversLanes_of_vDeliver (tyWidth_pos hty) hexec fun k => laneCode_of_eq (congrArg (·, 0) (hv k))

/-- R132: the rearrangements, and VSEL and VMOV on any width. -/
theorem vectorRearrangeResults : VectorRearrangeResults := by
  intro s f hty c w n a b x q on h lanes
  refine ⟨rearrange_delivers hty (exec_vbcst f s) fun k => lane_eq_laneOf ..,
    rearrange_delivers hty (exec_vperm f s) fun k => ?_,
    rearrange_delivers hty (exec_vslide f s) fun k => qLane_eq hty ..,
    rearrange_delivers hty (exec_vzip f s) fun k => ?_,
    rearrange_delivers hty (exec_vunzip f s) fun k => ?_,
    elementwise_delivers hty (exec_vsel f s) fun k => laneCode_of_eq rfl,
    elementwise_delivers hty (exec_vmov f s) fun k => laneCode_of_eq rfl⟩
  · rw [lane_eq_laneOf]
    exact qLane_eq hty ..
  · simp only [lane_eq_laneOf, vbLane_eq_vbOf hty]
    rfl
  · simp only [lane_eq_laneOf, vbLane_eq_vbOf hty]
    rfl

/-! ### Conversion (R133) -/

/-- Element k of VD as the conversion of element j of VA (R133). -/
def convertedElem (f : VR) (c : Ctx) (j k : Nat) : Coded :=
  convert (decodeVal (f.fn.toNat % 16) (laneOf (c.rv f.va.toNat) (tyWidth (f.fn.toNat % 16)) j)) f.ty.toNat
    (c.rnd f.rm.toNat f.sm.toNat k)

theorem convertRun_eq (f : VR) (n first dst0 : Nat) (zeros : List Nat) (s : State) :
    convertRun f n first dst0 zeros s = .ok (vDeliver f.vd.toNat 4 (tyWidth f.ty.toNat)
      (((List.range n).filter (fun i => s.cx.on f.vm (dst0 + i))).map (fun i =>
        (dst0 + i, convertedElem f s.cx (first + i) (dst0 + i))) ++ zeros.map (fun i => (i, (0, 0)))) s) := by
  simp only [convertRun, convertedElem, lane_eq_laneOf]

/-- Whole parts of a register of the narrow type hold the elements of one register of the wide type (R133). -/
theorem pack_part_le {ws wd Q : Nat} (hfull : ws * (512 / ws) = 512) (hwd : 0 < wd) (hQ : Q < ws / wd) :
    512 / ws * Q + 512 / ws ≤ 512 / wd := by
  rw [← Nat.mul_succ, Nat.le_div_iff_mul_le hwd]
  calc 512 / ws * (Q + 1) * wd ≤ 512 / ws * (ws / wd) * wd := Nat.mul_le_mul_right _ (Nat.mul_le_mul_left _ hQ)
    _ = 512 / ws * (ws / wd * wd) := Nat.mul_assoc ..
    _ ≤ 512 / ws * ws := Nat.mul_le_mul_left _ (Nat.div_mul_le_self ..)
    _ = 512 := by rw [Nat.mul_comm, hfull]

section
variable {s : State} {f : VR} (hty : f.ty.toNat ≤ 13)
include hty

theorem vcvt_delivers :
    let wd := tyWidth f.ty.toNat
    let n := 512 / max (tyWidth (f.fn.toNat % 16)) wd
    DeliversLanes s (.vcvt f) f.vd wd 4 (fun k => if k < n then (s.cx.rvm f.vm.toNat).getLsbD k else true)
      (fun k => (if k < n then convertedElem f s.cx k k else (0, 0)).1)
      (fun k => (if k < n then convertedElem f s.cx k k else (0, 0)).2) := by
  intro wd n
  have hw : 0 < wd := tyWidth_pos hty
  refine deliversLanes_zeros_above hw (tyWidth_mul_div _ hw) (Nat.div_le_div_left (le_max_right ..) hw) ?_
    fun k => laneCode_of_eq rfl
  rw [exec_vcvt, execVcvt, opVcvt, convertRun_eq, finish_ok]
  simp only [Nat.zero_add]
  rfl

theorem vwiden_delivers :
    let wd := tyWidth f.ty.toNat
    DeliversLanes s (.vwiden f) f.vd wd 4 (fun k => (s.cx.rvm f.vm.toNat).getLsbD k)
      (fun k => (convertedElem f s.cx (512 / wd * (f.fn.toNat / 16) + k) k).1)
      (fun k => (convertedElem f s.cx (512 / wd * (f.fn.toNat / 16) + k) k).2) := by
  intro wd
  refine deliversLanes_of_vDeliver (tyWidth_pos hty) ?_ fun k => laneCode_of_eq rfl
  rw [exec_vwiden, execVwiden, opVwiden, convertRun_eq, finish_ok]
  simp only [Nat.zero_add, List.map_nil, List.append_nil]
  rfl

theorem vpack_delivers (hS : f.fn.toNat % 16 ≤ 13)
    (hQ : f.fn.toNat / 16 < tyWidth (f.fn.toNat % 16) / tyWidth f.ty.toNat) :
    let n := 512 / tyWidth (f.fn.toNat % 16)
    let d := n * (f.fn.toNat / 16)
    DeliversLanes s (.vpack f) f.vd (tyWidth f.ty.toNat) 4
      (fun k => decide (d ≤ k ∧ k < d + n) && (s.cx.rvm f.vm.toNat).getLsbD k)
      (fun k => (convertedElem f s.cx (k - d) k).1) (fun k => (convertedElem f s.cx (k - d) k).2) := by
  intro n d
  have hw : 0 < tyWidth f.ty.toNat := tyWidth_pos hty
  have hws : 0 < tyWidth (f.fn.toNat % 16) := tyWidth_pos hS
  have hpart : d + n ≤ 512 / tyWidth f.ty.toNat := pack_part_le (tyWidth_mul_div _ hws) hw hQ
  refine deliversLanes_of_codes (ks := ((List.range n).filter (fun i => s.cx.on f.vm (d + i))).map (d + ·))
    (g := fun k => convertedElem f s.cx (k - d) k) hw (tyWidth_mul_div _ hw) ?_
    ((List.nodup_range.filter _).map (add_right_injective d)) (fun k => ?_) fun k => laneCode_of_eq rfl
  · rw [exec_vpack, execVpack, opVpack, convertRun_eq, finish_ok]
    simp only [Nat.zero_add, List.map_nil, List.append_nil, List.map_map, Function.comp_def, Nat.add_sub_cancel_left]
    rfl
  · simp only [List.mem_map, List.mem_filter, List.mem_range, Bool.and_eq_true, decide_eq_true_eq]
    constructor
    · rintro ⟨i, ⟨hi, hon⟩, rfl⟩
      exact ⟨by omega, ⟨by omega, by omega⟩, hon⟩
    · rintro ⟨-, ⟨hlo, hhi⟩, hon⟩
      exact ⟨k - d, ⟨by omega, by rwa [Nat.add_sub_cancel' hlo]⟩, Nat.add_sub_cancel' hlo⟩

end

/-! ### Quantisation (R134 to R136) -/

theorem runElem_eq_runOf (c : Ctx) (v w j : Nat) : runElem c v w j = runOf c v w j := lane_eq_laneOf ..

theorem scaleArg_eq_vbOf (f : VR) (c : Ctx) : scaleArg f c = vbOf f c 8 0 := vbLane_eq_vbOf (t := tyE4) (by decide) f c 0

/-- A block element under scale code 0 is the type's zero, with BZ and what its value asks (R88). -/
theorem lQnt_eq {t : Nat} (ht : t ≤ 6) (code : Nat) (r : Rnd) (v : FV) : lQnt t code r v =
    if code = 0 then (if t = tyT8 then 8 else 0,
      fBZ + (if v.isNan then fNV else if v.isInf then fOF else if v.isZero then 0 else fNX))
    else quantElem t code r v := by
  have hzero : zeroCode t false = if t = tyT8 then 8 else 0 := by
    interval_cases t <;> rfl
  rw [lQnt, hzero]

/-- R133 to R136: the conversions and the quantisers. -/
theorem vectorConvertResults : VectorConvertResults := by
  intro s f c t S Q wd ws on src r cv lanes code
  refine ⟨fun ht hS => ⟨vcvt_delivers ht, fun _ => vwiden_delivers ht, fun _ hQ => vpack_delivers ht hS hQ⟩,
    fun ht _ _ => ⟨?_, ?_⟩, fun _ ht _ => ?_⟩
  · simp only [exec_vamax, execVamax, opVamax, runElem_eq_runOf]
    exact finish_vWhole ..
  · refine deliversLanes_of_vDeliver (tyWidth_pos (by omega)) (exec_vdqnt f s) fun k => laneCode_of_eq ?_
    rw [lane_eq_laneOf, scaleArg_eq_vbOf]
  · refine deliversLanes_of_vDeliver (t := tyE4) (by decide) (exec_vqnt f s) fun k => laneCode_of_eq ?_
    rw [runElem_eq_runOf, scaleArg_eq_vbOf, lQnt_eq ht]

/-- Settles O11: each operation delivers its lanes, from the elements it names. -/
theorem vectorRearrangeAndConvert : Obligations.VectorRearrangeAndConvert := ⟨vectorRearrangeResults, vectorConvertResults⟩

end Sys2Proof.Laws

/-! ## Reductions (R137) -/

namespace Sys2Proof.Laws
open Sys2Proof.Machine

/-! ### Reductions on integers -/

/-- A running sum is the sum of its terms. -/
theorem foldl_add_eq_sum {α : Type} (g : α → Int) (l : List α) : l.foldl (fun x a => x + g a) 0 = (l.map g).sum := by
  rw [List.sum_eq_foldl, List.foldl_map]

/-- What VRMAX and VRMIN look for the greatest of (R137). -/
def redKey (isMax : Bool) (t x : Nat) : Int := if isMax then intVal t x else -intVal t x

theorem lMinMax_int {t : Nat} (ht : 6 ≤ t) (isMax : Bool) (a b : Nat) :
    lMinMax isMax t a b = (if redKey isMax t a < redKey isMax t b then b else a, 0) := by
  cases isMax <;> simp [lMinMax, isFP_of_int ht, redKey]

/-- A fold that keeps the better of two ends with the best. -/
theorem foldl_better {key : Nat → Int} {pick : Nat → Nat → Nat} (hpick : ∀ a b, pick a b = if key a < key b then b else a)
    (x : Nat) (l : List Nat) : l.foldl pick x ∈ x :: l ∧ ∀ z ∈ x :: l, key z ≤ key (l.foldl pick x) := by
  induction l generalizing x with
  | nil => simp
  | cons y t ih =>
    obtain ⟨hmem, hbest⟩ := ih (pick x y)
    have hkept : pick x y = x ∨ pick x y = y := by rw [hpick]; split <;> simp
    have hx : key x ≤ key (pick x y) := by rw [hpick]; split <;> omega
    have hy : key y ≤ key (pick x y) := by rw [hpick]; split <;> omega
    have hhead := hbest _ List.mem_cons_self
    rw [List.foldl_cons]
    constructor
    · rw [List.mem_cons] at hmem
      obtain hmem | hmem := hmem
      · rw [hmem]
        obtain h | h := hkept <;> simp [h]
      · simp [hmem]
    · intro z hz
      rw [List.mem_cons, List.mem_cons] at hz
      obtain rfl | rfl | hz := hz
      · exact hx.trans hhead
      · exact hy.trans hhead
      · exact hbest z (List.mem_cons_of_mem _ hz)

theorem intVal_injective {t a b : Nat} (ht : 6 ≤ t) (ha : a < 2 ^ tyWidth t) (hb : b < 2 ^ tyWidth t)
    (h : intVal t a = intVal t b) : a = b := by
  rw [intVal_eq_laneInt ht ha, intVal_eq_laneInt ht hb] at h
  rw [← wrapInt_laneInt ha, h, wrapInt_laneInt hb]

/-- VRMAX and VRMIN answer the code that no other is better than (R137). -/
theorem redMinMax_best {isMax : Bool} {t y : Nat} {xs : List Nat} (ht : 6 ≤ t) (hlt : ∀ x ∈ xs, x < 2 ^ tyWidth t)
    (hy : y ∈ xs) (hbest : ∀ x ∈ xs, redKey isMax t x ≤ redKey isMax t y) : redMinMax isMax t xs = (y, 0) := by
  obtain ⟨x, l, rfl⟩ := List.exists_cons_of_ne_nil (List.ne_nil_of_mem hy)
  obtain ⟨hmem, hle⟩ := foldl_better (key := redKey isMax t) (pick := fun a b => (lMinMax isMax t a b).1)
    (fun a b => congrArg Prod.fst (lMinMax_int ht isMax a b)) x l
  have hred : redMinMax isMax t (x :: l) = (l.foldl (fun a b => (lMinMax isMax t a b).1) x, 0) := by
    rw [redMinMax, isFP_of_int ht]
    rfl
  have hkey := le_antisymm (hbest _ hmem) (hle y hy)
  have hval : intVal t (l.foldl (fun a b => (lMinMax isMax t a b).1) x) = intVal t y := by
    cases isMax with
    | true => exact hkey
    | false => exact neg_injective hkey
  rw [hred, intVal_injective ht (hlt _ hmem) (hlt y hy) hval]

/-- VRMAX of no participant is the least integer of the type (R137). -/
theorem redMinMax_max_nil {t : Nat} (ht : 6 ≤ t) (ht' : t ≤ 13) :
    redMinMax true t [] = (if t ≤ 9 then 2 ^ (tyWidth t - 1) else 0, 0) := by
  interval_cases t <;> rfl

/-- VRMIN of no participant is the greatest integer of the type (R137). -/
theorem redMinMax_min_nil {t : Nat} (ht : 6 ≤ t) (ht' : t ≤ 13) :
    redMinMax false t [] = (if t ≤ 9 then 2 ^ (tyWidth t - 1) - 1 else 2 ^ tyWidth t - 1, 0) := by
  interval_cases t <;> rfl

/-! ### Reductions on F32, F16 and B16 -/

/-- In a format with infinities SM decides nothing (R70). -/
theorem roundFloat_sm {t : Nat} (ht : t ≤ 2) (r : Rnd) (sm : Nat) (neg : Bool) (x : Mag) :
    roundFloat t { r with sm := sm } neg x = roundFloat t r neg x := by
  have hinf : hasInf t = true := bne_iff_ne.mpr (ne_tyE4 ht)
  simp only [roundFloat, overflowFloat, hinf, if_true]
  rfl

theorem roundMag_sm {t : Nat} (ht : t ≤ 2) (r : Rnd) (sm : Nat) (neg : Bool) (x : Mag) :
    roundMag t { r with sm := sm } neg x = roundMag t r neg x := by
  have hfloat : isFloat t = true := decide_eq_true (by omega)
  simp only [roundMag, hfloat, if_true, roundFloat_sm ht]

theorem sumTerms_sm {t : Nat} (ht : t ≤ 2) (r : Rnd) (sm : Nat) (vs : List FV) :
    sumTerms t { r with sm := sm } vs = sumTerms t r vs := by
  simp only [sumTerms, roundMag_sm ht]

theorem redSum_sm {t : Nat} (ht : t ≤ 2) (r : Rnd) (sm : Nat) (vs : List FV) :
    redSum t { r with sm := sm } vs = redSum t r vs := by
  simp only [redSum, sumTerms_sm ht]

theorem redDot_sm (r : Rnd) (sm : Nat) (ps : List (FV × FV)) : redDot { r with sm := sm } ps = redDot r ps := by
  simp only [redDot, sumTerms_sm (t := tyF32) (by decide)]

/-! ### What the reductions deliver -/

/-- The participants of a reduction: its active lanes (R137). -/
def participants (f : VR) (c : Ctx) : List Nat := c.lanes f.vm (512 / tyWidth f.ty.toNat)

section
variable (s : State) (f : VR)

theorem exec_vrsum_int (ht : 6 ≤ f.ty.toNat) : exec (.vrsum f) s = deliversWhole s f.vd 6
    (wrapInt ((participants f s.cx).map (fun k =>
      laneInt f.ty.toNat (laneOf (s.cx.rv f.va.toNat) (tyWidth f.ty.toNat) k))).sum 64) 0 := by
  rw [exec_vrsum, execVrsum, opVrsum]
  simp only [isFP_of_int ht, foldl_add_eq_sum, List.map_map, Function.comp_def, lane_eq_laneOf, intVal_eq_laneInt ht (laneOf_lt ..)]
  exact finish_vWhole ..

theorem exec_vrdot_int (ht : 6 ≤ f.ty.toNat) (ht' : f.ty.toNat ≤ 13) : exec (.vrdot f) s = deliversWhole s f.vd 6
    (wrapInt ((participants f s.cx).map (fun k =>
      laneInt f.ty.toNat (laneOf (s.cx.rv f.va.toNat) (tyWidth f.ty.toNat) k) *
        laneInt f.ty.toNat (vbOf f s.cx (tyWidth f.ty.toNat) k))).sum 64) 0 := by
  rw [exec_vrdot, execVrdot, opVrdot]
  simp only [isFP_of_int ht, foldl_add_eq_sum, List.map_map, Function.comp_def, lane_eq_laneOf, vbLane_eq_vbOf ht',
    intVal_eq_laneInt ht (laneOf_lt ..), intVal_eq_laneInt ht (vbOf_lt ..)]
  exact finish_vWhole ..

theorem exec_vrsum_fp (ht : f.ty.toNat ≤ 2) : exec (.vrsum f) s =
    (let x := redSum f.ty.toNat (s.cx.rnd f.rm.toNat f.sm.toNat 0) ((participants f s.cx).map (fun k =>
        decodeFloat f.ty.toNat (laneOf (s.cx.rv f.va.toNat) (tyWidth f.ty.toNat) k)))
     deliversWhole s f.vd 6 x.1 x.2) := by
  have hsm := redSum_sm ht (s.cx.rnd f.rm.toNat 0 0) f.sm.toNat
  rw [exec_vrsum, execVrsum, opVrsum]
  simp only [isFP_of_le ht, if_true, List.map_map, Function.comp_def, lane_eq_laneOf, ← hsm]
  exact finish_vWhole ..

theorem exec_vrdot_fp (ht : f.ty.toNat ≤ 2) : exec (.vrdot f) s =
    (let x := redDot (s.cx.rnd f.rm.toNat f.sm.toNat 0) ((participants f s.cx).map (fun k =>
        (decodeFloat f.ty.toNat (laneOf (s.cx.rv f.va.toNat) (tyWidth f.ty.toNat) k),
          decodeFloat f.ty.toNat (vbOf f s.cx (tyWidth f.ty.toNat) k))))
     deliversWhole s f.vd 6 x.1 x.2) := by
  have hty : f.ty.toNat ≤ 13 := by omega
  have hsm := redDot_sm (s.cx.rnd f.rm.toNat 0 0) f.sm.toNat
  rw [exec_vrdot, execVrdot, opVrdot]
  simp only [isFP_of_le ht, if_true, List.map_map, Function.comp_def, lane_eq_laneOf, vbLane_eq_vbOf hty, ← hsm]
  exact finish_vWhole ..

theorem opRedMM_eq (isMax : Bool) : finish s (opRedMM isMax f s) =
    (let x := redMinMax isMax f.ty.toNat ((participants f s.cx).map (laneOf (s.cx.rv f.va.toNat) (tyWidth f.ty.toNat)))
     deliversWhole s f.vd 6 x.1 x.2) := by
  simp only [opRedMM, lane_eq_laneOf]
  exact finish_vWhole ..

end

/-- The extreme of integer participants is delivered as it stands (R137). -/
theorem opRedMM_best {s : State} {f : VR} {isMax : Bool} (ht : 6 ≤ f.ty.toNat) {k : Nat} (hk : k ∈ participants f s.cx)
    (hbest : ∀ j ∈ participants f s.cx, redKey isMax f.ty.toNat (laneOf (s.cx.rv f.va.toNat) (tyWidth f.ty.toNat) j) ≤
      redKey isMax f.ty.toNat (laneOf (s.cx.rv f.va.toNat) (tyWidth f.ty.toNat) k)) :
    finish s (opRedMM isMax f s) = deliversWhole s f.vd 6 (laneOf (s.cx.rv f.va.toNat) (tyWidth f.ty.toNat) k) 0 := by
  rw [opRedMM_eq, redMinMax_best ht (List.forall_mem_map.mpr fun j _ => laneOf_lt ..) (List.mem_map_of_mem hk)
    (List.forall_mem_map.mpr hbest)]

/-- Settles O12: the reductions on integers are sums and extremes over the participants, and those on FP types the model's. -/
theorem vectorReductionResults : Obligations.VectorReductionResults := by
  intro s f hty c t w part a b r iv
  have hval : ∀ (ht : 6 ≤ t) k, intVal t (a k) = iv (a k) := fun ht k => intVal_eq_laneInt ht (laneOf_lt ..)
  refine ⟨fun ht => ⟨exec_vrsum_int s f ht, exec_vrdot_int s f ht hty, fun k hk hmax => ?_, fun k hk hmin => ?_,
      fun hnone => ?_⟩,
    fun ht => ⟨exec_vrsum_fp s f ht, exec_vrdot_fp s f ht, opRedMM_eq s f true, opRedMM_eq s f false⟩⟩
  · refine opRedMM_best (isMax := true) ht hk fun j hj => ?_
    change intVal t (a j) ≤ intVal t (a k)
    rw [hval ht, hval ht]
    exact hmax j hj
  · refine opRedMM_best (isMax := false) ht hk fun j hj => ?_
    change -intVal t (a j) ≤ -intVal t (a k)
    rw [hval ht, hval ht]
    exact neg_le_neg (hmin j hj)
  · have hempty : participants f s.cx = [] := hnone
    rw [exec_vrmax, exec_vrmin, execVrmax, execVrmin, opVrmax, opVrmin, opRedMM_eq, opRedMM_eq, hempty, List.map_nil,
      redMinMax_max_nil ht hty, redMinMax_min_nil ht hty]
    exact ⟨rfl, rfl⟩

end Sys2Proof.Laws

/-! ## Accumulators and the loss scale (R138, R139, R145 to R147) -/

namespace Sys2Proof.Laws
open Sys2Proof.Machine

/-! ### Long accumulators and XFERV (R138, R139, R145) -/

/-- An accumulator of a register is its lane of 128 bits (R81). -/
theorem extractLsb'_eq_laneOf (x : W512) (w k : Nat) : x.extractLsb' (w * k) w = BitVec.ofNat w (laneOf x w k) := by
  apply BitVec.eq_of_toNat_eq
  rw [BitVec.toNat_ofNat, laneOf, Nat.mod_mod, BitVec.extractLsb'_toNat, Nat.shiftRight_eq_div_pow]

/-- The accumulator k that VLACC adds into: the register's, or an empty one (R138). -/
def vlaccAcc (f : VR) (c : Ctx) (k : Nat) : LA :=
  if f.fn.toNat / 32 = 1 then LA.empty else LA.decode (BitVec.ofNat 128 (laneOf (c.rv f.vd.toNat) 128 k))

/-- The elements of VA, and of VB, in the group of accumulator k (R138). -/
def vlaccA (f : VR) (c : Ctx) (k : Nat) : List FV :=
  let S := f.fn.toNat % 16
  let g := 512 / tyWidth S / 4
  (List.range g).map (fun i => decodeFloat S (laneOf (c.rv f.va.toNat) (tyWidth S) (g * k + i)))
def vlaccB (f : VR) (c : Ctx) (k : Nat) : List FV :=
  let S := f.fn.toNat % 16
  let g := 512 / tyWidth S / 4
  (List.range g).map (fun i => decodeFloat S (vbOf f c (tyWidth S) (g * k + i)))

/-- What VLACC makes of accumulator k and the products of its group: a NaN where an element is one, else the sum (R138). -/
def vlaccProducts (f : VR) (c : Ctx) (k : Nat) : LA × Nat :=
  let flat := vlaccA f c k ++ vlaccB f c k
  let ps := ((vlaccA f c k).zip (vlaccB f c k)).map (fun p => prodVal p.1 p.2)
  if flat.any (·.isNan) then (LA.nan, sigFlag flat ||| (if ps.any (·.isNone) then fNV else 0))
  else laAddSum (vlaccAcc f c k) (ps.filterMap id) (ps.any (·.isNone))

/-- The code that VLACC delivers for accumulator k. -/
def vlaccCode (f : VR) (c : Ctx) (k : Nat) : Coded :=
  let r := if f.fn.toNat / 16 % 2 = 1 then vlaccProducts f c k else laAddSum (vlaccAcc f c k) (vlaccA f c k) false
  (r.1.encode.toNat, r.2)

theorem vlacc_delivers {s : State} {f : VR} (hS : f.fn.toNat % 16 ≤ 13) :
    DeliversLanes s (.vlacc f) f.vd 128 6 (fun k => (s.cx.rvm f.vm.toNat).getLsbD k)
      (fun k => (vlaccCode f s.cx k).1) (fun k => (vlaccCode f s.cx k).2) := by
  refine deliversLanes_of_vDeliver (t := tyLA) (by decide) ?_ fun k => laneCode_of_eq rfl
  rw [exec_vlacc, execVlacc, opVlacc]
  simp only [extractLsb'_eq_laneOf, lane_eq_laneOf, vbLane_eq_vbOf hS]
  rfl

/-- Where no element is a NaN and no product invalid, VLACC adds the products (R138). -/
theorem vlaccProducts_eq {f : VR} {c : Ctx} {k : Nat} {ps : List FV} (ha : ∀ x ∈ vlaccA f c k, x.isNan = false)
    (hb : ∀ x ∈ vlaccB f c k, x.isNan = false)
    (hps : ((vlaccA f c k).zip (vlaccB f c k)).map (fun p => prodVal p.1 p.2) = ps.map some) :
    vlaccProducts f c k = laAddSum (vlaccAcc f c k) ps false := by
  have hnan : (vlaccA f c k ++ vlaccB f c k).any (·.isNan) = false := by
    rw [List.any_eq_false]
    intro x hx
    rw [Bool.not_eq_true]
    exact (List.mem_append.mp hx).elim (ha x) (hb x)
  have hvalid : (ps.map some).any (·.isNone) = false := by simp
  rw [vlaccProducts, hnan, hps, hvalid, List.filterMap_map]
  simp

theorem vlarnd_delivers {s : State} {f : VR} (ht : f.ty.toNat ≤ 13) :
    let out := fun k => (LA.decode (BitVec.ofNat 128 (laneOf (s.cx.rv f.va.toNat) 128 k))).read f.ty.toNat
      (s.cx.rnd f.rm.toNat f.sm.toNat k)
    DeliversLanes s (.vlarnd f) f.vd (tyWidth f.ty.toNat) 4 (fun k => if k < 4 then (s.cx.rvm f.vm.toNat).getLsbD k else true)
      (fun k => if k < 4 then (out k).1 else 0) (fun k => if k < 4 then (out k).2 else 0) := by
  intro out
  have hw : 0 < tyWidth f.ty.toNat := tyWidth_pos ht
  have hwide : tyWidth f.ty.toNat ≤ 64 := by
    generalize f.ty.toNat = t at ht
    interval_cases t <;> decide
  have hfour : 4 ≤ 512 / tyWidth f.ty.toNat := by
    rw [Nat.le_div_iff_mul_le hw]
    omega
  refine deliversLanes_zeros_above (g := out) hw (tyWidth_mul_div _ hw) hfour ?_ fun k => laneCode_of_eq ?_
  · rw [exec_vlarnd, execVlarnd, opVlarnd]
    simp only [extractLsb'_eq_laneOf]
    rfl
  · split
    · rfl
    · rfl

/-- R145: one lane, or all. -/
theorem xferv_delivers {s : State} {x : VX} (ht : x.ty.toNat ≤ 13)
    (hlane : x.bc = 0 → x.lane.toNat < 512 / tyWidth x.ty.toNat) :
    DeliversLanes s (.xferv x) x.vd (tyWidth x.ty.toNat) 2
      (fun k => (x.bc == 1 || k == x.lane.toNat) && (s.cx.rvm x.vm.toNat).getLsbD k)
      (fun _ => (s.cx.ra x.src).toNat) (fun _ => 0) := by
  have hw : 0 < tyWidth x.ty.toNat := tyWidth_pos ht
  refine deliversLanes_of_codes
    (ks := (if x.bc = 0 then [x.lane.toNat] else List.range (512 / tyWidth x.ty.toNat)).filter (s.cx.on x.vm))
    hw (tyWidth_mul_div _ hw) (exec_xferv x s) (List.Nodup.filter _ ?_) (fun k => ?_) fun k => ⟨Nat.mod_mod _ _, rfl⟩
  · split
    · exact List.nodup_singleton _
    · exact List.nodup_range
  · by_cases hone : x.bc = 0
    · have hbc : (x.bc == 1) = false := by rw [hone]; rfl
      simp only [if_pos hone, hbc, Bool.false_or, List.mem_filter, List.mem_singleton, Bool.and_eq_true, beq_iff_eq]
      exact ⟨fun ⟨hk, hon⟩ => ⟨hk ▸ hlane hone, hk, hon⟩, fun ⟨_, hk⟩ => hk⟩
    · have hbc : (x.bc == 1) = true := beq_iff_eq.mpr ((BitVec.eq_zero_or_eq_one x.bc).resolve_left hone)
      simp only [if_neg hone, hbc, Bool.true_or, Bool.true_and, List.mem_filter, List.mem_range]
      rfl

/-! ### The loss-scale state (R146, R147) -/

/-- Field k of a state of 32-bit fields. -/
def wordOf (x k : Nat) : Nat := x / 2 ^ (32 * k) % 2 ^ 32

theorem wordOf_lt (x k : Nat) : wordOf x k < 2 ^ 32 := Nat.mod_lt _ (Nat.two_pow_pos 32)

theorem u32_eq_wordOf (v : W512) (k : Nat) : u32 v (32 * k) = wordOf v.toNat k := by
  rw [u32, wordOf, BitVec.extractLsb'_toNat, Nat.shiftRight_eq_div_pow]

/-- Field k read with its sign. -/
def signedWord (v : W512) (k : Nat) : Int := sext (wordOf v.toNat k) 32

theorem s32_eq_signedWord (v : W512) (k : Nat) : s32 v (32 * k) = signedWord v k := by
  have hlt := wordOf_lt v.toNat k
  have hword : (v.extractLsb' (32 * k) 32).toNat = wordOf v.toNat k := u32_eq_wordOf v k
  rw [s32, signedWord, BitVec.toInt_eq_toNat_cond, hword, sext_of_lt (by decide) hlt]
  split <;> split <;> omega

/-- The fields of a number put together from them. -/
theorem wordOf_ofDigits {l : List Nat} (h : ∀ a ∈ l, a < 2 ^ 32) (k : Nat) :
    wordOf (Nat.ofDigits (2 ^ 32) l) k = l.getD k 0 := by
  induction l generalizing k with
  | nil => simp [wordOf]
  | cons a t ih =>
    have ha : a < 2 ^ 32 := h a List.mem_cons_self
    rw [Nat.ofDigits_cons]
    cases k with
    | zero => simpa [wordOf] using ha
    | succ n =>
      have hrest : (a + 2 ^ 32 * Nat.ofDigits (2 ^ 32) t) / 2 ^ 32 = Nat.ofDigits (2 ^ 32) t := by omega
      rw [wordOf, Nat.mul_succ, Nat.add_comm (32 * n), Nat.pow_add, ← Nat.div_div_eq_div_mul]
      simp only [hrest]
      exact ih (fun b hb => h b (List.mem_cons_of_mem _ hb)) n

/-- E within its bounds (R147). -/
def lossE (v : W512) : Int := min (max (signedWord v 0) (signedWord v 1)) (signedWord v 2)

/-- The count of clean steps after a clean one, and whether it reaches the growth interval (R147). -/
def lossClean (v : W512) : Nat := min (wordOf v.toNat 4 + 1) (2 ^ 32 - 1)
def lossGrows (v : W512) : Bool := decide (max (wordOf v.toNat 3) 1 ≤ lossClean v)

/-- The new E (R147). -/
def lossNext (v : W512) (ovf : Bool) : Int :=
  let e := lossE v
  if ovf = true then (if signedWord v 1 < e then e - 1 else e)
  else if lossGrows v = true ∧ e < signedWord v 2 then e + 1 else e

/-- The new HELD and FLOOR (R147). -/
def lossHeld (v : W512) (ovf : Bool) : Bool :=
  (decide (lossNext v ovf = signedWord v 0) && bitOf v.toNat 192) ||
    (!ovf && lossGrows v && decide (signedWord v 2 ≤ lossE v))
def lossFloor (v : W512) (ovf : Bool) : Bool :=
  (decide (lossNext v ovf = signedWord v 0) && bitOf v.toNat 193) ||
    (ovf && decide (lossE v ≤ signedWord v 1))

/-- The new count of skipped steps at the floor (R147). -/
def lossSkipped (v : W512) (ovf : Bool) : Nat :=
  if ovf = true ∧ lossE v ≤ signedWord v 1 then min (wordOf v.toNat 5 + 1) (2 ^ 32 - 1) else wordOf v.toNat 5

/-- The fields that an update under legal bounds leaves (R147). -/
def lossWords (v : W512) (ovf : Bool) : List Nat :=
  [wrapInt (lossNext v ovf) 32, wordOf v.toNat 1, wordOf v.toNat 2, wordOf v.toNat 3,
   if ovf = true ∨ lossGrows v = true then 0 else lossClean v,
   lossSkipped v ovf, (lossHeld v ovf).toNat + 2 * (lossFloor v ovf).toNat, (lossNext v ovf + 127).toNat * 2 ^ 23]

/-- Bounds that R147 refuses. -/
def LossBad (v : W512) : Prop :=
  let lo := signedWord v 1
  let hi := signedWord v 2
  hi < lo ∨ lo < -126 ∨ 127 < lo ∨ hi < -126 ∨ 127 < hi

theorem lossNext_bounds {v : W512} (h : ¬ LossBad v) (ovf : Bool) : -126 ≤ lossNext v ovf ∧ lossNext v ovf ≤ 127 := by
  simp only [LossBad, not_or, not_lt] at h
  unfold lossNext lossE
  dsimp only
  split
  · split <;> omega
  · split <;> omega

/-! ### FP32 powers of two (R61, R69) -/

theorem dyadic_two_pow (n : Nat) (e : Int) :
    ∃ a b : Nat, Mag.dyadic (2 ^ n) e = { num := 2 ^ a, den := 2 ^ b } ∧ (a : Int) - b = n + e := by
  unfold Mag.dyadic
  split
  · exact ⟨n + e.toNat, 0, by rw [Nat.pow_add, Nat.pow_zero], by omega⟩
  · exact ⟨n, (-e).toNat, rfl, by omega⟩

section
variable (a b : Nat)

theorem two_pow_mag_log2 : Mag.log2 { num := 2 ^ a, den := 2 ^ b } = (a : Int) - b := by
  have hexact : ¬ (if 0 ≤ (a : Int) - b then 2 ^ a < 2 ^ b * 2 ^ ((a : Int) - b).toNat
      else 2 ^ a * 2 ^ (-((a : Int) - b)).toNat < 2 ^ b) := by
    rw [← Nat.pow_add, ← Nat.pow_add]
    split
    · rw [Nat.pow_lt_pow_iff_right Nat.one_lt_two]
      omega
    · rw [Nat.pow_lt_pow_iff_right Nat.one_lt_two]
      omega
  simp only [Mag.log2, Nat.log2_two_pow, if_neg hexact]
  rfl

theorem two_pow_mag_floorScaled {n : Nat} {q : Int} (h : (a : Int) - b = q + n) :
    Mag.floorScaled { num := 2 ^ a, den := 2 ^ b } q = 2 ^ n := by
  unfold Mag.floorScaled
  dsimp only
  rw [if_neg Bool.false_ne_true]
  split
  · next hq => rw [← Nat.pow_add, Nat.pow_div (by omega) Nat.two_pos]; congr 1; omega
  · next hq => rw [← Nat.pow_add, Nat.pow_div (by omega) Nat.two_pos]; congr 1; omega

theorem two_pow_mag_cmp {n : Nat} {q : Int} (h : (a : Int) - b = q + n) :
    Mag.cmp { num := 2 ^ a, den := 2 ^ b } (2 ^ n) q = .eq := by
  obtain ⟨a', b', hmag, hdiff⟩ := dyadic_two_pow n q
  have hsame : 2 ^ a * 2 ^ b' = 2 ^ a' * 2 ^ b := by
    rw [← Nat.pow_add, ← Nat.pow_add]
    congr 1
    omega
  rw [Mag.cmp, hmag]
  simp [hsame]

end

/-- A power of two in the range of FP32 is its exponent field (R61). -/
theorem roundMag_two_pow {e : Int} (hlo : -126 ≤ e) (hhi : e ≤ 127) :
    (roundMag tyF32 {} false (Mag.dyadic 1 e)).1 = (e + 127).toNat * 2 ^ 23 := by
  obtain ⟨a, b, hmag, hdiff⟩ := dyadic_two_pow 0 e
  have hexp : (a : Int) - b = e := by omega
  have hlow : (a : Int) - b = e - 23 + (23 : Nat) := by omega
  have hq : max e (1 - (bias tyF32 : Int)) - (manW tyF32 : Nat) = e - 23 := by
    rw [show (1 - (bias tyF32 : Int)) = -126 from rfl, max_eq_left hlo]
    rfl
  have hnum : (2 : Nat) ^ a ≠ 0 := (Nat.two_pow_pos a).ne'
  rw [Nat.pow_zero] at hmag
  simp only [roundMag, roundFloat, hmag, hnum, if_false, two_pow_mag_log2, hexp, hq, two_pow_mag_floorScaled a b hlow,
    two_pow_mag_cmp a b hlow]
  have hcode : ¬ (0x7F7FFFFF : Int) < (e + 127) * 8388608 := by omega
  simp only [show isFloat tyF32 = true from rfl, if_true, show maxCode tyF32 = 0x7F7FFFFF from rfl, Nat.cast_ofNat, BEq.rfl,
    Nat.reducePow, show manW tyF32 = 23 from rfl, Nat.reduceAdd, Nat.reduceEqDiff, if_false, lt_self_iff_false, sub_add_cancel,
    show bias tyF32 = 127 from rfl, Int.reducePow, sub_self, add_zero, hcode, signBit, Bool.false_eq_true, zero_add]
  omega

/-- Under legal bounds the update leaves the fields of R147 and sets no flag. -/
theorem lossUpdate_legal {v : W512} (h : ¬ LossBad v) (ovf : Bool) :
    lossUpdate v ovf = (Nat.ofDigits (2 ^ 32) (lossWords v ovf), 0) := by
  have hheld : (if lossHeld v ovf = true then 2 ^ 192 else 0) = (lossHeld v ovf).toNat * 2 ^ 192 := by
    cases lossHeld v ovf <;> rfl
  have hfloor : (if lossFloor v ovf = true then 2 ^ 193 else 0) = (lossFloor v ovf).toNat * 2 ^ 193 := by
    cases lossFloor v ovf <;> rfl
  have hscale := roundMag_two_pow (lossNext_bounds h ovf).1 (lossNext_bounds h ovf).2
  have hlo : s32 v 32 = signedWord v 1 := s32_eq_signedWord v 1
  have hhi : s32 v 64 = signedWord v 2 := s32_eq_signedWord v 2
  have hE : s32 v 0 = signedWord v 0 := s32_eq_signedWord v 0
  have h1 : u32 v 32 = wordOf v.toNat 1 := u32_eq_wordOf v 1
  have h2 : u32 v 64 = wordOf v.toNat 2 := u32_eq_wordOf v 2
  have h3 : u32 v 96 = wordOf v.toNat 3 := u32_eq_wordOf v 3
  have h4 : u32 v 128 = wordOf v.toNat 4 := u32_eq_wordOf v 4
  have h5 : u32 v 160 = wordOf v.toNat 5 := u32_eq_wordOf v 5
  rw [lossUpdate, hlo, hhi, hE, h1, h2, h3, h4, h5]
  calc
    _ = (wrapInt (lossNext v ovf) 32 + wordOf v.toNat 1 * 2 ^ 32 + wordOf v.toNat 2 * 2 ^ 64 + wordOf v.toNat 3 * 2 ^ 96 +
        (if ovf = true then 0 else if lossGrows v = true then 0 else lossClean v) * 2 ^ 128 + lossSkipped v ovf * 2 ^ 160 +
        (if lossHeld v ovf = true then 2 ^ 192 else 0) + (if lossFloor v ovf = true then 2 ^ 193 else 0) +
        (roundMag tyF32 {} false (Mag.dyadic 1 (lossNext v ovf))).1 * 2 ^ 224, 0) := if_neg h
    _ = _ := by
      rw [hscale, ← ite_or, hheld, hfloor]
      simp only [lossWords, Nat.ofDigits_cons, Nat.ofDigits_nil]
      refine Prod.ext ?_ rfl
      ring

theorem lossWords_lt {v : W512} (h : ¬ LossBad v) (ovf : Bool) : ∀ a ∈ lossWords v ovf, a < 2 ^ 32 := by
  have hnext := lossNext_bounds h ovf
  have hwrap : wrapInt (lossNext v ovf) 32 < 2 ^ 32 := by unfold wrapInt; omega
  have hword := wordOf_lt v.toNat
  have h1 := hword 1
  have h2 := hword 2
  have h3 := hword 3
  have hclean : (if ovf = true ∨ lossGrows v = true then 0 else lossClean v) < 2 ^ 32 := by
    unfold lossClean
    split <;> omega
  have hskipped : lossSkipped v ovf < 2 ^ 32 := by
    have h5 := hword 5
    unfold lossSkipped
    split <;> omega
  have hheld := Bool.toNat_le (lossHeld v ovf)
  have hfloor := Bool.toNat_le (lossFloor v ovf)
  simp only [lossWords, List.forall_mem_cons, List.not_mem_nil, false_imp_iff, implies_true, and_true]
  exact ⟨hwrap, h1, h2, h3, hclean, hskipped, by omega, by omega⟩

/-- Under legal bounds each field of the new state is the one that R147 gives. -/
theorem wordOf_lossUpdate {v : W512} (h : ¬ LossBad v) (ovf : Bool) (k : Nat) :
    wordOf (lossUpdate v ovf).1 k = (lossWords v ovf).getD k 0 := by
  rw [lossUpdate_legal h]
  exact wordOf_ofDigits (lossWords_lt h ovf) k

/-- Illegal bounds set ERR and leave the fields (R147). -/
theorem lossUpdate_refused {v : W512} (h : LossBad v) (ovf : Bool) :
    lossUpdate v ovf = (v.toNat % 2 ^ 194 + 2 ^ 194 + wordOf v.toNat 7 * 2 ^ 224, fNV) := by
  have hlo : s32 v 32 = signedWord v 1 := s32_eq_signedWord v 1
  have hhi : s32 v 64 = signedWord v 2 := s32_eq_signedWord v 2
  have h7 : u32 v 224 = wordOf v.toNat 7 := u32_eq_wordOf v 7
  have hlow : v.toNat % 2 ^ 192 + bitsOf v.toNat 193 192 * 2 ^ 192 = v.toNat % 2 ^ 194 := by
    unfold bitsOf
    omega
  rw [lossUpdate, hlo, hhi, h7, hlow]
  exact if_pos h

theorem lossUpdate_lt (v : W512) (ovf : Bool) : (lossUpdate v ovf).1 < 2 ^ 256 := by
  by_cases h : LossBad v
  · have h7 := wordOf_lt v.toNat 7
    rw [lossUpdate_refused h]
    omega
  · rw [lossUpdate_legal h]
    calc Nat.ofDigits (2 ^ 32) (lossWords v ovf) < (2 ^ 32) ^ (lossWords v ovf).length :=
          Nat.ofDigits_lt_base_pow_length (by decide) (lossWords_lt h ovf)
      _ = 2 ^ 256 := (Nat.pow_mul 2 32 8).symm

theorem lossHeld_iff (v : W512) (ovf : Bool) : lossHeld v ovf = true ↔
    (lossNext v ovf = signedWord v 0 ∧ v.toNat / 2 ^ 192 % 2 = 1) ∨
      (ovf = false ∧ lossGrows v = true ∧ signedWord v 2 ≤ lossE v) := by
  simp [lossHeld, bitOf, and_assoc]

theorem lossFloor_iff (v : W512) (ovf : Bool) : lossFloor v ovf = true ↔
    (lossNext v ovf = signedWord v 0 ∧ v.toNat / 2 ^ 193 % 2 = 1) ∨ (ovf = true ∧ lossE v ≤ signedWord v 1) := by
  simp [lossFloor, bitOf]

/-- HELD, FLOOR, ERR and the zero bits above them in the word that holds them (R146). -/
theorem flag_bits {x : Nat} {held floor : Bool} (h : wordOf x 6 = held.toNat + 2 * floor.toNat) :
    (x / 2 ^ 192 % 2 = 1 ↔ held = true) ∧ (x / 2 ^ 193 % 2 = 1 ↔ floor = true) ∧
      x / 2 ^ 194 % 2 = 0 ∧ x / 2 ^ 195 % 2 ^ 29 = 0 := by
  change x / 2 ^ 192 % 2 ^ 32 = _ at h
  have h1 : x / 2 ^ 193 = x / 2 ^ 192 / 2 := (Nat.div_div_eq_div_mul x (2 ^ 192) 2).symm
  have h2 : x / 2 ^ 194 = x / 2 ^ 192 / 4 := (Nat.div_div_eq_div_mul x (2 ^ 192) 4).symm
  have h3 : x / 2 ^ 195 = x / 2 ^ 192 / 8 := (Nat.div_div_eq_div_mul x (2 ^ 192) 8).symm
  rw [h1, h2, h3, ← Bool.toNat_eq_one, ← Bool.toNat_eq_one]
  have hheld := Bool.toNat_le held
  have hfloor := Bool.toNat_le floor
  omega

/-- R146, R147: one update of the loss-scale state. -/
theorem lossScaleUpdate : LossScaleUpdate := by
  intro v ovf field signed x flags E lo hi bad e clean reached e'
  have hreach : lossGrows v = true ↔ reached := decide_eq_true_iff
  have hnext : lossNext v ovf = e' := by
    unfold lossNext
    simp only [hreach]
    rfl
  refine ⟨lossUpdate_lt v ovf, ?_, fun h => ?_, fun h => ?_⟩
  · by_cases h : LossBad v
    · have h7 := wordOf_lt v.toNat 7
      have hx : x = _ := congrArg Prod.fst (lossUpdate_refused h ovf)
      rw [hx]
      omega
    · obtain ⟨-, -, -, hzero⟩ := flag_bits (wordOf_lossUpdate h ovf 6)
      exact hzero
  · have h7 := wordOf_lt v.toNat 7
    have hx : x = _ := congrArg Prod.fst (lossUpdate_refused h ovf)
    have hfield : field x 7 = wordOf v.toNat 7 := by
      change x / 2 ^ 224 % 2 ^ 32 = _
      rw [hx]
      omega
    refine ⟨congrArg Prod.snd (lossUpdate_refused h ovf), ?_, ?_, hfield⟩
    · rw [hx]
      omega
    · rw [hx]
      omega
  · have hwords : ∀ k, field x k = (lossWords v ovf).getD k 0 := wordOf_lossUpdate h ovf
    obtain ⟨hheld, hfloor, herr, -⟩ := flag_bits (hwords 6)
    have hscale : ((lossNext v ovf + 127).toNat : Int) = lossNext v ovf + 127 := by
      have hlo := (lossNext_bounds h ovf).1
      omega
    refine ⟨congrArg Prod.snd (lossUpdate_legal h ovf), herr, fun k hk hk' => ?_, ?_, ?_, ?_, hwords 5, ?_, ?_⟩
    · rw [hwords]
      interval_cases k <;> rfl
    · rw [hwords, ← hnext]
      rfl
    · rw [hwords, ← hnext, ← hscale]
      exact Nat.cast_mul ..
    · simp only [hwords, ← hreach]
      rfl
    · rw [hheld, lossHeld_iff, hnext, hreach]
      rfl
    · rw [hfloor, lossFloor_iff, hnext]
      rfl

theorem toNat_ofNat_of_lt_two_pow {n m w : Nat} (h : m ≤ w) (hn : n < 2 ^ m) : (BitVec.ofNat w n).toNat = n := by
  rw [BitVec.toNat_ofNat, Nat.mod_eq_of_lt (hn.trans_le (Nat.pow_le_pow_right Nat.two_pos h))]

/-- R147: VLSCALE writes bits [255:0] with the update of its state. -/
theorem vlscale_delivers {s : State} {f : VR} :
    let r := lossUpdate (s.cx.rv f.vd.toNat) (decide ((s.cx.rv f.va.toNat).toNat % 2 ^ 64 ≠ 0))
    ∃ e : Pend, exec (.vlscale f) s = .next (s.setCx (s.cx.push e)) ∧ e.dst = .v f.vd.toNat ∧ e.pos = s.cx.now + 4 ∧
      (∀ b < 512, e.mask.getLsbD b = decide (b < 256)) ∧ e.val.toNat = r.1 ∧ e.flags = r.2 := by
  intro r
  have hovf : ((s.cx.rv f.va.toNat).extractLsb' 0 64 != 0) = decide ((s.cx.rv f.va.toNat).toNat % 2 ^ 64 ≠ 0) := by
    have hlow : ((s.cx.rv f.va.toNat).extractLsb' 0 64).toNat = (s.cx.rv f.va.toNat).toNat % 2 ^ 64 := by
      rw [BitVec.extractLsb'_toNat, Nat.shiftRight_zero]
    rw [Bool.eq_iff_iff, bne_iff_ne, decide_eq_true_iff, ne_eq, ← BitVec.toNat_inj, hlow]
    rfl
  refine ⟨{ dst := .v f.vd.toNat, val := BitVec.ofNat 512 r.1, mask := BitVec.ofNat 512 (2 ^ 256 - 1), pos := s.cx.now + 4
            slot := 1, flags := r.2 }, ?_, rfl, rfl, fun b hb => ?_, ?_, rfl⟩
  · rw [exec_vlscale, execVlscale, opVlscale, hovf]
    rfl
  · rw [BitVec.getLsbD_ofNat, Nat.testBit_two_pow_sub_one, decide_eq_true hb, Bool.true_and]
  · exact toNat_ofNat_of_lt_two_pow (by decide) (lossUpdate_lt ..)

/-- R138, R139, R145, R147: the accumulators, XFERV and VLSCALE. -/
theorem vectorAccumulatorResults : VectorAccumulatorResults := by
  intro s f x c t S ws g on el acc
  refine ⟨fun hS hfn => ?_, fun hS hfn => ?_, fun ht => vlarnd_delivers ht, fun ht hlane => xferv_delivers ht hlane, ?_⟩
  · have hcode : ∀ k, vlaccCode f c k =
        ((laAddSum (vlaccAcc f c k) (vlaccA f c k) false).1.encode.toNat, (laAddSum (vlaccAcc f c k) (vlaccA f c k) false).2) := by
      intro k
      rw [vlaccCode, if_neg (by omega)]
    have hdelivers := vlacc_delivers (s := s) (f := f) (hS.trans (by decide))
    simp only [show s.cx = c from rfl, hcode] at hdelivers
    exact hdelivers
  · refine ⟨_, _, vlacc_delivers (hS.trans (by decide)), fun k hnan ps hps => ?_⟩
    have hzip : ((vlaccA f c k).zip (vlaccB f c k)).map (fun p => prodVal p.1 p.2) = ps.map some := by
      rw [← hps, vlaccA, vlaccB, List.zip_map', List.map_map]
      rfl
    have hcode : vlaccCode f c k = ((laAddSum (acc k) ps false).1.encode.toNat, (laAddSum (acc k) ps false).2) := by
      rw [vlaccCode, if_pos hfn, vlaccProducts_eq (List.forall_mem_map.mpr fun i hi => (hnan i (List.mem_range.mp hi)).1)
        (List.forall_mem_map.mpr fun i hi => (hnan i (List.mem_range.mp hi)).2) hzip]
      rfl
    exact ⟨congrArg Prod.fst hcode, congrArg Prod.snd hcode⟩
  · exact vlscale_delivers

/-- Settles O13: the accumulators lane by lane, and the loss-scale state field by field. -/
theorem vectorAccumulators : Obligations.VectorAccumulators := ⟨vectorAccumulatorResults, lossScaleUpdate⟩

end Sys2Proof.Laws

/-! ## The cells and the traps of vector accesses (R129, R141, R142, R265) -/

namespace Sys2Proof.Laws
open Sys2Proof.Machine

/-! ### The elements of an access (R141, R142) -/

theorem vlElems_eq (k : VKind) (f : VL) (c : Ctx) (p : W64) (wm : Nat) : vlElems k f c p wm = vectorElements k f c p wm := by
  cases k with
  | contig => rfl
  | indexed =>
    simp only [vlElems, lane_eq_laneOf]
    rfl
  | single =>
    unfold vlElems vectorElements
    dsimp only
    change _ = (c.lanes f.vm (512 / tyWidth f.ty.toNat)).head?.toList.map fun k => (k, p)
    cases c.lanes f.vm (512 / tyWidth f.ty.toNat) with
    | nil => rfl
    | cons i t => rfl

section
variable {s : State} {k : VKind} {ty fmt wm : Nat} {i : Nat} {q : W64}

/-- The checks of an element are those of its place, its alignment and its banks' formats (R142). -/
theorem checkElems_cons_ok {l : PadLoc} (hloc : s.localLoc q (wm / 8) = .ok l) (rest : List (Nat × W64)) :
    s.checkElems k fmt wm (ty == tyLA) ((i, q) :: rest) =
      if k ≠ .contig ∧ q.toNat % (wm / 8) ≠ 0 then .error { cause := .misaligned, slot := 1, addr := q }
      else if ty ≠ tyLA ∧ (s.fmtAt l ≠ fmt ∨ s.fmtAt { l with off := l.off + wm / 8 - 1 } ≠ fmt) then
        .error { cause := .bankFormat, slot := 1, addr := q }
      else (s.checkElems k fmt wm (ty == tyLA) rest).map (⟨l.pad, l.off, wm / 8, i⟩ :: ·) := by
  have hformat : (!(ty == tyLA) && (s.fmtAt l != fmt || s.fmtAt ⟨l.pad, l.off + wm / 8 - 1⟩ != fmt)) = true ↔
      ty ≠ tyLA ∧ (s.fmtAt l ≠ fmt ∨ s.fmtAt { l with off := l.off + wm / 8 - 1 } ≠ fmt) := by simp
  rw [State.checkElems]
  simp only [hloc, hformat]
  cases s.checkElems k fmt wm (ty == tyLA) rest with
  | error e => rfl
  | ok cs => rfl

theorem checkElems_cons_fails {e : Cause} (h : elementFails s k ty fmt wm q = some e) (rest : List (Nat × W64)) :
    s.checkElems k fmt wm (ty == tyLA) ((i, q) :: rest) = .error { cause := e, slot := 1, addr := q } := by
  cases hloc : s.localLoc q (wm / 8) with
  | error e' =>
    simp only [elementFails, hloc, Option.some.injEq] at h
    rw [State.checkElems]
    simp only [hloc, h]
  | ok l =>
    simp only [elementFails, hloc] at h
    rw [checkElems_cons_ok hloc]
    split at h
    · next halign => rw [if_pos halign, Option.some.inj h]
    · next halign =>
      rw [if_neg halign]
      split at h
      · next hformat => rw [if_pos hformat, Option.some.inj h]
      · cases h

theorem checkElems_cons_passes (h : elementFails s k ty fmt wm q = none) (rest : List (Nat × W64)) :
    ∃ l, s.localLoc q (wm / 8) = .ok l ∧ s.checkElems k fmt wm (ty == tyLA) ((i, q) :: rest) =
      (s.checkElems k fmt wm (ty == tyLA) rest).map (⟨l.pad, l.off, wm / 8, i⟩ :: ·) := by
  cases hloc : s.localLoc q (wm / 8) with
  | error e' => simp [elementFails, hloc] at h
  | ok l =>
    simp only [elementFails, hloc] at h
    refine ⟨l, rfl, ?_⟩
    rw [checkElems_cons_ok hloc]
    split at h
    · cases h
    · next halign =>
      split at h
      · cases h
      · next hformat => rw [if_neg halign, if_neg hformat]

/-- The first element that fails gives the trap (R142 check 4). -/
theorem checkElems_first_fails {before after : List (Nat × W64)} {e : Cause}
    (hbefore : ∀ x ∈ before, elementFails s k ty fmt wm x.2 = none) (h : elementFails s k ty fmt wm q = some e) :
    s.checkElems k fmt wm (ty == tyLA) (before ++ (i, q) :: after) = .error { cause := e, slot := 1, addr := q } := by
  induction before with
  | nil => exact checkElems_cons_fails h after
  | cons x t ih =>
    obtain ⟨l, -, hcons⟩ := checkElems_cons_passes (i := x.1) (hbefore x List.mem_cons_self) (t ++ (i, q) :: after)
    refine hcons.trans ?_
    rw [ih fun y hy => hbefore y (List.mem_cons_of_mem _ hy)]
    rfl

theorem checkElems_all_pass {l : List (Nat × W64)} (h : ∀ x ∈ l, elementFails s k ty fmt wm x.2 = none) :
    ∃ cs, s.checkElems k fmt wm (ty == tyLA) l = .ok cs := by
  induction l with
  | nil => exact ⟨[], rfl⟩
  | cons x t ih =>
    obtain ⟨l, -, hcons⟩ := checkElems_cons_passes (i := x.1) (h x List.mem_cons_self) t
    obtain ⟨cs, hcs⟩ := ih fun y hy => h y (List.mem_cons_of_mem _ hy)
    rw [hcs] at hcons
    exact ⟨_, hcons⟩

/-- The cell of an element of n bytes (R141). -/
def CellAt (s : State) (n : Nat) (e : Nat × W64) (x : Cell) : Prop :=
  x.lane = e.1 ∧ x.n = n ∧ s.localLoc e.2 n = .ok ⟨x.pad, x.off⟩

/-- An access that passes has one cell for each element, in order, at its pointer (R141, R142). -/
theorem checkElems_cells {l : List (Nat × W64)} {cs : List Cell} (h : s.checkElems k fmt wm (ty == tyLA) l = .ok cs) :
    List.Forall₂ (CellAt s (wm / 8)) l cs := by
  induction l generalizing cs with
  | nil =>
    cases h
    exact .nil
  | cons x t ih =>
    obtain ⟨i, q⟩ := x
    cases hfails : elementFails s k ty fmt wm q with
    | some e => rw [checkElems_cons_fails hfails] at h; cases h
    | none =>
      obtain ⟨l, hloc, hcons⟩ := checkElems_cons_passes (i := i) hfails t
      rw [hcons] at h
      cases hrest : s.checkElems k fmt wm (ty == tyLA) t with
      | error e => rw [hrest] at h; cases h
      | ok cs' =>
        rw [hrest] at h
        cases h
        exact .cons ⟨rfl, rfl, hloc⟩ (ih hrest)

end

/-! ### The checks of an access (R142) -/

/-- The memory format of an access over banks of a format: the operation's own over a raw bank and for LA (R141). -/
def memFormat (ty fmt : Nat) : Nat := if fmt = 0xF ∨ ty = tyLA then ty else fmt

section
variable {s : State} {k : VKind} {f : VL} {store : Bool} {p : W64} (hon : s.cx.lanes f.vm (512 / tyWidth f.ty.toNat) ≠ [])
include hon

theorem vlCells_baseFails {e : Cause} (h : s.baseLoc p = .error e) :
    s.vlCells k f store p = .error { cause := e, slot := 1, addr := p } := by
  simp only [State.vlCells, List.isEmpty_iff, if_neg hon, h]

theorem vlCells_eq {l : PadLoc} (hbase : s.baseLoc p = .ok l) : s.vlCells k f store p =
    let mf := memFormat f.ty.toNat (s.fmtAt l)
    if k = .contig ∧ p.toNat % (512 / tyWidth f.ty.toNat * tyWidth mf / 8) ≠ 0 then
      .error { cause := .misaligned, slot := 1, addr := p }
    else if store = true ∧ f.sm = 1 ∧ mf ≠ tyE4 then .error { cause := .illegalOp, slot := 1 }
    else (s.checkElems k (s.fmtAt l) (tyWidth mf) (f.ty.toNat == tyLA) (vectorElements k f s.cx p (tyWidth mf))).map (·, mf) := by
  simp only [State.vlCells, List.isEmpty_iff, if_neg hon, hbase, ← vlElems_eq, memFormat]
  generalize (if s.fmtAt l = 0xF ∨ f.ty.toNat = tyLA then f.ty.toNat else s.fmtAt l) = mf
  cases s.checkElems k (s.fmtAt l) (tyWidth mf) (f.ty.toNat == tyLA) (vlElems k f s.cx p (tyWidth mf)) with
  | error e => rfl
  | ok cs => rfl

/-- What passes the checks of an access with an active lane (R141, R142). -/
theorem vlCells_passes {cs : List Cell} {mf : Nat} (h : s.vlCells k f store p = .ok (cs, mf)) :
    ∃ l, s.baseLoc p = .ok l ∧ mf = memFormat f.ty.toNat (s.fmtAt l) ∧
      (k = .contig → p.toNat % (512 / tyWidth f.ty.toNat * tyWidth mf / 8) = 0) ∧
      List.Forall₂ (CellAt s (tyWidth mf / 8)) (vectorElements k f s.cx p (tyWidth mf)) cs := by
  cases hbase : s.baseLoc p with
  | error e => rw [vlCells_baseFails hon hbase] at h; cases h
  | ok l =>
    rw [vlCells_eq hon hbase] at h
    dsimp only at h
    split at h
    · cases h
    · next halign =>
      split at h
      · cases h
      · cases hcells : s.checkElems k (s.fmtAt l) (tyWidth (memFormat f.ty.toNat (s.fmtAt l))) (f.ty.toNat == tyLA)
            (vectorElements k f s.cx p (tyWidth (memFormat f.ty.toNat (s.fmtAt l)))) with
        | error e => rw [hcells] at h; cases h
        | ok cs' =>
          rw [hcells] at h
          cases h
          exact ⟨l, rfl, rfl, fun hk => by_contra fun hne => halign ⟨hk, hne⟩, checkElems_cells hcells⟩

end

/-- The cells of active lanes, each at its pointer (R141). -/
theorem cells_of_lanes {s : State} {n : Nat} {ptr : Nat → W64} {ks : List Nat} {cs : List Cell}
    (h : List.Forall₂ (CellAt s n) (ks.map fun k => (k, ptr k)) cs) :
    cs.length = ks.length ∧ ∀ (i : Nat) (x : Cell), cs[i]? = some x →
      ks[i]? = some x.lane ∧ x.n = n ∧ s.localLoc (ptr x.lane) n = .ok ⟨x.pad, x.off⟩ := by
  rw [List.forall₂_map_left_iff] at h
  refine ⟨h.length_eq.symm, fun i x hx => ?_⟩
  induction h generalizing i with
  | nil => cases hx
  | @cons k y ks cs hcell _ ih =>
    cases i with
    | zero =>
      cases hx
      obtain ⟨hlane, hn, hloc⟩ := hcell
      exact ⟨congrArg some hlane.symm, hn, hlane ▸ hloc⟩
    | succ i => exact ih i hx

/-- R141, R142: the cells of an access that passes its checks. -/
theorem vectorAccessCells : VectorAccessCells := by
  intro s f store p cs mf c ty wd active wm cellsAt hon
  refine ⟨fun h => ?_, fun h => ?_, fun h => ?_⟩
  · obtain ⟨l, hbase, hmf, halign, hcells⟩ := vlCells_passes hon h
    have hplace : ∀ l', s.baseLoc p = .ok l' → l' = l := fun l' h' => by
      rw [hbase] at h'
      exact (Except.ok.inj h').symm
    refine ⟨cells_of_lanes (ptr := fun k => p + BitVec.ofNat 64 (k * (wm / 8))) hcells, halign rfl, fun hla => ?_,
      fun l' hl' hraw hla => ?_, fun l' hl' hraw => ?_⟩
    · rw [hmf, memFormat, if_pos (.inr hla)]
    · rw [hplace l' hl'] at hraw ⊢
      rw [hmf, memFormat, if_neg fun h => h.elim hraw hla]
    · rw [hplace l' hl'] at hraw
      rw [hmf, memFormat, if_pos (.inl hraw)]
  · obtain ⟨l, -, -, -, hcells⟩ := vlCells_passes hon h
    exact cells_of_lanes
      (ptr := fun k => p + BitVec.ofInt 64 (sext (laneOf (c.rv f.vb.toNat) wd k) wd * (wm / 8 : Nat))) hcells
  · obtain ⟨l, -, -, -, hcells⟩ := vlCells_passes hon h
    obtain ⟨k, rest, hactive⟩ := List.exists_cons_of_ne_nil hon
    have helems : vectorElements .single f c p wm = [(k, p)] := by
      change active.head?.toList.map (fun k => (k, p)) = _
      rw [hactive]
      rfl
    rw [helems, List.forall₂_cons_left_iff] at hcells
    obtain ⟨x, t, ⟨hlane, hn, hloc⟩, hnil, rfl⟩ := hcells
    rw [List.forall₂_nil_left_iff] at hnil
    exact ⟨k, rest, x, hactive, by rw [hnil], hlane, hn, hloc⟩

/-! ### The base of an access (R141, R142) -/

/-- A place in a scratchpad of which a bank is in reach (R142 check 1). -/
def inBanks (pad : PadId) (a size : Nat) : Except Cause PadLoc := if a < size then .ok ⟨pad, a⟩ else .error .spaceRange

theorem tile_inBanks (t a : Nat) :
    (if (bankOf (.tile t) a).isNone then Except.error Cause.spaceRange else .ok ⟨.tile t, a⟩) =
      inBanks (.tile t) a (2 ^ 18) := by
  rw [inBanks, bankOf, show (2 ^ 18 : Nat) = 0x40000 from rfl]
  split
  · rfl
  · rfl

theorem cluster_inBanks (k a : Nat) :
    (if (bankOf (.cluster k) a).isNone then Except.error Cause.spaceRange else .ok ⟨.cluster k, a⟩) =
      inBanks (.cluster k) a 0x600000 := by
  rw [inBanks, bankOf]
  split
  · rfl
  · rfl

section
variable {s : State} {p : W64}

theorem baseLoc_elsewhere (h8 : ptrCode p ≠ 8) (h9 : ptrCode p ≠ 9) (h10 : ptrCode p ≠ 10) :
    s.baseLoc p = .error .spaceForeign := by
  simp only [State.baseLoc]

theorem baseLoc_malformed (hcode : ptrCode p = 8 ∨ ptrCode p = 9 ∨ ptrCode p = 10) (hwf : ptrWf p = false) :
    s.baseLoc p = .error .spaceRange := by
  rw [← mbzOk_eq_ptrWf hcode] at hwf
  obtain hcode | hcode | hcode := hcode <;> simp [State.baseLoc, hcode, hwf]

variable (hwf : ptrWf p = true)
include hwf

theorem baseLoc_window (hcode : ptrCode p = 8) :
    s.baseLoc p = inBanks (.tile (s.cur / 2)) (s.cx.pvBase + p.toNat % 2 ^ 48) (2 ^ 18) := by
  rw [← off8_of_wf hwf hcode, ← tile_inBanks]
  rw [← mbzOk_eq_ptrWf (.inl hcode)] at hwf
  simp only [State.baseLoc, hcode, hwf]
  rfl

theorem baseLoc_tile (hcode : ptrCode p = 9) : s.baseLoc p =
    if p.toNat / 2 ^ 48 % 2 ^ 8 = s.cur / 2 then inBanks (.tile (s.cur / 2)) (p.toNat % 2 ^ 48) (2 ^ 18)
    else .error .spaceForeign := by
  rw [← off9_of_wf hwf hcode, ← toNat_fld, ← tile_inBanks]
  rw [← mbzOk_eq_ptrWf (.inr (.inl hcode))] at hwf
  simp only [State.baseLoc, hcode, hwf, ne_eq, ite_not]
  rfl

theorem baseLoc_cluster (hcode : ptrCode p = 10) : s.baseLoc p =
    if p.toNat / 2 ^ 48 % 2 ^ 5 = s.cur / 2 / 8 then inBanks (.cluster (s.cur / 2 / 8)) (p.toNat % 2 ^ 48) 0x600000
    else .error .spaceForeign := by
  rw [← offA_of_wf hwf hcode, ← toNat_fld, ← cluster_inBanks]
  rw [← mbzOk_eq_ptrWf (.inr (.inr hcode))] at hwf
  simp only [State.baseLoc, hcode, hwf, ne_eq, ite_not]
  rfl

end

/-- R141, R142: where the base of an access lies. -/
theorem vectorBases : VectorBases := by
  intro s p t code id o within
  have hcode : ptrCode p = code := ptrCode_eq p
  have hbase : s.cx.pvBase = (s.cx.cr 0x34).toNat % 2 ^ 18 := (toNat_fld _ 0 18).trans (by omega)
  refine ⟨fun h8 h9 h10 => baseLoc_elsewhere (hcode.trans_ne h8) (hcode.trans_ne h9) (hcode.trans_ne h10),
    fun hspace hwf => baseLoc_malformed (by rwa [hcode]) hwf, fun hwf => ⟨fun h8 => ?_, fun h9 hid => ?_, fun h9 hid => ?_,
      fun h10 hid => ?_, fun h10 hid => ?_⟩⟩
  · rw [← hbase]
    exact baseLoc_window hwf (hcode.trans h8)
  · exact (baseLoc_tile hwf (hcode.trans h9)).trans (if_neg hid)
  · exact (baseLoc_tile hwf (hcode.trans h9)).trans (if_pos hid)
  · exact (baseLoc_cluster hwf (hcode.trans h10)).trans (if_neg hid)
  · exact (baseLoc_cluster hwf (hcode.trans h10)).trans (if_pos hid)

/-! ### The traps of an access (R142) -/

/-- An access that takes the trap of its first failing check checks in R142's order. -/
theorem checksInOrder_of_traps {s : State} {i : Instr} {k : VKind} {f : VL} {store : Bool}
    (h : ∀ t, s.vlCells k f store (vectorBase f s.cx) = .error t → exec i s = .next (takeTrap t s)) :
    ChecksInOrder s i k f store := by
  unfold ChecksInOrder
  intro p wd traps hactive
  have hon := lanes_ne_nil hactive
  refine ⟨fun e he => h _ (vlCells_baseFails hon he), ?_⟩
  intro l hl fmt mf wm whole sub fails
  have hcells := vlCells_eq (k := k) (store := store) hon hl
  refine ⟨fun hwhole => h _ (hcells.trans (if_pos hwhole)),
    fun hwhole hsub => h _ (hcells.trans ((if_neg hwhole).trans (if_pos hsub))),
    fun hwhole hsub before j q after e helems hbefore he => h _ (hcells.trans ?_), fun hwhole hsub hpass => ?_⟩
  · have hfirst : s.checkElems k fmt wm (f.ty.toNat == tyLA) (vectorElements k f s.cx p wm) =
        .error { cause := e, slot := 1, addr := q } :=
      helems ▸ checkElems_first_fails hbefore he
    exact (if_neg hwhole).trans ((if_neg hsub).trans (congrArg (Except.map (·, mf)) hfirst))
  · obtain ⟨cs, hcs⟩ := checkElems_all_pass hpass
    exact ⟨cs, hcells.trans ((if_neg hwhole).trans ((if_neg hsub).trans (congrArg (Except.map (·, mf)) hcs)))⟩

section
variable {s : State} {i : Instr} {k : VKind} {f : VL}

/-- R142: a vector load in each of its forms. -/
theorem load_checksInOrder (hexec : exec i s = finishHold s (holdVload f s) (loadV k f (vlAddr f s.cx) s)) (hld : s.cx.ld < 4095) :
    ChecksInOrder s i k f false := by
  refine checksInOrder_of_traps fun t ht => ?_
  rw [hexec, holdVload_room hld, vlAddr_eq, loadV, ht]
  rfl

/-- A vector store that traps does not hold its bundle first. -/
theorem holdVstore_fault {p : W64} {t : TrapInfo} (hst : s.cx.st < 4095) (h : s.vlCells k f true p = .error t) :
    holdVstore k f p s = none := by
  simp only [holdVstore, if_neg (Nat.not_le.mpr hst), h, ite_self]

/-- R142: a vector store in each of its forms. -/
theorem store_checksInOrder (hexec : exec i s = finishHold s (holdVstore k f (vlAddr f s.cx) s) (storeV k f (vlAddr f s.cx) s))
    (hst : s.cx.st < 4095) : ChecksInOrder s i k f true := by
  refine checksInOrder_of_traps fun t ht => ?_
  rw [hexec, vlAddr_eq, holdVstore_fault hst ht, storeV, ht]
  rfl

end

/-- R142, R129, R265: the vector accesses, each with its checks in order. -/
theorem vectorAccessTraps : VectorAccessTraps := by
  intro s f hld hst
  exact ⟨load_checksInOrder (exec_vld f s) hld, load_checksInOrder (exec_vldx f s) hld, load_checksInOrder (exec_vldb f s) hld,
    store_checksInOrder (exec_vst f s) hst, store_checksInOrder (exec_vstx f s) hst⟩

/-- Settles O16: the cells of an access are those of its elements, and its first failing check gives the trap. -/
theorem vectorAccessChecks : Obligations.VectorAccessChecks := ⟨vectorAccessCells, vectorBases, vectorAccessTraps⟩

end Sys2Proof.Laws

/-! ## The array of a tile: what its changes leave (R181 to R184, R198) -/

namespace Sys2Proof.Laws

open Sys2Proof.Machine

/-! ### Reading the array after a change -/

@[simp] theorem arr_modArr_self (s : State) (t : Nat) (f : Arr → Arr) : (s.modArr t f).arr t = f (s.arr t) := by
  simp [State.modArr, modTile_eq, State.arr]

theorem arr_modArr_ne (s : State) {t u : Nat} (f : Arr → Arr) (h : t ≠ u) : (s.modArr t f).arr u = s.arr u := by
  simp [State.modArr, modTile_eq, State.arr, tile_setTile, h]

@[simp] theorem arr_undraw (s : State) (n t : Nat) : (s.undraw n).arr t = s.arr t := rfl
@[simp] theorem arr_modCtx (s : State) (n t : Nat) (f : Ctx → Ctx) : (s.modCtx n f).arr t = s.arr t := rfl

/-- A change of a tile beside its array leaves every array. -/
theorem arr_modTile_kept (s : State) (t u : Nat) {f : Tile → Tile} (h : ∀ T, (f T).arr = T.arr) : (s.modTile t f).arr u = s.arr u := by
  simp only [modTile_eq, State.arr, tile_setTile]
  split
  · next htu => rw [h, htu]
  · rfl

/-- The drains of a tile note activity beside its array (R423). -/
theorem arr_touchSaves (s : State) (t u : Nat) : (touchSaves t s).arr u = s.arr u := by
  rw [touchSaves]
  split
  · rfl
  · exact arr_modTile_kept s t u fun _ => rfl

theorem mem_touchSaves (s : State) (t : Nat) : (touchSaves t s).mem = s.mem := by
  rw [touchSaves]
  split <;> rfl

/-- The ARR grant stands beside the array (R414). -/
theorem arr_releaseArr (s : State) (t u : Nat) : (releaseArr t s).arr u = s.arr u := by
  rw [releaseArr]
  split
  · rw [arr_undraw]
    exact arr_modTile_kept s t u fun _ => rfl
  · rfl

theorem mem_releaseArr (s : State) (t : Nat) : (releaseArr t s).mem = s.mem := by
  rw [releaseArr]
  split <;> rfl

@[simp] theorem pe_setPe_self (a : Arr) (p : Nat) (x : Pe) : (a.setPe p x).pe p = x := mapGet_mapPut_self _ _ _ _

theorem pe_setPe_ne (a : Arr) {p q : Nat} (x : Pe) (h : q ≠ p) : (a.setPe p x).pe q = a.pe q :=
  mapGet_mapPut_ne _ _ _ (Ne.symm h)

/-- Records that are there under a key are what the key reads as. -/
theorem mapGet?_of_mapGet_cons {α : Type} {m : Map (List α)} {k : Nat} {x : α} {l : List α} (h : mapGet [] m k = x :: l) :
    mapGet? k m = some (x :: l) := by
  rw [mapGet] at h
  cases hk : mapGet? k m with
  | none => rw [hk] at h; cases h
  | some q => rw [hk] at h; exact congrArg some h

/-! ### Changes that move tokens alone -/

/-- `b` is the array `a` but for where its tokens stand: the edges, the ports and what waits at them. -/
structure OnlyTokensMove (a b : Arr) : Prop where
  imgs : b.imgs = a.imgs
  pes : b.pes = a.pes
  runs : b.runs = a.runs
  act : b.act = a.act
  target : b.target = a.target
  flags : b.flags = a.flags

theorem OnlyTokensMove.refl (a : Arr) : OnlyTokensMove a a := ⟨rfl, rfl, rfl, rfl, rfl, rfl⟩

theorem OnlyTokensMove.trans {a b c : Arr} (h : OnlyTokensMove a b) (g : OnlyTokensMove b c) : OnlyTokensMove a c :=
  ⟨g.imgs.trans h.imgs, g.pes.trans h.pes, g.runs.trans h.runs, g.act.trans h.act, g.target.trans h.target, g.flags.trans h.flags⟩

theorem OnlyTokensMove.foldl {β : Type} {f : Arr → β → Arr} (h : ∀ a e, OnlyTokensMove a (f a e)) (l : List β) (a : Arr) :
    OnlyTokensMove a (l.foldl f a) := by
  induction l generalizing a with
  | nil => exact .refl a
  | cons e l ih => exact (h a e).trans (ih _)

theorem OnlyTokensMove.pe {a b : Arr} (h : OnlyTokensMove a b) (p : Nat) : b.pe p = a.pe p := by rw [Arr.pe, h.pes, Arr.pe]

theorem OnlyTokensMove.img {a b : Arr} (h : OnlyTokensMove a b) (i : Nat) : b.img i = a.img i := by rw [Arr.img, h.imgs, Arr.img]

theorem setEdge_onlyTokens (a : Arr) (i p k : Nat) (e : Edge) : OnlyTokensMove a (a.setEdge i p k e) := ⟨rfl, rfl, rfl, rfl, rfl, rfl⟩

theorem consume_onlyTokens (a : Arr) (tick i p k n : Nat) : OnlyTokensMove a (a.consume tick i p k n) := setEdge_onlyTokens ..

theorem send_onlyTokens (a : Arr) (i p o at_ : Nat) (t : Tok) : OnlyTokensMove a (a.send i p o at_ t) := by
  rw [Arr.send]
  split
  · exact setEdge_onlyTokens ..
  · exact ⟨rfl, rfl, rfl, rfl, rfl, rfl⟩
  · exact .refl a

theorem sendAll_onlyTokens (a : Arr) (i p at_ : Nat) (out : List (Nat × Tok)) : OnlyTokensMove a (a.sendAll i p at_ out) := by
  rw [Arr.sendAll]
  exact .foldl (fun b (e : Nat × Nat × Tok) => send_onlyTokens b i p e.2.1 _ e.2.2) _ a

theorem sendMarkers_onlyTokens (a : Arr) (tick o p : Nat) : OnlyTokensMove a (a.sendMarkers tick o p) := by
  refine .foldl (fun b out => ?_) _ a
  split
  · dsimp only
    split
    · exact setEdge_onlyTokens ..
    · exact .refl b
  · exact .refl b

end Sys2Proof.Laws

/-! ## Commands that complete, tokens for channels, circuits (R193, R217, R234, R238, R248) -/

namespace Sys2Proof.Laws

open Sys2Proof.Machine

/-! ### Handles -/

@[simp] theorem handle_setHandle_self (c : Ctx) (h : Nat) (H : Handle) : (c.setHandle h H).handle h = H := mapGet_mapPut_self _ _ _ _

@[simp] theorem handle_setEv (c : Ctx) (b h : Nat) : (c.setEv b).handle h = c.handle h := rfl

/-- The head of a handle, replaced. -/
theorem cmds_setHead {s : State} {x h : Nat} {k : Cmd} {rest : List Cmd} (k' : Cmd) (hcmds : ((s.ctx x).handle h).cmds = k :: rest) :
    (((setHead x h k' s).ctx x).handle h).cmds = k' :: rest := by
  simp only [setHead, modCtx_eq, ctx_setCtx_self, handle_setHandle_self, hcmds]

@[simp] theorem arr_setHead (x h t : Nat) (k : Cmd) (s : State) : (setHead x h k s).arr t = s.arr t := rfl
@[simp] theorem tile_setHead (x h t : Nat) (k : Cmd) (s : State) : (setHead x h k s).tile t = s.tile t := rfl

theorem head_of_cmds {s : State} {x h : Nat} {k : Cmd} {rest : List Cmd} (hcmds : ((s.ctx x).handle h).cmds = k :: rest) :
    s.head x h = some k := by
  rw [State.head, hcmds, List.head?_cons]

/-- An event bit reads 1 once it is set (R111). -/
theorem getLsbD_cr_setEv (c : Ctx) {b : Nat} (h : b < 64) : ((c.setEv b).cr 7).getLsbD b = true := by
  simp only [Ctx.setEv, Ctx.cr, Ctx.setCr, regs_read_write, if_true, BitVec.getLsbD_or, BitVec.getLsbD_ofNat, h, decide_true,
    Nat.testBit_two_pow_self, Bool.and_self, Bool.or_true]

/-! ### A command that completes (R217, R242, R368) -/

/-- The context whose command `k` of handle `h` leaves it. -/
def leftBy (k : Cmd) (h : Nat) (c : Ctx) : Ctx :=
  let H := c.handle h
  let c := c.setHandle h { H with cmds := H.cmds.drop 1, cancelled := k.refused || k.cancel }
  let c := if k.op = 0x24 then c.setEv 4 else c
  if k.op = 0x1C then c.setEv 3 else c

theorem handle_leftBy (k : Cmd) (h : Nat) (c : Ctx) :
    (leftBy k h c).handle h = { c.handle h with cmds := (c.handle h).cmds.drop 1, cancelled := k.refused || k.cancel } := by
  simp only [leftBy, apply_ite (Ctx.handle · h), handle_setEv, handle_setHandle_self, ite_self]

theorem str_leftBy (k : Cmd) (h : Nat) (c : Ctx) : (leftBy k h c).str = c.str := by
  rw [leftBy]
  split <;> split <;> rfl

theorem arr_leftBy (k : Cmd) (h : Nat) (c : Ctx) : (leftBy k h c).arr = c.arr := by
  rw [leftBy]
  split <;> split <;> rfl

/-- R368: EVPEND.GRECV. -/
theorem ev_leftBy_grecv {k : Cmd} (h : Nat) (c : Ctx) (hop : k.op = 0x24) : ((leftBy k h c).cr 7).getLsbD 4 = true := by
  rw [leftBy, if_pos hop, if_neg (by rw [hop]; decide)]
  exact getLsbD_cr_setEv _ (by decide)

/-- R343: EVPEND of a drain. -/
theorem ev_leftBy_drain {k : Cmd} (h : Nat) (c : Ctx) (hop : k.op = 0x1C) : ((leftBy k h c).cr 7).getLsbD 3 = true := by
  rw [leftBy, if_pos hop]
  exact getLsbD_cr_setEv _ (by decide)

/-- R217: the stream class counts neither a feed nor a drain of the merge network. -/
theorem str_uncount (n : Nat) (k : Cmd) (s : State) :
    ((uncount n k s).ctx n).str = (s.ctx n).str - (if k.op = 0x1A ∨ k.op = 0x1C then 0 else 1) := by
  rw [uncount, modCtx_eq, ctx_setCtx_self]
  by_cases hfeed : k.op = 0x1A <;> by_cases hdrain : k.op = 0x1C <;> simp [hfeed, hdrain] <;> rfl

theorem arr_uncount (n : Nat) (k : Cmd) (s : State) : ((uncount n k s).ctx n).arr = (s.ctx n).arr - (if k.follow.isSome then 1 else 0) := by
  rw [uncount, modCtx_eq, ctx_setCtx_self]
  rfl

theorem handle_uncount (n : Nat) (k : Cmd) (s : State) (h : Nat) : ((uncount n k s).ctx n).handle h = (s.ctx n).handle h := by
  rw [uncount, modCtx_eq, ctx_setCtx_self]
  rfl

/-- The current context once command `k` has left handle `sub`. -/
theorem cx_leftBy (k : Cmd) (s : State) :
    ((uncount s.cur k s).modCtx s.cur (leftBy k s.sub)).cx = leftBy k s.sub ((uncount s.cur k s).ctx s.cur) := ctx_setCtx_self ..

theorem handle_after_completion {s : State} {k : Cmd} {rest : List Cmd} (hcmds : (s.cx.handle s.sub).cmds = k :: rest) :
    ((((uncount s.cur k s).modCtx s.cur (leftBy k s.sub)).cx).handle s.sub).cmds = rest ∧
    ((((uncount s.cur k s).modCtx s.cur (leftBy k s.sub)).cx).handle s.sub).cancelled = (k.refused || k.cancel) := by
  have hkept : ((uncount s.cur k s).ctx s.cur).handle s.sub = s.cx.handle s.sub := handle_uncount ..
  rw [cx_leftBy, handle_leftBy, hkept, hcmds]
  exact ⟨rfl, rfl⟩

section

variable {s : State} {k : Cmd} {rest : List Cmd}
variable (hcmds : (s.cx.handle s.sub).cmds = k :: rest) (hfin : k.fin = true) (hat : k.at_ ≤ s.tick) (hon : s.engineOn s.cur = true)
include hcmds hfin hat hon

/-- A finished command without a group to arm leaves its handle and its classes. -/
theorem exec_streamComplete_leaves (hfollow : k.follow = none ∨ k.cancel = true) :
    exec .streamComplete s = .next ((uncount s.cur k s).modCtx s.cur (leftBy k s.sub)) := by
  have hheld : (k.follow.isSome && !k.cancel) = false := by rcases hfollow with h | h <;> simp [h]
  have hhead : s.head s.cur s.sub = some k := head_of_cmds hcmds
  simp only [exec_streamComplete, execStreamComplete, hhead, hfin, hheld, hon, Nat.not_lt.mpr hat, Bool.not_true, Bool.true_or, decide_false,
    Bool.or_self, Bool.false_eq_true, if_false]
  rfl

omit hfin hat hon in
/-- It waits for its group to be armed. -/
theorem exec_streamComplete_waits {g : Nat} (hfollow : k.follow = some g) (hcancel : k.cancel = false) :
    exec .streamComplete s = .next s := by
  have hhead : s.head s.cur s.sub = some k := head_of_cmds hcmds
  simp [execStreamComplete, hhead, hfollow, hcancel]

/-- R217, R242, R368: what a command leaves that has no group to arm. -/
theorem complete_plain (hfollow : k.follow = none) :
    ∃ s', exec .streamComplete s = .next s' ∧ s'.mem = s.mem ∧ (s'.cx.handle s.sub).cmds = rest ∧
      (s'.cx.handle s.sub).cancelled = (k.refused || k.cancel) ∧
      s'.cx.str = s.cx.str - (if k.op = 0x1A ∨ k.op = 0x1C then 0 else 1) ∧ s'.cx.arr = s.cx.arr ∧ s'.drawn = s.drawn - k.cost ∧
      (k.op = 0x24 → (s'.cx.cr 7).getLsbD 4 = true) ∧ (k.op = 0x1C → (s'.cx.cr 7).getLsbD 3 = true) := by
  obtain ⟨hrest, hcancelled⟩ := handle_after_completion hcmds
  refine ⟨_, exec_streamComplete_leaves hcmds hfin hat hon (.inl hfollow), rfl, hrest, hcancelled, ?_, ?_, rfl,
    fun hop => ?_, fun hop => ?_⟩
  · rw [cx_leftBy, str_leftBy, str_uncount]
    rfl
  · rw [cx_leftBy, arr_leftBy, arr_uncount, hfollow]
    rfl
  · rw [cx_leftBy]
    exact ev_leftBy_grecv _ _ hop
  · rw [cx_leftBy]
    exact ev_leftBy_drain _ _ hop

/-- R242: one that SCANCEL has marked arms nothing. -/
theorem complete_cancelled (hcancel : k.cancel = true) :
    exec .followOnArm s = .next s ∧
    ∃ s', exec .streamComplete s = .next s' ∧ s'.mem = s.mem ∧ (s'.cx.handle s.sub).cmds = rest ∧
      (s'.cx.handle s.sub).cancelled = true ∧ ∀ p, s'.arr p = s.arr p := by
  obtain ⟨hrest, hcancelled⟩ := handle_after_completion hcmds
  have hhead : s.head s.cur s.sub = some k := head_of_cmds hcmds
  refine ⟨?_, _, exec_streamComplete_leaves hcmds hfin hat hon (.inr hcancel), rfl, hrest, ?_, fun p => rfl⟩
  · rw [exec_followOnArm, execFollowOnArm]
    cases hfollow : k.follow <;> simp [hhead, hfollow, hcancel]
  · rw [hcancelled, hcancel, Bool.or_true]

/-- R248: the follow-on group of a finished command is armed, once it has room. -/
theorem exec_followOnArm_arms {g i : Nat} (hfollow : k.follow = some g) (hrefused : k.refused = false) (hcancel : k.cancel = false)
    (hcur : (s.arr (s.cur / 2)).current = some i) :
    exec .followOnArm s = .next (if 15 ≤ ((s.arr (s.cur / 2)).runq i g).length then s
      else armGroup (s.cur / 2) g s.cur k.op k.ctime 0 k.pc (setHead s.cur s.sub { k with follow := none } s)) := by
  have hhead : s.head s.cur s.sub = some k := head_of_cmds hcmds
  have htile : tileOf s.cur = s.cur / 2 := rfl
  by_cases hroom : 15 ≤ ((s.arr (s.cur / 2)).runq i g).length <;>
    simp [execFollowOnArm, hhead, hfollow, hfin, hrefused, hcancel, hon, Nat.not_lt.mpr hat, htile, hcur, hroom]

/-- R248, R185: the run that it arms stands behind those of its group. -/
theorem followOn_arms {g i : Nat} (hfollow : k.follow = some g) (hrefused : k.refused = false) (hcancel : k.cancel = false)
    (hcur : (s.arr (s.cur / 2)).current = some i) (hroom : ((s.arr (s.cur / 2)).runq i g).length < 15) :
    ∃ s', exec .followOnArm s = .next s' ∧ s'.mem = s.mem ∧ (s'.cx.handle s.sub).cmds = { k with follow := none } :: rest ∧
      (s'.arr (s.cur / 2)).runq i g =
        (s.arr (s.cur / 2)).runq i g ++ [{ ctx := s.cur, op := k.op, ctime := k.ctime, pc := k.pc, after := s.tick }] := by
  have hexec := exec_followOnArm_arms hcmds hfin hat hon hfollow hrefused hcancel hcur
  rw [if_neg (Nat.not_le.mpr hroom)] at hexec
  refine ⟨_, hexec, rfl, cmds_setHead (s := s) _ hcmds, ?_⟩
  rw [armGroup, arr_modArr_self, arr_setHead, hcur]
  exact mapGet_mapPut_self _ _ _ _

end

/-- R217, R244, R248, R368: how commands leave their handles. -/
theorem streamsComplete : StreamsComplete := by
  intro s k rest x H a hcmds hfin hat hon
  refine ⟨complete_plain hcmds hfin hat hon, fun g i hfollow hrefused hcancel hcur => ⟨?_, fun hfull => ?_, ?_⟩,
    fun g _ hcancel => complete_cancelled hcmds hfin hat hon hcancel⟩
  · exact followOn_arms hcmds hfin hat hon hfollow hrefused hcancel hcur
  · rw [exec_followOnArm_arms hcmds hfin hat hon hfollow hrefused hcancel hcur, if_pos hfull]
  · exact exec_streamComplete_waits hcmds hfollow hcancel

/-! ### Tokens between tiles (R234, R447) -/

/-- A stream engine belongs to a tile's context, whose die its number gives. -/
theorem dieOf_engineOn {s : State} {x : Nat} (hon : s.engineOn x = true) : dieOf x = x / 256 := by
  simp only [State.engineOn, Bool.and_eq_true, decide_eq_true_eq] at hon
  obtain ⟨⟨⟨_, hx⟩, _⟩, _⟩ := hon
  rw [dieOf, isGal_of_tile hx, if_neg Bool.false_ne_true]

theorem chan_putChan (s : State) (u c : Nat) (q : List W64) :
    ((s.modTile u (fun T => { T with chans := mapPut c q T.chans })).tile u).chan c = q := by
  rw [modTile_eq, tile_setTile_self]
  exact mapGet_mapPut_self _ _ _ _

/-- R234: what TEMIT_SEND does with a token for a tile of this package. -/
theorem exec_temitSend_local {s : State} {k : Cmd} {rest : List Cmd} (hcmds : (s.cx.handle s.sub).cmds = k :: rest) (hop : k.op = 0x0C)
    (hstarted : k.started = true) (hidle : k.idle = false) (hfaulted : k.faulted = false) (hfin : k.fin = false)
    (hcancel : k.cancel = false) (hon : s.engineOn s.cur = true) (hpeer : s.peerOf (s.cur / 2) (teChan k) = none) :
    exec .temitSend s = .next
      (if s.temitBehind (s.cur / 2) k ∨ 8 ≤ ((s.tile (teTile k)).chan (teChan k)).length ∨
          (s.cur / 256 ≠ teTile k / 128 ∧ s.bridge = false) then s
       else endAtOnce s.cur s.sub k (s.modTile (teTile k) (fun T =>
        { T with chans := mapPut (teChan k) ((s.tile (teTile k)).chan (teChan k) ++ [k.val]) T.chans }))) := by
  have hhead : s.head s.cur s.sub = some k := head_of_cmds hcmds
  have htile : tileOf s.cur = s.cur / 2 := rfl
  have hrun : k.running = true := by rw [Cmd.running, hstarted, hidle]; rfl
  simp only [exec_temitSend, execTemitSend, hhead, hop, hrun, hfaulted, hfin, hcancel, hon, htile, hpeer, dieOf_engineOn hon]
  by_cases hbehind : s.temitBehind (s.cur / 2) k = true
  · simp [hbehind]
  · by_cases hfull : 8 ≤ ((s.tile (teTile k)).chan (teChan k)).length ∨ (s.cur / 256 ≠ teTile k / 128 ∧ s.bridge = false) <;>
      simp [hbehind, hfull]

/-- R234, R447: a token enters its channel when there is room, behind the earlier ones of its tile. -/
theorem tokensAreEmitted : TokensAreEmitted := by
  intro s k rest x u ch q hcmds hop hstarted hidle hfaulted hfin hcancel hon hpeer
  have hexec := exec_temitSend_local hcmds hop hstarted hidle hfaulted hfin hcancel hon hpeer
  refine ⟨fun hroom hreach hfirst => ?_, fun hheld => ?_⟩
  · have hgoes : ¬(s.temitBehind (s.cur / 2) k = true ∨ 8 ≤ ((s.tile (teTile k)).chan (teChan k)).length ∨
        (s.cur / 256 ≠ teTile k / 128 ∧ s.bridge = false)) := by
      rintro (h | h | ⟨h, hb⟩)
      · exact absurd (hfirst.symm.trans h) Bool.false_ne_true
      · exact absurd hroom (Nat.not_lt.mpr h)
      · exact hreach.elim h fun hon => absurd (hb.symm.trans hon) Bool.false_ne_true
    rw [if_neg hgoes] at hexec
    refine ⟨_, hexec, rfl, ?_, cmds_setHead (s := State.modTile s (teTile k) _) _ hcmds⟩
    rw [endAtOnce, tile_setHead]
    exact chan_putChan ..
  · rw [hexec, if_pos (hheld.elim (fun h => .inr (.inl h)) .inl)]

/-! ### Circuits (R193, R238) -/

/-- The array after the head of output port `k` has left it, with `n` elements of its block. -/
def outLeft (k n : Nat) (a : Arr) : Arr := { a.outTake k with blocks := mapPut k n a.blocks }

/-- The array after a token has come to input port `p` by a circuit of some cycles, with its scale where it takes one along. -/
def tokenIn (tick cycles p : Nat) (tok : Tok) (scaled : Bool) (a : Arr) : Arr :=
  let item := fun (x : Tok) => ({ ready := tick + cycles, tok := some x, img := a.tag } : EItem)
  { a with inp := mapPut p (a.inq p ++ [item tok]) a.inp
           band := if scaled && a.keepsScale p then mapPut p (a.bandq p ++ [item (mkTok tyW8 [tok.sc] false)]) a.band else a.band }

/-- Whether input port `p` of tile `u` takes a token from output port `k` of tile `t` (R238). -/
def circuitOpen (s : State) (t k u p : Nat) (scaled : Bool) : Bool :=
  (match (s.tile u).table with | some m => swInEntry m p == some (t, k) | none => false) &&
    (s.arr u).inRoom p (scaled && (s.arr u).keepsScale p) && !s.arrFrozen u && (t / 128 == u / 128 || s.bridge)

theorem outq_outLeft (k n : Nat) (a : Arr) : (outLeft k n a).outq k = (a.outq k).drop 1 := mapGet_mapPut_self _ _ _ _

theorem inq_tokenIn (tick cycles p : Nat) (tok : Tok) (scaled : Bool) (a : Arr) :
    (tokenIn tick cycles p tok scaled a).inq p = a.inq p ++ [{ ready := tick + cycles, tok := some tok, img := a.tag }] :=
  mapGet_mapPut_self _ _ _ _

theorem bandq_tokenIn (tick cycles p : Nat) (tok : Tok) (scaled : Bool) (a : Arr) :
    (tokenIn tick cycles p tok scaled a).bandq p = a.bandq p ++ (if scaled && a.keepsScale p then
      [{ ready := tick + cycles, tok := some (mkTok tyW8 [tok.sc] false), img := a.tag }] else []) := by
  rw [tokenIn, Arr.bandq]
  split
  · exact mapGet_mapPut_self _ _ _ _
  · exact (List.append_nil _).symm

/-- R238: a circuit of one destination. -/
theorem exec_circuitTransfer_one {s : State} {m : Mem} {u p : Nat} {tok : Tok} (htable : (s.tile s.unit).table = some m)
    (hentry : swOutEntry m s.sub = some [(u, p)]) (hhead : (s.arr s.unit).outHead s.sub = some tok) :
    exec .circuitTransfer s = .next
      (if !circuitOpen s s.unit s.sub u p ((s.arr s.unit).blockOf s.sub tok).1 || s.arrFrozen s.unit then s
       else (s.modArr s.unit (outLeft s.sub ((s.arr s.unit).blockOf s.sub tok).2)).modArr u
        (tokenIn s.tick (circuitCycles s.unit u) p tok ((s.arr s.unit).blockOf s.sub tok).1)) := by
  rw [exec_circuitTransfer, execCircuitTransfer]
  simp only [htable, hentry, hhead, List.all_cons, List.all_nil, Bool.and_true, List.foldl_cons, List.foldl_nil]
  rw [apply_ite Host.Outcome.next]
  rfl

/-- R193, R238: a token takes its circuit of one destination. -/
theorem circuitsTransfer : CircuitsTransfer := by
  intro s m u p tok t k scaled htable hentry hhead hu ok item
  have hexec := exec_circuitTransfer_one htable hentry hhead
  refine ⟨fun hok hfrozen => ?_, fun hok => ?_⟩
  · have hopen : circuitOpen s s.unit s.sub u p ((s.arr s.unit).blockOf s.sub tok).1 = true := hok
    rw [hopen, hfrozen, if_neg (by decide)] at hexec
    refine ⟨_, hexec, rfl, ?_, ?_, ?_⟩
    · rw [arr_modArr_ne _ _ hu, arr_modArr_self, outq_outLeft]
    · rw [arr_modArr_self, arr_modArr_ne _ _ (Ne.symm hu), inq_tokenIn]
    · rw [arr_modArr_self, arr_modArr_ne _ _ (Ne.symm hu), bandq_tokenIn]
  · have hclosed : circuitOpen s s.unit s.sub u p ((s.arr s.unit).blockOf s.sub tok).1 = false := hok
    rw [hexec, hclosed, Bool.not_false, Bool.true_or, if_pos rfl]

/-- Settles O33: completions, tokens and circuits, event by event. -/
theorem streamCompletions : Obligations.StreamCompletions := ⟨streamsComplete, tokensAreEmitted, circuitsTransfer⟩

end Sys2Proof.Laws

/-! ## Firings of the array (R183, R184, R203, R212, R393) -/

namespace Sys2Proof.Laws

open Sys2Proof.Machine

/-! ### Before a firing (R184, R212) -/

/-- Without NULs at the heads of i1 to i3 none is dropped. -/
theorem dropNuls_none {a : Arr} {tick i p : Nat} (h : ∀ k ∈ [1, 2, 3], ∀ y ∈ a.heads tick i p k, y.nul = false) :
    a.dropNuls tick i p = a := by
  have hno : ∀ k ∈ [1, 2, 3], (a.heads tick i p k).takeWhile (·.nul) = [] := by
    intro k hk
    cases hheads : a.heads tick i p k with
    | nil => rfl
    | cons y l => exact List.takeWhile_cons_of_neg (by simp [h k hk y (by simp [hheads])])
  simp [Arr.dropNuls, hno 1 (by simp), hno 2 (by simp), hno 3 (by simp)]

theorem emitOne_none {a : Arr} {tick i p : Nat} (h : (a.pe p).emit = []) : a.emitOne tick i p = a := by rw [Arr.emitOne, h]

/-- Weight tokens that fill a bank are no firing. -/
theorem fires_absorb (F ncol : Nat) (x : Pe) (l : List Tok) (n : Nat) : (absorb F ncol x l n).1.fires = x.fires := by
  induction l generalizing x n with
  | nil => rfl
  | cons t l ih =>
    rw [absorb]
    split
    · rfl
    · rw [ih]
      split <;> rfl

/-- Weight tokens pass into the bank of one PE, or nothing happens. -/
theorem absorbW_cases (a : Arr) (tick i p : Nat) :
    a.absorbW tick i p = a ∨ ∃ b y, OnlyTokensMove a b ∧ y.fires = (a.pe p).fires ∧ a.absorbW tick i p = b.setPe p y := by
  rw [Arr.absorbW]
  split
  · split
    · exact .inl rfl
    · next F ncol _ =>
      have hfires := fires_absorb F ncol (a.pe p) (a.heads tick i p 1) 0
      generalize absorb F ncol (a.pe p) (a.heads tick i p 1) 0 = r at hfires ⊢
      obtain ⟨y, n⟩ := r
      dsimp only
      split
      · exact .inl rfl
      · exact .inr ⟨_, y, consume_onlyTokens .., hfires, rfl⟩
  · exact .inl rfl

/-- An operator that takes no weights takes none. -/
theorem absorbW_other {a : Arr} {tick i p : Nat} (h : opOP (a.pe p).op ≠ oBDOT) (h' : opOP (a.pe p).op ≠ oBDOTA) :
    a.absorbW tick i p = a := by
  rw [Arr.absorbW, if_neg (fun hor => hor.elim h h')]

theorem fires_absorbW (a : Arr) (tick i p : Nat) : ((a.absorbW tick i p).pe p).fires = (a.pe p).fires := by
  rcases absorbW_cases a tick i p with h | ⟨b, y, _, hy, h⟩
  · rw [h]
  · rw [h, pe_setPe_self, hy]

theorem img_absorbW (a : Arr) (tick i p j : Nat) : (a.absorbW tick i p).img j = a.img j := by
  rcases absorbW_cases a tick i p with h | ⟨b, y, hb, _, h⟩
  · rw [h]
  · rw [h]
    exact hb.img j

theorem runs_absorbW (a : Arr) (tick i p : Nat) : (a.absorbW tick i p).runs = a.runs := by
  rcases absorbW_cases a tick i p with h | ⟨b, y, hb, _, h⟩
  · rw [h]
  · rw [h]
    exact hb.runs

theorem flushing_absorbW (a : Arr) (tick i p g : Nat) : (a.absorbW tick i p).flushing i g = a.flushing i g := by
  rw [Arr.flushing, runs_absorbW, Arr.flushing]

/-! ### A firing (R183, R203) -/

/-- The array after PE `p` of image `i` has made a firing. -/
def fired (a : Arr) (tick i p : Nat) (f : Firing) : Arr :=
  let x := a.pe p
  let n := match a.heads tick i p 0 with | t :: _ => t.n | [] => 1
  let a := f.take.foldl (fun a e => a.consume tick i p e.1 e.2) a
  let a := a.setPe p { f.pe with fires := x.fires + 1, busy := tick + oInterval (opOP x.op) n }
  let a := a.sendAll i p (tick + oLat (opOP x.op)) f.out
  { a with flags := a.flags ||| f.flags }

theorem taken_onlyTokens (a : Arr) (tick i p : Nat) (take : List (Nat × Nat)) :
    OnlyTokensMove a (take.foldl (fun a e => a.consume tick i p e.1 e.2) a) :=
  .foldl (fun b e => consume_onlyTokens b tick i p e.1 e.2) take a

theorem pe_fired_self (a : Arr) (tick i p : Nat) (f : Firing) :
    (fired a tick i p f).pe p = { f.pe with
      fires := (a.pe p).fires + 1
      busy := tick + oInterval (opOP (a.pe p).op) (match a.heads tick i p 0 with | t :: _ => t.n | [] => 1) } :=
  ((sendAll_onlyTokens _ i p _ f.out).pe p).trans (pe_setPe_self _ _ _)

theorem pe_fired_ne (a : Arr) (tick i : Nat) {p q : Nat} (f : Firing) (h : q ≠ p) : (fired a tick i p f).pe q = a.pe q :=
  ((sendAll_onlyTokens _ i p _ f.out).pe q).trans ((pe_setPe_ne _ _ h).trans ((taken_onlyTokens a tick i p f.take).pe q))

theorem flags_fired (a : Arr) (tick i p : Nat) (f : Firing) : (fired a tick i p f).flags = a.flags ||| f.flags := by
  have h : (fired a tick i p f).flags = _ ||| f.flags := rfl
  rw [h, (sendAll_onlyTokens ..).flags]
  exact congrArg (· ||| f.flags) (taken_onlyTokens a tick i p f.take).flags

section

variable {a : Arr} {tick i p : Nat} (hnuls : ∀ k ∈ [1, 2, 3], ∀ y ∈ a.heads tick i p k, y.nul = false)
variable (hemit : (a.pe p).emit = []) (hrunning : a.running tick i (imgGroup (a.img i).raw p) = true)
variable (hbusy : ((a.absorbW tick i p).pe p).busy ≤ tick)
include hnuls hemit hrunning hbusy

/-- R183: an operator whose inputs do not hold what it needs. -/
theorem fire_idle (hfire : fireOp tick p ((a.absorbW tick i p).pe p) (edKind (imgEdge (a.img i).raw p 1) != 0)
    ((a.absorbW tick i p).heads tick i p) = none) : a.fire tick i p = a.absorbW tick i p := by
  simp only [Arr.fire, dropNuls_none hnuls, emitOne_none hemit, hrunning, Bool.not_true, Bool.false_eq_true, if_false,
    if_neg (Nat.not_lt.mpr hbusy), hfire]

/-- R183: one that fires. -/
theorem fire_fires {f : Firing} (hfire : fireOp tick p ((a.absorbW tick i p).pe p) (edKind (imgEdge (a.img i).raw p 1) != 0)
    ((a.absorbW tick i p).heads tick i p) = some f)
    (hfits : ∀ o ∈ [0, 1], (a.absorbW tick i p).fits tick i p o (f.out.filter (fun e => e.1 == o)).length = true) :
    a.fire tick i p = fired (a.absorbW tick i p) tick i p f := by
  have hall : [0, 1].all (fun o => (a.absorbW tick i p).fits tick i p o (f.out.filter (fun e => e.1 == o)).length) = true :=
    List.all_eq_true.mpr hfits
  simp only [Arr.fire, dropNuls_none hnuls, emitOne_none hemit, hrunning, hall, Bool.not_true, Bool.false_eq_true, if_false,
    if_neg (Nat.not_lt.mpr hbusy), hfire]
  rfl

end

/-- What OPERATOR_FIRE does with an attempt of a PE that has an image. -/
theorem exec_operatorFire_eq {s : State} {i : Nat} (himg : ((s.arr s.unit).pe s.sub).img = some i)
    (hfrozen : s.arrFrozen s.unit = false) {b : Arr} (hb : (s.arr s.unit).fire s.tick i s.sub = b) :
    exec .operatorFire s = .next
      (if b = s.arr s.unit then s
       else if (b.pe s.sub).fires ≠ ((s.arr s.unit).pe s.sub).fires ∧
          !(s.arr s.unit).flushing i (imgGroup ((s.arr s.unit).img i).raw s.sub) ∧
          ((s.arr s.unit).dropNuls s.tick i s.sub).firesLost s.tick i s.sub then loseRun s.unit i s.sub s
       else touchSaves s.unit (s.modArr s.unit (fun _ => b))) := by
  simp only [exec_operatorFire, execOperatorFire, himg, hfrozen, hb, Bool.false_eq_true, if_false]

/-- R393: whether a firing uses a word with an uncorrectable error. -/
def usesLost (a : Arr) (tick i p : Nat) (f : Firing) : Bool :=
  f.lost || (a.pe p).bad || f.take.any (fun e => ((a.heads tick i p e.1).take e.2).any (·.bad))

section

variable {s : State} {i : Nat} {a : Arr} (habsorb : (s.arr s.unit).absorbW s.tick i s.sub = a)
variable (himg : ((s.arr s.unit).pe s.sub).img = some i) (hfrozen : s.arrFrozen s.unit = false)
variable (hrunning : (s.arr s.unit).running s.tick i (imgGroup (a.img i).raw s.sub) = true)
variable (hnuls : ∀ k ∈ [1, 2, 3], ∀ y ∈ (s.arr s.unit).heads s.tick i s.sub k, y.nul = false)
variable (hemit : ((s.arr s.unit).pe s.sub).emit = []) (hbusy : (a.pe s.sub).busy ≤ s.tick)
include habsorb himg hfrozen hrunning hnuls hemit hbusy

/-- R183, R212: a PE that does not fire has taken its weight tokens alone. -/
theorem exec_operatorFire_idle
    (hfire : fireOp s.tick s.sub (a.pe s.sub) (edKind (imgEdge (a.img i).raw s.sub 1) != 0) (a.heads s.tick i s.sub) = none) :
    exec .operatorFire s = .next
      (if a = s.arr s.unit then s else touchSaves s.unit (s.modArr s.unit (fun _ => a))) := by
  subst habsorb
  rw [img_absorbW] at hrunning hfire
  rw [exec_operatorFire_eq himg hfrozen (fire_idle hnuls hemit hrunning hbusy hfire)]
  simp only [fires_absorbW, ne_eq, not_true_eq_false, false_and, if_false]

/-- R183, R393: one that fires, or loses its run at a word with an uncorrectable error. -/
theorem exec_operatorFire_fires {f : Firing}
    (hfire : fireOp s.tick s.sub (a.pe s.sub) (edKind (imgEdge (a.img i).raw s.sub 1) != 0) (a.heads s.tick i s.sub) = some f)
    (hfits : ∀ o ∈ [0, 1], a.fits s.tick i s.sub o (f.out.filter (fun e => e.1 == o)).length = true) :
    exec .operatorFire s = .next
      (if a.flushing i (imgGroup (a.img i).raw s.sub) = false ∧ usesLost a s.tick i s.sub f = true then loseRun s.unit i s.sub s
       else touchSaves s.unit (s.modArr s.unit (fun _ => fired a s.tick i s.sub f))) := by
  subst habsorb
  rw [img_absorbW] at hrunning hfire
  have hcounts : ((fired ((s.arr s.unit).absorbW s.tick i s.sub) s.tick i s.sub f).pe s.sub).fires ≠
      ((s.arr s.unit).pe s.sub).fires := by
    rw [pe_fired_self, fires_absorbW]
    exact Nat.succ_ne_self _
  have hlost : (s.arr s.unit).firesLost s.tick i s.sub = usesLost ((s.arr s.unit).absorbW s.tick i s.sub) s.tick i s.sub f := by
    simp only [Arr.firesLost, hfire, usesLost]
  rw [exec_operatorFire_eq himg hfrozen (fire_fires hnuls hemit hrunning hbusy hfire hfits),
    if_neg (fun h => hcounts (congrArg (fun b => (Arr.pe b s.sub).fires) h)), dropNuls_none hnuls, hlost, img_absorbW, flushing_absorbW]
  simp only [hcounts, ne_eq, not_false_eq_true, true_and, Bool.not_eq_true']

end

/-- R183, R184, R212, R393: firings. -/
theorem operatorsFire : OperatorsFire := by
  intro s i f t p before a x m g fires lost himg hfrozen hrunning hnuls hemit hbusy
  have hstands : ∀ b, (touchSaves t (s.modArr t (fun _ => b))).mem = s.mem ∧ (touchSaves t (s.modArr t (fun _ => b))).arr t = b :=
    fun b => ⟨mem_touchSaves .., (arr_touchSaves ..).trans (arr_modArr_self ..)⟩
  refine ⟨absorbW_other, fun hnone => ?_, fun hsome hfits => ?_⟩
  · have hexec := exec_operatorFire_idle rfl himg hfrozen hrunning hnuls hemit hbusy hnone
    refine ⟨fun hsame => hexec.trans (congrArg _ (if_pos hsame)), ?_⟩
    by_cases hsame : a = before
    · exact ⟨s, hexec.trans (congrArg _ (if_pos hsame)), rfl, hsame.symm⟩
    · exact ⟨_, hexec.trans (congrArg _ (if_neg hsame)), hstands a⟩
  · have hexec := exec_operatorFire_fires rfl himg hfrozen hrunning hnuls hemit hbusy hsome hfits
    refine ⟨fun hlost hflush => hexec.trans (congrArg _ (if_pos ⟨hflush, hlost⟩)), fun hgood => ?_⟩
    have hfires : ¬(a.flushing i g = false ∧ lost = true) := fun ⟨hflush, hlost⟩ => hgood.elim (by simp [hlost]) (by simp [hflush])
    obtain ⟨hmem, harr⟩ := hstands (fired a s.tick i p f)
    refine ⟨_, hexec.trans (congrArg _ (if_neg hfires)), hmem, ?_, ?_, ?_, fun q hq => ?_⟩
    · rw [harr, pe_fired_self]
    · exact (congrArg (fun b => (Arr.pe b p).busy) harr).trans (congrArg Pe.busy (pe_fired_self ..))
    · rw [harr, flags_fired]
    · rw [harr, pe_fired_ne _ _ _ _ hq]

end Sys2Proof.Laws

/-! ## Arrivals, runs, switches and loads of the array (R180, R182, R185, R186, R195, R198, R200, R237, R245, R249) -/

namespace Sys2Proof.Laws

open Sys2Proof.Machine

/-! ### Arrivals (R180, R182, R185) -/

/-- R180: the oldest token on its way to an output port is there. -/
theorem exec_tokenArrive_out {s : State} {k : Nat} {e : EItem} {rest : List EItem} {y : Tok} (hfrozen : s.arrFrozen s.unit = false)
    (hsub : s.sub = 512 + k) (hk : k < 32) (hq : (s.arr s.unit).outq k = e :: rest) (hdepth : e.depth = 0) (hready : e.ready ≤ s.tick)
    (hy : e.tok = some y) :
    exec .tokenArrive s = .next
      (if y.last then lastArrives s.unit e.img k
          (s.modArr s.unit (fun a => { a with out := mapPut k ({ e with depth := 1 } :: rest) a.out }))
       else s.modArr s.unit (fun a => { a with out := mapPut k ({ e with depth := 1 } :: rest) a.out })) := by
  have hout : arriveOut s.tick ((s.arr s.unit).outq k) = some (e, { e with depth := 1 } :: rest) := by
    rw [hq, arriveOut, if_neg (not_not.mpr hdepth), if_pos hready]
  rw [exec_tokenArrive, execTokenArrive, if_neg (by rw [hfrozen]; decide), if_neg (by omega), if_pos (by omega)]
  simp only [hsub, Nat.add_sub_cancel_left, hout, hy]

/-- What noting the last run of a switching image leaves. -/
theorem runs_noteLast (a : Arr) (tick : Nat) : (a.noteLast tick).runs = a.runs := by
  rw [Arr.noteLast]
  split
  · split <;> rfl
  · rfl

/-- R185: the LAST at the one output port of a group ends its run, which leaves the group and its class. -/
theorem lastArrives_one {s : State} {t i k g : Nat} {r : ArmedRun} {l : List ArmedRun}
    (hgroup : poGroup (imgPort ((s.arr t).img i).raw (16 + k)) = g) (hruns : (s.arr t).runq i g = r :: l)
    (hports : groupOuts ((s.arr t).img i).raw g = [k]) :
    (lastArrives t i k s).mem = s.mem ∧ (((lastArrives t i k s).arr t).runq i g).length = l.length ∧
    ((lastArrives t i k s).ctx r.ctx).arr = (s.ctx r.ctx).arr - 1 := by
  have hget := mapGet?_of_mapGet_cons hruns
  simp only [lastArrives, hgroup, hget, hports, List.all_cons, List.all_nil, Bool.and_true, List.elem_cons, beq_self_eq_true, if_true]
  refine ⟨rfl, ?_, ?_⟩
  · rw [uncountArr, arr_modCtx, arr_modArr_self, Arr.runq, runs_noteLast, mapGet_mapPut_self]
    cases l <;> rfl
  · rw [uncountArr, modCtx_eq, ctx_setCtx_self]
    rfl

/-- R180: the head of an input FIFO moves onto the edge it feeds. -/
theorem feed_moves {a : Arr} {tick k p j : Nat} {e : EItem} {rest : List EItem} (hq : a.inq k = e :: rest)
    (hfed : imgFed (a.img e.img).raw 2 k = some (p, j)) (himg : (a.pe p).img = some e.img) (hfree : 0 < a.edgeFree tick e.img p j) :
    a.feed tick 2 k = { a.setEdge e.img p j { a.edge e.img p j with q := (a.edge e.img p j).q ++ [e] } with inp := mapPut k rest a.inp } := by
  have hgoes : (a.pe p).img = some e.img ∧ (e.tok.isNone = true ∨ 0 < a.edgeFree tick e.img p j) := ⟨himg, .inr hfree⟩
  simp only [Arr.feed, if_true, hq, hfed, if_pos hgoes]
  rfl

/-- R180, R182, R185: arrivals. -/
theorem tokensArrive : TokensArrive := by
  intro s k e rest hfrozen t a
  refine ⟨fun hsub hk hq hdepth hready => ⟨fun y hy hlast => ?_, fun y r l hy hlast => ?_⟩,
    fun p j hsub hk hq hfed himg hfree => ?_⟩
  · rw [exec_tokenArrive_out hfrozen hsub hk hq hdepth hready hy, hlast, if_neg Bool.false_ne_true]
  · intro g hruns hports
    have hexec := exec_tokenArrive_out hfrozen hsub hk hq hdepth hready hy
    rw [hlast, if_pos rfl] at hexec
    have harr := arr_modArr_self s s.unit (fun a => { a with out := mapPut k ({ e with depth := 1 } :: rest) a.out })
    obtain ⟨hmem, hlen, hctx⟩ := lastArrives_one (i := e.img) (k := k) (g := g) (by rw [harr]; rfl) (by rw [harr]; exact hruns)
      (by rw [harr]; exact hports)
    exact ⟨_, hexec, hmem, hlen, hctx⟩
  · have hexec : exec .tokenArrive s = .next (s.modArr s.unit (fun a => a.feed s.tick 2 k)) := by
      rw [exec_tokenArrive, execTokenArrive, if_neg (by rw [hfrozen]; decide), if_neg (by omega), if_neg (by omega), if_pos (by omega)]
      simp only [hsub, Nat.add_sub_cancel_left]
    refine ⟨_, hexec, rfl, ?_, ?_⟩
    · rw [arr_modArr_self, feed_moves hq hfed himg hfree]
      exact mapGet_mapPut_self _ _ _ _
    · rw [arr_modArr_self, feed_moves hq hfed himg hfree]
      exact congrArg Edge.q (mapGet_mapPut_self _ _ _ _)

/-! ### Runs that begin, NULs and depth markers that take effect (R186, R200, R249) -/

/-- R186: the next run of a group begins, once the accesses before it have been performed. -/
theorem runStart_begins {s : State} {r : ArmedRun} {rest : List ArmedRun} (hget : mapGet? s.sub (s.arr s.unit).runs = some (r :: rest))
    (hbegun : r.begun = none) (hfrozen : s.arrFrozen s.unit = false) (hafter : r.after ≤ s.tick)
    (hstands : (s.arr s.unit).act = some (s.sub / 16) ∨ (s.arr s.unit).target = some (s.sub / 16)) :
    (s.behind r.ctx r.iss = true → exec .runStart s = .next s) ∧
    (s.behind r.ctx r.iss = false → ∃ s', exec .runStart s = .next s' ∧ s'.mem = s.mem ∧
      mapGet? s.sub (s'.arr s.unit).runs = some ({ r with begun := some s.tick } :: rest)) := by
  have hother : ((s.arr s.unit).act != some (s.sub / 16) && (s.arr s.unit).target != some (s.sub / 16)) = false := by
    rcases hstands with h | h <;> simp [h]
  simp only [exec_runStart, execRunStart, hget, hbegun, hfrozen, hother, decide_eq_false (Nat.not_lt.mpr hafter), Option.isSome_none,
    Bool.false_or, Bool.or_false]
  refine ⟨fun hbehind => by rw [hbehind, if_pos rfl], fun hbehind => ?_⟩
  rw [hbehind, if_neg Bool.false_ne_true]
  refine ⟨_, rfl, rfl, ?_⟩
  rw [arr_modArr_self, mapGet?_mapPut, if_pos rfl]

/-- R200: a marker that comes to the head of its edge gets there in this tick. -/
theorem markHead_cons (tick : Nat) (d : EItem) (l : List EItem) :
    markHead tick (d :: l) = (if d.tok = none then { d with ready := max d.ready tick } else d) :: l := by
  cases h : d.tok <;> simp [markHead, h]

/-- R200: a depth marker at the head of its edge takes effect. -/
theorem exec_edgeDepthChange_marker {s : State} {e : EItem} {rest : List EItem}
    (hq : ((s.arr s.unit).edge (s.sub / 256) (s.sub % 256 / 4) (s.sub % 4)).q = e :: rest) (htok : e.tok = none) (hdepth : e.depth ≠ 0)
    (hready : e.ready < s.tick) (hfrozen : s.arrFrozen s.unit = false) :
    exec .edgeDepthChange s = .next (s.modArr s.unit (fun a => a.setEdge (s.sub / 256) (s.sub % 256 / 4) (s.sub % 4)
      { a.edge (s.sub / 256) (s.sub % 256 / 4) (s.sub % 4) with q := markHead s.tick rest, depth := e.depth })) := by
  simp [execEdgeDepthChange, hq, htok, hdepth, hready, hfrozen]

/-! ### A switch (R198, R199, R429) -/

/-- A PE that loads its operator: its edges and ports apart, it alone changes. -/
theorem loadPe_cases (a : Arr) (tick i p : Nat) :
    ∃ b x, OnlyTokensMove a b ∧ a.loadPe tick i p = b.setPe p x ∧ x.img = some i ∧ x.op = imgOp (a.img i).raw p := by
  refine ⟨_, _, ?_, rfl, rfl, rfl⟩
  refine .trans ?_ (.foldl (fun b k => ?_) _ _)
  · split
    · exact .refl a
    · refine .foldl (fun b k => ?_) _ _
      dsimp only
      split
      · exact ⟨rfl, rfl, rfl, rfl, rfl, rfl⟩
      · split <;> exact ⟨rfl, rfl, rfl, rfl, rfl, rfl⟩
  · dsimp only
    split
    · exact .refl b
    · exact setEdge_onlyTokens ..

/-- A pinned accumulator file stays with its PE, which keeps its operator (R429). -/
theorem keepAcc_cases (a old : Arr) (p : Nat) (pinned : Bool) :
    a.keepAcc old p pinned = a ∨ ∃ x, a.keepAcc old p pinned = a.setPe p x ∧ x.img = (a.pe p).img ∧ x.op = (a.pe p).op := by
  cases pinned
  · exact .inl rfl
  · exact .inr ⟨_, rfl, rfl, rfl⟩

/-- The array in which PE `p` has switched to image `i` (R198). -/
def switched (a : Arr) (tick i p : Nat) (pinned : Bool) : Arr :=
  let b := match (a.pe p).img with
    | some o => if a.drained tick o p then a.sendMarkers tick o p else a
    | none => a
  (b.loadPe tick i p).keepAcc a p pinned

/-- R198: the PE has the image's operator; the others, the images and the switch are as they were. -/
theorem switched_cases (a : Arr) (tick i p : Nat) (pinned : Bool) :
    ∃ b x, OnlyTokensMove a b ∧ switched a tick i p pinned = b.setPe p x ∧ x.img = some i ∧ x.op = imgOp (a.img i).raw p := by
  have hmarkers : ∃ b, OnlyTokensMove a b ∧ switched a tick i p pinned = (b.loadPe tick i p).keepAcc a p pinned := by
    refine ⟨_, ?_, rfl⟩
    split
    · split
      · exact sendMarkers_onlyTokens ..
      · exact .refl a
    · exact .refl a
  obtain ⟨b, hb, heq⟩ := hmarkers
  obtain ⟨c, x, hc, hload, himg, hop⟩ := loadPe_cases b tick i p
  rw [hb.img] at hop
  rw [heq, hload]
  rcases keepAcc_cases (c.setPe p x) a p pinned with h | ⟨y, h, hyimg, hyop⟩
  · exact ⟨c, x, hb.trans hc, h, himg, hop⟩
  · rw [pe_setPe_self] at hyimg hyop
    refine ⟨c, y, hb.trans hc, ?_, hyimg.trans himg, hyop.trans hop⟩
    rw [h, Arr.setPe, Arr.setPe, Arr.setPe, mapPut_mapPut]

/-- The array in which every PE has switched, if they have (R198). -/
def switchDone (i : Nat) (a : Arr) : Arr :=
  if a.allSwitched i then { a with act := some i, target := none, since := none } else a

theorem allSwitched_iff (a : Arr) (i : Nat) : a.allSwitched i = true ↔ ∀ q < 64, (a.pe q).img = some i := by
  simp [Arr.allSwitched]

theorem pe_switchDone (i q : Nat) (a : Arr) : (switchDone i a).pe q = a.pe q := by
  rw [switchDone]
  split <;> rfl

/-- R198: what PE_SWITCH makes of the array. -/
theorem peSwitch_arr {s : State} {i : Nat} (htarget : (s.arr s.unit).target = some i) (hfrozen : s.arrFrozen s.unit = false)
    (himg : ((s.arr s.unit).pe s.sub).img ≠ some i) (hsub : s.sub < 64) (hmay : (s.arr s.unit).maySwitch s.tick s.sub = true) :
    ∃ s', exec .peSwitch s = .next s' ∧ s'.mem = s.mem ∧
      s'.arr s.unit = switchDone i (switched (s.arr s.unit) s.tick i s.sub ((s.tile s.unit).pinned s.sub)) := by
  have hgoes : (s.arrFrozen s.unit || ((s.arr s.unit).pe s.sub).img == some i || decide (64 ≤ s.sub) ||
      !(s.arr s.unit).maySwitch s.tick s.sub) = false := by
    simp [hfrozen, himg, hsub, hmay]
  rw [exec_peSwitch, execPeSwitch]
  simp only [htarget, hgoes, Bool.false_eq_true, if_false]
  refine ⟨_, rfl, ?_, ?_⟩
  · rw [apply_ite State.mem, mem_releaseArr, ite_self]
    rfl
  · rw [apply_ite (State.arr · s.unit), arr_releaseArr, ite_self, arr_modArr_self]
    rfl

/-- R198: one PE switches, and the switch is complete with the last. -/
theorem peSwitch_switches {s : State} {i : Nat} (htarget : (s.arr s.unit).target = some i) (hfrozen : s.arrFrozen s.unit = false)
    (himg : ((s.arr s.unit).pe s.sub).img ≠ some i) (hsub : s.sub < 64) (hmay : (s.arr s.unit).maySwitch s.tick s.sub = true) :
    ∃ s', exec .peSwitch s = .next s' ∧ s'.mem = s.mem ∧ ((s'.arr s.unit).pe s.sub).img = some i ∧
      ((s'.arr s.unit).pe s.sub).op = imgOp ((s.arr s.unit).img i).raw s.sub ∧
      (∀ q, q ≠ s.sub → (s'.arr s.unit).pe q = (s.arr s.unit).pe q) ∧
      ((∀ q < 64, q ≠ s.sub → ((s.arr s.unit).pe q).img = some i) →
        (s'.arr s.unit).act = some i ∧ (s'.arr s.unit).target = none) ∧
      ((∃ q < 64, q ≠ s.sub ∧ ((s.arr s.unit).pe q).img ≠ some i) →
        (s'.arr s.unit).act = (s.arr s.unit).act ∧ (s'.arr s.unit).target = some i) := by
  obtain ⟨s', hexec, hmem, harr⟩ := peSwitch_arr htarget hfrozen himg hsub hmay
  obtain ⟨b, x, hb, heq, hximg, hxop⟩ := switched_cases (s.arr s.unit) s.tick i s.sub ((s.tile s.unit).pinned s.sub)
  rw [heq] at harr
  have hother : ∀ q, q ≠ s.sub → (b.setPe s.sub x).pe q = (s.arr s.unit).pe q := fun q hq => (pe_setPe_ne b x hq).trans (hb.pe q)
  refine ⟨s', hexec, hmem, ?_, ?_, fun q hq => ?_, fun hall => ?_, fun ⟨q, hq, hne, hold⟩ => ?_⟩
  · rw [harr, pe_switchDone, pe_setPe_self, hximg]
  · rw [harr, pe_switchDone, pe_setPe_self, hxop]
  · rw [harr, pe_switchDone, hother q hq]
  · have hdone : (b.setPe s.sub x).allSwitched i = true := by
      refine (allSwitched_iff _ _).mpr fun q hq => ?_
      by_cases hself : q = s.sub
      · rw [hself, pe_setPe_self, hximg]
      · rw [hother q hself, hall q hq hself]
    rw [harr, switchDone, if_pos hdone]
    exact ⟨rfl, rfl⟩
  · have hmore : ¬(b.setPe s.sub x).allSwitched i = true :=
      fun h => hold ((congrArg Pe.img (hother q hne)).symm.trans ((allSwitched_iff _ _).mp h q hq))
    rw [harr, switchDone, if_neg hmore]
    exact ⟨hb.act, hb.target.trans htarget⟩

/-- R249: the oldest NUL that waits at a port enters its FIFO when that has room. -/
theorem exec_aflushNulEnter_waiting {s : State} {e : EItem} {later : List EItem}
    (hnuls : mapGet? s.sub (s.arr s.unit).nuls = some (e :: later)) (hfrozen : s.arrFrozen s.unit = false) :
    exec .aflushNulEnter s = .next (if 8 ≤ tokCount ((s.arr s.unit).inq s.sub) then s
      else
        let ahead := ((s.arr s.unit).inq s.sub).takeWhile (fun x => x.tok.isSome || x.img != e.img)
        s.modArr s.unit (fun a => { a with
          nuls := putItems a.nuls s.sub later
          inp := mapPut s.sub (ahead ++ { e with ready := s.tick + 2 } :: ((s.arr s.unit).inq s.sub).drop ahead.length) a.inp })) := by
  by_cases hfull : 8 ≤ tokCount ((s.arr s.unit).inq s.sub) <;> simp [execAflushNulEnter, hnuls, hfrozen, portDepth, hfull]

/-- R186, R198, R249, R200: the array's own events. -/
theorem arrayEvents : ArrayEvents := by
  intro s t a
  refine ⟨fun r rest hget hbegun hfrozen hafter hstands => runStart_begins hget hbegun hfrozen hafter hstands,
    fun i htarget hfrozen himg hsub hmay => peSwitch_switches htarget hfrozen himg hsub hmay,
    fun e later hnuls hfrozen => ?_, fun e rest hq htok hdepth hready hfrozen => ?_⟩
  · refine ⟨fun hroom => ?_, fun hfull => ?_⟩
    · rw [exec_aflushNulEnter_waiting hnuls hfrozen, if_neg (Nat.not_le.mpr hroom)]
      rfl
    · rw [exec_aflushNulEnter_waiting hnuls hfrozen, if_pos hfull]
  · rw [exec_edgeDepthChange_marker hq htok hdepth hready hfrozen]
    cases rest with
    | nil => rfl
    | cons d l => rw [markHead_cons]

/-! ### Loads that land (R195, R237, R245) -/

section

variable {s s1 : State} {l : CfgLoad} {b : List Byte} (hfaulted : l.faulted = false) (hretry : l.retry = false)
variable (hstill : s.frozen = false) (hfrozen : s.arrFrozen s.unit = false)
include hfaulted hstill hfrozen

omit hfaulted in
/-- A load waits for the accesses before its issue (R293; log entry 24). -/
theorem load_waits (hbehind : s.behind l.ctx l.iss = true)
    (hl : (∃ rest, s.sub = 2 ∧ (s.tile s.unit).tloads = l :: rest) ∨
      (s.sub < 2 ∧ (s.arr s.unit).loads.find? (fun l => l.slot == s.sub) = some l)) : exec .cfgImageLanded s = .next s := by
  rcases hl with ⟨rest, hsub, hl⟩ | ⟨hsub, hl⟩
  · simp [execCfgImageLanded, hstill, hfrozen, hsub, hl, hbehind]
  · simp [execCfgImageLanded, hstill, hfrozen, Nat.ne_of_lt hsub, hl, hbehind]

include hretry

/-- R237: a switch table that has been read becomes pending. -/
theorem table_lands {rest : List CfgLoad} (hbehind : s.behind l.ctx l.iss = false) (hsub : s.sub = 2)
    (hl : (s.tile s.unit).tloads = l :: rest) (hread : readDirect l.ctx l.at_ (blocks64 l.ptr 4) s = (.ok b, s1)) :
    ∃ s', exec .cfgImageLanded s = .next s' ∧ s'.mem = s1.mem ∧ (s'.tile s.unit).tloads = rest ∧
      (s'.tile s.unit).pending = Mem.writeBytes [] 0 b ∧ (s'.ctx l.ctx).str = (s1.ctx l.ctx).str - 1 := by
  simp only [exec_cfgImageLanded, execCfgImageLanded, hstill, hfrozen, hsub, hl, hfaulted, hbehind, hretry, walkingAgain, hread,
    Bool.false_eq_true, or_self, if_false, if_true, Bool.or_self]
  refine ⟨_, rfl, rfl, ?_, ?_, ?_⟩
  · rw [modCtx_eq, tile_setCtx, modTile_eq, tile_setTile_self]
  · rw [modCtx_eq, tile_setCtx, modTile_eq, tile_setTile_self]
  · rw [modCtx_eq, ctx_setCtx_self]
    rfl

/-- R195, R245: an image that has been read lands in its slot, checked. -/
theorem exec_cfgImageLanded_image (hbehind : s.behind l.ctx l.iss = false) (hsub : s.sub < 2)
    (hl : (s.arr s.unit).loads.find? (fun l => l.slot == s.sub) = some l)
    (hread : readDirect l.ctx l.at_ (blocks64 l.ptr 32) s = (.ok b, s1)) :
    exec .cfgImageLanded s = .next (landImage s.unit l (Mem.writeBytes [] 0 b) s1) := by
  simp only [exec_cfgImageLanded, execCfgImageLanded, hstill, hfrozen, Nat.ne_of_lt hsub, hl, hfaulted, hbehind, hretry, walkingAgain,
    hread, Bool.false_eq_true, or_self, if_false, Bool.or_self]

end

theorem loads_landImage (t : Nat) (l : CfgLoad) (raw : Mem) (s : State) :
    ((landImage t l raw s).arr t).loads = (s.arr t).loads.erase l := by
  rw [landImage, arr_modCtx, arr_modArr_self]

theorem img_landImage (t : Nat) (l : CfgLoad) (raw : Mem) (s : State) :
    ((landImage t l raw s).arr t).img l.slot = {
      raw := raw, inv := if ((s.arr t).loads.erase l).any (fun k => k.slot == l.slot) then 0xFF else checkImage raw
      heavy := heavyImage raw, src := some l.ptr } := by
  rw [landImage, arr_modCtx, arr_modArr_self]
  exact mapGet_mapPut_self _ _ _ _

/-- R195, R237, R245: loads that land. -/
theorem imagesLand : ImagesLand := by
  intro s s1 l b t a hfaulted hretry hstill hfrozen
  refine ⟨fun rest hsub hl hbehind => load_waits hstill hfrozen hbehind (.inl ⟨rest, hsub, hl⟩),
    fun hsub hl hbehind => load_waits hstill hfrozen hbehind (.inr ⟨hsub, hl⟩),
    fun rest hbehind hsub hl hread => table_lands hfaulted hretry hstill hfrozen hbehind hsub hl hread,
    fun hbehind hsub hl hread harr => ?_⟩
  have hslot : l.slot = s.sub := eq_of_beq (List.find?_some (p := fun l : CfgLoad => l.slot == s.sub) hl)
  have himg := img_landImage s.unit l (Mem.writeBytes [] 0 b) s1
  rw [hslot, show s1.arr s.unit = a from harr] at himg
  refine ⟨_, exec_cfgImageLanded_image hfaulted hretry hstill hfrozen hbehind hsub hl hread, rfl, ?_, ?_, ?_, fun hnone => ?_, ?_⟩
  · rw [loads_landImage, show s1.arr s.unit = a from harr]
  · rw [himg]
  · rw [himg]
  · rw [himg]
    exact if_neg fun hany => by
      obtain ⟨k, hk, hks⟩ := List.any_eq_true.mp hany
      exact hnone k hk (eq_of_beq hks)
  · rw [landImage, modCtx_eq, ctx_setCtx_self]
    rfl

/-- Settles O35: firings, arrivals, the array's own events and its loads, event by event. -/
theorem arrayFiringAndSwitching : Obligations.ArrayFiringAndSwitching := ⟨operatorsFire, tokensArrive, arrayEvents, imagesLand⟩

end Sys2Proof.Laws

/-! ## Stream commands as they issue (R215 to R219, R222, R227, R257) -/

namespace Sys2Proof.Laws
open Sys2Proof.Machine

/-! ### The first check that fails (R219) -/

/-- One check more: the failure kept so far, or the new one where its place comes before. -/
def earlierChk (a : Option Chk) (x : Chk) : Option Chk :=
  match a with
  | none => some x
  | some b => if x.rank < b.rank then some x else a

theorem firstChk_eq_foldl (l : List Chk) : firstChk l = l.foldl earlierChk none := rfl

/-- `x` is the failure of a list that comes first: of the lowest place, and of those the one checked first. -/
def FirstOf (l : List Chk) (x : Chk) : Prop :=
  ∃ a b, l = a ++ x :: b ∧ (∀ y ∈ a, x.rank < y.rank) ∧ (∀ y ∈ b, x.rank ≤ y.rank)

theorem FirstOf.least {l : List Chk} {x y : Chk} (h : FirstOf l x) (hy : y ∈ l) : x.rank ≤ y.rank := by
  obtain ⟨a, b, rfl, ha, hb⟩ := h
  obtain hy | rfl | hy := by simpa using hy
  · exact (ha y hy).le
  · exact le_rfl
  · exact hb y hy

/-- A failure of a later place put in front leaves the first one. -/
theorem FirstOf.cons_later {l : List Chk} {x b : Chk} (h : FirstOf l x) (hb : x.rank < b.rank) : FirstOf (b :: l) x := by
  obtain ⟨a, c, rfl, ha, hc⟩ := h
  refine ⟨b :: a, c, rfl, fun y hy => ?_, hc⟩
  obtain rfl | hy := List.mem_cons.mp hy
  · exact hb
  · exact ha y hy

/-- So does one put behind the head that does not come before the head. -/
theorem FirstOf.insert_second {l : List Chk} {x b y : Chk} (h : FirstOf (b :: l) x) (hy : b.rank ≤ y.rank) : FirstOf (b :: y :: l) x := by
  obtain ⟨a, c, heq, ha, hc⟩ := h
  cases a with
  | nil =>
    obtain ⟨rfl, rfl⟩ := List.cons.inj heq
    refine ⟨[], y :: l, rfl, by simp, fun z hz => ?_⟩
    obtain rfl | hz := List.mem_cons.mp hz
    · exact hy
    · exact hc z hz
  | cons e a =>
    obtain ⟨rfl, rfl⟩ := List.cons.inj heq
    refine ⟨b :: y :: a, c, rfl, fun z hz => ?_, hc⟩
    obtain rfl | rfl | hz := by simpa using hz
    · exact ha z List.mem_cons_self
    · exact (ha b List.mem_cons_self).trans_le hy
    · exact ha z (List.mem_cons_of_mem _ hz)

theorem foldl_earlierChk (b : Chk) (l : List Chk) : ∃ x, l.foldl earlierChk (some b) = some x ∧ FirstOf (b :: l) x := by
  induction l generalizing b with
  | nil => exact ⟨b, rfl, [], [], rfl, by simp, by simp⟩
  | cons y l ih =>
    by_cases hlt : y.rank < b.rank
    · obtain ⟨x, hx, hfirst⟩ := ih y
      refine ⟨x, ?_, hfirst.cons_later ((hfirst.least List.mem_cons_self).trans_lt hlt)⟩
      rw [List.foldl_cons, earlierChk, if_pos hlt, hx]
    · obtain ⟨x, hx, hfirst⟩ := ih b
      refine ⟨x, ?_, hfirst.insert_second (Nat.le_of_not_lt hlt)⟩
      rw [List.foldl_cons, earlierChk, if_neg hlt, hx]

theorem firstChk_cons (b : Chk) (l : List Chk) : ∃ x, firstChk (b :: l) = some x ∧ FirstOf (b :: l) x := by
  rw [firstChk_eq_foldl]
  exact foldl_earlierChk b l

theorem firstChk_eq_none {l : List Chk} : firstChk l = none ↔ l = [] := by
  cases l with
  | nil => exact ⟨fun _ => rfl, fun _ => rfl⟩
  | cons b l =>
    obtain ⟨x, hx, -⟩ := firstChk_cons b l
    simp [hx]

/-- R219: the check that fails first, in the order of places. -/
theorem firstFailedCheckTraps : FirstFailedCheckTraps := by
  refine fun l => ⟨firstChk_eq_none, fun x hx => ?_⟩
  cases l with
  | nil => cases hx
  | cons b l =>
    obtain ⟨y, hy, hfirst⟩ := firstChk_cons b l
    obtain rfl : y = x := Option.some.inj (hy.symm.trans hx)
    exact hfirst

/-! ### A command with room joins its handle, or traps (R215, R216, R218) -/

theorem msAddr_eq_baseOf (f : MS) (s : State) : msAddr f s.cx = Sys2Proof.baseOf s f := by
  unfold msAddr Sys2Proof.baseOf
  cases f.ext <;> rfl

theorem bitsOf_low (x h : Nat) : bitsOf x h 0 = x % 2 ^ (h + 1) := by
  rw [bitsOf, Nat.pow_zero, Nat.div_one, Nat.sub_zero]

theorem followOf_isSome (f : MS) : (followOf f).isSome = decide (f.follow.toNat / 16 = 1) := by
  rw [followOf]
  split
  · next h => rw [decide_eq_true h]; rfl
  · next h => rw [decide_eq_false h]; rfl

section
variable {s : State} {f : MS} {counted : Bool}

theorem holdCmd_room (h : Room s f counted) : holdCmd f counted s = none := by
  obtain ⟨hplace, hstr, harr⟩ := h
  rw [holdCmd, followOf_isSome]
  refine if_neg fun hfull => ?_
  simp only [Bool.and_eq_true, Bool.or_eq_true, decide_eq_true_eq, beq_iff_eq] at hfull
  obtain ⟨-, (hfull | ⟨hc, hfull⟩) | ⟨hc, hfull⟩⟩ := hfull
  · exact absurd hplace (Nat.not_lt.mpr hfull)
  · exact hstr hc hfull
  · exact harr hc hfull

theorem holdCmd_full (hg : s.cx.guard f.gp = true) (h : ¬ Room s f counted) : holdCmd f counted s = some s := by
  rw [holdCmd, followOf_isSome]
  refine if_pos ?_
  by_contra hfree
  simp only [hg, Bool.true_and, Bool.or_eq_true, Bool.and_eq_true, decide_eq_true_eq, beq_iff_eq, not_or, not_and, Nat.not_le] at hfree
  exact h ⟨hfree.1.1, hfree.1.2, hfree.2⟩

theorem submit_cx (k : Cmd) : (submit f counted k s).cx = joined s f counted k := by
  rw [submit, modCx_eq, cx_setCx, modTile_eq, cx_setTile, followOf]
  rw [joined]
  by_cases hf : f.follow.toNat / 16 = 1
  · simp only [if_pos hf]
    rfl
  · simp only [if_neg hf]
    rfl

/-- R215, R216: a command whose issue ends stands in its handle. -/
theorem joins_submit (hbuf : s.cx.buf = {}) (k : Cmd) : Joins s f counted k (.next (commit (submit f counted k s))) := by
  have hempty : (submit f counted k s).cx.buf = {} := by
    rw [submit_cx]
    exact hbuf
  refine ⟨_, congrArg _ (commit_idle hempty), ?_, ?_, rfl, rfl⟩
  · rw [cx_setCx, submit_cx]
    rfl
  · exact tile_setTile_self ..

theorem joinsOrTraps_issueCmd (hbuf : s.cx.buf = {}) (cs : List Chk) (k : Cmd) :
    JoinsOrTraps s f counted cs k (finishHold s none (issueCmd f counted cs k s)) := by
  refine ⟨fun hnone => ?_, fun x hx => ?_⟩
  · rw [issueCmd, firstChk_eq_none.mpr hnone, finishHold_ok]
    exact joins_submit hbuf k
  · rw [issueCmd, hx]
    rfl

/-- A stream operation alone whose checks and command are given. -/
theorem joinsOrTraps_alone (hbuf : s.cx.buf = {}) (hroom : Room s f counted) {i : Instr} {cs : List Chk} {k k' : Cmd}
    (hexec : exec i s = finishHold s (holdCmd f counted s) (issueCmd f counted cs k s)) (hk : k = k') :
    JoinsOrTraps s f counted cs k' (exec i s) := by
  subst hk
  rw [hexec, holdCmd_room hroom]
  exact joinsOrTraps_issueCmd hbuf cs k

end

/-- Where the guard of an M operation holds, the operation takes effect. -/
theorem guarded_on {s : State} {gp : BitVec 4} (hg : s.cx.guard gp = true) (r : Res) :
    (if !s.cx.guard gp then .ok s else r) = r := by
  rw [hg]
  rfl

/-- The element count that an indirect command issues with (R228). -/
theorem indirectTotal_eq (ps : List W64) :
    (if true && ixSrc ps != 0 && ixN ps != 0 then none else some (moveTotal true ps)) =
      if ixSrc ps = 0 ∨ ixN ps = 0 then some (ixN ps * ixRow ps) else none := by
  by_cases hsrc : ixSrc ps = 0 <;> by_cases hn : ixN ps = 0 <;> simp [hsrc, hn, moveTotal]

/-- The first parameter word. -/
theorem pw_params_zero (f : MS) (c : Ctx) (n : Nat) : pw (c.params f (n + 1)) 0 = (c.rm f.mp.toNat).toNat := by
  rw [Ctx.params, List.range_succ_eq_map, List.map_cons]
  rfl

/-- A flag read back as a number. -/
theorem ite_flag (n : Nat) : (if n % 2 == 1 then 1 else 0) = n % 2 := by
  obtain h | h := Nat.mod_two_eq_zero_or_one n <;> simp [h]

/-- R341: a drain issues into a session of its own that is sealed, ready or empty. -/
theorem mnCheck_drain {s : State} (hasid : (s.cluster (s.cur / 2 / 8)).mn.asid = s.cx.asid)
    (hstate : (s.cluster (s.cur / 2 / 8)).mn.state ∈ [2, 3, 4]) : s.mnCheck [mnSEALED, mnREADY, mnEMPTY] = none := by
  have hmn : s.mn (clOf s.cur) = (s.cluster (s.cur / 2 / 8)).mn := rfl
  have hidle : (s.cluster (s.cur / 2 / 8)).mn.state ≠ mnIDLE := by
    intro h
    rw [h] at hstate
    exact absurd hstate (by decide)
  rw [State.mnCheck, hmn, hasid]
  simp only [hidle, ne_eq, not_true_eq_false, or_self, if_false]
  exact if_pos (List.elem_iff.mpr hstate)

/-- R215, R216, R218, R219: a command with room joins its handle, or traps by the first check that fails. -/
theorem streamCommandsJoin : StreamCommandsJoin := by
  intro s f hbuf hg p c mps ps4 ps5 all
  have hp : p = msAddr f s.cx := (msAddr_eq_baseOf f s).symm
  clear_value p
  subst hp
  have hon := fun (counted : Bool) (r : Res) => congrArg (finishHold s (holdCmd f counted s)) (guarded_on hg r)
  refine ⟨fun hroom => ⟨?_, ?_, ?_, ?_, ?_, ?_, ?_, ?_, ?_, ?_, ?_, ?_⟩, fun hroom => ⟨?_, fun x hx => ?_, fun hnone hasid hstate => ?_⟩⟩
  · exact joinsOrTraps_alone hbuf hroom (hon true _) rfl
  · exact joinsOrTraps_alone hbuf hroom (hon true _) rfl
  · exact joinsOrTraps_alone hbuf hroom (hon true _) (by rw [indirectTotal_eq]; rfl)
  · exact joinsOrTraps_alone hbuf hroom (hon true _) (by rw [indirectTotal_eq]; rfl)
  · exact joinsOrTraps_alone hbuf hroom (hon true _) (by rw [bitsOf_low, pw_params_zero, immU_eq_immUM]; rfl)
  · exact joinsOrTraps_alone hbuf hroom (hon true _) rfl
  · exact joinsOrTraps_alone hbuf hroom (hon true _) rfl
  · exact joinsOrTraps_alone hbuf hroom (hon true _) rfl
  · exact joinsOrTraps_alone hbuf hroom (hon true _) rfl
  · exact joinsOrTraps_alone hbuf hroom (hon true _) rfl
  · exact joinsOrTraps_alone hbuf hroom (hon true _) rfl
  · rw [exec_temit, execTemit, opTemit, guarded_on hg, holdCmd_room hroom, immU_eq_immUM, finishHold_ok]
    exact joins_submit hbuf _
  · exact joinsOrTraps_alone hbuf hroom (hon false _) (by rw [mfN, bitsOf_low, pw_params_zero]; rfl)
  · rw [exec_mndrain, execMndrain, opMndrain, guarded_on hg, holdCmd_room hroom, hx]
    rfl
  · rw [exec_mndrain, execMndrain, opMndrain, guarded_on hg, holdCmd_room hroom, firstChk_eq_none.mpr hnone, mnCheck_drain hasid hstate]
    dsimp only
    rw [ite_flag, finishHold_ok]
    exact joins_submit hbuf _

/-- R218: a command without room holds its bundle. -/
theorem streamCommandsHold : StreamCommandsHold := by
  intro s f hg
  have hheld := fun (counted : Bool) (hfull : ¬ Room s f counted) (r : Res) =>
    congrArg (finishHold s · r) (holdCmd_full hg hfull)
  refine ⟨fun hfull => ?_, fun hfull => ?_⟩
  · have hsmcast : ∀ p, holdSmcast f p s = some s := fun p => by rw [holdSmcast, holdCmd_full hg hfull]
    have hnsdot : ∀ p, holdNsdot f p s = some s := fun p => by rw [holdNsdot, holdCmd_full hg hfull]
    simp only [List.forall_mem_cons, List.not_mem_nil, false_implies, implies_true, and_true]
    exact ⟨hheld true hfull _, hheld true hfull _, hheld true hfull _, hheld true hfull _, hheld true hfull _, hheld true hfull _,
      congrArg (finishHold s · _) (hsmcast _), hheld true hfull _, hheld true hfull _, hheld true hfull _, hheld true hfull _,
      hheld true hfull _, hheld true hfull _, congrArg (finishHold s · _) (hnsdot _)⟩
  · simp only [List.forall_mem_cons, List.not_mem_nil, false_implies, implies_true, and_true]
    exact ⟨hheld false hfull _, hheld false hfull _⟩

/-! ### The places of the checks (R219, R257, R262) -/

/-- R219, R257: the places of the order, each with the cause that a check there has. -/
def placesInOrder : List (Nat × Cause) :=
  [(0, .illegalOp), (1, .paramRange), (2, .spaceForeign), (3, .spaceRange), (4, .spaceForeign), (5, .spaceRange), (6, .misaligned),
    (7, .portCircuit), (8, .portShape), (9, .streamHandle)]

/-- Each failed check of a list has its place. -/
structure AllPlaced (l : List Chk) : Prop where
  place : ∀ x ∈ l, (x.rank, x.cause) ∈ placesInOrder

theorem allPlaced_nil : AllPlaced [] := ⟨fun _ hx => absurd hx List.not_mem_nil⟩

theorem allPlaced_append {a b : List Chk} : AllPlaced (a ++ b) ↔ AllPlaced a ∧ AllPlaced b :=
  ⟨fun h => ⟨⟨(List.forall_mem_append.mp h.place).1⟩, ⟨(List.forall_mem_append.mp h.place).2⟩⟩,
    fun h => ⟨List.forall_mem_append.mpr ⟨h.1.place, h.2.place⟩⟩⟩

theorem AllPlaced.ite {c : Prop} [Decidable c] {a b : List Chk} (ha : AllPlaced a) (hb : AllPlaced b) : AllPlaced (if c then a else b) := by
  split
  · exact ha
  · exact hb

theorem AllPlaced.filter {l : List Chk} (h : AllPlaced l) (p : Chk → Bool) : AllPlaced (l.filter p) :=
  ⟨fun x hx => h.place x (List.mem_of_mem_filter hx)⟩

theorem AllPlaced.flatMap {α : Type} {g : α → List Chk} (h : ∀ a, AllPlaced (g a)) (l : List α) : AllPlaced (l.flatMap g) := by
  refine ⟨fun x hx => ?_⟩
  obtain ⟨a, -, hx⟩ := List.mem_flatMap.mp hx
  exact (h a).place x hx

theorem mem_chk {bad : Bool} {r : Nat} {c : Cause} {p : W64} {x : Chk} :
    x ∈ chk bad r c p ↔ bad = true ∧ x = { rank := r, cause := c, addr := p } := by
  cases bad <;> simp [chk]

theorem allPlaced_chk {r : Nat} {c : Cause} (h : (r, c) ∈ placesInOrder) (bad : Bool) (p : W64) : AllPlaced (chk bad r c p) := by
  refine ⟨fun x hx => ?_⟩
  obtain ⟨-, rfl⟩ := mem_chk.mp hx
  exact h

theorem allPlaced_chkParam (bad : Bool) : AllPlaced (chkParam bad) := allPlaced_chk (by decide) bad _

theorem allPlaced_chkAlign (p : W64) (n : Nat) (vals : List Int) : AllPlaced (chkAlign p n vals) := allPlaced_chk (by decide) _ _

/-- What the reach rule finds of a pointer is its space or its range (R262). -/
theorem reach_cause {owned : Bool} {floor size base len off n : Nat} {e : Cause} (h : reach owned floor size base len off n = some e) :
    e = .spaceForeign ∨ e = .spaceRange := by
  unfold reach at h
  split_ifs at h
  · exact .inl (Option.some.inj h).symm
  · exact .inr (Option.some.inj h).symm
  · exact .inr (Option.some.inj h).symm

/-- So does the rule of a stream's operand (R227, R257, R262). -/
theorem streamLoc_cause {s : State} {x : Nat} {p : W64} {n : Nat} {e : Cause} (h : s.streamLoc x p n = .error e) :
    e = .spaceForeign ∨ e = .spaceRange := by
  unfold State.streamLoc at h
  dsimp only at h
  split at h
  case h_1 | h_2 | h_3 =>
    split_ifs at h
    exact .inr (Except.error.inj h).symm
  case h_4 | h_5 =>
    split at h
    · exact .inr (Except.error.inj h).symm
    · split at h
      · exact .inl (Except.error.inj h).symm
      · split at h
        · next hreach =>
          obtain rfl := Except.error.inj h
          exact reach_cause hreach
        · cases h
  case h_6 => exact .inl (Except.error.inj h).symm

theorem allPlaced_chkOf {c : Cause} (h : c = .spaceForeign ∨ c = .spaceRange) (p : W64) : AllPlaced (chkOf c p) := by
  refine ⟨fun x hx => ?_⟩
  obtain rfl := List.mem_singleton.mp hx
  obtain rfl | rfl := h
  · exact (by decide : ((4, .spaceForeign) : Nat × Cause) ∈ placesInOrder)
  · exact (by decide : ((5, .spaceRange) : Nat × Cause) ∈ placesInOrder)

section
variable (s : State) (p : W64)

theorem allPlaced_reachChk (n : Nat) : AllPlaced (s.reachChk p n) := by
  unfold State.reachChk
  split
  · next h => exact allPlaced_chkOf (streamLoc_cause h) p
  · exact allPlaced_nil

theorem allPlaced_reachAt (d : Int) (n : Nat) : AllPlaced (s.reachAt p d n) :=
  .ite (allPlaced_chkOf (.inr rfl) _) (allPlaced_reachChk s _ n)

theorem allPlaced_spaceChk (pads : Bool) : AllPlaced (s.spaceChk p pads) := by
  simp only [State.spaceChk, allPlaced_append]
  exact ⟨⟨allPlaced_chk (by decide) _ _, allPlaced_chk (by decide) _ _⟩, allPlaced_chk (by decide) _ _⟩

theorem allPlaced_ownerChk : AllPlaced (s.ownerChk p) := .ite ((allPlaced_reachChk s p 1).filter _) allPlaced_nil

theorem allPlaced_boxChk (lo hi : Int) (n : Nat) (pads : Bool) : AllPlaced (s.boxChk p lo hi n pads) :=
  allPlaced_append.mpr ⟨allPlaced_spaceChk s p pads,
    .ite (allPlaced_append.mpr ⟨allPlaced_reachAt s p lo n, allPlaced_reachAt s p hi n⟩) allPlaced_nil⟩

theorem allPlaced_blobChk (n al : Nat) (pads : Bool) : AllPlaced (s.blobChk p n al pads) :=
  allPlaced_append.mpr ⟨allPlaced_boxChk s p 0 0 n pads, allPlaced_chkAlign ..⟩

theorem allPlaced_affChk (ps : List W64) (w : Nat) : AllPlaced (s.affChk p ps w) := by
  simp only [State.affChk, allPlaced_append]
  exact ⟨⟨allPlaced_chkParam _, .ite (allPlaced_spaceChk ..) (allPlaced_boxChk ..)⟩, allPlaced_chkAlign ..⟩

theorem allPlaced_indChk (ps : List W64) (w : Nat) : AllPlaced (s.indChk p ps w) := by
  simp only [State.indChk, allPlaced_append]
  refine ⟨⟨⟨⟨allPlaced_chkParam _, allPlaced_spaceChk ..⟩, allPlaced_ownerChk ..⟩, allPlaced_chkAlign ..⟩, .ite ?_ allPlaced_nil⟩
  refine allPlaced_append.mpr ⟨.ite ?_ (allPlaced_boxChk ..), .ite allPlaced_nil (allPlaced_chkAlign ..)⟩
  exact allPlaced_append.mpr ⟨allPlaced_spaceChk .., allPlaced_ownerChk ..⟩

theorem allPlaced_swinChk (ps : List W64) (w : Nat) : AllPlaced (s.swinChk p ps w) := by
  simp only [State.swinChk, allPlaced_append]
  refine ⟨⟨allPlaced_chkParam _, ?_⟩, allPlaced_chkAlign ..⟩
  split
  · exact allPlaced_boxChk ..
  · exact allPlaced_spaceChk ..

theorem allPlaced_scaleChk (scal : Bool) (total : Nat) : AllPlaced (s.scaleChk p scal total) :=
  .ite allPlaced_nil (.ite (allPlaced_spaceChk ..) (allPlaced_boxChk ..))

theorem allPlaced_runChk (pitch w n : Nat) : AllPlaced (s.runChk p pitch w n) :=
  allPlaced_append.mpr ⟨.ite (allPlaced_spaceChk ..) (allPlaced_boxChk ..), .ite allPlaced_nil (allPlaced_chkAlign ..)⟩

theorem allPlaced_inPortChk (k tty lanes : Nat) (scal : Bool) : AllPlaced (s.inPortChk k tty lanes scal) :=
  allPlaced_append.mpr ⟨allPlaced_chk (by decide) _ _, allPlaced_chk (by decide) _ _⟩

theorem allPlaced_outPortChk (k : Nat) (bad : Nat → Bool) : AllPlaced (s.outPortChk k bad) :=
  allPlaced_append.mpr ⟨allPlaced_chk (by decide) _ _, allPlaced_chk (by decide) _ _⟩

theorem allPlaced_shapeChk (w : Nat) (one scal : Bool) (dst : Option Nat) (q : Bool) : AllPlaced (shapeChk w one scal dst q) :=
  allPlaced_chkParam _

theorem allPlaced_scalRun (f : MS) (n : Nat) (scal : Bool) : AllPlaced (scalRun f n scal) := allPlaced_chk (by decide) _ _

theorem allPlaced_followChk (f : MS) : AllPlaced (s.followChk f) := by
  unfold State.followChk
  split
  · exact allPlaced_chkParam _
  · exact allPlaced_nil

/-! ### The checks of each command (R219) -/

variable (f : MS)

theorem allPlaced_moveChk (out ind : Bool) : AllPlaced (s.moveChk out ind f p) := by
  simp only [State.moveChk, allPlaced_append]
  refine ⟨⟨⟨⟨⟨⟨allPlaced_scalRun .., allPlaced_shapeChk ..⟩, allPlaced_followChk ..⟩, .ite allPlaced_nil
    (.ite (allPlaced_indChk ..) (allPlaced_affChk ..))⟩, allPlaced_scaleChk ..⟩, .ite allPlaced_nil
    (.ite (allPlaced_outPortChk ..) (allPlaced_inPortChk ..))⟩, .ite ?_ allPlaced_nil⟩
  exact allPlaced_append.mpr ⟨.ite (allPlaced_outPortChk ..) allPlaced_nil, allPlaced_chk (by decide) _ _⟩

theorem allPlaced_srecChk : AllPlaced (s.srecChk f) := by
  simp only [State.srecChk, allPlaced_append]
  exact ⟨⟨⟨allPlaced_chkParam _, allPlaced_followChk ..⟩, allPlaced_chk (by decide) _ _⟩, allPlaced_chk (by decide) _ _⟩

theorem allPlaced_swinAllChk : AllPlaced (s.swinAllChk f p) := by
  simp only [State.swinAllChk, allPlaced_append]
  exact ⟨⟨⟨allPlaced_shapeChk .., allPlaced_followChk ..⟩, .ite allPlaced_nil (allPlaced_swinChk ..)⟩, allPlaced_inPortChk ..⟩

theorem allPlaced_mcastChk (ps : List W64) : AllPlaced (s.mcastChk f p ps) := by
  simp only [State.mcastChk, allPlaced_append]
  refine ⟨⟨⟨⟨allPlaced_chk (by decide) _ _, allPlaced_shapeChk ..⟩, allPlaced_chkParam _⟩, .ite allPlaced_nil (allPlaced_affChk ..)⟩,
    .ite (.flatMap (fun u => .ite allPlaced_nil (.ite (allPlaced_chkOf (.inr rfl) _) ?_)) _)
      (.ite (allPlaced_inPortChk ..) allPlaced_nil)⟩
  exact allPlaced_append.mpr ⟨allPlaced_append.mpr ⟨allPlaced_reachChk .., allPlaced_reachChk ..⟩, allPlaced_chkAlign ..⟩

theorem allPlaced_scopyChk : AllPlaced (s.scopyChk f p) := by
  simp only [State.scopyChk, allPlaced_append]
  refine ⟨⟨allPlaced_shapeChk .., .ite allPlaced_nil (allPlaced_affChk ..)⟩, .ite allPlaced_nil ?_⟩
  exact allPlaced_append.mpr ⟨.ite (allPlaced_spaceChk ..) (allPlaced_boxChk ..), allPlaced_chkAlign ..⟩

theorem allPlaced_boxCmdChk (fill : Bool) : AllPlaced (s.boxCmdChk fill f p) :=
  allPlaced_append.mpr ⟨allPlaced_shapeChk .., .ite allPlaced_nil (allPlaced_affChk ..)⟩

theorem allPlaced_sdualChk : AllPlaced (s.sdualChk f p) := by
  simp only [State.sdualChk, allPlaced_append]
  have hfar : ∀ q : W64, AllPlaced (chk (!(ptrCode q == 0 || ptrCode q == 14)) 2 .spaceForeign q) ∧
      AllPlaced (chk (spaceNamed (ptrCode q) && !mbzOk q) 3 .spaceRange q) :=
    fun q => ⟨allPlaced_chk (by decide) _ _, allPlaced_chk (by decide) _ _⟩
  refine ⟨⟨⟨⟨⟨⟨allPlaced_shapeChk .., allPlaced_chkParam _⟩, hfar _⟩, hfar _⟩, .ite (allPlaced_spaceChk ..) (allPlaced_boxChk ..)⟩,
    .ite allPlaced_nil (allPlaced_chkAlign ..)⟩, .ite allPlaced_nil ?_⟩
  exact allPlaced_append.mpr ⟨allPlaced_chkAlign .., allPlaced_chkAlign ..⟩

theorem allPlaced_grecvChk : AllPlaced (s.grecvChk f p) := by
  simp only [State.grecvChk, allPlaced_append]
  exact ⟨⟨⟨⟨⟨allPlaced_chkParam _, allPlaced_chk (by decide) _ _⟩, allPlaced_chk (by decide) _ _⟩, allPlaced_chk (by decide) _ _⟩,
    .ite (allPlaced_reachChk ..) allPlaced_nil⟩, allPlaced_chkAlign ..⟩

theorem allPlaced_nsdotChk (ps : List W64) : AllPlaced (s.nsdotChk f p ps) := by
  simp only [State.nsdotChk, allPlaced_append]
  refine ⟨⟨⟨⟨allPlaced_scalRun .., allPlaced_chkParam _⟩, allPlaced_chk (by decide) _ _⟩, allPlaced_chk (by decide) _ _⟩,
    .ite allPlaced_nil ?_⟩
  simp only [allPlaced_append]
  refine ⟨⟨⟨⟨⟨allPlaced_boxChk .., allPlaced_boxChk ..⟩, allPlaced_chkAlign ..⟩, allPlaced_chkAlign ..⟩, allPlaced_chkAlign ..⟩,
    .ite ?_ allPlaced_nil⟩
  exact allPlaced_append.mpr ⟨allPlaced_boxChk .., allPlaced_boxChk ..⟩

theorem allPlaced_mnfeedChk : AllPlaced (s.mnfeedChk f p) := by
  simp only [State.mnfeedChk, allPlaced_append]
  exact ⟨⟨allPlaced_chkParam _, allPlaced_runChk ..⟩, allPlaced_runChk ..⟩

theorem allPlaced_mndrainChk : AllPlaced (s.mndrainChk f p) := by
  simp only [State.mndrainChk, allPlaced_append]
  exact ⟨⟨⟨allPlaced_chkParam _, allPlaced_runChk ..⟩, allPlaced_runChk ..⟩, .ite (allPlaced_runChk ..) allPlaced_nil⟩

end

/-- R219, R257: each check of a command has its place. -/
theorem checkPlaces : CheckPlaces := by
  intro s f p n al pads place
  have hplace : ∀ l, AllPlaced l → ∀ x ∈ l, place x := by
    intro l hl x hx
    have hmem := hl.place x hx
    simp only [placesInOrder, List.mem_cons, Prod.mk.injEq, List.not_mem_nil, or_false] at hmem
    rcases hmem with ⟨hr, hc⟩ | ⟨hr, hc⟩ | ⟨hr, hc⟩ | ⟨hr, hc⟩ | ⟨hr, hc⟩ | ⟨hr, hc⟩ | ⟨hr, hc⟩ | ⟨hr, hc⟩ | ⟨hr, hc⟩ | ⟨hr, hc⟩
    all_goals
      simp only [place]
      rw [hr]
      exact hc
  simp only [List.forall_mem_cons, List.not_mem_nil, false_implies, implies_true, and_true]
  have hmove := fun out ind => hplace _ (allPlaced_moveChk s p f out ind)
  have hbox := fun fill => hplace _ (allPlaced_boxCmdChk s p f fill)
  exact ⟨hmove _ _, hmove _ _, hmove _ _, hmove _ _, hplace _ (allPlaced_srecChk s f), hplace _ (allPlaced_swinAllChk s p f),
    hplace _ (allPlaced_mcastChk s p f _), hplace _ (allPlaced_scopyChk s p f), hbox _, hbox _, hplace _ (allPlaced_sdualChk s p f),
    hplace _ (allPlaced_grecvChk s p f), hplace _ (allPlaced_nsdotChk s p f _), hplace _ (allPlaced_mnfeedChk s p f),
    hplace _ (allPlaced_mndrainChk s p f), hplace _ (allPlaced_blobChk s p n al pads)⟩

/-! ### Which parameters of SAFF fail which check (R219, R222, R223, R227, R256, R257) -/

/-- Some failed check of a list has this cause. -/
def Fails (l : List Chk) (e : Cause) : Prop := ∃ x ∈ l, x.cause = e

theorem fails_nil {e : Cause} : ¬ Fails [] e := by simp [Fails]

theorem fails_append {a b : List Chk} {e : Cause} : Fails (a ++ b) e ↔ Fails a e ∨ Fails b e := by
  simp only [Fails, List.mem_append, or_and_right, exists_or]

theorem fails_chk {bad : Bool} {r : Nat} {c e : Cause} {p : W64} : Fails (chk bad r c p) e ↔ bad = true ∧ c = e := by
  constructor
  · rintro ⟨x, hx, rfl⟩
    obtain ⟨hbad, rfl⟩ := mem_chk.mp hx
    exact ⟨hbad, rfl⟩
  · rintro ⟨hbad, rfl⟩
    exact ⟨_, mem_chk.mpr ⟨hbad, rfl⟩, rfl⟩

theorem fails_if_nil {c : Prop} [Decidable c] {l : List Chk} {e : Cause} : Fails (if c then [] else l) e ↔ ¬ c ∧ Fails l e := by
  split
  · next h => exact ⟨fun hf => absurd hf fails_nil, fun hf => absurd h hf.1⟩
  · next h => exact ⟨fun hf => ⟨h, hf⟩, And.right⟩

/-- The failed checks of a list are of the space and the range of a pointer (R256, R257, R262). -/
structure OfSpace (l : List Chk) : Prop where
  cause : ∀ e, Fails l e → e = .spaceForeign ∨ e = .spaceRange

theorem OfSpace.nil : OfSpace [] := ⟨fun _ h => absurd h fails_nil⟩

theorem OfSpace.append {a b : List Chk} (ha : OfSpace a) (hb : OfSpace b) : OfSpace (a ++ b) :=
  ⟨fun e h => (fails_append.mp h).elim (ha.cause e) (hb.cause e)⟩

theorem OfSpace.ite {c : Prop} [Decidable c] {a b : List Chk} (ha : OfSpace a) (hb : OfSpace b) : OfSpace (if c then a else b) := by
  split
  · exact ha
  · exact hb

theorem ofSpace_chk {c : Cause} (h : c = .spaceForeign ∨ c = .spaceRange) (bad : Bool) (r : Nat) (p : W64) : OfSpace (chk bad r c p) := by
  refine ⟨fun e he => ?_⟩
  obtain ⟨-, rfl⟩ := fails_chk.mp he
  exact h

theorem ofSpace_chkOf {c : Cause} (h : c = .spaceForeign ∨ c = .spaceRange) (p : W64) : OfSpace (chkOf c p) := by
  refine ⟨fun e ⟨x, hx, he⟩ => ?_⟩
  obtain rfl := List.mem_singleton.mp hx
  exact he ▸ h

section
variable (s : State) (p : W64)

theorem ofSpace_reachAt (d : Int) (n : Nat) : OfSpace (s.reachAt p d n) := by
  refine .ite (ofSpace_chkOf (.inr rfl) _) ?_
  unfold State.reachChk
  split
  · next h => exact ofSpace_chkOf (streamLoc_cause h) _
  · exact .nil

theorem ofSpace_spaceChk (pads : Bool) : OfSpace (s.spaceChk p pads) :=
  ((ofSpace_chk (.inl rfl) _ _ _).append (ofSpace_chk (.inr rfl) _ _ _)).append (ofSpace_chk (.inl rfl) _ _ _)

theorem ofSpace_boxChk (lo hi : Int) (n : Nat) (pads : Bool) : OfSpace (s.boxChk p lo hi n pads) :=
  (ofSpace_spaceChk s p pads).append (.ite ((ofSpace_reachAt s p lo n).append (ofSpace_reachAt s p hi n)) .nil)

theorem ofSpace_scaleChk (scal : Bool) (total : Nat) : OfSpace (s.scaleChk p scal total) :=
  .ite .nil (.ite (ofSpace_spaceChk ..) (ofSpace_boxChk ..))

/-- A named space whose zero bits are set makes its pointer malformed (R256). -/
theorem malformed_iff : (spaceNamed (ptrCode p) && !mbzOk p) = true ↔ spaceNamed (ptrCode p) = true ∧ ptrWf p = false := by
  rw [ptrWf]
  cases spaceNamed (ptrCode p) <;> simp

/-- A pointer of no scratchpad is checked for its space code and its zero bits alone (R257). -/
theorem fails_spaceChk_far (h8 : ptrCode p ≠ 8) (h9 : ptrCode p ≠ 9) (h10 : ptrCode p ≠ 10) (e : Cause) :
    Fails (s.spaceChk p) e ↔ (ptrCode p ≠ 0 ∧ ptrCode p ≠ 14) ∧ .spaceForeign = e ∨
      ((ptrCode p = 0 ∨ ptrCode p = 12 ∨ ptrCode p = 14) ∧ ptrWf p = false) ∧ .spaceRange = e := by
  have hnamed : spaceNamed (ptrCode p) = true ↔ ptrCode p = 0 ∨ ptrCode p = 12 ∨ ptrCode p = 14 := by
    simp [spaceNamed, h8, h9, h10, or_assoc]
  have hcode : (!(isPadCode (ptrCode p) || (!false && (ptrCode p == 0 || ptrCode p == 14)))) = true ↔ ptrCode p ≠ 0 ∧ ptrCode p ≠ 14 := by
    simp [isPadCode, h8, h9, h10]
  simp only [State.spaceChk, fails_append, fails_chk, malformed_iff, hnamed, hcode]
  simp [h9, h10]

variable (f : MS)

theorem pw_params {n i : Nat} (h : i < n) (c : Ctx) : pw (c.params f n) i = (c.rm (f.mp.toNat + i)).toNat := by
  rw [pw, Ctx.params, List.getElem?_map, List.getElem?_range h]
  rfl

theorem pw_movePs {i : Nat} (h : i < 4) (c : Ctx) : pw (movePs f c) i = (c.rm (f.mp.toNat + i)).toNat := by
  refine pw_params f ?_ c
  split
  · omega
  · exact h

theorem fails_scalRun (n : Nat) (scal : Bool) (e : Cause) :
    Fails (scalRun f n scal) e ↔ (scal = true ∧ 32 < f.mp.toNat + n + 1) ∧ .illegalOp = e := by
  rw [scalRun, fails_chk, Bool.and_eq_true, decide_eq_true_iff]

theorem fails_followChk (e : Cause) :
    Fails (s.followChk f) e ↔ (f.follow.toNat / 16 = 1 ∧ s.groupOk (f.follow.toNat % 16) = false) ∧ .paramRange = e := by
  rw [State.followChk, followOf]
  by_cases h : f.follow.toNat / 16 = 1
  · rw [if_pos h]
    refine fails_chk.trans ?_
    rw [Bool.not_eq_true', and_iff_right h]
  · rw [if_neg h]
    exact ⟨fun hf => absurd hf fails_nil, fun hf => absurd hf.1.1 h⟩

/-- R223: the checks of the shape word of a read, with `q` of one into an element queue. -/
theorem fails_shapeChk_read (w : Nat) (q : Bool) (e : Cause) : Fails (shapeChk w q true (some (shTty w)) q) e ↔
    (shMty w = 15 ∨ shTty w = 15 ∨ (shMty w = 14 ∧ shTty w ≠ 14) ∨ (shMty w ≠ 14 ∧ shTty w = 14) ∨
      512 < shLanes w * tyWidth (shTty w) ∨ bitsOf w 44 0 ≠ 0 ∨ 4 < shRm w ∨ (shSm w = 1 ∧ shTty w ≠ tyE4) ∨
      (q = true ∧ (shLanes w ≠ 1 ∨ shTty w < 6 ∨ 13 < shTty w))) ∧ .paramRange = e := by
  have hla : ((shMty w == 14) != (shTty w == 14)) = true ↔ (shMty w = 14 ∧ shTty w ≠ 14) ∨ (shMty w ≠ 14 ∧ shTty w = 14) := by
    by_cases hm : shMty w = 14 <;> by_cases ht : shTty w = 14 <;> simp [hm, ht]
  have hqueue : (q && !isINT (shTty w)) = true ∨ (q && shLanes w != 1) = true ↔
      q = true ∧ (shLanes w ≠ 1 ∨ shTty w < 6 ∨ 13 < shTty w) := by
    cases q <;> simp [isINT, or_comm]
  rw [shapeChk, chkParam, fails_chk]
  simp only [Bool.or_eq_true, or_assoc, hla, hqueue]
  simp only [Bool.and_eq_true, beq_iff_eq, bne_iff_ne, ne_eq, decide_eq_true_eq, Option.some.injEq, Bool.not_true, Bool.false_eq_true,
    and_false, false_or]

/-- R227: the checks of a box of elements. -/
theorem fails_affChk (ps : List W64) (w : Nat) (e : Cause) : Fails (s.affChk p ps w) e ↔ 2 ^ 40 < affTotal ps ∧ .paramRange = e ∨
    Fails (if affTotal ps = 0 then s.spaceChk p else s.boxChk p (affLo ps) (affHi ps) w) e ∨
    ((p.toNat : Int) % w ≠ 0 ∨ ∃ i < 4, affN ps i ≠ 0 ∧ affS ps i % w ≠ 0) ∧ .misaligned = e := by
  rw [State.affChk, fails_append, fails_append, chkParam, fails_chk, chkAlign, fails_chk, decide_eq_true_iff, or_assoc]
  refine or_congr_right (or_congr_right (and_congr_left fun _ => ?_))
  simp

/-- R219: the checks of an input port. -/
theorem fails_inPortChk (k tty lanes : Nat) (scal : Bool) (e : Cause) :
    let d := (s.arr (s.cur / 2)).port k
    Fails (s.inPortChk k tty lanes scal) e ↔ s.bound (s.cur / 2) false k = true ∧ .portCircuit = e ∨
      (poUsed d = true ∧ (poTy d ≠ tty ∨ poLanes d ≠ lanes ∨ poScaled d ≠ scal)) ∧ .portShape = e := by
  intro d
  rw [State.inPortChk, fails_append, fails_chk, fails_chk]
  simp only [Bool.and_eq_true, Bool.or_eq_true, bne_iff_ne, or_assoc]
  rfl

/-- The failed checks of SAFF are those of its parts. -/
theorem fails_saff (e : Cause) :
    let w := (s.cx.rm f.mp.toNat).toNat
    let ps := movePs f s.cx
    let n := tyBytes (s.mfAt s.cur p (shMty w))
    Fails (s.moveChk false false f p) e ↔ Fails (scalRun f 4 (shScal w)) e ∨
      Fails (shapeChk w (qmodeOf f != 0) true (some (shTty w)) (qmodeOf f != 0)) e ∨ Fails (s.followChk f) e ∨
      (n ≠ 0 ∧ Fails (s.affChk p ps n) e) ∨ Fails (s.scaleChk ((ps[4]?).getD 0) (shScal w) (affTotal ps)) e ∨
      (qmodeOf f = 0 ∧ Fails (s.inPortChk (f.port.toNat % 16) (shTty w) (shLanes w) (shScal w)) e) := by
  intro w ps n
  have hq : ¬ (qmodeOf f != 0) = true ↔ qmodeOf f = 0 := by simp
  simp only [State.moveChk, fails_append, fails_if_nil, Bool.false_eq_true, if_false, fails_nil, or_false, or_assoc, moveTotal, hq]
  rfl

end

section
variable (f : MS) (c : Ctx)

/-- A count of the box of a move (R227). -/
theorem affN_movePs (i : Nat) : affN (movePs f c) i = (c.rm (f.mp.toNat + 1)).toNat / 2 ^ (16 * i) % 2 ^ 16 := by
  rw [affN, bitsOf, pw_movePs f (by decide), show 16 * i + 15 + 1 - 16 * i = 16 by omega]

/-- A stride of the box of a move (R227). -/
theorem affS_movePs {i : Nat} (h : i < 4) :
    affS (movePs f c) i = sext ((c.rm (f.mp.toNat + (2 + i / 2))).toNat / 2 ^ (32 * (i % 2)) % 2 ^ 32) 32 := by
  rw [affS, bitsOf, pw_movePs f (by omega), show 32 * (i % 2) + 31 + 1 - 32 * (i % 2) = 32 by omega]

end

/-- The lists of R227 and R225 that are about pointers alone have no failed check of another cause. -/
theorem not_fails_ofSpace {l : List Chk} (h : OfSpace l) {e : Cause} (he : e ≠ .spaceForeign ∧ e ≠ .spaceRange) : ¬ Fails l e :=
  fun hf => (h.cause e hf).elim he.1 he.2

/-- R219: the failed checks of SAFF whose cause is not the space or the range of a pointer. -/
theorem fails_saff_besides_space (s : State) (p : W64) (f : MS) {e : Cause} (he : e ≠ .spaceForeign ∧ e ≠ .spaceRange) :
    let w := (s.cx.rm f.mp.toNat).toNat
    let ps := movePs f s.cx
    let n := tyBytes (s.mfAt s.cur p (shMty w))
    let d := (s.arr (s.cur / 2)).port (f.port.toNat % 16)
    Fails (s.moveChk false false f p) e ↔ (shScal w = true ∧ 32 < f.mp.toNat + 5) ∧ .illegalOp = e ∨
      Fails (shapeChk w (qmodeOf f != 0) true (some (shTty w)) (qmodeOf f != 0)) e ∨
      (f.follow.toNat / 16 = 1 ∧ s.groupOk (f.follow.toNat % 16) = false) ∧ .paramRange = e ∨
      (n ≠ 0 ∧ (2 ^ 40 < affTotal ps ∧ .paramRange = e ∨
        ((p.toNat : Int) % n ≠ 0 ∨ ∃ i < 4, affN ps i ≠ 0 ∧ affS ps i % n ≠ 0) ∧ .misaligned = e)) ∨
      (qmodeOf f = 0 ∧ (s.bound (s.cur / 2) false (f.port.toNat % 16) = true ∧ .portCircuit = e ∨
        (poUsed d = true ∧ (poTy d ≠ shTty w ∨ poLanes d ≠ shLanes w ∨ poScaled d ≠ shScal w)) ∧ .portShape = e)) := by
  intro w ps n d
  have hspace : ¬ Fails (if affTotal ps = 0 then s.spaceChk p else s.boxChk p (affLo ps) (affHi ps) n) e :=
    not_fails_ofSpace (.ite (ofSpace_spaceChk ..) (ofSpace_boxChk ..)) he
  have hscale : ¬ Fails (s.scaleChk ((ps[4]?).getD 0) (shScal w) (affTotal ps)) e := not_fails_ofSpace (ofSpace_scaleChk ..) he
  refine (fails_saff s p f e).trans ?_
  simp only [fails_scalRun, fails_followChk, fails_affChk, fails_inPortChk]
  exact or_congr_right (or_congr_right (or_congr_right (or_congr
    (and_congr_right' (or_congr_right ⟨fun h => h.resolve_left hspace, .inr⟩)) ⟨fun h => h.resolve_left hscale, .inr⟩)))

/-- R227, R256, R257: the failed checks of the base of a SAFF without scales that lies in no scratchpad. -/
theorem fails_saff_far (s : State) (p : W64) (f : MS) {e : Cause} (he : e = .spaceForeign ∨ e = .spaceRange)
    (hn : tyBytes (s.mfAt s.cur p (shMty (s.cx.rm f.mp.toNat).toNat)) ≠ 0) (hscal : shScal (s.cx.rm f.mp.toNat).toNat = false)
    (h8 : ptrCode p ≠ 8) (h9 : ptrCode p ≠ 9) (h10 : ptrCode p ≠ 10) :
    Fails (s.moveChk false false f p) e ↔ Fails (s.spaceChk p) e := by
  have hbox : ∀ lo hi n, s.boxChk p lo hi n = s.spaceChk p := fun lo hi n => by simp [State.boxChk, isPadCode, h8, h9, h10]
  refine (fails_saff s p f e).trans ?_
  simp only [fails_scalRun, fails_shapeChk_read, fails_followChk, fails_affChk, fails_inPortChk, hscal, hbox, ite_self,
    State.scaleChk, Bool.not_false, if_true, fails_nil]
  obtain rfl | rfl := he <;> simp [hn]

/-- R219, R222, R223, R227, R256, R257: the checks of SAFF, by cause. -/
theorem affineReadChecks : AffineReadChecks := by
  intro s f p c par bits mty tty lanes scal queued count stride n port d code fails
  have hscal : shScal (par 0) = true ↔ scal := beq_iff_eq
  have hqueued : qmodeOf f = 0 ↔ ¬ queued := not_not.symm
  have hq : (qmodeOf f != 0) = true ↔ queued := bne_iff_ne
  have htotal : affTotal (movePs f s.cx) = count 0 * count 1 * count 2 * count 3 := by simp only [affTotal, affN_movePs]; rfl
  have hmis : ((p.toNat : Int) % (n : Int) ≠ 0 ∨ ∃ i < 4, affN (movePs f s.cx) i ≠ 0 ∧ affS (movePs f s.cx) i % (n : Int) ≠ 0) ↔
      (p.toNat % n ≠ 0 ∨ ∃ i < 4, count i ≠ 0 ∧ stride i % (n : Int) ≠ 0) := by
    refine or_congr (by norm_cast) (exists_congr fun i => and_congr_right fun hi => ?_)
    simp only [affN_movePs, affS_movePs f s.cx hi]
    rfl
  have hcause := fun (e : Cause) he => fails_saff_besides_space s p f (e := e) he
  refine ⟨(hcause _ (by decide)).trans ?_, (hcause _ (by decide)).trans ?_, fun hn hnone h8 h9 h10 => ?_, (hcause _ (by decide)).trans ?_,
    (hcause _ (by decide)).trans ?_, (hcause _ (by decide)).trans ?_, fun hf => ?_⟩
  · simp only [fails_shapeChk_read, reduceCtorEq, and_false, and_true, or_false]
    exact and_congr_left' hscal
  · simp only [fails_shapeChk_read, reduceCtorEq, and_false, and_true, or_false, false_or, or_assoc, hq, htotal]
    rfl
  · have hcode : ptrCode p = code := ptrCode_eq p
    have hfar := fun (e : Cause) he => (fails_saff_far s p f (e := e) he hn (Bool.eq_false_iff.mpr (mt hscal.mp hnone))
      (hcode.trans_ne h8) (hcode.trans_ne h9) (hcode.trans_ne h10)).trans
      (fails_spaceChk_far s p (hcode.trans_ne h8) (hcode.trans_ne h9) (hcode.trans_ne h10) e)
    simp only [hcode] at hfar
    exact ⟨(hfar _ (.inl rfl)).trans (by simp), (hfar _ (.inr rfl)).trans (by simp)⟩
  · simp only [fails_shapeChk_read, reduceCtorEq, and_false, and_true, or_false, false_or]
    exact and_congr_right' hmis
  · simp only [fails_shapeChk_read, reduceCtorEq, and_false, and_true, or_false, false_or]
    exact and_congr_left' hqueued
  · simp only [fails_shapeChk_read, reduceCtorEq, and_false, and_true, or_false, false_or]
    refine and_congr hqueued (and_congr_right fun _ => or_congr_right (or_congr_right ?_))
    rw [← hscal]
    exact (by decide : ∀ a b : Bool, a ≠ b ↔ (a = true ↔ ¬ b = true)) _ _
  · have h := (hcause _ (by decide)).mp hf
    simp [fails_shapeChk_read] at h

/-- Settles O18: commands with and without room, the first check that fails, its place, and the checks of SAFF. -/
theorem streamCommands : Obligations.StreamCommands :=
  ⟨streamCommandsJoin, streamCommandsHold, firstFailedCheckTraps, checkPlaces, affineReadChecks⟩

end Sys2Proof.Laws

/-! ## Commands that are cancelled, barriers (R217, R240, R242) -/

namespace Sys2Proof.Laws
open Sys2Proof.Machine

/-! ### Commands that leave their classes (R217, R414) -/

/-- The commands of a list that the stream class counts. -/
def streamCounted (l : List Cmd) : Nat := (l.filter (fun x => decide (x.op ≠ 0x1A ∧ x.op ≠ 0x1C))).length

/-- The commands of a list that the array class counts. -/
def arrayCounted (l : List Cmd) : Nat := (l.filter (fun x => x.follow.isSome)).length

/-- The context whose commands `l` have left their classes. -/
def uncounted (l : List Cmd) (c : Ctx) : Ctx := { c with str := c.str - streamCounted l, arr := c.arr - arrayCounted l }

theorem uncounted_uncounted (l m : List Cmd) (c : Ctx) : uncounted m (uncounted l c) = uncounted (l ++ m) c := by
  simp [uncounted, streamCounted, arrayCounted, Nat.sub_sub]

/-- Two lists of the same commands leave the same counts. -/
theorem uncounted_perm {l m : List Cmd} (h : l.Perm m) (c : Ctx) : uncounted l c = uncounted m c := by
  rw [uncounted, uncounted, streamCounted, streamCounted, arrayCounted, arrayCounted, (h.filter _).length_eq, (h.filter _).length_eq]

/-- `t` is the state `s` whose context `n` no longer counts the commands `l`, but for the merge networks. -/
structure Uncounts (n : Nat) (l : List Cmd) (s t : State) : Prop where
  ctx : t.ctx n = uncounted l (s.ctx n)
  drawn : t.drawn = s.drawn - (l.map (·.cost)).sum
  mem : t.mem = s.mem
  cur : t.cur = s.cur

theorem Uncounts.refl (n : Nat) (s : State) : Uncounts n [] s s := ⟨rfl, rfl, rfl, rfl⟩

theorem Uncounts.trans {n : Nat} {l m : List Cmd} {s t u : State} (h : Uncounts n l s t) (g : Uncounts n m t u) :
    Uncounts n (l ++ m) s u where
  ctx := by rw [g.ctx, h.ctx, uncounted_uncounted]
  drawn := by rw [g.drawn, h.drawn, List.map_append, List.sum_append, Nat.sub_sub]
  mem := g.mem.trans h.mem
  cur := g.cur.trans h.cur

theorem Uncounts.perm {n : Nat} {l m : List Cmd} {s t : State} (h : Uncounts n l s t) (hp : l.Perm m) : Uncounts n m s t :=
  ⟨h.ctx.trans (uncounted_perm hp _), by rw [h.drawn, (hp.map _).sum_eq], h.mem, h.cur⟩

theorem streamCounted_singleton (k : Cmd) : streamCounted [k] = if !(k.op == 0x1A || k.op == 0x1C) then 1 else 0 := by
  by_cases hfeed : k.op = 0x1A <;> by_cases hdrain : k.op = 0x1C <;> simp [streamCounted, hfeed, hdrain]

theorem arrayCounted_singleton (k : Cmd) : arrayCounted [k] = if k.follow.isSome then 1 else 0 := by
  cases hfollow : k.follow <;> simp [arrayCounted, hfollow]

theorem uncounts_uncount (n : Nat) (k : Cmd) (s : State) : Uncounts n [k] s (uncount n k s) where
  ctx := by
    rw [uncount, modCtx_eq, ctx_setCtx_self, uncounted, streamCounted_singleton, arrayCounted_singleton]
    rfl
  drawn := by
    rw [List.map_singleton, List.sum_singleton]
    rfl
  mem := rfl
  cur := rfl

theorem uncounts_foldl (n : Nat) (l : List Cmd) (s : State) : Uncounts n l s (l.foldl (fun s k => uncount n k s) s) := by
  induction l generalizing s with
  | nil => exact .refl n s
  | cons k l ih => exact (uncounts_uncount n k s).trans (ih _)

/-- A feed or drain that leaves the merge network changes the networks alone. -/
theorem leaveNet_frame (k id : Nat) (s : State) : leaveNet k id s = { s with clusters := (leaveNet k id s).clusters } := by
  unfold leaveNet
  dsimp only
  split <;> rfl

theorem Uncounts.leaveNet {n : Nat} {l : List Cmd} {s t : State} (h : Uncounts n l s t) (k id : Nat) :
    Uncounts n l s (Machine.leaveNet k id t) := by
  rw [leaveNet_frame]
  exact ⟨h.ctx, h.drawn, h.mem, h.cur⟩

theorem handle_uncounted (l : List Cmd) (c : Ctx) (h : Nat) : (uncounted l c).handle h = c.handle h := rfl

/-! ### SCANCEL (R242) -/

/-- R242: a head that has not started, waits for its place or has faulted ends at once. -/
def endsAtOnce (k : Cmd) : Bool := k.faulted || !k.started || k.idle

/-- What a cancelled handle keeps: nothing, or its running head, marked. -/
def cancelledHandle (k : Cmd) (H : Handle) : Handle :=
  { H with cmds := if endsAtOnce k then [] else [{ k with cancel := true }], queue := [], cancelled := endsAtOnce k || H.cancelled }

/-- The state in which the commands that a cancellation drops have left. -/
def dropped (n h : Nat) (k : Cmd) (rest : List Cmd) (s : State) : State :=
  let t := rest.foldl (fun s k => uncount n k s) s
  if endsAtOnce k then leaveNet (clOf n) (n * 16 + h) (uncount n k t) else t

theorem cancelHandle_cons {s : State} {n h : Nat} {k : Cmd} {rest : List Cmd} (hcmds : ((s.ctx n).handle h).cmds = k :: rest) :
    cancelHandle n h s = (dropped n h k rest s).modCtx n (fun c => c.setHandle h (cancelledHandle k ((s.ctx n).handle h))) := by
  rw [cancelHandle, hcmds]
  rfl

theorem uncounts_dropped (n h : Nat) (k : Cmd) (rest : List Cmd) (s : State) :
    Uncounts n (if endsAtOnce k then k :: rest else rest) s (dropped n h k rest s) := by
  have hrest := uncounts_foldl n rest s
  unfold dropped
  cases endsAtOnce k with
  | true => exact ((hrest.trans (uncounts_uncount n k _)).perm (List.perm_append_singleton k rest)).leaveNet _ _
  | false => exact hrest

/-- R242: what SCANCEL drops, marks and returns. -/
theorem cancelResults : CancelResults := by
  intro s f hg c h H
  have hexec : exec (.scancel f) s = .next (cancelHandle s.cur h s) := by
    rw [exec_scancel, execScancel, opScancel, if_pos hg, finish_ok]
  refine ⟨fun hempty => ?_, fun k rest hcmds => ?_⟩
  · rw [hexec, cancelHandle, show ((s.ctx s.cur).handle h).cmds = [] from hempty]
  · intro dead gone
    have hends : endsAtOnce k = true ↔ dead := by simp [endsAtOnce, dead, or_assoc]
    have hgone : gone = if endsAtOnce k then k :: rest else rest := if_congr hends.symm rfl rfl
    have hleft := uncounts_dropped s.cur h k rest s
    rw [← hgone] at hleft
    have hexec : exec (.scancel f) s =
        .next ((dropped s.cur h k rest s).modCtx s.cur (fun c => c.setHandle h (cancelledHandle k H))) :=
      hexec.trans (congrArg _ (cancelHandle_cons hcmds))
    have hcx : ((dropped s.cur h k rest s).modCtx s.cur (fun c => c.setHandle h (cancelledHandle k H))).cx =
        (uncounted gone c).setHandle h (cancelledHandle k H) := by
      rw [State.cx, modCtx_eq, setCtx_cur, hleft.cur, ctx_setCtx_self, hleft.ctx]
      rfl
    refine ⟨_, hexec, hleft.mem, fun hdead => ?_, fun hrun => ?_, ?_, ?_, hleft.drawn⟩
    · rw [hcx, handle_setHandle_self, cancelledHandle, hends.mpr hdead]
      rfl
    · rw [hcx, handle_setHandle_self, cancelledHandle, Bool.eq_false_iff.mpr (mt hends.mp hrun)]
      rfl
    · rw [hcx]
      rfl
    · rw [hcx]
      rfl

/-! ### SBAR (R240) -/

theorem observe_buf (c : Ctx) (on : Nat → Bool) : (c.observe on).buf = c.buf := by
  rw [Ctx.observe]
  split <;> rfl

theorem bitOf_eq_testBit (x i : Nat) : bitOf x i = x.testBit i := by
  rw [bitOf, Nat.testBit_eq_decide_div_mod_eq]
  rfl

theorem bitOf_toNat {n : Nat} (x : BitVec n) (i : Nat) : bitOf x.toNat i = x.getLsbD i := bitOf_eq_testBit ..

/-- R240: SBAR leaves its barrier, and its holding form holds until the barrier is met. -/
theorem barrierResults : BarrierResults := by
  intro s f hbuf hg c b left
  have hb : sbarOf f (s.tile (tileOf s.cur)).seq = b := by
    have hr : (f.fn.toNat % 2 == 1) = f.fn.getLsbD 0 := by simpa [bitOf] using bitOf_toNat f.fn 0
    rw [sbarOf, hr, bitOf_toNat, immU_eq_immUM]
    rfl
  have hexec : exec (.sbar f) s = finishHold s (holdSbar f s) (opSbar f s) := rfl
  rw [holdSbar, opSbar, guarded_on hg, hg, hb, Bool.true_and, bitOf_toNat] at hexec
  simp only [bitOf_eq_testBit] at hexec
  refine ⟨fun hfn => ?_, fun hfn hmet => ?_, fun hfn hmet => ?_⟩
  · rw [hexec, hfn]
    exact finishHold_setCx hbuf
  · rw [hexec, hfn, show s.cx.barMet b = false from hmet]
    rfl
  · rw [hexec, hfn, show s.cx.barMet b = true from hmet]
    refine finishHold_setCx (s := s) ?_
    exact (observe_buf c _).trans hbuf

/-- Settles O20: what a cancellation drops, and what a barrier leaves. -/
theorem cancelsAndBarriers : Obligations.CancelsAndBarriers := ⟨cancelResults, barrierResults⟩

end Sys2Proof.Laws

/-! ## Power grants of commands, reserves (R231, R370, R371, R414 to R416) -/

namespace Sys2Proof.Laws
open Sys2Proof.Machine

/-! ### The reserve bits of PGRANT_STAT (R415, R416) -/

theorem resBit_eq (cls : Nat) : resBit cls = BitVec.twoPow 64 (4 + cls) :=
  BitVec.eq_of_toNat_eq (by rw [resBit, BitVec.toNat_ofNat, BitVec.toNat_twoPow])

theorem hasReserve_eq (s : State) (t : Nat) {cls : Nat} (hcls : cls < 3) :
    s.hasReserve t cls = ((s.tile t).crs.read 0x44).getLsbD (4 + cls) := by
  have hone : BitVec.twoPow 64 (4 + cls) ≠ 0#64 := by
    obtain rfl | rfl | rfl : cls = 0 ∨ cls = 1 ∨ cls = 2 := by omega
    all_goals decide
  rw [State.hasReserve, resBit_eq, BitVec.and_twoPow, Tile.pgrant]
  split
  · next h => rw [h]; exact bne_iff_ne.mpr hone
  · next h => rw [Bool.eq_false_iff.mpr h]; rfl

theorem pgrant_modTile (s : State) (t : Nat) (g : Tile → Tile) : ((s.modTile t g).tile t).pgrant = (g (s.tile t)).pgrant := by
  rw [modTile_eq, tile_setTile_self]

theorem pgrant_setPgrant (x : Tile) (v : W64) : (x.setPgrant v).pgrant = v := by
  rw [Tile.pgrant, Tile.setPgrant, regs_read_write, if_pos rfl]

theorem getLsbD_addReserve (s : State) (t n : Nat) {cls : Nat} (hcls : cls < 3) :
    (((s.addReserve t cls n).tile t).crs.read 0x44).getLsbD (4 + cls) = true := by
  have hval : ((s.addReserve t cls n).tile t).crs.read 0x44 = (s.tile t).pgrant ||| resBit cls :=
    (pgrant_modTile ..).trans (pgrant_setPgrant ..)
  rw [hval, resBit_eq, BitVec.getLsbD_or, BitVec.getLsbD_twoPow]
  simp
  omega

theorem getLsbD_dropReserve (s : State) (t cls : Nat) :
    (((s.dropReserve t cls).tile t).crs.read 0x44).getLsbD (4 + cls) = false := by
  have hval : ((s.dropReserve t cls).tile t).crs.read 0x44 = (s.tile t).pgrant &&& ~~~resBit cls :=
    (pgrant_modTile ..).trans (pgrant_setPgrant ..)
  rw [hval, resBit_eq, BitVec.getLsbD_and, BitVec.getLsbD_not, BitVec.getLsbD_twoPow]
  simp

theorem cx_dropReserve (s : State) (t cls : Nat) : (s.dropReserve t cls).cx = s.cx := by
  rw [State.dropReserve, modTile_eq, cx_setTile]

theorem grantable_iff {s : State} {cls : Nat} :
    s.grantable cls = true ↔ s.waits = [] ∧ s.drawn + powerCost cls ≤ (s.win.read wPWRBUD).toNat := by
  rw [State.grantable, Bool.and_eq_true, List.isEmpty_iff, decide_eq_true_eq]

/-! ### Commands that need a grant (R231, R370, R371, R414, R415) -/

/-- The hold of a command of class `cls` whose checks `cs` are given. -/
def poweredHold (f : MS) (need : Bool) (cls : Nat) (cs : List Chk) (s : State) : Option State :=
  match holdCmd f true s with
  | some x => some x
  | none => if s.cx.guard f.gp && (firstChk cs).isNone then holdPower need cls s else none

/-- Its effect: the command takes its grant and joins its handle. -/
def poweredIssue (f : MS) (need : Bool) (cls : Nat) (cs : List Chk) (k : Cmd) (s : State) : Res :=
  match firstChk cs with
  | some x => trapM x.cause x.addr
  | none =>
    match s.cx.pwr with
    | .failed e => trapM e
    | _ => .ok (submit f true { k with cost := if need then powerCost cls else 0 } (if need then takeGrant cls s else s))

theorem free_of_cost {k : Cmd} (h : k.cost = 0) : { k with cost := 0 } = k := by
  cases k
  subst h
  rfl

section
variable {s : State} {f : MS} {need : Bool} {cls : Nat}

theorem poweredHold_checked (hroom : Room s f true) {cs : List Chk} (hcs : (firstChk cs).isNone = false) :
    poweredHold f need cls cs s = none := by
  rw [poweredHold, holdCmd_room hroom, hcs, Bool.and_false]
  rfl

theorem poweredHold_passed (hroom : Room s f true) (hg : s.cx.guard f.gp = true) : poweredHold f need cls [] s = holdPower need cls s := by
  rw [poweredHold, holdCmd_room hroom, hg]
  rfl

theorem poweredIssue_passed (k : Cmd) (hpwr : ∀ e, s.cx.pwr ≠ .failed e) : poweredIssue f need cls [] k s =
    .ok (submit f true { k with cost := if need then powerCost cls else 0 } (if need then takeGrant cls s else s)) := by
  rw [poweredIssue]
  dsimp only [firstChk, List.foldl_nil]
  split
  · next e he => exact absurd he (hpwr e)
  · rfl

theorem takeGrant_held {g : Bool} (h : s.cx.pwr = .power cls g) : takeGrant cls s = s.setCx { s.cx with pwr := .none } := by
  rw [takeGrant, h, modCx_eq]

theorem takeGrant_reserved (h : s.cx.pwr = .none) : takeGrant cls s = s.dropReserve (tileOf s.cur) cls := by
  rw [takeGrant, h]

/-- R415: the hold of a command that has no grant yet asks for it, where the tile has no reserve. -/
theorem holdPower_asks (h : s.cx.pwr = .none) : holdPower true cls s =
    if s.hasReserve (tileOf s.cur) cls then none
    else if s.grantable cls then some ((s.draw cls).modCx (fun c => { c with pwr := .power cls true }))
    else if ((s.tile (s.cur / 2)).crs.read 0x44).getLsbD 0 then
      some ((s.enqueue { tile := tileOf s.cur, cls := cls, ctx := s.cur, implicit := true }).modCx (fun c => { c with pwr := .power cls false }))
    else some ((s.countDeny (tileOf s.cur)).modCx (fun c => { c with pwr := .failed .pgrantDeny })) := by
  simp only [holdPower, h]
  rfl

/-- R415: a powered command alone whose checks and command are given. -/
theorem poweredRule_alone (hbuf : s.cx.buf = {}) (hg : s.cx.guard f.gp = true) (hroom : Room s f true) (hcls : cls < 3) {i : Instr}
    {cs : List Chk} {k : Cmd} (hcost : k.cost = 0)
    (hexec : exec i s = finishHold s (poweredHold f need cls cs s) (poweredIssue f need cls cs k s)) :
    PoweredRule s f need cls cs k (exec i s) := by
  refine ⟨fun x hx => ?_, fun hcs => ?_⟩
  · rw [hexec, poweredHold_checked hroom (by rw [hx]; rfl), poweredIssue, hx]
    rfl
  subst hcs
  rw [poweredHold_passed hroom hg] at hexec
  have hissue (hpwr : ∀ e, s.cx.pwr ≠ .failed e) (hhold : holdPower need cls s = none) : exec i s =
      .next (commit (submit f true { k with cost := if need then powerCost cls else 0 } (if need then takeGrant cls s else s))) := by
    rw [hexec, hhold, poweredIssue_passed k hpwr, finishHold_ok]
  refine ⟨fun hneed hpwr => ?_, fun hneed => ⟨fun hpwr => ?_, fun hpwr => ?_⟩, fun hpwr => ?_⟩
  · subst hneed
    rw [hissue (by simp [hpwr]) rfl]
    rw [if_neg Bool.false_ne_true, if_neg Bool.false_ne_true, free_of_cost hcost]
    exact joins_submit hbuf k
  · subst hneed
    rw [hissue (by simp [hpwr]) (by simp [holdPower, hpwr]), if_pos rfl, if_pos rfl, takeGrant_held hpwr]
    exact joins_submit (by rw [cx_setCx]; exact hbuf) _
  · subst hneed
    rw [holdPower_asks hpwr] at hexec
    have hreserve := hasReserve_eq s (tileOf s.cur) hcls
    have hroomFor (h : s.waits ≠ [] ∨ (s.win.read wPWRBUD).toNat < s.drawn + powerCost cls) : s.grantable cls = false := by
      refine Bool.eq_false_iff.mpr fun hgrant => ?_
      obtain ⟨hwaits, hfits⟩ := grantable_iff.mp hgrant
      exact h.elim (· hwaits) (Nat.not_lt.mpr hfits)
    refine ⟨fun hres => ?_, fun hres => ?_⟩
    · have hhold : holdPower true cls s = none := by
        rw [holdPower_asks hpwr]
        exact if_pos (hreserve.trans hres)
      rw [hissue (by simp [hpwr]) hhold, if_pos rfl, if_pos rfl, takeGrant_reserved hpwr]
      exact joins_submit ((congrArg Ctx.buf (cx_dropReserve s _ cls)).trans hbuf) _
    rw [if_neg (ne_true_of_eq_false (hreserve.trans hres))] at hexec
    refine ⟨fun hwaits hfits => ?_, fun hfull hwait => ?_, fun hfull hwait => ?_⟩
    · rw [hexec, if_pos (grantable_iff.mpr ⟨hwaits, hfits⟩)]
      rfl
    · rw [hexec, if_neg (ne_true_of_eq_false (hroomFor hfull)), if_pos hwait]
      rfl
    · rw [hexec, if_neg (ne_true_of_eq_false (hroomFor hfull)), if_neg (ne_true_of_eq_false hwait), modCx_eq, State.countDeny,
        modTile_eq, cx_setTile]
      rfl
  · have hhold : holdPower need cls s = none := by
      rw [holdPower, hpwr]
      cases need <;> rfl
    rw [hexec, hhold, poweredIssue, hpwr]
    rfl

end

/-- R231, R370: SMCAST and NSDOT join as their power rule says. -/
theorem poweredCommandsJoin : PoweredCommandsJoin := by
  intro s f hbuf hg hroom p ps nps heavy
  refine ⟨poweredRule_alone hbuf hg hroom (by decide) rfl ?_, poweredRule_alone hbuf hg hroom (by decide) rfl ?_⟩
  · have hexec : exec (.smcast f) s = finishHold s (holdSmcast f (msAddr f s.cx) s) (opSmcast f (msAddr f s.cx) s) := rfl
    rw [hexec, opSmcast, guarded_on hg, msAddr_eq_baseOf]
    rfl
  · have hexec : exec (.nsdot f) s = finishHold s (holdNsdot f (msAddr f s.cx) s) (opNsdot f (msAddr f s.cx) s) := rfl
    rw [hexec, opNsdot, guarded_on hg, msAddr_eq_baseOf]
    rfl

/-! ### PGREQ and PGREQ.REL (R416) -/

/-- An issue that leaves only a setting of EVPEND (R107). -/
theorem commit_event {s : State} {e : W64} (he : e ≠ 0) (h : s.cx.buf = { ev := e }) :
    commit s = s.setCx { s.cx.setCr 7 (s.cx.cr 7 ||| e) with buf := {}, iss := s.cx.iss + 1 } := by
  have hev : s.cx.buf.ev = e := by rw [h]
  simp only [commit, commitStores, h, List.foldl_nil, applyFinal, modCx_eq, Ctx.setLoops, if_neg he]
  rfl

/-- R416: a class that the tile holds, or that a request of it asks for. -/
theorem pgreqAsked_iff {s : State} {t cls : Nat} (hcls : cls < 3) :
    (s.hasReserve t cls || s.waits.any (fun w => w.tile == t && w.cls == cls) || (cls == 0 && (s.tile t).pgrant.getLsbD 2)) = true ↔
    ((s.tile t).crs.read 0x44).getLsbD (4 + cls) = true ∨ (∃ w ∈ s.waits, w.tile = t ∧ w.cls = cls) ∨
      (cls = 0 ∧ ((s.tile t).crs.read 0x44).getLsbD 2 = true) := by
  rw [hasReserve_eq s t hcls]
  simp [Tile.pgrant, or_assoc]

section
variable {s : State} {cls : Nat}

theorem cx_askAgain_ne {n : Nat} (h : n ≠ s.cur) : (askAgain cls n s).cx = s.cx := by
  rw [askAgain]
  split
  · rw [State.cx, modCtx_eq, setCtx_cur, ctx_setCtx, if_neg h]
    rfl
  · rfl

theorem cx_askAgain_cur :
    (askAgain cls s.cur s).cx = { s.cx with pwr := if s.cx.pwr = .power cls false then .none else s.cx.pwr } := by
  have heq : askAgain cls s.cur s = if s.cx.pwr = .power cls false then s.setCx { s.cx with pwr := .none } else s := rfl
  rw [heq]
  by_cases h : s.cx.pwr = .power cls false
  · rw [if_pos h, cx_setCx, if_pos h]
  · rw [if_neg h, if_neg h]

theorem askAgain_frame (cls n : Nat) (s : State) : ∃ cs, askAgain cls n s = { s with ctxs := cs } := by
  rw [askAgain]
  split
  · exact ⟨_, rfl⟩
  · exact ⟨_, rfl⟩

theorem cur_askAgain (n : Nat) : (askAgain cls n s).cur = s.cur := by
  obtain ⟨_, h⟩ := askAgain_frame cls n s
  rw [h]

end

/-- R416: the state in which the requests of a tile for a class are withdrawn. -/
def withdrawn (t cls : Nat) (s : State) : State :=
  askAgain cls (2 * t + 1) (askAgain cls (2 * t) (s.dequeue (fun w => w.tile == t && w.cls == cls)))

/-- R416: the state in which a reserve of a tile, if it holds one, is given back. -/
def givenBack (t cls : Nat) (s : State) : State :=
  if s.hasReserve t cls then (s.dropReserve t cls).undraw (powerCost cls) else s

section
variable (s : State) (t cls : Nat)

theorem withdrawn_frame : ∃ cs, withdrawn t cls s =
    { s with waits := s.waits.filter (fun w => !(w.tile == t && w.cls == cls)), ctxs := cs } := by
  rw [withdrawn]
  obtain ⟨_, h⟩ := askAgain_frame cls (2 * t) (s.dequeue (fun w => w.tile == t && w.cls == cls))
  obtain ⟨cs, h'⟩ := askAgain_frame cls (2 * t + 1) (askAgain cls (2 * t) (s.dequeue (fun w => w.tile == t && w.cls == cls)))
  exact ⟨cs, by rw [h', h]; rfl⟩

/-- Of the two contexts of the tile one is current: its request is withdrawn, the other's is not its own. -/
theorem cx_withdrawn (ht : t = s.cur / 2) :
    (withdrawn t cls s).cx = { s.cx with pwr := if s.cx.pwr = .power cls false then .none else s.cx.pwr } := by
  let u := s.dequeue (fun w => w.tile == t && w.cls == cls)
  have hcur : s.cur = 2 * t ∨ s.cur = 2 * t + 1 := by omega
  rw [withdrawn]
  obtain heven | hodd := hcur
  · rw [cx_askAgain_ne (by rw [cur_askAgain]; show 2 * t + 1 ≠ s.cur; omega)]
    rw [← heven]
    exact cx_askAgain_cur (s := u)
  · have heq : askAgain cls (2 * t + 1) (askAgain cls (2 * t) u) =
        askAgain cls (askAgain cls (2 * t) u).cur (askAgain cls (2 * t) u) := by
      rw [cur_askAgain]
      exact congrArg (askAgain cls · _) hodd.symm
    rw [heq, cx_askAgain_cur, cx_askAgain_ne (by show 2 * t ≠ s.cur; omega)]
    rfl

theorem givenBack_frame : (givenBack t cls s).mem = s.mem ∧ (givenBack t cls s).cx = s.cx ∧ (givenBack t cls s).waits = s.waits ∧
    (givenBack t cls s).drawn = s.drawn - (if s.hasReserve t cls = true then powerCost cls else 0) := by
  rw [givenBack]
  split
  · exact ⟨rfl, cx_dropReserve s t cls, rfl, rfl⟩
  · exact ⟨rfl, rfl, rfl, rfl⟩

theorem getLsbD_givenBack (hcls : cls < 3) : (((givenBack t cls s).tile t).crs.read 0x44).getLsbD (4 + cls) = false := by
  rw [givenBack]
  split
  · exact getLsbD_dropReserve s t cls
  · next h => exact (hasReserve_eq s t hcls).symm.trans (Bool.eq_false_iff.mpr h)

end

/-- R416: what PGREQ and PGREQ.REL leave. -/
theorem powerReserveCommands : PowerReserveCommands := by
  intro s f hbuf hg hcls t cls units stat asked room
  have hexec : exec (.pgreq f) s = finishHold s none (opPgreq f s) := rfl
  rw [opPgreq, guarded_on hg] at hexec
  have hasked : asked ↔ _ := (pgreqAsked_iff (s := s) (t := tileOf s.cur) hcls).symm
  have hroom : room ↔ _ := (grantable_iff (s := s) (cls := cls)).symm
  refine ⟨fun h => ?_, fun h hfull => ?_, fun h hfits => ?_, ?_⟩
  · rw [hexec, if_pos (hasked.mp h)]
    exact congrArg _ (commit_idle hbuf)
  · rw [hexec, if_neg (mt hasked.mpr h), if_neg (mt hroom.mpr hfull)]
    exact congrArg _ (commit_idle (s := s.enqueue _) hbuf)
  · let u := (s.draw cls).addReserve t cls s.cur
    have hcxu : u.cx = s.cx := by
      show (State.modTile _ _ _).cx = _
      rw [modTile_eq, cx_setTile]
      rfl
    let v := u.setCx (u.cx.setEvIn 2)
    have hcommit : commit v = v.setCx _ := commit_event (e := BitVec.ofNat 64 (2 ^ 2)) (by decide) (by
      rw [cx_setCx, hcxu, Ctx.setEvIn, hbuf]
      rfl)
    rw [hexec, if_neg (mt hasked.mpr h), if_pos (hroom.mp hfits)]
    refine ⟨_, congrArg _ hcommit, rfl, hfits.1, rfl, ?_, ?_⟩
    · exact getLsbD_addReserve (s.draw cls) t s.cur hcls
    · rw [cx_setCx]
      show ((v.cx.setEv 2).cr 7).getLsbD 2 = true
      exact getLsbD_cr_setEv v.cx (by decide)
  · have hrel : exec (.pgreqRel f) s = .next (givenBack t cls (withdrawn t cls s)) := by
      have hexec : exec (.pgreqRel f) s = finish s (opPgreqRel f s) := rfl
      rw [hexec, opPgreqRel, guarded_on hg]
      rfl
    obtain ⟨hmem, hcx, hwaits, hdrawn⟩ := givenBack_frame (withdrawn t cls s) t cls
    obtain ⟨_, hframe⟩ := withdrawn_frame s t cls
    refine ⟨_, hrel, ?_, ?_, ?_, getLsbD_givenBack _ t cls hcls, ?_⟩
    · rw [hmem, hframe]
    · rw [hcx, cx_withdrawn s t cls rfl]
    · rw [hwaits, hframe]
    · rw [hdrawn, hasReserve_eq _ t hcls, hframe]
      rfl

/-- Settles O19: how the commands that need a power grant join, wait or trap, and what PGREQ leaves. -/
theorem powerCommands : Obligations.PowerCommands := ⟨poweredCommandsJoin, powerReserveCommands⟩

end Sys2Proof.Laws

/-! ## Loads and switches of the array and the ports, groups and depths (R237, R245 to R247, R249, R250) -/

namespace Sys2Proof.Laws
open Sys2Proof.Machine

/-! ### Operations alone whose checks are given -/

/-- A blob operation: the effect `r` where its checks pass, and else a trap by the first that fails. -/
def checkedOp (cs : List Chk) (r : Res) : Res :=
  match firstChk cs with
  | some x => trapM x.cause x.addr
  | none => r

theorem checkedOp_passed (r : Res) : checkedOp [] r = r := rfl

theorem finishHold_checkedOp {s : State} {cs : List Chk} {x : Chk} (hx : firstChk cs = some x) (r : Res) :
    finishHold s none (checkedOp cs r) = trapsM s x := by
  rw [checkedOp, hx]
  rfl

/-- An operation alone that leaves the context `c` and nothing for the end of its issue. -/
theorem finishHold_issued {s u : State} {c : Ctx} (hcx : u.cx = c) (hbuf : c.buf = {}) :
    finishHold s none (.ok u) = .next (u.setCx (issued c)) := by
  subst hcx
  exact congrArg _ (commit_idle hbuf)

/-- So one that changes its tile and its context. -/
theorem finishHold_setTile_setCx {s : State} {c : Ctx} (hbuf : c.buf = {}) (t : Nat) (T : Tile) :
    finishHold s none (.ok ((s.setTile t T).setCx c)) = .next ((s.setTile t T).setCx (issued c)) := by
  rw [finishHold_issued (cx_setCx ..) hbuf, setCx_setCx]

section
variable {s : State} {f : MR}

theorem holdStr_room (hstr : s.cx.str ≠ 4095) : holdStr f.gp s = none := by
  rw [holdStr, beq_false_of_ne hstr, Bool.and_false]
  rfl

theorem queueLoad_eq (slot op : Nat) (p : W64) (s : State) : queueLoad slot op p s =
    (s.setTile (s.cur / 2) { s.tile (s.cur / 2) with arr := { (s.arr (s.cur / 2)) with
      loads := (s.arr (s.cur / 2)).loads ++
        [{ slot := slot, ctx := s.cur, ptr := p, op := op, ctime := s.cx.ctime, pc := s.cx.pc, at_ := s.tick, iss := s.cx.iss }]
      imgs := mapPut slot { (s.arr (s.cur / 2)).img slot with inv := 0xFF } (s.arr (s.cur / 2)).imgs } }).setCx
    { s.cx with str := s.cx.str + 1 } := rfl

/-- R429: emptying the pinned files leaves the switch as it stands. -/
theorem dropPins_frame (t asid : Nat) (s : State) : (dropPins t asid s).cx = s.cx ∧ (dropPins t asid s).mem = s.mem ∧
    (dropPins t asid s).tick = s.tick ∧ (dropPins t asid s).cur = s.cur ∧
    ((dropPins t asid s).arr t).act = (s.arr t).act ∧ ((dropPins t asid s).arr t).imgs = (s.arr t).imgs := by
  rw [dropPins]
  dsimp only
  split
  · rw [State.arr, modTile_eq, tile_setTile_self, cx_setTile]
    exact ⟨rfl, rfl, rfl, rfl, rfl, rfl⟩
  · exact ⟨rfl, rfl, rfl, rfl, rfl, rfl⟩

theorem holdCfgact_ready (htarget : (s.arr (tileOf s.cur)).target = none)
    (hloads : ∀ l ∈ (s.arr (tileOf s.cur)).loads, l.slot ≠ actSlot f) (hneeds : s.actNeeds (actSlot f) = false) : holdCfgact f s = none := by
  have hany : (s.arr (tileOf s.cur)).loads.any (fun l => l.slot == actSlot f) = false := by
    simpa using hloads
  rw [holdCfgact, htarget, hany, hneeds]
  cases s.cx.guard f.gp <;> rfl

/-- R198, R246: the state in which the current context has begun a switch of tile t to image n. -/
def switchBegun (t n : Nat) (s : State) : State :=
  s.modArr t (fun a => { beginSwitch n s.tick (s.cx.cr 3) a with owner := some s.cur })

theorem opCfgact_invalid (hg : s.cx.guard f.gp = true) (hinv : ((s.arr (tileOf s.cur)).img (actSlot f)).inv ≠ 0) :
    opCfgact f s = trapM .illegalOp := by
  rw [opCfgact, guarded_on hg]
  exact if_pos hinv

theorem opCfgact_active (hg : s.cx.guard f.gp = true) (hinv : ((s.arr (tileOf s.cur)).img (actSlot f)).inv = 0)
    (hact : (s.arr (tileOf s.cur)).act = some (actSlot f)) : opCfgact f s = .ok s := by
  rw [opCfgact, guarded_on hg]
  exact (if_neg (not_not.mpr hinv)).trans (if_pos hact)

theorem opCfgact_begins (hg : s.cx.guard f.gp = true) (hinv : ((s.arr (tileOf s.cur)).img (actSlot f)).inv = 0)
    (hact : (s.arr (tileOf s.cur)).act ≠ some (actSlot f)) (hpwr : s.cx.pwr = .none) (hneeds : s.actNeeds (actSlot f) = false) :
    opCfgact f s = .ok (switchBegun (tileOf s.cur) (actSlot f) (dropPins (tileOf s.cur) s.cx.asid s)) := by
  rw [opCfgact, guarded_on hg]
  dsimp only
  rw [if_neg (not_not.mpr hinv), if_neg hact, hpwr, hneeds]
  rfl

end

/-- R237, R245, R246: what the loads and switches leave. -/
theorem configurationCommands : ConfigurationCommands := by
  intro s f hbuf hg c t T p trap load queued slot free
  have hload : exec (.swload f) s = finishHold s (holdStr f.gp s) (checkedOp (s.blobChk p 256 64 true)
      (.ok ((s.setTile t { T with tloads := T.tloads ++ [load 2 0x12] }).setCx { c with str := c.str + 1 }))) := by
    rw [exec_swload, execSwload, opSwload, guarded_on hg]
    rfl
  have hcfg : exec (.cfgload f) s = finishHold s (holdStr f.gp s) (checkedOp (s.blobChk p 2048 64 false)
      (if T.arr.act = some slot ∨ T.arr.target = some slot then trapM .cfgBusy else .ok (queueLoad slot 0x14 p s))) := by
    rw [exec_cfgload, execCfgload, opCfgload, guarded_on hg]
    rfl
  have hpref : exec (.cfgpref f) s = finishHold s (holdCfgpref f s) (checkedOp (s.blobChk p 2048 64 false)
      (.ok (if (T.arr.img free).src = some p ∧ (T.arr.img free).inv = 0 then s else queueLoad free 0x29 p s))) := by
    rw [exec_cfgpref, execCfgpref, opCfgpref, guarded_on hg]
    rfl
  have hqueued (slot op : Nat) : finishHold s none (.ok (queueLoad slot op p s)) = queued slot op := by
    rw [queueLoad_eq]
    refine finishHold_setTile_setCx ?_ _ _
    exact hbuf
  refine ⟨fun hstr => ?_, fun hhold => ?_, fun htarget hloads hpwr hneeds => ?_⟩
  · rw [holdStr_room hstr] at hload hcfg
    have hprefGo (htarget : T.arr.target = none) : holdCfgpref f s = none := by
      rw [holdCfgpref, beq_false_of_ne hstr, show (s.arr (tileOf s.cur)).target = none from htarget]
      simp
    refine ⟨fun x hx => ?_, fun x hx => ⟨?_, fun htarget => ?_⟩, fun hcs => ?_, fun hcs => ⟨fun hact htarget => ?_, fun hbusy => ?_,
      fun htarget => ⟨fun hsrc hvalid => ?_, fun hnew => ?_⟩⟩⟩
    · rw [hload, finishHold_checkedOp hx]
    · rw [hcfg, finishHold_checkedOp hx]
    · rw [hpref, hprefGo htarget, finishHold_checkedOp hx]
    · rw [hload, hcs]
      refine finishHold_setTile_setCx ?_ _ _
      exact hbuf
    · rw [hcfg, hcs, checkedOp_passed, if_neg (not_or.mpr ⟨hact, htarget⟩), hqueued]
    · rw [hcfg, hcs, checkedOp_passed, if_pos hbusy]
      rfl
    · rw [hpref, hprefGo htarget, hcs, checkedOp_passed, if_pos ⟨hsrc, hvalid⟩, finishHold_issued rfl hbuf]
      rfl
    · rw [hpref, hprefGo htarget, hcs, checkedOp_passed, if_neg hnew, hqueued]
  · have hact : exec (.swact f) s = finishHold s none
        (if !swTableOk T.pending then trapM .paramRange else .ok (s.setTile t { T with table := some T.pending })) := by
      rw [exec_swact, execSwact, hhold, opSwact, guarded_on hg]
      rfl
    refine ⟨fun hok => ?_, fun hbad => ?_⟩
    · rw [hact, hok]
      exact finishHold_issued rfl hbuf
    · rw [hact, hbad]
      rfl
  · have hexec : exec (.cfgact f) s = finishHold s none (opCfgact f s) := by
      rw [exec_cfgact, execCfgact, holdCfgact_ready htarget hloads hneeds]
    refine ⟨fun hinv => ?_, fun hinv => ⟨fun hsame => ?_, fun hother => ?_⟩⟩
    · rw [hexec, opCfgact_invalid hg hinv]
      rfl
    · rw [hexec, opCfgact_active hg hinv hsame, finishHold_issued rfl hbuf]
      rfl
    · obtain ⟨hcx, hmem, htick, hcur, hact, himgs⟩ := dropPins_frame t c.asid s
      let u := dropPins t c.asid s
      have hcx' : (switchBegun t slot u).cx = c := (cx_setTile ..).trans hcx
      have harr : (switchBegun t slot u).arr t = { beginSwitch slot u.tick (u.cx.cr 3) (u.arr t) with owner := some u.cur } :=
        arr_modArr_self ..
      rw [hexec, opCfgact_begins hg hinv hother hpwr hneeds]
      refine ⟨(switchBegun t slot u).setCx (issued c), finishHold_issued hcx' hbuf, ?_⟩
      have harr' : ((switchBegun t slot u).setCx (issued c)).arr t = _ := harr
      rw [harr', cx_setCx]
      exact ⟨rfl, hact, htick, congrArg some hcur, himgs, rfl, hmem⟩

/-! ### Groups and depths (R247, R249, R250) -/

section
variable {s : State} {f : MR} {i : Nat}

theorem holdAfire_full (hg : s.cx.guard f.gp = true) (hcur : (s.arr (tileOf s.cur)).current = some i)
    (hfull : 15 ≤ ((s.arr (tileOf s.cur)).runq i (fireGrp f)).length ∨ s.cx.arr = 4095) : holdAfire f s = some s := by
  rw [holdAfire, hcur, hg]
  exact if_pos (by simpa using hfull)

theorem holdAfire_room (hruns : ∀ j, (s.arr (tileOf s.cur)).current = some j → ((s.arr (tileOf s.cur)).runq j (fireGrp f)).length < 15)
    (hclass : s.cx.arr ≠ 4095) : holdAfire f s = none := by
  rw [holdAfire]
  refine if_neg ?_
  cases hcur : (s.arr (tileOf s.cur)).current with
  | none => simp [hclass]
  | some j => simpa [hclass] using fun _ => hruns j hcur

/-- R185, R247: arming a group of the current image. -/
theorem arr_armGroup {t g n op ctime iss : Nat} {pc : W64} (hcur : (s.arr t).current = some i) :
    (armGroup t g n op ctime iss pc s).arr t = (s.arr t).setRuns i g
      ((s.arr t).runq i g ++ [{ ctx := n, op := op, ctime := ctime, pc := pc, iss := iss, after := s.tick }]) := by
  rw [armGroup, arr_modArr_self, hcur]
  rfl

theorem runs_flushPort (tick i k : Nat) (a : Arr) : (flushPort tick i k a).runs = a.runs := by
  rw [flushPort]
  split <;> rfl

theorem runs_flushPorts (tick i : Nat) (l : List Nat) (a : Arr) : (l.foldl (fun a k => flushPort tick i k a) a).runs = a.runs := by
  induction l generalizing a with
  | nil => rfl
  | cons k l ih => rw [List.foldl_cons, ih, runs_flushPort]

theorem runq_setRuns (a : Arr) (i g : Nat) (l : List ArmedRun) : (a.setRuns i g l).runq i g = l := mapGet_mapPut_self ..

/-- The runs of a list leave the array-group class: the arrays and memory stand. -/
theorem uncountArrs_frame (t : Nat) (l : List ArmedRun) (s : State) :
    (l.foldl (fun s r => uncountArr r.ctx s) s).arr t = s.arr t ∧ (l.foldl (fun s r => uncountArr r.ctx s) s).mem = s.mem := by
  induction l generalizing s with
  | nil => exact ⟨rfl, rfl⟩
  | cons r l ih =>
    obtain ⟨harr, hmem⟩ := ih (uncountArr r.ctx s)
    exact ⟨harr.trans (arr_modCtx ..), hmem⟩

/-- R249: the state in which the runs of group g that have not begun are gone, and the one in progress ends on NULs. -/
def flushed (i g : Nat) (s : State) : State :=
  let q := (s.arr (tileOf s.cur)).runq i g
  let run := q.filter (fun r => r.begun.isSome)
  let u := (q.filter (fun r => r.begun.isNone)).foldl (fun s r => uncountArr r.ctx s) s
  u.modArr (tileOf s.cur) (fun a =>
    let a := a.setRuns i g (run.map (fun r => { r with lost := false, flushed := r.lost }))
    if run.isEmpty then a.noteLast u.tick else (groupIns (a.img i).raw g).foldl (fun a k => flushPort u.tick i k a) a)

theorem runq_flushed (i g : Nat) (s : State) : ((flushed i g s).arr (tileOf s.cur)).runq i g =
    (((s.arr (tileOf s.cur)).runq i g).filter (fun r => r.begun.isSome)).map (fun r => { r with lost := false, flushed := r.lost }) := by
  rw [flushed]
  dsimp only
  rw [arr_modArr_self]
  split
  · rw [Arr.runq, runs_noteLast]
    exact runq_setRuns ..
  · rw [Arr.runq, runs_flushPorts]
    exact runq_setRuns ..

theorem mem_flushed (i g : Nat) (s : State) : (flushed i g s).mem = s.mem := (uncountArrs_frame 0 _ s).2

theorem opAflush_ok (hg : s.cx.guard f.gp = true) (hok : s.groupOk (fireGrp f) = true) (hcur : (s.arr (tileOf s.cur)).current = some i) :
    opAflush f s = .ok (flushed i (fireGrp f) s) := by
  rw [opAflush, guarded_on hg, hok]
  dsimp only
  rw [hcur]
  rfl

theorem holdAdepth_switching (hg : s.cx.guard f.gp = true) (htarget : (s.arr (tileOf s.cur)).target.isSome = true) : holdAdepth f s = some s := by
  rw [holdAdepth, hg, htarget]
  rfl

theorem holdAdepth_ready (htarget : (s.arr (tileOf s.cur)).target = none) : holdAdepth f s = none := by
  rw [holdAdepth, htarget, Option.isSome_none, Bool.and_false]
  rfl

/-- R250: the depths of the edges of PE p of image i, and its DELAY, once edge k has depth d. -/
def depthPool (a : Arr) (i p k d : Nat) : Nat :=
  ((List.range 4).map (fun j => if j = k then d else (a.edge i p j).newest)).sum +
    (if opOP (imgOp (a.img i).raw p) = oDELAY then opCNT (imgOp (a.img i).raw p) else 0)

/-- R200: the edge k of PE p of image i with a depth marker behind what is in its queue. -/
def deepened (a : Arr) (i p k d tick : Nat) : Arr :=
  a.setEdge i p k { a.edge i p k with q := (a.edge i p k).q ++ [{ ready := tick, tok := none, img := i, depth := d }] }

theorem opAdepth_inactive (hg : s.cx.guard f.gp = true) (hact : (s.arr (tileOf s.cur)).act = none) : opAdepth f s = trapM .paramRange := by
  rw [opAdepth, guarded_on hg]
  dsimp only
  rw [hact]

/-- R200, R250: a depth goes down an edge of the active image where the edge stands and the pool of its PE holds it. -/
theorem opAdepth_active (hg : s.cx.guard f.gp = true) (hact : (s.arr (tileOf s.cur)).act = some i) {w p k d : Nat}
    (hw : immUM f.imm f.ext = w) (hp : w % 64 = p) (hk : w / 64 % 4 = k) (hd : w / 256 % 128 = d) :
    opAdepth f s =
      if edKind (imgEdge ((s.arr (tileOf s.cur)).img i).raw p k) = 0 ∨ d = 0 ∨ 64 < d ∨ 64 < depthPool (s.arr (tileOf s.cur)) i p k d
      then trapM .paramRange else .ok (s.modArr (tileOf s.cur) (deepened · i p k d s.tick)) := by
  have hp' : bitsOf w 5 0 = p := (bitsOf_low w 5).trans hp
  have hk' : bitsOf w 7 6 = k := hk
  have hd' : bitsOf w 14 8 = d := hd
  rw [opAdepth, guarded_on hg, immU_eq_immUM, hw]
  dsimp only
  rw [hact, hp', hk', hd', depthPool, List.sum_eq_foldl, List.foldl_map]
  rfl

end

/-- R247, R249 and AFLUSH leave of a group. -/
theorem arrayGroupCommands : ArrayGroupCommands := by
  intro s f i hbuf hg c t a g trap w pe k d
  have hfire : exec (.afire f) s = finishHold s (holdAfire f s) (opAfire f s) := rfl
  have hflush : exec (.aflush f) s = finish s (opAflush f s) := rfl
  have hdepth : exec (.adepth f) s = finishHold s (holdAdepth f s) (opAdepth f s) := rfl
  refine ⟨fun hok hcur => ⟨fun hroom hclass => ?_, fun hfull => ?_, ?_⟩, fun hbad => ⟨fun hclass hroom => ?_, ?_⟩, fun htarget => ?_,
    fun htarget => ⟨fun hnone => ?_, fun hact => ?_⟩⟩
  · have hhold : holdAfire f s = none := by
      refine holdAfire_room (fun j hj => ?_) hclass
      obtain rfl : i = j := Option.some.inj (hcur.symm.trans hj)
      exact hroom
    let u := armGroup t g s.cur 0x16 c.ctime c.iss c.pc (s.setCx { c with arr := c.arr + 1 })
    have hop : opAfire f s = .ok u := by
      rw [opAfire, guarded_on hg, show s.groupOk (fireGrp f) = true from hok]
      rfl
    have hcx : u.cx = { c with arr := c.arr + 1 } := (cx_setTile ..).trans (cx_setCx ..)
    rw [hfire, hhold, hop]
    refine ⟨_, finishHold_issued hcx hbuf, cx_setCx .., rfl, ?_⟩
    exact arr_armGroup (s := s.setCx { c with arr := c.arr + 1 }) hcur
  · rw [hfire, holdAfire_full hg hcur hfull]
    rfl
  · rw [hflush, opAflush_ok hg hok hcur]
    exact ⟨_, rfl, mem_flushed .., runq_flushed ..⟩
  · rw [hfire, holdAfire_room hroom hclass, opAfire, guarded_on hg, show s.groupOk (fireGrp f) = false from hbad]
    rfl
  · rw [hflush, opAflush, guarded_on hg, show s.groupOk (fireGrp f) = false from hbad]
    rfl
  · rw [hdepth, holdAdepth_switching hg htarget]
    rfl
  · rw [hdepth, holdAdepth_ready htarget, opAdepth_inactive hg hnone]
    rfl
  · intro raw pool ok
    have hok : (edKind (imgEdge raw pe k) = 0 ∨ d = 0 ∨ 64 < d ∨ 64 < pool) ↔ ¬ ok := by
      simp only [ok]
      omega
    have hop : opAdepth f s = if edKind (imgEdge raw pe k) = 0 ∨ d = 0 ∨ 64 < d ∨ 64 < pool then trapM .paramRange
        else .ok (s.modArr t (deepened · i pe k d s.tick)) := opAdepth_active hg hact rfl rfl rfl rfl
    rw [hdepth, holdAdepth_ready htarget, hop]
    refine ⟨fun hgo => ?_, fun hbad => ?_⟩
    · rw [if_neg (fun h => hok.mp h hgo)]
      exact ⟨_, finishHold_issued (cx_setTile ..) hbuf, cx_setCx .., rfl, arr_modArr_self s t (deepened · i pe k d s.tick)⟩
    · rw [if_pos (hok.mpr hbad)]
      rfl

/-- Settles O21: what the commands that load, switch and fire ports, images and groups leave. -/
theorem configurationAndArrayCommands : Obligations.ConfigurationAndArrayCommands := ⟨configurationCommands, arrayGroupCommands⟩

end Sys2Proof.Laws

/-! ## Stream commands as they start and move their blocks (R215, R222 to R232, R242, R293) -/

namespace Sys2Proof.Laws
open Sys2Proof.Machine

/-! ### Handles whose head goes on -/

theorem setHandle_setHandle (c : Ctx) (h : Nat) (H K : Handle) : (c.setHandle h H).setHandle h K = c.setHandle h K := by
  simp only [Ctx.setHandle, mapPut_mapPut]

theorem handle_setHead {s : State} {x h : Nat} {k : Cmd} {rest : List Cmd} (k' : Cmd) (hcmds : ((s.ctx x).handle h).cmds = k :: rest) :
    ((setHead x h k' s).ctx x).handle h = { (s.ctx x).handle h with cmds := k' :: rest } := by
  simp only [setHead, modCtx_eq, ctx_setCtx_self, handle_setHandle_self, hcmds]

/-! ### STREAM_START (R215, R293) -/

/-- The heads of a tile that run. -/
def runningHeads (s : State) (x : Nat) : Nat := ((s.heads (x / 2)).filter (fun e => e.2.2.started && !e.2.2.idle)).length

section
variable {s : State} {k : Cmd} {rest : List Cmd}

theorem startable_iff {x : Nat} : s.startable x k = true ↔
    (k.started = false ∨ k.idle = true) ∧ k.faulted = false ∧ k.fin = false ∧ s.engineOn x = true ∧ s.behind x k.iss = false := by
  simp [State.startable, Cmd.running, and_assoc]

/-- A head that may not start, or finds no place, is left. -/
theorem exec_streamStart_waits (hcmds : (s.cx.handle s.sub).cmds = k :: rest)
    (hheld : s.startable s.cur k = false ∨ 16 ≤ runningHeads s s.cur) : exec .streamStart s = .next s := by
  have hhead : s.head s.cur s.sub = some k := head_of_cmds hcmds
  rw [exec_streamStart, execStreamStart]
  dsimp only
  rw [hhead]
  refine if_pos ?_
  rw [Bool.or_eq_true, Bool.or_eq_true, Bool.not_eq_true', decide_eq_true_eq]
  exact .inl hheld

/-- R215: the oldest head that may start, where a place is free. -/
theorem exec_streamStart_starts (hcmds : (s.cx.handle s.sub).cmds = k :: rest) (hstart : s.startable s.cur k = true)
    (hfree : runningHeads s s.cur < 16) (hold : ∀ e ∈ s.heads (s.cur / 2), s.startable e.1 e.2.2 = true → k.seq ≤ e.2.2.seq)
    (hop : k.started = false → k.op ≠ 0x24) :
    exec .streamStart s = .next (if k.started then setHead s.cur s.sub { k with idle := false } s
      else (setHead s.cur s.sub { k with started := true, posted := none } s).modCtx s.cur (fun c =>
        c.setHandle s.sub { c.handle s.sub with op := k.op, done := 0, cancelled := false })) := by
  have hhead : s.head s.cur s.sub = some k := head_of_cmds hcmds
  have hplace : ¬ 16 ≤ ((s.heads (tileOf s.cur)).filter (fun e => e.2.2.running)).length := Nat.not_le.mpr hfree
  have holdest : (s.heads (tileOf s.cur)).any (fun e => s.startable e.1 e.2.2 && decide (e.2.2.seq < k.seq)) = false := by
    simp only [List.any_eq_false, Bool.and_eq_true, decide_eq_true_eq, not_and, Nat.not_lt]
    exact hold
  rw [exec_streamStart, execStreamStart]
  dsimp only
  rw [hhead]
  dsimp only
  rw [hstart, holdest, decide_eq_false hplace]
  cases hs : k.started with
  | true => rfl
  | false =>
    rw [if_neg (hop hs), if_neg (hop hs)]
    rfl

end

/-- R215, R293: which head starts, and which is held. -/
theorem streamsStart : StreamsStart := by
  intro s k rest x H hs busy hcmds hfaulted hfin hon
  have hcmds' : ((s.ctx x).handle s.sub).cmds = k :: rest := hcmds
  refine ⟨fun hbehind hbusy hold => ?_, fun hheld => exec_streamStart_waits hcmds ?_⟩
  · have hrun (hready : k.started = false ∨ k.idle = true) (hop : k.started = false → k.op ≠ 0x24) := by
      refine exec_streamStart_starts hcmds (startable_iff.mpr ⟨hready, hfaulted, hfin, hon, hbehind⟩) hbusy (fun e he hstart => ?_) hop
      obtain ⟨hwaits, hsound, hgoes, hengine, hfirst⟩ := startable_iff.mp hstart
      exact hold e he hwaits hsound hgoes hengine hfirst
    refine ⟨fun hstarted hop => ?_, fun hstarted hidle => ?_⟩
    · have hexec := hrun (.inl hstarted) fun _ => hop
      rw [if_neg (ne_true_of_eq_false hstarted)] at hexec
      refine ⟨_, hexec, rfl, ?_⟩
      rw [State.cx, modCtx_eq, setCtx_cur]
      show ((State.setCtx _ x _).ctx x).handle s.sub = _
      rw [ctx_setCtx_self, handle_setHandle_self, handle_setHead _ hcmds']
      rfl
    · have hexec := hrun (.inr hidle) fun h => absurd (h.symm.trans hstarted) Bool.false_ne_true
      rw [if_pos hstarted] at hexec
      refine ⟨_, hexec, rfl, ?_⟩
      exact handle_setHead _ hcmds'
  · refine hheld.symm.imp (fun hbehind => Bool.eq_false_iff.mpr fun hstart => ?_) id
    obtain ⟨-, -, -, -, hfirst⟩ := startable_iff.mp hstart
    exact absurd (hfirst.symm.trans hbehind) Bool.false_ne_true

/-! ### What a block leaves of its command (R244) -/

/-- The context in which the head of handle h goes on as k', with DONE and flags. -/
def progressed (h : Nat) (k' : Cmd) (flags : Nat) (c : Ctx) : Ctx :=
  let H := c.handle h
  c.setHandle h { H with
    cmds := match H.cmds with | _ :: rest => { k' with few := [], sent := none } :: rest | [] => []
    done := k'.k, flags := H.flags ||| flags }

theorem progress_eq (x h : Nat) (k' : Cmd) (flags : Nat) (s : State) :
    progress x h k' k'.k flags s = s.setCtx x (progressed h k' flags (s.ctx x)) := by
  have hdone : setDone x h k'.k (setHead x h { k' with few := [], sent := none } s) =
      s.setCtx x (progressed h k' 0 (s.ctx x)) := by
    simp only [setDone, setHead, modCtx_eq, ctx_setCtx_self, setCtx_setCtx, handle_setHandle_self, setHandle_setHandle, progressed,
      Nat.or_zero] <;> rfl
  rw [progress, hdone, orHandleFlags]
  split
  · next h0 => rw [h0]
  · simp only [modCtx_eq, ctx_setCtx_self, setCtx_setCtx, handle_setHandle_self, setHandle_setHandle, progressed, Nat.or_zero]

theorem progress_frame (x h : Nat) (k' : Cmd) (flags : Nat) (s : State) :
    (progress x h k' k'.k flags s).mem = s.mem ∧ (∀ t, (progress x h k' k'.k flags s).arr t = s.arr t) ∧
    (∀ p, (progress x h k' k'.k flags s).pad p = s.pad p) := by
  rw [progress_eq]
  exact ⟨rfl, fun _ => rfl, fun _ => rfl⟩

/-- A block whose tokens and words are in the state `u` leaves its command as it goes on. -/
theorem moved_progress {s u : State} {x h : Nat} {k : Cmd} {rest : List Cmd} (hx : s.cur = x) (hcur : u.cur = s.cur)
    (hctx : u.ctx s.cur = s.cx) (hcmds : (s.cx.handle h).cmds = k :: rest) (k' : Cmd) (flags : Nat) :
    Moved s (progress x h k' k'.k flags u) h k' flags := by
  subst hx
  have hnow : (progress s.cur h k' k'.k flags u).cx = progressed h k' flags s.cx := by
    rw [progress_eq, State.cx, setCtx_cur, hcur, ctx_setCtx_self, hctx]
  rw [Moved, hnow, progressed, hcmds, handle_setHandle_self]
  exact ⟨rfl, rfl, rfl⟩

/-! ### The blocks of the commands, by their opcodes -/

section
variable {s : State} {k : Cmd} {rest : List Cmd}
variable (hcmds : (s.cx.handle s.sub).cmds = k :: rest) (hstarted : k.started = true) (hidle : k.idle = false) (hfaulted : k.faulted = false)
  (hfin : k.fin = false) (hon : s.engineOn s.cur = true) (hdrain : k.op ≠ 0x1C)
include hcmds hstarted hidle hfaulted hfin hon hdrain

/-- R242: a command marked by SCANCEL ends. -/
theorem elementBlock_cancelled (hcancel : k.cancel = true) : exec .elementBlockTransfer s = .next (endCut s.cur s.sub k s) := by
  have hhead : s.head s.cur s.sub = some k := head_of_cmds hcmds
  simp [execElementBlockTransfer, hhead, Cmd.running, hstarted, hidle, hfaulted, hfin, hon, hdrain, hcancel]

/-- R224, R229, R232: the block of a command that nothing holds. -/
theorem elementBlock_moves (hcancel : k.cancel = false) (hbars : k.bars = []) (hretry : k.retry = false) :
    ∃ s', exec .elementBlockTransfer s = .next s' ∧
      (k.op = 0x05 → k.fn / 8 % 4 = 0 → s' = readToPort s.cur s.sub k s) ∧
      (k.op = 0x06 → s' = writeFromPort s.cur s.sub k s) ∧
      (k.op = 0x09 → s' = recTok s.cur s.sub k s) ∧
      (k.op = 0x0F → k.total ≠ some k.k → s' = sfillBlock s.cur s.sub k s) := by
  have hhead : s.head s.cur s.sub = some k := head_of_cmds hcmds
  simp only [exec_elementBlockTransfer, execElementBlockTransfer, hhead, Cmd.running, hstarted, hidle, hfaulted, hfin, hon, hcancel, hbars,
    beq_false_of_ne hdrain, resuming, hretry, walkingAgain, Bool.not_false, Bool.not_true, Bool.and_self, Bool.and_false, Bool.or_self,
    Bool.true_or, List.all_nil, Bool.false_eq_true, if_false, Host.Outcome.next.injEq, exists_eq_left']
  refine ⟨fun hop hfn => ?_, fun hop => ?_, fun hop => ?_, fun hop htotal => ?_⟩
  · rw [hop]
    exact if_pos hfn
  · rw [hop]
    rfl
  · rw [hop]
    rfl
  · rw [hop]
    exact if_neg htotal

end

/-- What SCANCEL's mark leaves of a running command. -/
theorem endCut_leaves {s : State} {x h : Nat} {k : Cmd} {rest : List Cmd} (hcmds : ((s.ctx x).handle h).cmds = k :: rest) :
    (((endCut x h k s).ctx x).handle h).cmds = rest ∧ (((endCut x h k s).ctx x).handle h).cancelled = true ∧
    (endCut x h k s).mem = s.mem ∧ (endCut x h k s).cur = s.cur := by
  have hleft := (uncounts_uncount x k s).leaveNet (clOf x) (x * 16 + h)
  refine ⟨?_, ?_, hleft.mem, hleft.cur⟩
  all_goals rw [endCut, modCtx_eq, ctx_setCtx_self, handle_setHandle_self]
  rw [hleft.ctx, handle_uncounted, hcmds, List.drop_one, List.tail_cons]

/-! ### Helpers of the blocks that do nothing for a plain command -/

section
variable {k : Cmd} (hind : k.op ≠ 0x07) (hindw : k.op ≠ 0x08)
include hind hindw

theorem withIdx_plain (x h n : Nat) (look : Bool) (s : State) : withIdx x h n look k s = (.ok k, s) := by
  rw [withIdx, if_neg (not_or.mpr ⟨hind, hindw⟩)]

theorem trim_plain {k' : Cmd} (hop : k'.op = k.op) : k'.trim = k' := by
  rw [Cmd.trim, hop, if_neg (not_or.mpr ⟨hind, hindw⟩)]

theorem ptr_affine (hswin : k.op ≠ 0x0A) (w e : Nat) : k.ptr w e = some (k.base + BitVec.ofInt 64 (affOff k.ps e)) := by
  rw [Cmd.ptr, if_neg (not_or.mpr ⟨hind, hindw⟩), if_neg hswin]

end

theorem mcArrive_plain {k : Cmd} (hop : k.op ≠ 0x0B) (x h : Nat) (ready : Bool) (s : State) : mcArrive x h k ready s = (k, s) := by
  rw [mcArrive]
  exact if_pos (.inl hop)

/-- A token of a command for its own tile. -/
theorem putTok_own {k : Cmd} (hop : k.op ≠ 0x0B) (t : Nat) (tok : Tok) (scale : Option Nat) (s : State) :
    putTok k t tok scale s = s.modArr t (fun a => a.inPut s.tick k.port tok scale) := by
  rw [putTok, Cmd.targets, if_neg hop]
  rfl

/-- A block of at least one element: a token has one lane at least. -/
theorem blockLen_pos {w T n : Nat} (h : n < T) : min (shLanes w) (T - n) ≠ 0 := by
  rw [shLanes]
  omega

/-! ### Ports as a token enters or leaves (R180, R225) -/

theorem inq_inPut (a : Arr) (tick k : Nat) (t : Tok) (scale : Option Nat) :
    (a.inPut tick k t scale).inq k = a.inq k ++ [a.written tick t] := mapGet_mapPut_self ..

theorem bandq_inPut (a : Arr) (tick k : Nat) (t : Tok) (sc : List Nat) : (a.inPut tick k t sc.head?).bandq k = a.bandq k ++
    (match sc with | b :: _ => [a.written tick (mkTok tyW8 [b] false)] | [] => []) := by
  cases sc with
  | nil => exact (List.append_nil _).symm
  | cons b _ => exact mapGet_mapPut_self ..

theorem outq_outTake (a : Arr) (k : Nat) : (a.outTake k).outq k = (a.outq k).drop 1 := mapGet_mapPut_self ..

theorem cur_modArr (s : State) (t : Nat) (g : Arr → Arr) : (s.modArr t g).cur = s.cur := rfl

theorem ctx_modArr (s : State) (t n : Nat) (g : Arr → Arr) : (s.modArr t g).ctx n = s.ctx n := ctx_setTile ..

/-- The state in which the head of output port p of tile t is taken, noted where the tile is saved (R423). -/
def taken (t p : Nat) (s : State) : State := touchSaves t (s.modArr t (fun a => a.outTake p))

theorem touchSaves_frame (t : Nat) (s : State) : (touchSaves t s).cur = s.cur ∧ ∀ n, (touchSaves t s).ctx n = s.ctx n := by
  rw [touchSaves]
  split
  · exact ⟨rfl, fun _ => rfl⟩
  · exact ⟨rfl, fun _ => rfl⟩

theorem taken_frame (s : State) (t p : Nat) : (taken t p s).mem = s.mem ∧ ((taken t p s).arr t).outq p = ((s.arr t).outq p).drop 1 ∧
    (taken t p s).cur = s.cur ∧ ∀ n, (taken t p s).ctx n = s.ctx n := by
  obtain ⟨hcur, hctx⟩ := touchSaves_frame t (s.modArr t (fun a => a.outTake p))
  refine ⟨mem_touchSaves .., ?_, hcur, hctx⟩
  rw [taken, arr_touchSaves, arr_modArr_self]
  exact outq_outTake ..

theorem some_beq_some (T n : Nat) : (some T == some n) = decide (n = T) := by
  rw [Bool.eq_iff_iff, beq_iff_eq, Option.some_inj, decide_eq_true_eq, eq_comm]

theorem total_open {T n : Nat} (h : n < T) : some T ≠ some n := fun heq => absurd (Option.some.inj heq) (Nat.ne_of_gt h)

theorem cmds_cx_setHead {u : State} {x h : Nat} {k : Cmd} {rest : List Cmd} (hcur : u.cur = x) (k' : Cmd)
    (hcmds : ((u.ctx x).handle h).cmds = k :: rest) : ((setHead x h k' u).cx.handle h).cmds = k' :: rest := by
  subst hcur
  exact cmds_setHead k' hcmds

/-! ### SAFF (R224, R225) -/

/-- The scale bytes that a block of n elements begins. -/
theorem scalePtr_plain {k : Cmd} (hswin : k.op ≠ 0x0A) (hcast : k.op ≠ 0x0B) (n : Nat) : k.scalePtr n =
    if shScal (pw k.ps 0) = true then ((List.range n).filter (fun i => (k.k + i) % 128 == 0)).map (fun i =>
      (k.ps[4]?).getD 0 + BitVec.ofNat 64 ((k.k + i) / 128)) else [] :=
  if_congr (by simp [hswin, hcast]) rfl rfl

section
variable {s s1 : State} {k : Cmd} {x h T : Nat}

/-- The token of a block of n codes of type tty, of L lanes, the last one of its command or not. -/
def blockTok (tty L n : Nat) (cs : List Coded) (last : Bool) : Tok :=
  mkTok tty (cs.map (·.1) ++ List.replicate (L - n) (padCode tty)) last

/-- A SAFF after a block of n elements. -/
def readOn (k : Cmd) (T n tick : Nat) : Cmd :=
  { k with k := k.k + n, fin := decide (k.k + n = T) && k.endMode != 2, at_ := tick + 2 }

/-- R224, R225: a block of SAFF that is read leaves its token at its port. -/
theorem readToPort_moves {l : List (Option (Nat × Nat))} {sc : List Nat} (hop : k.op = 0x05) (htotal : k.total = some T) (hmore : k.k < T)
    {n : Nat} (hn : n = min (shLanes (pw k.ps 0)) (T - k.k)) {scales : List W64} (hscales : k.scalePtr n = scales)
    (hread : readElems x h k.fe k.zskip (shMty (pw k.ps 0)) ((span k.k n).map (k.ptr (s.baseWidth x k))) scales (setHead x h k s) =
      (.ok (l, sc), s1))
    (hput : (setHead x h k s).canPut k (tileOf x) (!scales.isEmpty) = true) :
    readToPort x h k s =
      let cs := toCodes k (s1.srkey x) (shTty (pw k.ps 0)) k.k l
      let tok := blockTok (shTty (pw k.ps 0)) (shLanes (pw k.ps 0)) n cs (decide (k.k + n = T) && k.endMode == 1)
      progress x h (readOn k T n s1.tick) (k.k + n) (flagsOf cs) (s1.modArr (tileOf x) (fun a => a.inPut s1.tick k.port tok sc.head?)) := by
  have hcast : k.op ≠ 0x0B := by rw [hop]; decide
  have hpos : n ≠ 0 := hn ▸ blockLen_pos hmore
  have hind : k.op ≠ 0x07 := by rw [hop]; decide
  have hindw : k.op ≠ 0x08 := by rw [hop]; decide
  have hnocast : (k.op = 0x0B) = False := eq_false hcast
  simp only [readToPort, withIdx_plain hind hindw, htotal, ← hn, if_neg hpos, hnocast, decide_false, Bool.false_and,
    mcArrive_plain hcast, hscales, hput, hread, Bool.not_true, Bool.false_eq_true, if_false, putTok_own hcast, some_beq_some]
  rw [trim_plain hind hindw ?_, readOn, htotal]
  · rfl
  · rfl

end

/-! ### SREC (R229) -/

section
variable {s : State} {k : Cmd} {x h : Nat} {tok : Tok}

/-- A SREC after a token of some lanes. -/
def recOn (k : Cmd) (lanes tick : Nat) : Cmd :=
  { k with j := k.j + 1, k := k.k + lanes, fin := decide (k.j + 1 = k.total.getD 0) && k.endMode != 2, at_ := tick + 2 }

/-- The state in which a token has gone from the output port of a SREC of tile t to its input port. -/
def recMoved (s : State) (k : Cmd) (t : Nat) (tok : Tok) : State :=
  (s.modArr t (fun a => a.outTake k.aux)).modArr t (fun a => a.inPut s.tick k.port
    { tok with last := tok.last || (decide (k.j + 1 = k.total.getD 0) && k.endMode == 1) } none)

theorem arr_recMoved (s : State) (k : Cmd) (t : Nat) (tok : Tok) : (recMoved s k t tok).arr t = ((s.arr t).outTake k.aux).inPut s.tick k.port
    { tok with last := tok.last || (decide (k.j + 1 = k.total.getD 0) && k.endMode == 1) } none := by
  rw [recMoved, arr_modArr_self, arr_modArr_self]

/-- R229: a token that SREC moves leaves its output port for its input port. -/
theorem recTok_moves (hop : k.op = 0x09) (hzskip : k.zskip = false) (hmore : k.j < k.total.getD 0)
    (hput : s.canPut k (tileOf x) false = true) (hturn : s.outTurn k (tileOf x) k.aux = true)
    (htok : (s.arr (tileOf x)).outHead k.aux = some tok) :
    recTok x h k s = progress x h (recOn k tok.n s.tick) (k.k + tok.n) 0 (recMoved s k (tileOf x) tok) := by
  have hcast : k.op ≠ 0x0B := by rw [hop]; decide
  have hsome : (k.total.getD 0 == 0) = false := beq_false_of_ne (Nat.ne_of_gt (Nat.zero_lt_of_lt hmore))
  simp only [recTok, hsome, Bool.false_and, Bool.false_eq_true, if_false, hput, Bool.not_true, hzskip, false_and, if_pos hmore, hturn, htok,
    putTok_own hcast]
  rfl

/-! ### SAFFW (R224, R225) -/

variable {T : Nat}

theorem idxDry_plain (hindw : k.op ≠ 0x08) : s.idxDry x k = false := by
  rw [State.idxDry]
  simp [hindw]

/-- R224: a NUL that SAFFW meets is taken. -/
theorem writeFromPort_nul (hop : k.op = 0x06) (htotal : k.total = some T) (hmore : k.k < T)
    (hturn : s.outTurn k (tileOf x) k.port = true) (hfrozen : s.arrFrozen (tileOf x) = false)
    (htok : (s.arr (tileOf x)).outHead k.port = some tok) (hnul : tok.nul = true) :
    writeFromPort x h k s = setHead x h { k with fin := tok.last, at_ := s.tick }
      (taken (tileOf x) k.port s) := by
  simp only [writeFromPort, htotal, if_neg (total_open hmore), idxDry_plain (s := s) (x := x) (show k.op ≠ 0x08 by rw [hop]; decide), hturn, hfrozen, htok, hnul]
  rw [← htotal]
  rfl

/-- R225: the scale bytes that a block of SAFFW writes, from a token of a SCALED port. -/
theorem writeScales {d : Nat} {n : Nat} (hop : k.op = 0x06) :
    (if poScaled d then (k.scalePtr n).map (fun p => (p, [BitVec.ofNat 8 tok.sc])) else []) =
    if shScal (pw k.ps 0) = true ∧ poScaled d = true then ((List.range n).filter (fun i => (k.k + i) % 128 == 0)).map (fun i =>
      ((k.ps[4]?).getD 0 + BitVec.ofNat 64 ((k.k + i) / 128), [BitVec.ofNat 8 tok.sc])) else [] := by
  rw [scalePtr_plain (by rw [hop]; decide) (by rw [hop]; decide)]
  cases hscal : shScal (pw k.ps 0) <;> cases hport : poScaled d
  case true.true => simp only [true_and, if_true, List.map_map]; rfl
  all_goals rfl

/-- The writes of a block of n elements of SAFFW from a token's lanes. -/
def laneWrites (s : State) (x : Nat) (k : Cmd) (tok : Tok) (n : Nat) : List (Wr × Nat) :=
  (List.range n).map (fun i => writeElem s x (shMty (pw k.ps 0)) (shTty (pw k.ps 0))
    (k.base + BitVec.ofInt 64 (affOff k.ps (k.k + i))) (k.rnd (s.srkey x) (k.k + i)) (lane (tyWidth (shTty (pw k.ps 0))) i tok.data))

/-- A SAFFW after a block of n elements. -/
def writtenOn (k : Cmd) (tok : Tok) (T n tick : Nat) : Cmd :=
  { k with k := k.k + n, fin := tok.last || decide (k.k + n = T), at_ := tick }

/-- R224, R225: a block of SAFFW that is written takes its token. -/
theorem writeFromPort_moves {s1 : State} {u : Unit} (hop : k.op = 0x06) (htotal : k.total = some T) (hmore : k.k < T)
    (hturn : s.outTurn k (tileOf x) k.port = true) (hfrozen : s.arrFrozen (tileOf x) = false)
    (htok : (s.arr (tileOf x)).outHead k.port = some tok) (hnul : tok.nul = false)
    {n : Nat} (hn : n = min (shLanes (pw k.ps 0)) (T - k.k)) {scales : List Wr}
    (hscales : (if poScaled ((s.arr (tileOf x)).port (16 + k.port)) then (k.scalePtr n).map (fun p => (p, [BitVec.ofNat 8 tok.sc])) else []) =
      scales)
    (hwrite : writeBlock x h k.fe ((laneWrites s x k tok n).map (·.1) ++ scales) s = (.ok u, s1)) :
    writeFromPort x h k s = progress x h (writtenOn k tok T n s1.tick) (k.k + n)
      ((laneWrites s x k tok n).foldl (fun a e => a ||| e.2) 0)
      (taken (tileOf x) k.port s1) := by
  have hpos : n ≠ 0 := hn ▸ blockLen_pos hmore
  have hind : k.op ≠ 0x07 := by rw [hop]; decide
  have hindw : k.op ≠ 0x08 := by rw [hop]; decide
  have hswin : k.op ≠ 0x0A := by rw [hop]; decide
  rw [laneWrites] at hwrite
  simp only [writeFromPort, htotal, if_neg (total_open hmore), idxDry_plain (s := s) (x := x) hindw, hturn, hfrozen, htok, hnul, Bool.not_true, Bool.or_self,
    Bool.false_eq_true, if_false, withIdx_plain hind hindw, ptr_affine hind hindw hswin, Option.getD_some, ← hn, if_neg hpos, hscales,
    hwrite, some_beq_some]
  rw [trim_plain hind hindw ?_, writtenOn, htotal]
  · rfl
  · rfl

/-! ### SFILL (R232) -/

/-- The writes of a block of 64 elements of SFILL. -/
def fillWrites (s : State) (x : Nat) (k : Cmd) : List (Wr × Nat) :=
  (span k.k 64).map (fun e =>
    let p := (k.ptr (s.baseWidth x k) e).getD 0
    let mf := s.mfAt x p (shMty (pw k.ps 0))
    let c := fillCode k mf (k.rnd (s.srkey x) e)
    ((p, natToBytes c.1 (tyBytes mf)), c.2))

/-- R232: a block of SFILL that is written, with elements left. -/
theorem sfillBlock_moves {s1 : State} {u : Unit} (hfin : k.fin = false) (htotal : k.total = some T) (hmore : k.k + 64 < T)
    (hwrite : writeBlock x h k.fe ((fillWrites s x k).map (·.1)) s = (.ok u, s1)) :
    sfillBlock x h k s = progress x h { k with k := k.k + 64, at_ := s1.tick } (k.k + 64)
      ((fillWrites s x k).foldl (fun a e => a ||| e.2) 0) s1 := by
  have hlen : min 64 (T - k.k) = 64 := by omega
  have hleft : decide (k.k + 64 = T) = false := decide_eq_false (Nat.ne_of_lt hmore)
  rw [fillWrites] at hwrite
  simp only [sfillBlock, htotal, Option.getD_some, hlen, hwrite, some_beq_some, hleft, Bool.false_eq_true, if_false]
  rw [← hfin, ← htotal]
  rfl

end

/-! ### One block of each command (R224 to R227, R229, R232, R242) -/

/-- R224 to R227, R229, R232, R242: what a block of each of the four commands leaves, and SCANCEL's mark. -/
theorem elementBlocks : ElementBlocks := by
  intro s k rest x t h w T hcmds hstarted hidle hfaulted hfin hon hdrain
  refine ⟨fun hcancel => ?_, fun hcancel hbars hretry => ?_⟩
  · obtain ⟨hrest, hmark, hmem, hcur⟩ := endCut_leaves (s := s) hcmds
    refine ⟨_, elementBlock_cancelled hcmds hstarted hidle hfaulted hfin hon hdrain hcancel, ?_, ?_, hmem⟩
    · rw [State.cx, hcur]
      exact hrest
    · rw [State.cx, hcur]
      exact hmark
  obtain ⟨s', hexec, hread, hwrite, hrec, hfill⟩ := elementBlock_moves hcmds hstarted hidle hfaulted hfin hon hdrain hcancel hbars hretry
  refine ⟨?_, ?_, ?_, ?_⟩
  · intro s1 l sc hop hfn htotal hmore n bw scales hblock hcur hcmds1 hput cs tok
    have hscales : k.scalePtr n = scales := scalePtr_plain (by rw [hop]; decide) (by rw [hop]; decide) n
    obtain rfl := (hread hop hfn).trans (readToPort_moves hop htotal hmore rfl hscales hblock hput)
    obtain ⟨hmem, harr, -⟩ := progress_frame x h (readOn k T n s1.tick) (flagsOf cs)
      (s1.modArr t (fun a => a.inPut s1.tick k.port tok sc.head?))
    have hmoved : Moved s1 _ h (readOn k T n s1.tick) (flagsOf cs) :=
      moved_progress (u := s1.modArr t (fun a => a.inPut s1.tick k.port tok sc.head?)) hcur (cur_modArr ..) (ctx_modArr ..) hcmds1 _ _
    refine ⟨_, hexec, ?_, ?_, hmoved, hmem⟩
    · exact (congrArg (Arr.inq · k.port) ((harr t).trans (arr_modArr_self ..))).trans (inq_inPut ..)
    · exact (congrArg (Arr.bandq · k.port) ((harr t).trans (arr_modArr_self ..))).trans (bandq_inPut ..)
  · intro tok hop hzskip hmore hput hturn htok
    obtain rfl := (hrec hop).trans (recTok_moves hop hzskip hmore hput hturn htok)
    obtain ⟨hmem, harr, -⟩ := progress_frame x h (recOn k tok.n s.tick) 0 (recMoved s k t tok)
    refine ⟨_, hexec, hmem, ?_, ?_, moved_progress rfl rfl rfl hcmds (recOn k tok.n s.tick) 0⟩
    · exact (congrArg (Arr.outq · k.aux) ((harr t).trans (arr_recMoved ..))).trans (outq_outTake ..)
    · exact (congrArg (Arr.inq · k.port) ((harr t).trans (arr_recMoved ..))).trans (inq_inPut ..)
  · intro s1 u tok hop htotal hmore hturn hfrozen htok
    refine ⟨fun hnul => ?_, ?_⟩
    · obtain rfl := (hwrite hop).trans (writeFromPort_nul hop htotal hmore hturn hfrozen htok hnul)
      obtain ⟨hmem, houtq, hcur, hctx⟩ := taken_frame s t k.port
      refine ⟨_, hexec, hmem, houtq, ?_⟩
      exact cmds_cx_setHead hcur _ (by rw [hctx]; exact hcmds)
    · intro n ws scales hnul hpos hblock hcur hcmds1
      obtain rfl := (hwrite hop).trans (writeFromPort_moves hop htotal hmore hturn hfrozen htok hnul rfl (writeScales hop) hblock)
      obtain ⟨hmem', houtq, hcur', hctx⟩ := taken_frame s1 t k.port
      obtain ⟨hmem, harr, -⟩ := progress_frame x h (writtenOn k tok T n s1.tick) (ws.foldl (fun a e => a ||| e.2) 0) (taken t k.port s1)
      refine ⟨_, hexec, hmem.trans hmem', (congrArg (Arr.outq · k.port) (harr t)).trans houtq,
        moved_progress hcur hcur' (hctx _) hcmds1 (writtenOn k tok T n s1.tick) _⟩
  · intro s1 u hop htotal hmore bw ws hblock hcur hcmds1
    have hopen : k.total ≠ some k.k := htotal ▸ total_open (by omega)
    obtain rfl := (hfill hop hopen).trans (sfillBlock_moves hfin htotal hmore hblock)
    obtain ⟨hmem, -, hpad⟩ := progress_frame x h { k with k := k.k + 64, at_ := s1.tick } (ws.foldl (fun a e => a ||| e.2) 0) s1
    exact ⟨_, hexec, hmem, hpad, moved_progress hcur rfl rfl hcmds1 { k with k := k.k + 64, at_ := s1.tick } _⟩

/-- Settles O32: how stream commands start and move their blocks. -/
theorem streamTransfers : Obligations.StreamTransfers := ⟨streamsStart, elementBlocks⟩

end Sys2Proof.Laws
